-- ==== Sys2Proof/Word.lean ====
section
/-! DEFINITION. Word.lean: the words of the machine (R6, R53, R77) and the sparse tables that hold many like things. -/

namespace Sys2Proof

/-- One byte. -/
abbrev Byte := BitVec 8
/-- The 64-bit word of general registers, masks, counters and addresses (R77). -/
abbrev Word := BitVec 64
/-- An instruction word (R53). -/
abbrev IWord := BitVec 32
/-- A general-register field, g0–g63 (R56). -/
abbrev GReg := BitVec 6
/-- A vector-register field, v0–v31 (R56). -/
abbrev VReg := BitVec 5
/-- A mask-register field, m0–m7 (R56). -/
abbrev MReg := BitVec 3

/-- A sparse table: pairs of a key and a value, keys rising; what an unlisted key holds is said where the
table is read. -/
abbrev Table (α : Type) := List (Nat × α)

/-- The three scopes of releases and acquires: tile, chip, domain (R71). -/
inductive Scope where
  | tile | chip | domain
  deriving DecidableEq, Repr

end Sys2Proof
end

