-- ==== Sys2Proof/Machine/Msg.lean ====
section
/-! DEFINITION. Machine/Msg.lean: what travels between the parts of the device and between chips: addresses
resolved to places, landing addresses, envelopes, in-flight messages and link packets. Plain data only. -/

namespace Sys2Proof.Machine

/-- A landing address taken apart (R76). -/
structure LandAddr where
  chip  : BitVec 11
  die   : BitVec 1
  tile  : BitVec 8
  core  : BitVec 5
  frame : BitVec 8
  gen   : BitVec 8
  cls   : BitVec 2
  reg   : BitVec 6
  elem  : BitVec 3
  ctr   : BitVec 2
  deriving DecidableEq, Repr

/-- Where a checked and translated access goes (R201, R202, R341). Tile keys are die × 176 + tile, core keys
tile key × 32 + core, frame keys core key × 256 + frame. -/
inductive Place where
  /-- own chip's device memory at a physical address -/
  | dev (pa : Nat)
  /-- a peer chip's device memory -/
  | peer (chip : BitVec 11) (pa : Nat)
  /-- host memory -/
  | host (addr : Nat)
  /-- a byte of a tile's scratchpad banks: tile key, offset 0x0000_0000–0x002F_FFFF -/
  | bank (tile off : Nat)
  /-- a byte of a core's local scratchpad: core key, offset -/
  | sram (core off : Nat)
  /-- a byte of a frame image: frame key, offset (service mode) -/
  | image (frame off : Nat)
  /-- a register row of the tile window: tile key, offset (service mode) -/
  | win (tile off : Nat)
  /-- the capability region, as a task reads it in or outside service mode (R511) -/
  | cap (off : Nat) (svc : Bool)
  /-- a frame counter, by landing address (R341) -/
  | frameCtr (la : LandAddr)
  /-- the storage of a latch side as scrubbing meets it (R507): a word of elements, 8 × row + word, or a scale byte, 4 × row + byte; no
  address names it -/
  | latch (tile : Nat) (sideB second scale : Bool) (idx : Nat)
  deriving DecidableEq, Repr

/-- The identity of a task wherever it runs: chip, origin frame key and generation (R455). -/
structure TaskId where
  chip : BitVec 11
  key  : Nat
  gen  : BitVec 8
  deriving DecidableEq, Repr

/-- A write on its way to its home: its number, and the numbers of the writes that happen before it (R364, R365). -/
structure WNo where
  id    : Nat := 0
  knows : List Nat := []
  deriving DecidableEq, Repr

/-- What an add to a counter releases (R354, R355): its scope, where the releasing party lies, and the writes that happen before
it. -/
structure Rel where
  scope : Scope
  chip  : BitVec 11
  tile  : Option Nat
  knows : List Nat
  deriving DecidableEq, Repr

/-- Who gets the acknowledgement or refusal of an operation. -/
inductive Sender where
  /-- journal entry of a core of a chip (R214) -/
  | core (chip : BitVec 11) (core : Nat) (entry : Nat)
  /-- envelope of a LAUNCH: chip of the front end, command id and index (R117) -/
  | front (chip : BitVec 11) (cmd : Nat) (idx : Nat)
  /-- array envelope: tile key, accumulator, row (R300) -/
  | array (tile : Nat) (acc : BitVec 2) (row : Nat)
  /-- a die's pager notification (R447) -/
  | die (die : Nat)
  /-- a segment of an engine command, by the chip of the engine and the command's handle (R330) -/
  | engine (chip : BitVec 11) (handle : Word) (seg : Nat)
  /-- nobody: stolen envelopes and device reports -/
  | nobody
  deriving DecidableEq, Repr

/-- An envelope: eight words and what the device records with it (R127, R130, R300). -/
structure Env where
  hdr    : Word
  w1     : Word
  pl     : List Word
  sender : Sender
  task   : Option TaskId
  job    : BitVec 12
  /-- release scope of the sending form (R132) -/
  rel    : Option Scope
  /-- the sender was in service mode (R134) -/
  svc    : Bool
  /-- group and version stamp of a `sendg` copy (R161) -/
  stamp  : Option (Nat × BitVec 16)
  /-- drained row: tile key, accumulator, row, drain number, user word (R300) -/
  row    : Option (Nat × BitVec 2 × Nat × BitVec 32 × Word)
  /-- priority carried by a stolen envelope (R152) -/
  stolen : Option Nat
  /-- bounces of an envelope that no journal entry counts, and the cycle of its next try (R136) -/
  bounces : Nat := 0
  due     : Nat := 0
  /-- the writes that happen before the sending (R132, R364) -/
  knows   : List Nat := []
  deriving DecidableEq, Repr

/-- The register a reply fills. -/
inductive Dst where
  | none
  | g (n : BitVec 6)
  | v (n : BitVec 5) (e : BitVec 3)
  /-- the fetch buffer of the task: chip × 2^52 + physical address of the doubleword -/
  | code (pa : Nat)
  /-- source data of an engine command: its handle, and segment × 2^64 + chip × 2^52 + physical address -/
  | engine (handle : Word) (key : Nat)
  deriving DecidableEq, Repr

/-- What a reply carries: a value, or an error cause that lands as poison (R211). -/
inductive Res where
  | ok (w : Word)
  | err (cause : Byte)
  deriving DecidableEq, Repr

/-- What made an add to a counter (R353). -/
inductive Adder where
  /-- posted add of a journal entry; the acknowledgement frees it -/
  | posted (from_ : Sender)
  /-- value-returning `cfadd` -/
  | value (who : TaskId) (dst : Dst)
  /-- count of a `pst` store, whose entry waits for it -/
  | pst (from_ : Sender)
  /-- engine segment or undelivered count of the command with this handle at an engine of a chip -/
  | engine (chip : BitVec 11) (handle : Word)
  /-- SIGNAL of the front end of a chip -/
  | front (chip : BitVec 11) (cmd : Nat)
  deriving DecidableEq, Repr

/-- The waiter registered by a `cwait` or by the front end. The ticket tells one issue of a `cwait` from a later one, so
that a wake whose wait was withdrawn is discarded (R347). -/
inductive Waiter where
  | task (who : TaskId) (scope : Scope) (dst : Dst) (ticket : Nat)
  | front (chip : BitVec 11) (cmd : Nat)
  deriving DecidableEq, Repr

/-- Observations that register nothing (R351, R352). -/
inductive ObsKind where
  | poll (scope : Option Scope)
  | read
  | set
  deriving DecidableEq, Repr

/-- The operations of a data atomic (R72). -/
inductive AmoOp where
  | add | and | or | xor | min | max | minu | maxu | swap | cas | incw | addb | fadd
  deriving DecidableEq, Repr

/-- Bytes of an `xcopyg` segment for the member tiles of another chip (R322, R398): handle, the segment of the first of those tiles,
group, version and offset; `tile` once the chip has replicated them for its members (R161). `part` says of which half of a side-band
segment they are, and how long that half is; `cmd` gives the command's bytes and its block (R326, R328). -/
structure Copy where
  handle : Word
  seg    : Nat
  tile   : Option Nat := none
  g      : Nat
  ver    : BitVec 16
  svc    : Bool
  off    : Nat
  bytes  : List Byte
  part   : Option (Bool × Nat)
  cmd    : Nat × Nat := (0, 0)
  knows  : List Nat := []
  deriving DecidableEq, Repr

/-- One half of a side-band segment (R326): its label, and the writes it performs at its destination tile; of a half from
another chip also that chip, the job, the seqs that its performance acknowledges, and the bytes and the block of its command (R328,
R420). -/
structure Half where
  dest   : Nat
  handle : Word
  seg    : Nat
  scale  : Bool
  len    : Nat
  since  : Nat
  writes : List (Place × List Byte)
  origin : Option (BitVec 11 × BitVec 12 × List (BitVec 48)) := none
  cmd    : Nat × Nat := (0, 0)
  knows  : List Nat := []
  deriving DecidableEq, Repr

/-- Front ends that carry out a LOAD together (R24): the loading chip sends the file and the placement in parts of at most 64
bytes, the group entries with their versions and the generations of pinned frames, and asks for one stage after the other; the
other chip answers with its free entries, its pinned frames and the end of each stage. -/
inductive LoadMsg where
  | bytes (bs : List Byte)
  | group (n : Nat) (ver : BitVec 16)
  /-- a pinned frame of a core, with the generation that the load gives it (R32) -/
  | pin (chip : BitVec 11) (core frame : Nat) (gen : BitVec 8)
  /-- carry out a stage; with it come the length of the file, the image base and the first page of the writable sections -/
  | step (k flen base page0 : Nat)
  /-- a free group entry of a chip, the version that it holds, and whether an older one still drains (R37) -/
  | entry (chip : BitVec 11) (n : Nat) (cur : Option (BitVec 16)) (busy : Bool)
  /-- a chip has ended a stage, with the code of R52 or 0 -/
  | done (chip : BitVec 11) (k code : Nat)
  /-- a chip could not check the request for a stage: it holds no key of the job (R24, R415) -/
  | refused (chip : BitVec 11) (k : Nat)
  /-- the load is rejected: nothing of it stays (R51) -/
  | undo
  deriving DecidableEq, Repr

/-- A message in flight on the chip. -/
inductive Msg where
  /-- a load, vector element or status read on its way to its home, and the writes that happen before it (R366) -/
  | read (who : TaskId) (job : BitVec 12) (p : Place) (size : Nat) (dst : Dst) (knows : List Nat := [])
  /-- the reply of a long-latency producer; `acq` is the scope that a reached `cpoll.a` acquires at, with the releases it
  observed, `see` the seeing accumulator it counts in (R502) -/
  | reply (who : TaskId) (dst : Dst) (val : Res) (acq : Option (Scope × List Rel)) (see : Option Nat)
  /-- a request of the task left the chip and is not answered yet; `acq` if the answer may acquire -/
  | remote (who : TaskId) (dst : Dst) (acq : Bool)
  /-- a posted store; `ctr` is the counter of a `pst` -/
  | store (from_ : Sender) (who : TaskId) (job : BitVec 12) (p : Place) (bytes : List Byte) (pst : Bool) (ctr : Option Place)
    (w : WNo := {})
  /-- the read of an `lnd` -/
  | lndRead (from_ : Sender) (who : TaskId) (job : BitVec 12) (p : Place) (size : Nat) (la : LandAddr) (knows : List Nat := [])
  /-- a landing: one word or eight; an error lands as poison -/
  | landing (from_ : Sender) (who : TaskId) (job : BitVec 12) (la : LandAddr) (vals : List Word) (err : Option Byte)
  /-- an `lnd` whose read is under way at a peer chip: its landing is not applied yet (R222) -/
  | away (from_ : Sender) (who : TaskId) (la : LandAddr)
  | ack (dest : Sender) (see : Option Nat)
  /-- refusal or orphan: trap cause 0x06 or 0x0D, and the reason -/
  | refusal (dest : Sender) (cause reason : Byte)
  | deadRep (dest : Sender)
  /-- a wait on its way to its home; `poll` says when a waiter that found no room last read the counter (R345) -/
  | cwait (w : Waiter) (job : BitVec 12) (p : Place) (thr : Word) (poll : Option Nat)
  | add (by_ : Adder) (who : Option TaskId) (job : BitVec 12) (p : Place) (v : Word) (rel : Option Rel := none)
  | observe (who : TaskId) (job : BitVec 12) (p : Place) (kind : ObsKind) (b : Word) (dst : Dst)
  /-- waiters reached at a home with their jobs, to be sent one wake at a time, the value observed, and the releases before it
  (R346, R354) -/
  | toWake (ws : List (Waiter × BitVec 12)) (v : Word) (rels : List Rel := [])
  /-- a wake on its way to its frame or to the front end -/
  | wake (w : Waiter) (val : Res) (rels : List Rel := [])
  /-- `from_` is the journal entry of a posted atomic -/
  | atomic (from_ : Option Sender) (who : TaskId) (job : BitVec 12) (p : Place) (dbl : Bool) (op : AmoOp) (v d : Word) (dst : Dst)
    (w : WNo := {})
  | env (e : Env)
  /-- one multicast packet on its way to a chip, not replicated there yet (R161) -/
  | group (e : Env)
  /-- a bounced envelope on its way back to its journal entry at another chip (R136) -/
  | bounce (dest : Sender) (e : Env)
  /-- an envelope that was accepted, and fails, on its way back to its sender: cause 0x06 or 0x0D (R143) -/
  | late (e : Env) (cause : Byte)
  /-- a packet was replicated into this many further copies, whose acceptances the entry waits for (R131) -/
  | more (dest : Sender) (job : BitVec 12) (n : Nat)
  | engQuery (who : TaskId) (job : BitVec 12) (handle : Word) (cancel : Bool) (dst : Dst)
  /-- steal request: thief core key, its mask of classes, its job -/
  | stealReq (thief victim : Nat) (classes : BitVec 16) (job : BitVec 12)
  | stealAns (thief : Nat) (e : Option Env)
  /-- retirement notice of a frame that ended away from its origin (R464) -/
  | notice (origin : Nat) (gen : BitVec 8)
  /-- a side-band half on its way to the destination tile's pairing unit -/
  | half (h : Half)
  /-- bytes of an `xcopyg` segment from another chip, for all its member tiles or for one, held until this chip holds the version and
  the bank is awake (R161, R208, R322): sender chip, its stream's seq, job -/
  | copies (src : BitVec 11) (seq : BitVec 48) (job : BitVec 12) (c : Copy)
  /-- an add of an engine command was made at its counter's home (R332) -/
  | tally (handle : Word) (n : Nat)
  /-- set by an invalidation: the messages before it were in flight when it removed its entries (R449) -/
  | marker (who : TaskId)
  /-- what the front ends of a placement's chips tell each other of a LOAD of a job that a chip leads (R24, R37) -/
  | loadPart (job : BitVec 12) (lead : BitVec 11) (m : LoadMsg)
  /-- a die's report of a fatal fault to the front end: job, cause and image address of the frame (R433) -/
  | fatal (job : BitVec 12) (cause : Byte) (image : Option (BitVec 64))
  /-- bytes of an `xcopyg` segment were refused at a chip, for one member tile or for all (R330) -/
  | copyRefused (handle : Word) (seg : Nat) (from_ : BitVec 11) (tile : Option Nat) (cause : Byte)
  /-- a half found no room at a tile of a chip: its engine sends it again (R327) -/
  | halfBack (handle : Word) (seg : Nat) (from_ : BitVec 11) (job : BitVec 12) (scale : Bool)
  /-- the wait of a task is withdrawn from the tables of its counter's home (R347) -/
  | unwait (who : TaskId) (job : BitVec 12) (p : Place)
  deriving DecidableEq, Repr

/-- What a link packet carries besides its header. The payload layout is the device's own; the model carries
the message itself. `sealed` names the key the packet was tagged under. -/
inductive Body where
  | msg (m : Msg)
  /-- kind 7: bytes of an engine write and the segment they belong to -/
  | bulk (handle : Word) (seg : Nat) (pa : Nat) (bytes : List Byte) (knows : List Nat := [])
  /-- kind 7: bytes for a member tile of a version (R322) -/
  | multi (c : Copy)
  /-- kind 9: next expected ordered seq, bulk base and bitmap of the stream -/
  | acks (next base : BitVec 48) (bitmap : BitVec 1024)
  /-- kind 10 (R513) -/
  | withdrawn
  deriving DecidableEq, Repr

/-- A link packet (R405). -/
structure Packet where
  dest : BitVec 11
  src  : BitVec 11
  job  : BitVec 12
  bulk : Bool
  kind : BitVec 4
  seq  : BitVec 48
  rly  : Bool
  lack : BitVec 15
  lseq : BitVec 15
  /-- the CRC-32 of the physical layer holds (R406) -/
  crc  : Bool
  /-- the key under which the packet was encrypted and tagged (R414) -/
  key  : BitVec 256
  body : Body
  /-- the model's own: its place in the order in which packets became ready (R421), and that a circuit gave it back (R406, R418) -/
  made : Nat := 0
  back : Bool := false
  /-- a packet that a relay refused: it counts as not sent, but has taken its seq (R412) -/
  placed : Bool := false
  deriving DecidableEq, Repr

/-- How a host's request arrives: the port, the selective IDE stream that carries it, if one does, and its T bit (R490). -/
structure Via where
  port   : Bool
  stream : Option Nat := none
  tbit   : Bool := false
  deriving DecidableEq, Repr

/-- A boot stage as the boot finds it: its digest, the key and the signature that come with it, and its security version (R476). -/
structure BootStage where
  digest  : BitVec 512
  key     : BitVec 1064
  sig     : List Byte
  version : Nat
  deriving DecidableEq, Repr

/-- What FINISH proves: the MAC over the handshake, and the requester's signature if it authenticates with a key (R478). -/
structure Proof where
  mac : BitVec 512
  sig : List Byte
  deriving DecidableEq, Repr

/-- Where a register that has no behaviour of its own is written (R8). -/
inductive RegAt where
  /-- a register row of the tile window: tile key, offset -/
  | window (tile off : Nat)
  /-- the control window of a host port: offset and size of the access (R108) -/
  | control (via : Via) (off size : Nat)
  deriving DecidableEq, Repr

/-- What a host does through the device-memory window (R122, R379). -/
inductive HostWr where
  | read
  | write (v : Word)
  /-- a FetchAdd AtomicOp -/
  | fetchAdd (v : Word)
  deriving DecidableEq, Repr

/-- What the outside world does that no row of the opcode table names (log 1). -/
inductive Input where
  /-- a host stores to its own memory: port, address -/
  | hostStore (port : Bool) (a : Nat) (bs : List Byte)
  /-- the host behind a port stops answering, or answers again (R111) -/
  | portState (port up : Bool)
  /-- a host reads the control window: offset and size (R108) -/
  | controlRead (via : Via) (off size : Nat)
  /-- the fabric manager loads an entry of the meeting table while the domain is formed: two chips, transit and port (R400) -/
  | meeting (a b : BitVec 11) (transit port : Nat)
  /-- the relay at the far end of a circuit refuses a packet at link level (R411, R412) -/
  | linkRefusal (port : Nat) (lseq : BitVec 15)
  /-- the fabric manager sets the relay quota of a job, in packets (R412) -/
  | relayQuota (job : BitVec 12) (n : Nat)
  /-- the sensors give new readings for PWRSTAT (R507, R512) -/
  | sensors (power : BitVec 16) (tj inlet : Byte)
  deriving DecidableEq, Repr

/-- The parts of the device whose clock, voltage or issue limit is throttled (R501). -/
structure ThrottlePlace where
  die  : BitVec 1
  /-- 0xFF for a whole die -/
  tile : BitVec 8
  qty  : BitVec 4
  deriving DecidableEq, Repr

end Sys2Proof.Machine
end

