-- ==== Sys2Proof/Syntax.lean ====
section
/-! DEFINITION. Syntax.lean: the instructions and events of the opcode table, one constructor per row. The fields
of an encoded row are the fields its encoding has (R55, R70–R75); the arguments of a row without an encoding say
which event it is: the message, core, tile, queue or command it concerns, or what the outside party supplies. -/

namespace Sys2Proof

open Sys2Proof.Machine

/-- Every row of the opcode table. -/
inductive Instr where
  /-- add (R186): Writes A + B to g d. -/
  | add (d : BitVec 6) (a : BitVec 6) (b : BitVec 6) (ka : Bool) (kb : Bool)
  /-- sub (R186): Writes A − B to g d. -/
  | sub (d : BitVec 6) (a : BitVec 6) (b : BitVec 6) (ka : Bool) (kb : Bool)
  /-- mul (R186): Writes the low 64 bits of A × B. -/
  | mul (d : BitVec 6) (a : BitVec 6) (b : BitVec 6) (ka : Bool) (kb : Bool)
  /-- mulh (R186): Writes the high 64 bits of the signed product. -/
  | mulh (d : BitVec 6) (a : BitVec 6) (b : BitVec 6) (ka : Bool) (kb : Bool)
  /-- mulhu (R186): Writes the high 64 bits of the unsigned product. -/
  | mulhu (d : BitVec 6) (a : BitVec 6) (b : BitVec 6) (ka : Bool) (kb : Bool)
  /-- div (R187): Signed division truncated toward zero, with fixed results for zero divisor and overflow. -/
  | div (d : BitVec 6) (a : BitVec 6) (b : BitVec 6) (ka : Bool) (kb : Bool)
  /-- divu (R187): Unsigned division, all ones on a zero divisor. -/
  | divu (d : BitVec 6) (a : BitVec 6) (b : BitVec 6) (ka : Bool) (kb : Bool)
  /-- rem (R187): Signed remainder with the sign of the dividend. -/
  | rem (d : BitVec 6) (a : BitVec 6) (b : BitVec 6) (ka : Bool) (kb : Bool)
  /-- remu (R187): Unsigned remainder, A on a zero divisor. -/
  | remu (d : BitVec 6) (a : BitVec 6) (b : BitVec 6) (ka : Bool) (kb : Bool)
  /-- and (R186): Writes A AND B. -/
  | and (d : BitVec 6) (a : BitVec 6) (b : BitVec 6) (ka : Bool) (kb : Bool)
  /-- or (R186): Writes A OR B. -/
  | or (d : BitVec 6) (a : BitVec 6) (b : BitVec 6) (ka : Bool) (kb : Bool)
  /-- xor (R186): Writes A XOR B. -/
  | xor (d : BitVec 6) (a : BitVec 6) (b : BitVec 6) (ka : Bool) (kb : Bool)
  /-- andn (R186): Writes A AND NOT B. -/
  | andn (d : BitVec 6) (a : BitVec 6) (b : BitVec 6) (ka : Bool) (kb : Bool)
  /-- shl (R186): Shifts A left by B[5:0]. -/
  | shl (d : BitVec 6) (a : BitVec 6) (b : BitVec 6) (ka : Bool) (kb : Bool)
  /-- shr (R186): Shifts A right by B[5:0], zero-filled. -/
  | shr (d : BitVec 6) (a : BitVec 6) (b : BitVec 6) (ka : Bool) (kb : Bool)
  /-- sar (R186): Shifts A right by B[5:0], sign-filled. -/
  | sar (d : BitVec 6) (a : BitVec 6) (b : BitVec 6) (ka : Bool) (kb : Bool)
  /-- min (R186): Writes the signed minimum of A and B. -/
  | min (d : BitVec 6) (a : BitVec 6) (b : BitVec 6) (ka : Bool) (kb : Bool)
  /-- max (R186): Writes the signed maximum of A and B. -/
  | max (d : BitVec 6) (a : BitVec 6) (b : BitVec 6) (ka : Bool) (kb : Bool)
  /-- minu (R186): Writes the unsigned minimum of A and B. -/
  | minu (d : BitVec 6) (a : BitVec 6) (b : BitVec 6) (ka : Bool) (kb : Bool)
  /-- maxu (R186): Writes the unsigned maximum of A and B. -/
  | maxu (d : BitVec 6) (a : BitVec 6) (b : BitVec 6) (ka : Bool) (kb : Bool)
  /-- seq (R186): Writes 1 if A equals B, else 0. -/
  | seq (d : BitVec 6) (a : BitVec 6) (b : BitVec 6) (ka : Bool) (kb : Bool)
  /-- sne (R186): Writes 1 if A differs from B, else 0. -/
  | sne (d : BitVec 6) (a : BitVec 6) (b : BitVec 6) (ka : Bool) (kb : Bool)
  /-- slt (R186): Writes 1 if A is signed-less than B. -/
  | slt (d : BitVec 6) (a : BitVec 6) (b : BitVec 6) (ka : Bool) (kb : Bool)
  /-- sltu (R186): Writes 1 if A is unsigned-less than B. -/
  | sltu (d : BitVec 6) (a : BitVec 6) (b : BitVec 6) (ka : Bool) (kb : Bool)
  /-- movz (R189): Writes A to g d if B is zero, otherwise leaves g d untouched. -/
  | movz (d : BitVec 6) (a : BitVec 6) (b : BitVec 6) (ka : Bool) (kb : Bool)
  /-- movn (R189): Writes A to g d if B is nonzero, otherwise leaves g d untouched. -/
  | movn (d : BitVec 6) (a : BitVec 6) (b : BitVec 6) (ka : Bool) (kb : Bool)
  /-- bfx (R188): Extracts a field of A selected by B, zero-extended. -/
  | bfx (d : BitVec 6) (a : BitVec 6) (b : BitVec 6) (ka : Bool) (kb : Bool)
  /-- bfxs (R188): Extracts a field of A selected by B, sign-extended. -/
  | bfxs (d : BitVec 6) (a : BitVec 6) (b : BitVec 6) (ka : Bool) (kb : Bool)
  /-- clz (R186): Counts leading zero bits of A. -/
  | clz (d : BitVec 6) (a : BitVec 6) (ka : Bool)
  /-- ctz (R186): Counts trailing zero bits of A. -/
  | ctz (d : BitVec 6) (a : BitVec 6) (ka : Bool)
  /-- popc (R186): Counts one bits of A. -/
  | popc (d : BitVec 6) (a : BitVec 6) (ka : Bool)
  /-- bswap (R186): Reverses the bytes of A. -/
  | bswap (d : BitVec 6) (a : BitVec 6) (ka : Bool)
  /-- addi (R190): Writes A plus the sign-extended immediate. -/
  | addi (d : BitVec 6) (a : BitVec 6) (ka : Bool) (i : BitVec 12)
  /-- andi (R190): Writes A AND the sign-extended immediate. -/
  | andi (d : BitVec 6) (a : BitVec 6) (ka : Bool) (i : BitVec 12)
  /-- shli (R191): Shifts A left by a constant count. -/
  | shli (d : BitVec 6) (a : BitVec 6) (ka : Bool) (c : BitVec 6)
  /-- shri (R191): Shifts A right by a constant count, zero-filled. -/
  | shri (d : BitVec 6) (a : BitVec 6) (ka : Bool) (c : BitVec 6)
  /-- sari (R191): Shifts A right by a constant count, sign-filled. -/
  | sari (d : BitVec 6) (a : BitVec 6) (ka : Bool) (c : BitVec 6)
  /-- roli (R191): Rotates A left by a constant count. -/
  | roli (d : BitVec 6) (a : BitVec 6) (ka : Bool) (c : BitVec 6)
  /-- li (R192): Writes the sign-extended 19-bit immediate to g d. -/
  | li (d : BitVec 6) (i : BitVec 19)
  /-- lim (R192): Replaces bits [37:19] of g d with the immediate. -/
  | lim (d : BitVec 6) (i : BitVec 19)
  /-- lih (R192): Replaces bits [56:38] of g d with the immediate and clears bits [63:57]. -/
  | lih (d : BitVec 6) (i : BitVec 19)
  /-- beq (R193): Branches when A equals B. -/
  | beq (a : BitVec 6) (b : BitVec 6) (o : BitVec 13)
  /-- bne (R193): Branches when A differs from B. -/
  | bne (a : BitVec 6) (b : BitVec 6) (o : BitVec 13)
  /-- blt (R193): Branches when A is signed-less than B. -/
  | blt (a : BitVec 6) (b : BitVec 6) (o : BitVec 13)
  /-- bge (R193): Branches when A is signed-greater or equal to B. -/
  | bge (a : BitVec 6) (b : BitVec 6) (o : BitVec 13)
  /-- bltu (R193): Branches when A is unsigned-less than B. -/
  | bltu (a : BitVec 6) (b : BitVec 6) (o : BitVec 13)
  /-- bgeu (R193): Branches when A is unsigned-greater or equal to B. -/
  | bgeu (a : BitVec 6) (b : BitVec 6) (o : BitVec 13)
  /-- jal (R194): Writes PC + 4 to lk and jumps PC-relative. -/
  | jal (o : BitVec 25)
  /-- jalr (R195): Jumps to A plus the immediate, writing the link to g d, with ALIGN on a misaligned target. -/
  | jalr (d : BitVec 6) (a : BitVec 6) (ka : Bool) (i : BitVec 12)
  /-- ld8 (R210): Loads one byte zero-extended into g d as a long-latency producer. -/
  | ld8 (d : BitVec 6) (a : BitVec 6) (ka : Bool) (i : BitVec 12)
  /-- ld16 (R210): Loads two bytes zero-extended into g d. -/
  | ld16 (d : BitVec 6) (a : BitVec 6) (ka : Bool) (i : BitVec 12)
  /-- ld32 (R210): Loads four bytes zero-extended into g d. -/
  | ld32 (d : BitVec 6) (a : BitVec 6) (ka : Bool) (i : BitVec 12)
  /-- ld64 (R210): Loads eight bytes into g d. -/
  | ld64 (d : BitVec 6) (a : BitVec 6) (ka : Bool) (i : BitVec 12)
  /-- st8 (R212): Stores one byte, locally or posted through the journal. -/
  | st8 (d : BitVec 6) (a : BitVec 6) (ka : Bool) (i : BitVec 12)
  /-- st16 (R212): Stores two bytes, locally or posted. -/
  | st16 (d : BitVec 6) (a : BitVec 6) (ka : Bool) (i : BitVec 12)
  /-- st32 (R212): Stores four bytes, locally or posted. -/
  | st32 (d : BitVec 6) (a : BitVec 6) (ka : Bool) (i : BitVec 12)
  /-- st64 (R212): Stores eight bytes, locally or posted. -/
  | st64 (d : BitVec 6) (a : BitVec 6) (ka : Bool) (i : BitVec 12)
  /-- lnd (R218): Reads 1–8 bytes at A and lands them in the register named by the landing address B. -/
  | lnd (a : BitVec 6) (b : BitVec 6) (ka : Bool) (kb : Bool) (s : BitVec 2)
  /-- lnd.v (R218): Reads 64 bytes at A and lands them in a whole vector register. -/
  | lndV (a : BitVec 6) (b : BitVec 6) (ka : Bool) (kb : Bool)
  /-- rput (R219): Sends g b as a landing to the address in g a. -/
  | rput (a : BitVec 6) (b : BitVec 6) (ka : Bool) (kb : Bool)
  /-- rput.v (R219): Sends the whole of v b as a landing. -/
  | rputV (a : BitVec 6) (b : BitVec 6) (ka : Bool) (kb : Bool)
  /-- pst (R225): Posts a store and adds its size to a counter once the store is performed. -/
  | pst (d : BitVec 6) (a : BitVec 6) (b : BitVec 6) (ka : Bool) (kb : Bool) (s : BitVec 2)
  /-- fence.p (R230): Blocks until every journal entry of the task is freed. -/
  | fenceP
  /-- fence.r (R231): Blocks until every earlier write of the task is performed at the scope. -/
  | fenceR (s : BitVec 2)
  /-- fence.a (R232): Widens the task's last acquire to the scope. -/
  | fenceA (s : BitVec 2)
  /-- pf (R229): Asks for a line to be brought into L1, tile store or home slice; never traps on the address. -/
  | pf (d : BitVec 6) (a : BitVec 6) (ka : Bool) (i : BitVec 12)
  /-- amo64.add (R357): Indivisibly applies add, and, or, xor, min, max, minu or maxu at the home and returns the old value. -/
  | amoAlu (w : Bool) (d : BitVec 6) (a : BitVec 6) (b : BitVec 6) (ka : Bool) (kb : Bool) (o : BitVec 3)
  /-- amo64.swap (R357): Indivisibly writes v and returns the old value. -/
  | amoSwap (w : Bool) (d : BitVec 6) (a : BitVec 6) (b : BitVec 6) (ka : Bool) (kb : Bool)
  /-- amo64.cas (R357): Writes v if the old value equals g d; returns the old value. -/
  | amoCas (w : Bool) (d : BitVec 6) (a : BitVec 6) (b : BitVec 6) (ka : Bool) (kb : Bool)
  /-- amo64.incw (R357): Increments with wrap to zero at the bound in g d. -/
  | amoIncw (w : Bool) (d : BitVec 6) (a : BitVec 6) (ka : Bool)
  /-- amo64.addb (R357): Adds v saturating at the bound in g d, writing nothing at or above the bound. -/
  | amoAddb (w : Bool) (d : BitVec 6) (a : BitVec 6) (b : BitVec 6) (ka : Bool) (kb : Bool)
  /-- amo32.fadd (R358): Adds a binary32 value at the home under RNE without flags. -/
  | amoFadd (d : BitVec 6) (a : BitVec 6) (b : BitVec 6) (ka : Bool) (kb : Bool)
  /-- cadd (R349): Posts an add to a counter, releasing first at the scope when sc is nonzero. -/
  | cadd (a : BitVec 6) (b : BitVec 6) (ka : Bool) (kb : Bool) (s : BitVec 2)
  /-- cfadd (R349): Adds to a counter and returns the value before the add. -/
  | cfadd (d : BitVec 6) (a : BitVec 6) (b : BitVec 6) (ka : Bool) (kb : Bool) (s : BitVec 2)
  /-- cwait (R350): Waits until the counter reaches the threshold, then acquires at the scope. -/
  | cwait (d : BitVec 6) (a : BitVec 6) (b : BitVec 6) (ka : Bool) (kb : Bool) (s : BitVec 2)
  /-- cpoll (R351): Observes the counter once, acquiring when reached for the .a forms. -/
  | cpoll (d : BitVec 6) (a : BitVec 6) (b : BitVec 6) (ka : Bool) (kb : Bool) (s : BitVec 2)
  /-- cread (R351): Observes the counter once without acquiring. -/
  | cread (d : BitVec 6) (a : BitVec 6) (ka : Bool)
  /-- cset (R352): Privileged: replaces a counter value when no waiter is registered. -/
  | cset (d : BitVec 6) (a : BitVec 6) (b : BitVec 6) (ka : Bool) (kb : Bool)
  /-- send (R130): Enters an envelope to a named core in the journal, releasing first for the .r forms. -/
  | send (d : BitVec 6) (a : BitVec 6) (b : BitVec 6) (ka : Bool) (kb : Bool) (s : BitVec 2)
  /-- sendg (R130): Enters a version-stamped multicast envelope to a group in the journal. -/
  | sendg (d : BitVec 6) (a : BitVec 6) (b : BitVec 6) (ka : Bool) (kb : Bool) (s : BitVec 2)
  /-- spawn (R130): Enters an envelope to the own core, releasing at tile scope. -/
  | spawn (d : BitVec 6) (a : BitVec 6) (b : BitVec 6) (ka : Bool) (kb : Bool)
  /-- bind (R141): Reads and checks a template, binds a class and releases its held envelopes. -/
  | bind (d : BitVec 6) (a : BitVec 6) (b : BitVec 6) (ka : Bool) (kb : Bool)
  /-- unbind (R141): Clears a class binding and returns whether it was bound. -/
  | unbind (d : BitVec 6) (a : BitVec 6) (ka : Bool)
  /-- clsmask (R141): Masks and unmasks classes and returns the old mask. -/
  | clsmask (d : BitVec 6) (a : BitVec 6) (b : BitVec 6) (ka : Bool) (kb : Bool)
  /-- arm.g (R155): Empties selected general registers and marks them live. -/
  | armG (a : BitVec 6) (ka : Bool)
  /-- arm.v (R155): Empties selected elements of selected vector registers and marks them live. -/
  | armV (a : BitVec 6) (b : BitVec 6) (ka : Bool) (kb : Bool)
  /-- arm.m (R155): Empties selected mask registers and marks them live. -/
  | armM (a : BitVec 6) (ka : Bool)
  /-- live (R155): Replaces the general, vector or mask live set. -/
  | live (a : BitVec 6) (ka : Bool) (t : BitVec 2)
  /-- myaddr (R75): Writes the landing address of one of the task's own registers or counters. -/
  | myaddr (d : BitVec 6) (a : BitVec 6) (c : BitVec 2) (s : BitVec 2) (e : BitVec 3)
  /-- yield (R155): Makes the context ready and lets others of its priority issue first. -/
  | yield
  /-- end (R156): Retires the task, discarding in-flight results and releasing lease, tags and waits. -/
  | endTask
  /-- rpt (R175): Captures a body of up to 16 words and issues it n times with staggered register fields. -/
  | rpt (sd : BitVec 3) (sa : BitVec 3) (sb : BitVec 3) (n : BitVec 8) (kb : BitVec 4)
  /-- fol (R177): Requests to follow a leader task's decoded stream. -/
  | fol (d : BitVec 6) (a : BitVec 6) (b : BitVec 6) (ka : Bool) (kb : Bool)
  /-- unfol (R180): Ends following, or releases the leader's stream channel. -/
  | unfol
  /-- vadd (R244): Lane-wise integer add modulo 2^w. -/
  | vadd (w : BitVec 2) (d : BitVec 5) (a : BitVec 5) (b : BitVec 5) (m : BitVec 3) (ka : Bool) (kb : Bool)
  /-- vsub (R244): Lane-wise integer subtract. -/
  | vsub (w : BitVec 2) (d : BitVec 5) (a : BitVec 5) (b : BitVec 5) (m : BitVec 3) (ka : Bool) (kb : Bool)
  /-- vmul (R244): Lane-wise low product. -/
  | vmul (w : BitVec 2) (d : BitVec 5) (a : BitVec 5) (b : BitVec 5) (m : BitVec 3) (ka : Bool) (kb : Bool)
  /-- vmulh (R244): Lane-wise signed high product. -/
  | vmulh (w : BitVec 2) (d : BitVec 5) (a : BitVec 5) (b : BitVec 5) (m : BitVec 3) (ka : Bool) (kb : Bool)
  /-- vmulhu (R244): Lane-wise unsigned high product. -/
  | vmulhu (w : BitVec 2) (d : BitVec 5) (a : BitVec 5) (b : BitVec 5) (m : BitVec 3) (ka : Bool) (kb : Bool)
  /-- vmin (R244): Lane-wise signed minimum. -/
  | vmin (w : BitVec 2) (d : BitVec 5) (a : BitVec 5) (b : BitVec 5) (m : BitVec 3) (ka : Bool) (kb : Bool)
  /-- vmax (R244): Lane-wise signed maximum. -/
  | vmax (w : BitVec 2) (d : BitVec 5) (a : BitVec 5) (b : BitVec 5) (m : BitVec 3) (ka : Bool) (kb : Bool)
  /-- vminu (R244): Lane-wise unsigned minimum. -/
  | vminu (w : BitVec 2) (d : BitVec 5) (a : BitVec 5) (b : BitVec 5) (m : BitVec 3) (ka : Bool) (kb : Bool)
  /-- vmaxu (R244): Lane-wise unsigned maximum. -/
  | vmaxu (w : BitVec 2) (d : BitVec 5) (a : BitVec 5) (b : BitVec 5) (m : BitVec 3) (ka : Bool) (kb : Bool)
  /-- vadds (R244): Lane-wise signed saturating add. -/
  | vadds (w : BitVec 2) (d : BitVec 5) (a : BitVec 5) (b : BitVec 5) (m : BitVec 3) (ka : Bool) (kb : Bool)
  /-- vaddsu (R244): Lane-wise unsigned saturating add. -/
  | vaddsu (w : BitVec 2) (d : BitVec 5) (a : BitVec 5) (b : BitVec 5) (m : BitVec 3) (ka : Bool) (kb : Bool)
  /-- vsubs (R244): Lane-wise signed saturating subtract. -/
  | vsubs (w : BitVec 2) (d : BitVec 5) (a : BitVec 5) (b : BitVec 5) (m : BitVec 3) (ka : Bool) (kb : Bool)
  /-- vsubsu (R244): Lane-wise unsigned saturating subtract. -/
  | vsubsu (w : BitVec 2) (d : BitVec 5) (a : BitVec 5) (b : BitVec 5) (m : BitVec 3) (ka : Bool) (kb : Bool)
  /-- vabs (R244): Lane-wise absolute value modulo 2^w. -/
  | vabs (w : BitVec 2) (d : BitVec 5) (a : BitVec 5) (m : BitVec 3) (ka : Bool)
  /-- vand (R245): Lane-wise AND. -/
  | vand (w : BitVec 2) (d : BitVec 5) (a : BitVec 5) (b : BitVec 5) (m : BitVec 3) (ka : Bool) (kb : Bool)
  /-- vor (R245): Lane-wise OR. -/
  | vor (w : BitVec 2) (d : BitVec 5) (a : BitVec 5) (b : BitVec 5) (m : BitVec 3) (ka : Bool) (kb : Bool)
  /-- vxor (R245): Lane-wise XOR. -/
  | vxor (w : BitVec 2) (d : BitVec 5) (a : BitVec 5) (b : BitVec 5) (m : BitVec 3) (ka : Bool) (kb : Bool)
  /-- vandn (R245): Lane-wise AND NOT. -/
  | vandn (w : BitVec 2) (d : BitVec 5) (a : BitVec 5) (b : BitVec 5) (m : BitVec 3) (ka : Bool) (kb : Bool)
  /-- vshl (R245): Lane-wise left shift. -/
  | vshl (w : BitVec 2) (d : BitVec 5) (a : BitVec 5) (b : BitVec 5) (m : BitVec 3) (ka : Bool) (kb : Bool)
  /-- vshr (R245): Lane-wise logical right shift. -/
  | vshr (w : BitVec 2) (d : BitVec 5) (a : BitVec 5) (b : BitVec 5) (m : BitVec 3) (ka : Bool) (kb : Bool)
  /-- vsar (R245): Lane-wise arithmetic right shift. -/
  | vsar (w : BitVec 2) (d : BitVec 5) (a : BitVec 5) (b : BitVec 5) (m : BitVec 3) (ka : Bool) (kb : Bool)
  /-- veq (R246): Writes a mask of lanes where A equals B. -/
  | veq (w : BitVec 2) (d : BitVec 3) (a : BitVec 5) (b : BitVec 5) (m : BitVec 3) (ka : Bool) (kb : Bool)
  /-- vne (R246): Writes a mask of lanes where A differs from B. -/
  | vne (w : BitVec 2) (d : BitVec 3) (a : BitVec 5) (b : BitVec 5) (m : BitVec 3) (ka : Bool) (kb : Bool)
  /-- vlt (R246): Writes a mask of signed less-than lanes. -/
  | vlt (w : BitVec 2) (d : BitVec 3) (a : BitVec 5) (b : BitVec 5) (m : BitVec 3) (ka : Bool) (kb : Bool)
  /-- vltu (R246): Writes a mask of unsigned less-than lanes. -/
  | vltu (w : BitVec 2) (d : BitVec 3) (a : BitVec 5) (b : BitVec 5) (m : BitVec 3) (ka : Bool) (kb : Bool)
  /-- vle (R246): Writes a mask of signed less-or-equal lanes. -/
  | vle (w : BitVec 2) (d : BitVec 3) (a : BitVec 5) (b : BitVec 5) (m : BitVec 3) (ka : Bool) (kb : Bool)
  /-- vleu (R246): Writes a mask of unsigned less-or-equal lanes. -/
  | vleu (w : BitVec 2) (d : BitVec 3) (a : BitVec 5) (b : BitVec 5) (m : BitVec 3) (ka : Bool) (kb : Bool)
  /-- vfadd (R247): Lane-wise IEEE add rounded under fcsr. -/
  | vfadd (w : BitVec 2) (d : BitVec 5) (a : BitVec 5) (b : BitVec 5) (m : BitVec 3) (q : Bool) (ka : Bool) (kb : Bool)
  /-- vfsub (R247): Lane-wise IEEE subtract. -/
  | vfsub (w : BitVec 2) (d : BitVec 5) (a : BitVec 5) (b : BitVec 5) (m : BitVec 3) (q : Bool) (ka : Bool) (kb : Bool)
  /-- vfmul (R247): Lane-wise IEEE multiply. -/
  | vfmul (w : BitVec 2) (d : BitVec 5) (a : BitVec 5) (b : BitVec 5) (m : BitVec 3) (q : Bool) (ka : Bool) (kb : Bool)
  /-- vfdiv (R247): Lane-wise IEEE divide. -/
  | vfdiv (w : BitVec 2) (d : BitVec 5) (a : BitVec 5) (b : BitVec 5) (m : BitVec 3) (q : Bool) (ka : Bool) (kb : Bool)
  /-- vfsqrt (R247): Lane-wise IEEE square root. -/
  | vfsqrt (w : BitVec 2) (d : BitVec 5) (a : BitVec 5) (m : BitVec 3) (q : Bool) (ka : Bool)
  /-- vfmin (R248): Lane-wise minimumNumber. -/
  | vfmin (w : BitVec 2) (d : BitVec 5) (a : BitVec 5) (b : BitVec 5) (m : BitVec 3) (q : Bool) (ka : Bool) (kb : Bool)
  /-- vfmax (R248): Lane-wise maximumNumber. -/
  | vfmax (w : BitVec 2) (d : BitVec 5) (a : BitVec 5) (b : BitVec 5) (m : BitVec 3) (q : Bool) (ka : Bool) (kb : Bool)
  /-- vfma (R247): Lane-wise fused A × B + C with one rounding. -/
  | vfma (w : BitVec 2) (d : BitVec 5) (a : BitVec 5) (b : BitVec 5) (m : BitVec 3) (q : Bool) (ka : Bool) (kb : Bool)
  /-- vfms (R247): Lane-wise fused A × B − C. -/
  | vfms (w : BitVec 2) (d : BitVec 5) (a : BitVec 5) (b : BitVec 5) (m : BitVec 3) (q : Bool) (ka : Bool) (kb : Bool)
  /-- vfnma (R247): Lane-wise fused −(A × B) + C. -/
  | vfnma (w : BitVec 2) (d : BitVec 5) (a : BitVec 5) (b : BitVec 5) (m : BitVec 3) (q : Bool) (ka : Bool) (kb : Bool)
  /-- vfnms (R247): Lane-wise fused −(A × B) − C. -/
  | vfnms (w : BitVec 2) (d : BitVec 5) (a : BitVec 5) (b : BitVec 5) (m : BitVec 3) (q : Bool) (ka : Bool) (kb : Bool)
  /-- vfabs (R247): Lane-wise clear of the sign bit. -/
  | vfabs (w : BitVec 2) (d : BitVec 5) (a : BitVec 5) (m : BitVec 3) (q : Bool) (ka : Bool)
  /-- vfneg (R247): Lane-wise inversion of the sign bit. -/
  | vfneg (w : BitVec 2) (d : BitVec 5) (a : BitVec 5) (m : BitVec 3) (q : Bool) (ka : Bool)
  /-- vfeq (R249): Writes a mask of floating-point equal lanes. -/
  | vfeq (w : BitVec 2) (d : BitVec 3) (a : BitVec 5) (b : BitVec 5) (m : BitVec 3) (q : Bool) (ka : Bool) (kb : Bool)
  /-- vflt (R249): Writes a mask of floating-point less-than lanes. -/
  | vflt (w : BitVec 2) (d : BitVec 3) (a : BitVec 5) (b : BitVec 5) (m : BitVec 3) (q : Bool) (ka : Bool) (kb : Bool)
  /-- vfle (R249): Writes a mask of floating-point less-or-equal lanes. -/
  | vfle (w : BitVec 2) (d : BitVec 3) (a : BitVec 5) (b : BitVec 5) (m : BitVec 3) (q : Bool) (ka : Bool) (kb : Bool)
  /-- vfun (R249): Writes a mask of unordered lanes. -/
  | vfun (w : BitVec 2) (d : BitVec 3) (a : BitVec 5) (b : BitVec 5) (m : BitVec 3) (q : Bool) (ka : Bool) (kb : Bool)
  /-- vcvt (R251): Converts lanes between formats, widening or narrowing one part p. -/
  | vcvt (d : BitVec 5) (a : BitVec 5) (p : BitVec 2) (m : BitVec 3) (q : Bool) (ka : Bool) (f : BitVec 4)
  /-- vperm (R253): Permutes lanes of va by indices in vb. -/
  | vperm (d : BitVec 5) (a : BitVec 5) (b : BitVec 5) (m : BitVec 3) (ka : Bool) (kb : Bool) (w : BitVec 2)
  /-- vslide (R253): Slides lanes of va by a signed count. -/
  | vslide (d : BitVec 5) (a : BitVec 5) (b : BitVec 5) (m : BitVec 3) (ka : Bool) (kb : Bool) (w : BitVec 2)
  /-- vmerge (R253): Selects each byte from va or vb by the mask. -/
  | vmerge (d : BitVec 5) (a : BitVec 5) (b : BitVec 5) (m : BitVec 3) (ka : Bool) (kb : Bool)
  /-- mand (R254): Mask AND. -/
  | mand (d : BitVec 3) (a : BitVec 3) (b : BitVec 3) (ka : Bool) (kb : Bool)
  /-- mor (R254): Mask OR. -/
  | mor (d : BitVec 3) (a : BitVec 3) (b : BitVec 3) (ka : Bool) (kb : Bool)
  /-- mxor (R254): Mask XOR. -/
  | mxor (d : BitVec 3) (a : BitVec 3) (b : BitVec 3) (ka : Bool) (kb : Bool)
  /-- mandn (R254): Mask AND NOT. -/
  | mandn (d : BitVec 3) (a : BitVec 3) (b : BitVec 3) (ka : Bool) (kb : Bool)
  /-- mnot (R254): Mask NOT. -/
  | mnot (d : BitVec 3) (a : BitVec 3) (ka : Bool)
  /-- vrsum (R256): Sums the selected lanes by the fixed pairwise tree into element 0. -/
  | vrsum (d : BitVec 5) (a : BitVec 5) (m : BitVec 3) (q : Bool) (ka : Bool) (t : BitVec 2)
  /-- vrmin.f32 (R255): Reduces FP32 lanes by minimumNumber. -/
  | vrminF32 (d : BitVec 5) (a : BitVec 5) (m : BitVec 3) (q : Bool) (ka : Bool)
  /-- vrmax.f32 (R255): Reduces FP32 lanes by maximumNumber. -/
  | vrmaxF32 (d : BitVec 5) (a : BitVec 5) (m : BitVec 3) (q : Bool) (ka : Bool)
  /-- vrmin.i32 (R255): Reduces INT32 lanes by signed minimum. -/
  | vrminI32 (d : BitVec 5) (a : BitVec 5) (m : BitVec 3) (ka : Bool)
  /-- vrmax.i32 (R255): Reduces INT32 lanes by signed maximum. -/
  | vrmaxI32 (d : BitVec 5) (a : BitVec 5) (m : BitVec 3) (ka : Bool)
  /-- vqnt.mxe4 (R268): Quantises 32 FP32 values into an MXFP8 block. -/
  | vqntMxe4 (d : BitVec 5) (a : BitVec 5) (p : BitVec 2) (q : Bool) (ka : Bool)
  /-- vqnt.mxf4 (R268): Quantises 32 FP32 values into an MXFP4 block. -/
  | vqntMxf4 (d : BitVec 5) (a : BitVec 5) (p : BitVec 2) (q : Bool) (ka : Bool)
  /-- vqnt.k4 (R268): Quantises 32 FP32 values into a K4 block of the given type. -/
  | vqntK4 (d : BitVec 5) (a : BitVec 5) (t : BitVec 2) (p : BitVec 2) (q : Bool) (ka : Bool)
  /-- vdqnt (R269): Dequantises a block into 32 FP32 values. -/
  | vdqnt (d : BitVec 5) (a : BitVec 5) (t : BitVec 2) (p : BitVec 2) (q : Bool) (ka : Bool)
  /-- vld (R227): Loads the unmasked 64-bit elements of an aligned line into vd. -/
  | vld (d : BitVec 5) (b : BitVec 6) (m : BitVec 3) (ka : Bool) (o : BitVec 10)
  /-- vst (R228): Stores the unmasked elements of vd, locally or as one posted entry. -/
  | vst (d : BitVec 5) (b : BitVec 6) (m : BitVec 3) (ka : Bool) (o : BitVec 10)
  /-- vgath (R226): Gathers elements at base plus offsets in v(vd+1). -/
  | vgath (d : BitVec 5) (b : BitVec 6) (m : BitVec 3) (ka : Bool) (o : BitVec 10)
  /-- vscat (R228): Scatters elements to base plus offsets, one journal entry per non-local element. -/
  | vscat (d : BitVec 5) (b : BitVec 6) (m : BitVec 3) (ka : Bool) (o : BitVec 10)
  /-- vsplat (R257): Copies a general register into every lane of vd. -/
  | vsplat (d : BitVec 6) (a : BitVec 6) (ka : Bool) (w : BitVec 2)
  /-- vget.i64 (R257): Copies one element of va into g d. -/
  | vget (d : BitVec 6) (a : BitVec 6) (b : BitVec 6) (ka : Bool) (kb : Bool)
  /-- vput.i64 (R257): Writes g a into one element of vd. -/
  | vput (d : BitVec 6) (a : BitVec 6) (b : BitVec 6) (ka : Bool) (kb : Bool)
  /-- mget (R257): Copies a mask register into g d. -/
  | mget (d : BitVec 6) (a : BitVec 6) (ka : Bool)
  /-- mput (R257): Copies g a into a mask register. -/
  | mput (d : BitVec 6) (a : BitVec 6) (ka : Bool)
  /-- vfxrd (R258): Reads the vfx flag bytes into lanes of vd. -/
  | vfxrd (d : BitVec 5) (m : BitVec 3) (ka : Bool)
  /-- vfxwr (R258): Writes flag bytes of vfx from lanes of va. -/
  | vfxwr (a : BitVec 5) (m : BitVec 3) (ka : Bool)
  /-- vfxclr (R258): Clears the selected flag bytes of vfx. -/
  | vfxclr (m : BitVec 3) (ka : Bool)
  /-- mma (R296): Checks lease, ownership and latches, then enqueues a window-sum multiply-accumulate of a latch pair into an accumulator. -/
  | mma (p : BitVec 4) (c : BitVec 2) (l : BitVec 6)
  /-- mlease (R287): Requests the tile array lease, waiting unless nowait is set. -/
  | mlease (d : BitVec 6) (b : BitVec 6)
  /-- mrel (R287): Ends the holder's lease without setting the lost flag. -/
  | mrel
  /-- mzero (R288): Enqueues a command zeroing an accumulator and claims it if free. -/
  | mzero (c : BitVec 2)
  /-- mfree (R289): Waits until an owned accumulator is freed. -/
  | mfree (c : BitVec 2)
  /-- mld.a (R291): Checks every row address and enqueues a fill of side A of a latch. -/
  | mldA (l : Bool) (a : BitVec 6) (b : BitVec 6) (s : BitVec 6)
  /-- mld.b (R292): Checks every column address and enqueues a fill of side B of a latch. -/
  | mldB (l : Bool) (a : BitVec 6) (b : BitVec 6) (s : BitVec 6)
  /-- mdrain (R299): Enqueues a drain of an owned accumulator's rows to handler tasks. -/
  | mdrain (c : BitVec 2) (a : BitVec 6) (b : BitVec 6)
  /-- merr (R306): Reads an array error-log, status, lease or owner word, optionally clearing the log. -/
  | merr (d : BitVec 6) (b : BitVec 6)
  /-- xcopy (R321): Checks a descriptor, releases, and enters a copy command into the tile's engine inbox. -/
  | xcopy (d : BitVec 6) (a : BitVec 6) (b : BitVec 6) (ka : Bool) (kb : Bool)
  /-- xcopyg (R322): Enters a copy to every member tile of a stamped group version. -/
  | xcopyg (d : BitVec 6) (a : BitVec 6) (b : BitVec 6) (ka : Bool) (kb : Bool)
  /-- xgath (R323): Enters an indexed gather command. -/
  | xgath (d : BitVec 6) (a : BitVec 6) (b : BitVec 6) (ka : Bool) (kb : Bool)
  /-- xscat (R323): Enters an indexed scatter command. -/
  | xscat (d : BitVec 6) (a : BitVec 6) (b : BitVec 6) (ka : Bool) (kb : Bool)
  /-- xred (R324): Enters a reduction of member tiles' data by a fixed tree. -/
  | xred (d : BitVec 6) (a : BitVec 6) (b : BitVec 6) (ka : Bool) (kb : Bool)
  /-- xstat (R332): Queries an engine command's status as a long-latency producer. -/
  | xstat (d : BitVec 6) (a : BitVec 6) (ka : Bool)
  /-- xcancel (R334): Cancels an engine command, counting the rest as undelivered. -/
  | xcancel (d : BitVec 6) (a : BitVec 6) (ka : Bool)
  /-- csrr (R437): Reads a control register into g d. -/
  | csrr (d : BitVec 6) (c : BitVec 12)
  /-- csrw (R437): Returns a control register and writes A to it in one step. -/
  | csrw (d : BitVec 6) (a : BitVec 6) (ka : Bool) (c : BitVec 12)
  /-- csrset (R437): Returns a control register and ORs A into it. -/
  | csrset (d : BitVec 6) (a : BitVec 6) (ka : Bool) (c : BitVec 12)
  /-- csrclr (R437): Returns a control register and clears the bits of A. -/
  | csrclr (d : BitVec 6) (a : BitVec 6) (ka : Bool) (c : BitVec 12)
  /-- svc (R435): Raises SVC with tval A and epc at the next instruction. -/
  | svc (a : BitVec 6) (ka : Bool)
  /-- tret (R436): Restores g60 and g61, leaves service mode and returns the frame to its core at epc. -/
  | tret
  /-- tlbinv (R449): Releases, removes one page of a job from every TLB and icache of the chip, and waits for its users. -/
  | tlbinv (a : BitVec 6) (b : BitVec 6) (ka : Bool) (kb : Bool)
  /-- tlbinv.all (R449): Removes every translation of a job or of all jobs on the chip. -/
  | tlbinvAll (a : BitVec 6) (ka : Bool)
  /-- tlbprobe (R450): Walks a translation without filling or parking and returns the leaf. -/
  | tlbprobe (d : BitVec 6) (a : BitVec 6) (b : BitVec 6) (ka : Bool) (kb : Bool)
  /-- tlbreplay.all (R451): Frees every pending-fault entry of the die and replays every access parked under XLATE. -/
  | tlbreplayAll
  /-- brk (R503): Traps with BRK carrying the code. -/
  | brk (c : BitVec 25)
  /-- trc (R503): Makes a kind-3 trace record when the job is traced. -/
  | trc (a : BitVec 6) (b : BitVec 6) (ka : Bool) (kb : Bool)
  /-- seerd (R503): Reads a seeing accumulator. -/
  | seerd (d : BitVec 6) (a : BitVec 6) (ka : Bool)
  /-- seerd.c (R503): Reads and clears a seeing accumulator in one step. -/
  | seerdC (d : BitVec 6) (a : BitVec 6) (ka : Bool)
  /-- dbgsync (R503): Blocks until the task's trace records are written or lost, then returns TRHEAD. -/
  | dbgsync (d : BitVec 6)
  /-- ASYNCHRONOUS_TRAP (R425): Takes a pending REFUSED, DEADLAND or ORPHAN trap before the task's next instruction, withdrawing its wait or park. -/
  | asynchronousTrap
  /-- LOAD (R50): Checks and loads a Clely image on every chip of a placement. -/
  | load (id : Nat)
  /-- FATAL_FAULT_REMOVAL (R433): A double trap reported by a die starts removal of the job without a command. -/
  | fatalFaultRemoval (n : Nat)
  /-- ENVELOPE_ARRIVAL (R135): An envelope reaching a core is refused, held, queued in inbox or spill area, or bounced. -/
  | envelopeArrival (n : Nat)
  /-- ACTIVATION (R145): The queue engine takes the first eligible envelope, allocates a frame and applies the template. -/
  | activation (core : Nat)
  /-- STEAL_ANSWER (R152): A victim's queue engine gives up its last eligible stealable envelope or answers empty. -/
  | stealAnswer (n : Nat)
  /-- FRAME_RESIDENCY (R165): A ready frame enters a free slot, evicting a waiting or lower-priority context if needed. -/
  | frameResidency (core : Nat)
  /-- SLOT_TRANSFER_END (R167): A slot transfer ends and held landings and adds are applied in arrival order. -/
  | slotTransferEnd (task : Nat)
  /-- HOME_READ_REQUEST (R211): A remote read reaches its home and a reply, possibly an error, is sent. -/
  | homeReadRequest (n : Nat)
  /-- REPLY_ARRIVAL (R210): A long-latency reply fills or poisons its register and marks it live, or is discarded if the task retired. -/
  | replyArrival (n : Nat)
  /-- POSTED_STORE_PERFORM (R212): A posted store is performed at its home or refused. -/
  | postedStorePerform (n : Nat)
  /-- LND_HOME_READ (R218): The home of an lnd reads the bytes and sends a landing, poisoned if the read fails. -/
  | lndHomeRead (n : Nat)
  /-- PST_HOME (R225): A pst store is performed and its size added to its counter as a release. -/
  | pstHome (n : Nat)
  /-- LANDING_ARRIVAL (R220): A landing reaching its core is refused, dead, forwarded, held or applied. -/
  | landingArrival (n : Nat)
  /-- JOURNAL_ACK (R214): An acknowledgement frees a journal entry. -/
  | journalAck (n : Nat)
  /-- REFUSAL_RETURN (R215): A refusal or ORPHAN returns to its journal entry and makes an asynchronous trap pending. -/
  | refusalReturn (n : Nat)
  /-- DEADLAND_REPORT (R224): A dead-landing report frees the entry, counts JSTAT.dead and may raise DEADLAND. -/
  | deadlandReport (n : Nat)
  /-- CWAIT_REGISTER (R344): A cwait reaching its home registers a waiter or observes at once. -/
  | cwaitRegister (n : Nat)
  /-- COUNTER_ADD_HOME (R353): An add takes its place in the counter's order and reached waiters are scheduled. -/
  | counterAddHome (n : Nat)
  /-- COUNTER_OBSERVE_HOME (R353): A cpoll, cread or cset is performed at its point in the counter's order. -/
  | counterObserveHome (n : Nat)
  /-- WAITER_WAKE (R346): The home sends one wake per cycle to reached waiters in registration order. -/
  | waiterWake (n : Nat)
  /-- WAKE_ARRIVAL (R350): A wake reaches its frame, acquires at the scope and fills g d. -/
  | wakeArrival (n : Nat)
  /-- ATOMIC_HOME (R357): A data atomic executes indivisibly at its home and replies. -/
  | atomicHome (n : Nat)
  /-- ENGINE_COMMAND_ACTIVATE (R308): The earliest waiting engine command takes a freed active place. -/
  | engineCommandActivate (tile : Nat)
  /-- SIDEBAND_HALF_ARRIVAL (R326): A data or scale half reaches the pairing unit and is performed with its partner or held. -/
  | sidebandHalfArrival (n : Nat)
  /-- ARRAY_FILL (R294): A latch fill reads its rows and scale bytes and marks the side loaded. -/
  | arrayFill (tile : Nat)
  /-- ARRAY_MMA_EXECUTE (R296): An enqueued mma updates every accumulator element by the window sum. -/
  | arrayMmaExecute (tile : Nat)
  /-- ARRAY_MZERO_EXECUTE (R288): An enqueued mzero zeroes the accumulator and clears bad marks. -/
  | arrayMzeroExecute (tile : Nat)
  /-- ARRAY_DRAIN_START (R299): When earlier commands on the accumulator complete, it sends one array envelope per row. -/
  | arrayDrainStart (tile : Nat)
  /-- RETIREMENT_NOTICE (R464): A notice from a host frees the forwarding entry and advances the origin generation. -/
  | retirementNotice (n : Nat)
  /-- ILLEGAL_INSTRUCTION (R65): A word whose major is 0x00, unassigned or 0x7C–0x7F, whose fn is unassigned, or whose reserved field is nonzero issues alone in slot S and raises an exact ILLEGAL trap with tval holding the word. -/
  | illegalInstruction (w : IWord)
  /-- ENGINE_STATUS_QUERY (R332): An xstat or xcancel request reaches the copy engine named by its handle, which reads or cancels the command and sends back the status word. -/
  | engineStatusQuery (n : Nat)
  /-- LSPLIT_WRITE (R204): Changes the scratchpad/L1 split of local SRAM as one step, invalidating or losing bytes. -/
  | lsplitWrite (core : Nat) (v : Word)
  /-- VGRP_WRITE (R207): Requests or ends pooling of cache-way banks across tiles. -/
  | vgrpWrite (tile : Nat) (v : Word)
  /-- FCSR_WRITE (R237): Writes rounding mode and flush control, keeping rm on a reserved value. -/
  | fcsrWrite (v : Word)
  /-- TSCTL_WRITE (R206): Changes bank modes and gates bank by bank, refusing banks with waiters. -/
  | tsctlWrite (tile : Nat) (v : Word)
  /-- TSCTL_CHANGE_DONE (R206): A bank mode change or write-back ends and busy clears. -/
  | tsctlChangeDone (tile : Nat)
  /-- BANK_WAKE_DONE (R208): A gated bank finishes its 1,500-cycle wake and serves held accesses. -/
  | bankWakeDone (tile bank : Nat)
  /-- REGISTER_WRITE (R8): Writes a register with no behaviour of its own under its field access rules. -/
  | registerWrite (at_ : RegAt) (v : Word)
  /-- HLEASE_CAS (R110): A host CAS AtomicOp claims, renews or releases the host lease. -/
  | hleaseCas (port : Bool) (cmp swap : Word)
  /-- HLEASE_OTHER_ATOMIC (R110): A FetchAdd or Swap to HLEASE is answered with Completer Abort. -/
  | hleaseOtherAtomic (port : Bool) (v : Word)
  /-- HOST_LEASE_EXPIRY (R111): Domain time reaches the lease expiry and command fetching stops. -/
  | hostLeaseExpiry
  /-- QCTL_WRITE (R112): Enables or disables a command queue, resetting its counts on enable. -/
  | qctlWrite (via : Via) (q : Nat) (v : Word)
  /-- QDBL (R113): A doorbell write adds to the queue's publish counter. -/
  | qdbl (via : Via) (q : Nat) (v : Word)
  /-- COMMAND_FETCH (R113): The front end fetches command k once published, its slot free and the queue served. -/
  | commandFetch (q : Nat)
  /-- COMMAND_START (R118): A fetched command starts once conflicting earlier commands have completed, after the checks of R116 and invalidations. -/
  | commandStart (id : Nat)
  /-- LAUNCH (R117): Sends an array of envelopes and waits on a device counter threshold. -/
  | launch (id : Nat)
  /-- LAUNCH_ENVELOPE_SEND (R117): Sends the next envelope of a LAUNCH through the front end's journal when it has room. -/
  | launchEnvelopeSend (id : Nat)
  /-- COPYIN (R115): Copies host bytes into device memory at home slices. -/
  | copyin (id : Nat)
  /-- COPYOUT (R115): Copies device bytes to host memory. -/
  | copyout (id : Nat)
  /-- HBIND (R118): Enters a device range as a buffer handle. -/
  | hbind (id : Nat)
  /-- HREL (R125): Fails accesses parked on a handle and frees it, ending host ownership. -/
  | hrel (id : Nat)
  /-- WAIT (R115): Waits until a device counter reaches a threshold, acquiring at domain scope. -/
  | wait (id : Nat)
  /-- SIGNAL (R115): Adds to a device counter with a domain-scope release. -/
  | signal (id : Nat)
  /-- TOHOST (R123): Parks new accesses to a handle's range as OWN and begins its flip to the host. -/
  | tohost (id : Nat)
  /-- TOHOST_COMMIT (R123): When in-flight accesses reach zero, writes back and invalidates the range and makes it host-owned. -/
  | tohostCommit (id : Nat)
  /-- TODEVICE (R124): Returns a handle to the device and replays accesses parked under OWN. -/
  | todevice (id : Nat)
  /-- SUSPEND (R466): Stops a job's residency, activation, stealing and leases on the chip. -/
  | suspend (id : Nat)
  /-- RESUME (R466): Removes the effects of suspension. -/
  | resume (id : Nat)
  /-- KILL (R468): Removes a job in seven ordered steps, each waiting for the unit's in-flight count to drain. -/
  | kill (id : Nat)
  /-- COMMAND_COMPLETE (R119): When a command's condition holds, writes back, writes the completion record, adds to the host counter and sends MSI-X. -/
  | commandComplete (id : Nat)
  /-- HOST_WINDOW_ACCESS (R122): A host access through the device-memory window to a host-owned page. -/
  | hostWindowAccess (via : Via) (off size : Nat) (wr : HostWr)
  /-- BOUNCE_RETRY (R136): The journal retries a bounced envelope after its backoff expires. -/
  | bounceRetry (core entry : Nat)
  /-- CONTEXT_AGING (R149): A ready context that has not issued for 4,096 cycles rises one priority level. -/
  | contextAging (task : Nat)
  /-- ENVELOPE_AGING (R149): A queued envelope rises one level per 16,384 cycles without activation. -/
  | envelopeAging (core idx : Nat)
  /-- STEAL_REQUEST (R151): An idle core, after its backoff, asks a random victim for work. -/
  | stealRequest (core victim : Nat)
  /-- ICACHE_LINE_ARRIVAL (R172): A missed instruction line arrives and its context becomes eligible again. -/
  | icacheLineArrival (core line : Nat)
  /-- FOLLOW_JOIN_TIMEOUT (R178): A follower that has not joined within 65,536 cycles resumes its own fetch. -/
  | followJoinTimeout (task : Nat)
  /-- GROUP_LOAD_SHADOW (R159): Reads and expands a shadow member list into a group entry. -/
  | groupLoadShadow (g : Nat)
  /-- GROUP_COMMIT (R159): Makes the shadow the current version at every replication point in one step. -/
  | groupCommit (g : Nat)
  /-- GROUP_DISCARD_SHADOW (R159): Clears a loaded shadow. -/
  | groupDiscardShadow (g : Nat)
  /-- GROUP_PREV_DRAINED (R159): When no packet of the previous version remains, busy clears and it is dropped. -/
  | groupPrevDrained (g : Nat)
  /-- POLLED_WAITER_READ (R345): Every 512 cycles a polled waiter's core reads the counter. -/
  | polledWaiterRead (task : Nat)
  /-- ENGINE_SEGMENT_COMPLETE (R319): When a segment's writes are performed, its byte count is added to the completion counter. -/
  | engineSegmentComplete (tile : Nat) (num : BitVec 27) (core : BitVec 5) (seg : Nat)
  /-- SIDEBAND_HALF_RESEND (R327): A half not accepted is sent again after 256 cycles. -/
  | sidebandHalfResend (tile idx : Nat)
  /-- SIDEBAND_PAIR_TIMEOUT (R328): A half waiting 65,536 cycles for its partner fails the segment with SCALESEQ. -/
  | sidebandPairTimeout (tile idx : Nat)
  /-- ARRAY_LEASE_GRANT (R277): A waiting lease request is granted by priority and round-robin. -/
  | arrayLeaseGrant (tile : Nat)
  /-- ARRAY_LEASE_BOUND_END (R278): The lease ends when its command count reaches the bound and another request waits. -/
  | arrayLeaseBoundEnd (tile : Nat)
  /-- ARRAY_LEASE_REVOKE (R279): A lease is revoked after 4,096 cycles of a waiting request and a non-running holder. -/
  | arrayLeaseRevoke (tile : Nat)
  /-- ARRAY_DRAIN_COMPLETE (R300): Every row is taken or failed and the accumulator stops draining. -/
  | arrayDrainComplete (tile : Nat) (acc : BitVec 2)
  /-- ACCUMULATOR_FREE (R283): An accumulator freed by mfree or retirement is zeroed after its commands and drain complete. -/
  | accumulatorFree (tile : Nat) (acc : BitVec 2)
  /-- ARRAY_SOFT_ERROR (R304): An uncorrectable accumulator element becomes bad and is logged. -/
  | arraySoftError (tile : Nat) (acc : BitVec 2) (row : BitVec 7) (col : BitVec 6)
  /-- PAGER_NOTIFY (R447): The die sends a notification envelope to the pager when faults are recorded or dropped. -/
  | pagerNotify (die : Nat)
  /-- FBCLR_WRITE (R446): Invalidates fault-buffer entries and ends the outstanding notification. -/
  | fbclrWrite (die : Nat) (v : Word)
  /-- MIGRATE_START (R459): A MIGCMD write checks and starts a move of a frame. -/
  | migrateStart (core : Nat) (v : Word)
  /-- MIGRATION_COMMIT (R459): The copied frame is installed at the new host and held traffic is forwarded. -/
  | migrationCommit (core : Nat)
  /-- TRANSIT_GUARD (R403): In each guard the ports exchange port words and decide agreement or mismatch. -/
  | transitGuard (port : Nat) (copies : List (Word × Bool))
  /-- DWELL_START (R410): At dwell start the sender chooses direct or relay paths per destination. -/
  | dwellStart (port : Nat)
  /-- DWELL_END (R406): At dwell end unacknowledged packets return to the resend queue. -/
  | dwellEnd (port : Nat)
  /-- LINK_PACKET_RECEIVE (R406): A link packet is accepted in lseq order, key-checked, sequenced, relayed or delivered. -/
  | linkPacketReceive (port : Nat) (p : Packet)
  /-- ACK_RECEIVE (R409): A kind-9 acknowledgement updates the source's outstanding packets. -/
  | ackReceive (port : Nat) (p : Packet)
  /-- LANE_LOSS (R407): A receiver losing a lane ends the circuit, sends an end marker and drops to half width. -/
  | laneLoss (port : Nat) (lane : BitVec 2)
  /-- END_MARKER_RECEIVE (R407): The far end ends the circuit on an end marker and returns unacknowledged packets. -/
  | endMarkerReceive (port : Nat)
  /-- RELAY_FORWARD (R412): A relay forwards its FIFO for a destination at its meeting with that chip. -/
  | relayForward (port : Nat)
  /-- PORT_REENABLE (R404): Writing PSTAT.en re-enables a disabled port after the next loopback trim. -/
  | portReenable (port : Nat)
  /-- DOMAIN_TIME_RESYNC (R399): Domain time is resynchronised each revolution. -/
  | domainTimeResync (t : Word)
  /-- POWER_ON_RESET (R509): Power-on or fundamental reset runs measured boot, training and start-up in order. -/
  | powerOnReset (stages : List BootStage) (fuses : BitVec 512)
  /-- GET_VERSION (R478): SPDM version request. -/
  | getVersion (port : Bool)
  /-- GET_CAPABILITIES (R478): SPDM capabilities request. -/
  | getCapabilities (port : Bool)
  /-- NEGOTIATE_ALGORITHMS (R478): SPDM algorithm negotiation, refusing anything but the fixed suite. -/
  | negotiateAlgorithms (port : Bool) (asym hash dhe aead : Nat)
  /-- GET_DIGESTS (R478): SPDM certificate digests request. -/
  | getDigests (port : Bool)
  /-- GET_CERTIFICATE (R478): Returns the certificate chain in slot 0. -/
  | getCertificate (port : Bool) (slot : Nat)
  /-- CHALLENGE (R478): SPDM challenge signed by the alias key. -/
  | challenge (port : Bool) (nonce : BitVec 256)
  /-- GET_MEASUREMENTS (R476): Returns signed measurement slots. -/
  | getMeasurements (port : Bool) (nonce : BitVec 256)
  /-- KEY_EXCHANGE (R478): Starts an SPDM secured session by ECDHE. -/
  | keyExchange (port : Bool) (exch : BitVec 1064)
  /-- FINISH (R478): Completes the SPDM session handshake. -/
  | finish (port : Bool) (sess : Nat) (peer : Option (BitVec 1064)) (proof : Proof)
  /-- HEARTBEAT (R478): Keeps an SPDM session alive. -/
  | heartbeat (port : Bool) (sess : Nat)
  /-- END_SESSION (R478): Ends an SPDM session. -/
  | endSession (port : Bool) (sess : Nat)
  /-- GET_WRAPKEY (R480): Returns the wrap key's public point and certificate. -/
  | getWrapkey (port : Bool) (sess : Nat)
  /-- JOB_CREATE (R480): Creates a job's JPOL, owner and memory key and returns a creation nonce. -/
  | jobCreate (port : Bool) (sess : Nat) (tag : BitVec 12) (run sig dbg p0 p1 resv : Bool)
  /-- LINK_KEY (R484): Unwraps and installs a job or domain link key. -/
  | linkKey (port : Bool) (sess : Nat) (record : BitVec 1536)
  /-- IMAGE_KEY (R480): Registers a trusted image-signing key for a job. -/
  | imageKey (port : Bool) (sess : Nat) (tag : BitVec 12) (key : BitVec 1064)
  /-- JOB_DISSOLVE (R485): Removes a job, zeroises its keys and clears JPOL. -/
  | jobDissolve (port : Bool) (sess : Nat) (tag : BitVec 12)
  /-- ROLLBACK_ADVANCE (R476): Advances a fused rollback counter on a Virow-signed request. -/
  | rollbackAdvance (port : Bool) (sess : Nat) (slot : Nat) (version : Nat) (sig : List Byte)
  /-- TDISP_LOCK_INTERFACE (R490): Freezes an interface's binding, queue blocks and IDE stream. -/
  | tdispLockInterface (port : Bool) (iface : Nat)
  /-- TDISP_STOP_INTERFACE (R490): Clears en in the interface's queue blocks. -/
  | tdispStopInterface (port : Bool) (iface : Nat)
  /-- EYCTL_WRITE (R493): Opens or closes Eyepiece on a job, subject to JPOL.dbg. -/
  | eyctlWrite (v : Word)
  /-- EYSTOP_GO (R494): Begins a stop of the open job. -/
  | eystopGo
  /-- EYSTOP_RES (R494): Ends a stop and lets held activations proceed. -/
  | eystopRes
  /-- EYSTOP_FORCE (R495): Evicts still-running frames and completes the stop. -/
  | eystopForce
  /-- STOP_REACHED (R494): When no frame of the job runs, the stop state becomes stopped and a record is written. -/
  | stopReached
  /-- TRACE_ENABLE (R499): Setting TRCTL.on pins the trace buffer's translations. -/
  | traceEnable (v : Word)
  /-- TRACE_DISABLE (R500): Clearing TRCTL.on drains queued records and drops the pins. -/
  | traceDisable
  /-- TRACE_FORCE_RELEASE (R500): Writing rel ends trace after the current record and drops the pins. -/
  | traceForceRelease
  /-- TRACE_RECORD_WRITE (R498): A queued trace record is written to the buffer or counted lost. -/
  | traceRecordWrite
  /-- TRACE_SAMPLE (R497): Each sample period writes a kind-10 record per core with a resident frame of the job. -/
  | traceSample
  /-- THROTTLE_CHANGE (R505): A thermal, current, droop or budget cause changes clock, voltage or issue limit and writes a Chronograph record. -/
  | throttleChange (place : ThrottlePlace) (cause : BitVec 4) (new : BitVec 24)
  /-- CORE_CLOCK_GATE (R506): A worker core idle for 65,536 cycles gates its clock. -/
  | coreClockGate (core : Nat)
  /-- CORE_WAKE (R506): Traffic wakes a gated core within 200 cycles and held traffic is applied. -/
  | coreWake (core : Nat)
  /-- SCRUB_LINE (R508): A scrub reads, corrects and writes a line indivisibly, or marks it uncorrectable. -/
  | scrubLine (line : Place) (bad : Bool)
  /-- PWRCTL_WRITE (R512): A service-mode store sets the package power budget. -/
  | pwrctlWrite (v : Word)
  /-- DEVICE_FATAL (R510): A bridge failure, table line loss, junction trip or feed fault stops the chip and signals both hosts. -/
  | deviceFatal (reason : BitVec 7)
  /-- TDISP_START_INTERFACE (R490): A TDISP request moves a locked interface into the RUN state, from which its queue blocks and window accept only T-bit requests on its selective stream. -/
  | tdispStartInterface (port : Bool) (iface : Nat)
  /-- IDE_KM_KEY_PROGRAMMING (R490): IDE_KM messages in an SPDM secured session program and enable the AES-256-GCM keys of a host port's link or selective IDE stream. -/
  | ideKmKeyProgramming (port : Bool) (sess : Nat) (stream : Nat) (key : BitVec 256)
  deriving DecidableEq, Repr

end Sys2Proof
end

