-- ==== Sys2Proof/Machine/State.lean ====
section
/-! DEFINITION. Machine/State.lean: the state of one chip as plain data, what a step can stop with, and the
state right after reset. Each structure cites the rules that name its fields; INVENTORY.md lists them. -/

namespace Sys2Proof.Machine

/-! ## Clock and schedule -/

/-- Time and the model's counters (R1, R438; log 3, log 4). -/
structure Clock where
  stepNo : Nat
  cycle  : Nat
  dtime  : Word
  free   : Nat
  deriving DecidableEq, Repr

/-- Who moves next: a task issues, an event happens, or the outside world acts (log 1). -/
inductive Turn where
  | issue (task : Nat)
  | event (i : Instr)
  | input (x : Input)
  deriving DecidableEq, Repr

/-- The schedule: turns to come, and the task that issues when none is listed (log 1). -/
structure Sched where
  agenda : List Turn
  cur    : Nat
  deriving DecidableEq, Repr

/-! ## Memories -/

/-- Owner of a line of device memory (R489). -/
inductive Owner where
  | job (j : BitVec 12)
  | device
  deriving DecidableEq, Repr

/-- A copy of a 64-byte line in a cache (R203, R205): its bytes and its owner (R489). No copy is ever dirty:
every store is performed at its home (R212; log 18). `page` is the 64 MiB of virtual addresses that a fetch filled an
instruction-cache line for (R449). -/
structure CLine where
  bytes : List Byte
  owner : Option Owner
  page  : Option Nat := none
  deriving DecidableEq, Repr

/-- A write performed at its home (R363–R366): its number, the doubleword it wrote in, where in it and what, the writes to that
doubleword that lie before it in its write order, and whether it was an atomic. Number 0 is the initial value. -/
structure Write where
  id    : Nat
  at_   : Place
  off   : Nat
  bytes : List Byte
  after : List Nat
  atom  : Bool
  deriving DecidableEq, Repr

/-- Bytes are kept in canonical form: keys rising, no entry equal to what an unlisted key reads as
(`dev` and `host`: no value; `bank`, `sram` and `arena`: zero). Keys: `dev` physical address; `bank`
tile key × 2^22 + offset; `sram` core key × 2^16 + offset; `arena` frame key × 2^12 + offset; `host` port × 2^64 +
address, each port's host having a memory of its own; `l1` and
`icache` core key × 2^36 + line; `way` tile key × 2^36 + line. -/
structure Memories where
  dev    : List Host.Cell
  owner  : Table Owner
  bad    : List Nat
  /-- lines marked uncorrectable (R507, R514) of banks, scratchpads and frame images, as keys of `bank`, `sram`, `arena` / 64 -/
  badBank  : List Nat
  badSram  : List Nat
  badArena : List Nat
  bank   : List Host.Cell
  sram   : List Host.Cell
  arena  : List Host.Cell
  host   : List Host.Cell
  l1     : Table CLine
  way    : Table CLine
  icache : Table CLine
  /-- words that counter operations have used as counters (R340), as their home places -/
  counters : List Place
  /-- writes performed at the homes of this chip, oldest first: a read may return another than the last (R366) -/
  past     : List Write := []
  /-- what adds to counters of this chip released, oldest first (R354) -/
  rels     : List (Place × Rel) := []
  /-- which writes a task's reads have returned, byte by byte: no later read of the byte returns one before them (R367) -/
  reads    : List (TaskId × Place × Nat) := []
  /-- writes numbered so far by this chip; the model's own -/
  wrote    : Nat := 0
  deriving DecidableEq, Repr

/-! ## Frames -/

/-- Frame states (R78, R147). -/
inductive FState where
  | free | ready | running | waiting | parked | migrating | retired
  deriving DecidableEq, Repr

/-- An open repeat (R175, R176). -/
structure Rpt where
  base : Word
  body : List IWord
  (k j : Nat)
  n    : Nat
  (sd sa sb : Nat)
  deriving DecidableEq, Repr

/-- A source register with its strict bit; sources without one always block, which is strict = false. -/
inductive Src where
  | g (r : GReg) (strict : Bool)
  | v (r : VReg) (strict : Bool)
  | m (r : MReg) (strict : Bool)
  deriving DecidableEq, Repr

/-- What a waiting or parked frame waits for (R147). -/
inductive Wait where
  | none
  /-- sources to become full or poisoned (R60) -/
  | presence (srcs : List Src)
  /-- another condition of the instruction, evaluated again in full (R10 block) -/
  | retry
  /-- a wait on the array itself, evaluated again in full (R279) -/
  | array
  /-- a registered `cwait`, with its ticket and its counter's place (R344) -/
  | wake (ticket : Nat) (p : Place)
  /-- a polled `cwait`, with the cycle of the last read of its counter (R345) -/
  | poll (p : Place) (thr : Word) (scope : Scope) (dst : Dst) (last : Nat)
  /-- a registered lease request, with the register that receives 0 at the grant (R287) -/
  | lease (d : GReg)
  /-- an accepted `fol` that has not joined (R178) -/
  | join
  /-- an access parked under XLATE (R444) -/
  | xlate
  /-- an access parked under OWN (R123) -/
  | own
  /-- a double trap: never replayed (R433) -/
  | halted
  /-- a trap whose origin core has no free forwarding entry (R430) -/
  | fwdEntry
  deriving DecidableEq, Repr

/-- The wait is the registered one of this ticket. -/
def Wait.isWake (w : Wait) (ticket : Nat) : Bool :=
  match w with
  | .wake t _ => decide (t = ticket)
  | _ => false

/-- A pending asynchronous trap (R215, R432): cause, tval, and the journal entry it names. -/
structure Pend where
  cause : Byte
  tval  : Word
  entry : Option (Nat × Nat)
  deriving DecidableEq, Repr

/-- The location fixed at activation (R455). -/
structure Origin where
  chip  : BitVec 11
  die   : BitVec 1
  tile  : BitVec 8
  core  : BitVec 5
  frame : BitVec 8
  gen   : BitVec 8
  deriving DecidableEq, Repr

/-- A word received from the leader's stream and not issued yet (R178): its address, its decoded instruction, for `rpt`
the body that the leader captured, and the address that the leader went on at (R179). -/
structure StreamWord where
  va   : Word
  i    : Instr
  body : List IWord
  next : Word
  deriving DecidableEq, Repr

/-- A frame-table entry with its frame (R77, R78, R144, R164–R167, R426). Register values not listed read as
the free values of `undef` (R29; log 5). `v` is keyed by 8 × register + element. -/
structure Frame where
  state   : FState
  gen     : BitVec 8
  cls     : BitVec 4
  prio    : BitVec 2
  job     : BitVec 12
  curPrio : Nat
  g       : Table Word
  gFull   : BitVec 64
  gPoison : BitVec 64
  gLive   : BitVec 64
  v       : Table Word
  vFull   : BitVec 256
  vPoison : BitVec 256
  vLive   : BitVec 32
  m       : Table Word
  mFull   : BitVec 8
  mPoison : BitVec 8
  mLive   : BitVec 8
  c       : Table Word
  pc      : Word
  fcsr    : Word
  vfx     : BitVec 128
  cause   : Word
  epc     : Word
  tval    : Word
  tstat   : Word
  origin  : Origin
  guest   : Bool
  atSvc   : Bool
  rpt     : Option Rpt
  /-- the captured words of the repeat that tstat records (R176) -/
  rptSaved : Option Rpt
  wait    : Wait
  pend    : List Pend
  trapEntry : Option (Nat × Nat)
  acq     : Option Scope
  /-- the writes that happen before the task's next instruction (R364), and the releases before its last acquire (R232) -/
  knows   : List Nat := []
  rels    : List Rel := []
  /-- leader's frame key and generation; joined -/
  follow  : Option (Nat × BitVec 8 × Bool)
  /-- words received from the leader and not issued yet, oldest first -/
  stream  : List StreamWord
  resident : Bool
  /-- a slot transfer in progress: true loading, false saving -/
  transfer : Option Bool
  heldMsgs : List Msg
  since    : Nat
  lastIssue : Nat
  /-- numbers of the steps in which the task last issued at all, in slot S and in slot M (R169) -/
  issueNo  : Nat
  issueS   : Nat := 0
  issueM   : Nat := 0
  /-- the cycle at which it was last evicted running: since then it is ready out of a slot (R165) -/
  evictedAt : Nat := 0
  /-- it yielded and has not issued since (R155) -/
  yielded  : Bool := false
  /-- the core that issued what an empty register awaits, where the task has left it since (R502): general register n, 64 + 8 × vector
  register + element -/
  issuedAt : Table Nat := []
  /-- the array command that waits for room is counted in the lease (R278) -/
  counted  : Bool
  undef    : Nat
  /-- doublewords fetched from peer chips for the instruction to issue, keyed chip × 2^52 + address (R172) -/
  fetched  : Table Res
  entry    : Word
  started  : Nat
  deriving DecidableEq, Repr

/-! ## Cores -/

/-- A frame template as stored (R27, R139). -/
structure Template where
  (glive gempty : BitVec 64)
  (vlive vempty : BitVec 32)
  (mlive mempty : BitVec 8)
  npre   : BitVec 16
  preoff : BitVec 32
  pin    : BitVec 16
  rest   : BitVec 112
  deriving DecidableEq, Repr

/-- A handler-table entry (R138, R141). -/
structure Handler where
  bound : Bool
  entry : Word
  tmpl  : Template
  taddr : Word
  prio  : BitVec 2
  /-- the preset list as it was when the class was bound (R139) -/
  presets : List (Nat × Word) := []
  deriving DecidableEq, Repr

/-- Where a queued envelope is stored (R135, R141). -/
inductive Stored where
  | inbox | spill | held
  deriving DecidableEq, Repr

/-- A queued or held envelope: current priority, the priority it entered with, arrival, cycle of arrival (R143,
R149). -/
structure QEnv where
  env     : Env
  prio    : Nat
  base    : Nat
  arrival : Nat
  cycle   : Nat
  stored  : Stored
  deriving DecidableEq, Repr

/-- A journal entry that is not free (R214, R216). State codes as in JENT1. -/
structure JEntry where
  kind    : BitVec 4
  state   : BitVec 3
  task    : TaskId
  dest    : Word
  reason  : Byte
  bounces : Nat
  /-- envelopes: copies still out, and the bounced copies that wait to be retried with the cycle of retry -/
  copies  : Nat
  bounced : List (Env × Nat)
  /-- a write that a release covers (R231) -/
  write   : Bool
  /-- the counter of a `pst` (R206, R225) -/
  ctr     : Option Place
  job     : BitVec 12
  /-- the trap of a `vst` that was refused has been raised: it is raised once (R228) -/
  told    : Bool := false
  deriving DecidableEq, Repr

/-- Where a forwarding entry points (R456), with the key of the frame-table entry that holds the frame's content:
a guest frame, or the entry a frame left whose handler runs on the service core (R430). -/
inductive FwdTo where
  | svc (frame : Nat)
  | guest (frame : Nat)
  deriving DecidableEq, Repr

/-- A forwarding entry (R456): origin frame number, generation, current host. -/
structure Fwd where
  frame : Nat
  gen   : BitVec 8
  host  : FwdTo
  deriving DecidableEq, Repr

/-- A move in progress (R459): origin frame key, frame moved from, guest frame allocated, the state it left. -/
structure Mig where
  frame : Nat
  src   : Nat
  guest : Nat
  left  : FState
  deriving DecidableEq, Repr

/-- One core: queue engine, journal, forwarding, profiling. -/
structure Core where
  split    : BitVec 3
  job      : Option (BitVec 12)
  handlers : Table Handler
  mask     : BitVec 16
  queue    : List QEnv
  held     : List QEnv
  pins     : Table Word
  qdead    : Nat
  orphans  : Nat
  bounces  : Nat
  deadtrap : Bool
  jrefused : Nat
  jdead    : Nat
  journal  : Table JEntry
  fwd      : List Fwd
  migres   : BitVec 3
  miggf    : BitVec 8
  migfr    : BitVec 8
  mig      : Option Mig
  traffic  : List Msg
  see      : Table Word
  /-- seeing accumulators that missed an update and stand until they are written (R502) -/
  seeFull  : List Nat := []
  stream   : Option (Nat × BitVec 8)
  engNum   : BitVec 27
  gated    : Bool
  idleAt   : Nat
  stealAt  : Nat
  stealOut : Bool
  deriving DecidableEq, Repr

/-! ## Tiles, arrays, engines -/

/-- A registered waiter of a counter (R344). -/
structure CWaiter where
  job  : BitVec 12
  p    : Place
  thr  : Word
  w    : Waiter
  deriving DecidableEq, Repr

/-- Tile-store control, victim grouping, trap vector, counter waiters (R205, R207, R429, R344). -/
structure Tile where
  mode     : BitVec 24
  gate     : BitVec 24
  wlock    : Bool
  err      : Bool
  changing : List Nat
  waking   : List (Nat × Nat)
  vgrp     : Word
  tvec     : Word
  waiters  : List CWaiter
  deriving DecidableEq, Repr

inductive LatchState where
  | empty | loading | loaded
  deriving DecidableEq, Repr

/-- One side of a latch (R276): words keyed 8 × row + word, scale bytes keyed 4 × row + byte. -/
structure Latch where
  st       : LatchState
  n        : BitVec 2
  data     : Table Word
  scales   : Table Byte
  bad      : List Nat
  badScale : List Nat
  deriving DecidableEq, Repr

/-- Owner tag of an accumulator (R282): the owner's origin, as its landing addresses name it, and its frame key. -/
structure AccOwner where
  job   : BitVec 12
  core  : BitVec 5
  frame : BitVec 8
  gen   : BitVec 8
  key   : Nat
  deriving DecidableEq, Repr

/-- An accumulator (R276, R299): elements keyed 64 × row + column; rows of a drain not yet taken. -/
structure Acc where
  elems    : Table (BitVec 32)
  bad      : List Nat
  owner    : Option AccOwner
  drain    : Option (List Nat)
  freeing  : Bool
  deriving DecidableEq, Repr

/-- An array command (R285). A fill has the checked addresses of its rows or columns and of their scale bytes. -/
inductive AOp where
  | mma (pair : BitVec 4) (acc : BitVec 2) (latch : Bool)
  | fill (sideB latch : Bool) (n : BitVec 2) (svc : Bool) (rows scales : List (Word × Place))
  | mzero (acc : BitVec 2)
  | mdrain (acc : BitVec 2) (cls : BitVec 4) (group : Option (Nat × BitVec 16)) (members : List Nat) (user : Word)
  deriving DecidableEq, Repr

structure ACmd where
  op   : AOp
  task : Nat
  gen  : BitVec 8
  core : BitVec 5
  job  : BitVec 12
  /-- the drain this command started is running (R285) -/
  draining : Bool
  /-- words that a fill has read: eight for each row or column, then its scale bytes (R294) -/
  read : List Nat := []
  /-- the writes that happen before a fill's reads (R294, R364) -/
  knows : List Nat := []
  deriving DecidableEq, Repr

/-- The lease (R276–R279). `task` and `gen` are the origin frame key and generation of the holder. -/
structure Lease where
  task  : Nat
  gen   : BitVec 8
  core  : BitVec 5
  frame : BitVec 8
  job   : BitVec 12
  count : Nat
  bound : Nat
  /-- the last cycle at which no other request waited or the holder was not stopped (R279) -/
  quiet : Nat
  deriving DecidableEq, Repr

structure LeaseReq where
  task  : Nat
  gen   : BitVec 8
  core  : BitVec 5
  bound : Nat
  deriving DecidableEq, Repr

/-- A tile's array (R276). -/
structure TArray where
  lease    : Option Lease
  reqs     : List LeaseReq
  lastCore : BitVec 5
  (a0 a1 b0 b1 : Latch)
  (acc0 acc1 acc2 acc3 : Acc)
  queue    : List ACmd
  drainNo  : BitVec 32
  log      : List Word
  lost     : Nat
  sticky   : BitVec 4
  deriving DecidableEq, Repr

/-- States of an engine command (R332). -/
inductive EState where
  | queued | active | done | failed | cancelled
  deriving DecidableEq, Repr

/-- An engine command (R311–R320): form 0 xcopy, 1 xcopyg, 2 xgath, 3 xscat, 4 xred. A member is a tile key of this
chip, or for a peer chip 2^20 × (chip + 1) + the tile key there. Segments are numbered member index × 2^24
+ k. -/
structure ECmd where
  handle  : Word
  job     : BitVec 12
  task    : TaskId
  svc     : Bool
  form    : BitVec 3
  (w0 w1 w2 w3 w4 : Word)
  /-- the completion counter; with `each`, its offset in each member tile -/
  ctr     : Option Place
  each    : Bool
  ver     : BitVec 16
  members : List Nat
  state   : EState
  cause   : Byte
  counted : Nat
  /-- segments ended; begun and not ended; of these parked; of these with all writes on their way -/
  segs    : List Nat
  begun   : List Nat
  parked  : List Nat
  sent    : List Nat
  /-- source data from peers, keyed segment × 2^64 + chip × 2^52 + address, and the keys asked for -/
  got     : Table Res
  asked   : List Nat
  /-- addresses of the doublewords of the source or the destination that the program touched (R313) -/
  touched : List Nat := []
  /-- the writes that happen before the command's reads and writes (R313, R364) -/
  knows : List Nat := []
  deriving DecidableEq, Repr

/-- A tile's copy engine (R308, R326, R332). -/
structure Engine where
  cmds    : List ECmd
  recent  : List ECmd
  pairing : List Half
  resend  : List Half
  /-- segments from peer chips whose halves have both been performed here (R328): chip, handle, segment -/
  paired  : List (BitVec 11 × Word × Nat) := []
  deriving DecidableEq, Repr

/-! ## Dies and the chip -/

/-- A pending-fault entry (R444). -/
structure Pft where
  job   : BitVec 12
  page  : BitVec 41
  count : Nat
  deriving DecidableEq, Repr

/-- A fault-buffer entry (R446). -/
structure Fb where
  kind  : BitVec 3
  job   : BitVec 12
  level : BitVec 4
  page  : BitVec 41
  count : Nat
  core  : BitVec 5
  tile  : BitVec 8
  time  : BitVec 32
  deriving DecidableEq, Repr

/-- The fault records of a die (R446, R447). -/
structure Die where
  pgEn      : Bool
  pgTile    : BitVec 8
  pgClass   : BitVec 4
  dropped   : Bool
  dropcount : Nat
  pft       : List Pft
  fb        : Table Fb
  notif     : Bool
  deriving DecidableEq, Repr

/-- Who waits in a park: a task, a posted store that holds its journal entry (R124), or a segment of an engine
command. -/
inductive ParkWho where
  | task (key : Nat)
  | store (m : Msg)
  | segment (handle : Word) (seg : Nat)
  deriving DecidableEq, Repr

/-- A parked access (R123, R444): under OWN or XLATE, on a die, its job and address. -/
structure Park where
  who : ParkWho
  own : Bool
  die : Nat
  job : BitVec 12
  va  : Word
  /-- a store of a task in service mode -/
  svc : Bool := false
  deriving DecidableEq, Repr

/-- TLB levels (R442). -/
inductive TlbAt where
  | core (core : Nat) | tile (tile : Nat) | die (die : Nat)
  deriving DecidableEq, Repr

/-- A cached translation (R442): base page and log2 of its size, the leaf used. -/
structure Tlb where
  at_  : TlbAt
  job  : BitVec 12
  base : Nat
  lg   : Nat
  leaf : Word
  deriving DecidableEq, Repr

/-- A group-table entry (R158). Members are chips with core keys. -/
structure GroupEntry where
  err    : BitVec 4
  (shv busy pv cv : Bool)
  (prev cur : BitVec 16)
  saddr  : BitVec 51
  nver   : BitVec 16
  sv     : Bool
  job    : BitVec 12
  count  : BitVec 16
  shadow : List (BitVec 11 × Nat)
  curM   : List (BitVec 11 × Nat)
  prevM  : List (BitVec 11 × Nat)
  owner  : BitVec 12
  deriving DecidableEq, Repr

/-- A buffer handle (R118). -/
structure Handle where
  base     : Word
  len      : Word
  hostOwned : Bool
  flipping : Bool
  lastHost : Bool
  deriving DecidableEq, Repr

/-- A job on this chip (R24, R466, R471, R151). `tiles` maps logical tiles to (chip, tile key). -/
structure Job where
  image   : Bool
  tiles   : Table (BitVec 11 × Nat)
  steal   : BitVec 2
  state   : BitVec 3
  step    : BitVec 4
  cause   : Byte
  handles : Table Handle
  /-- 64 KiB pages of device memory of the image, freed with the job -/
  pages   : List Nat
  /-- addresses of the pages that the image maps (R28) -/
  maps    : List Word := []
  /-- removal step 6 has passed: homes refuse the job's accesses until the next LOAD (R469) -/
  removed : Bool
  /-- when the suspension in effect began: the aging clocks of the job stand since then (R466); the model's own -/
  heldAt  : Nat := 0
  deriving DecidableEq, Repr

/-- What one chip holds once (R439, R442, R158, R344, R479). -/
structure Chip where
  chipNo  : BitVec 11
  nChips  : Nat
  troot   : Table Word
  tlb     : List Tlb
  groups  : Table GroupEntry
  jpol    : Table Word
  jobs    : Table Job
  waiters : List CWaiter
  spilled : List CWaiter
  deriving DecidableEq, Repr

/-! ## Front end -/

/-- A queue block (R112). -/
structure Queue where
  en    : Bool
  job   : BitVec 12
  msix  : BitVec 16
  lent  : BitVec 5
  qbase : Word
  cbase : Word
  pub   : Word
  fetch : Nat
  done  : Nat
  /-- times that en was set: commands fetched before count in QDONE no more -/
  epoch : Nat
  deriving DecidableEq, Repr

/-- Progress of a fetched command. -/
inductive CPhase where
  | fetched | running | ended
  deriving DecidableEq, Repr

/-- A LOAD under way: the stage, the chips that have not ended it, the lowest failure so far, and the free group entries of each
chip (R24, R37). -/
structure LoadRun where
  step : Nat
  wait : List (BitVec 11)
  code : Nat
  free : List (BitVec 11 × Nat × Option (BitVec 16) × Bool)
  /-- chips that take no part, for want of the job's key: the placement breaks R24 -/
  lacking : List (BitVec 11) := []
  deriving DecidableEq, Repr

/-- A fetched command (R114) with the addresses it was fetched with (R111). -/
structure Cmd where
  id     : Nat
  q      : Nat
  k      : Nat
  op     : Byte
  flags  : Byte
  job    : BitVec 12
  resv   : Bool
  tag    : BitVec 32
  (arg0 arg1 arg2 arg3 : Word)
  uses   : List (BitVec 16)
  hostctr : Word
  cbase  : Word
  lent   : BitVec 5
  msix   : BitVec 16
  phase  : CPhase
  status : BitVec 16
  detail : Word
  /-- envelopes sent, copies still out; the wait or add has been issued -/
  sent   : Nat
  out    : Nat
  asked  : Bool
  /-- the counter as R116 found it, and the value that the wait of a LAUNCH observed -/
  ctr    : Option Place
  seen   : Option Word
  epoch  : Nat
  bounced : List (Env × Nat)
  /-- a LOAD that other chips take part in, as far as it has come (R24) -/
  load   : Option LoadRun := none
  /-- the command passed the checks of R116 and has effects -/
  begun  : Bool := false
  deriving DecidableEq, Repr

/-- A chip's own part of a LOAD that some chip leads: the bytes of the file and the placement, the length of the file, the image
base and the first page of the writable sections, the group entries with their versions, the pinned frames with their generations,
where the pages lie, the pages held for it, and whether the job is taken for it (R24). -/
structure LoadIn where
  bytes  : List Byte := []
  flen   : Nat := 0
  base   : Nat := 0
  page0  : Nat := 0
  groups : List (Nat × BitVec 16) := []
  pins   : List ((BitVec 11 × Nat) × Nat × BitVec 8) := []
  at_    : Nat × Nat × Nat := (0, 0, 0)
  held   : List (Nat × Nat) := []
  live   : Bool := false
  /-- the group entries are reserved for it (R37) -/
  kept   : Bool := false
  deriving DecidableEq, Repr

structure FrontEnd where
  hlease  : Word
  /-- fetching stopped by expiry (R111) -/
  expired : Bool
  dropcpl : Nat
  bad     : Nat
  queues  : Table Queue
  cmds    : List Cmd
  nextId  : Nat
  msixSent : List (Nat × BitVec 16)
  /-- ports that cannot deliver writes (R111) -/
  (lost0 lost1 : Bool)
  /-- answers to reads and AtomicOps of the hosts, newest first; none is a Completer Abort (R110) -/
  answers : List (Option Word)
  /-- this chip's parts of loads, keyed job × 2^11 + leading chip (R24) -/
  parts   : Table LoadIn := []
  /-- optional capabilities that a file asked for and the device has not: command tag, id, version (R43) -/
  missing : List (BitVec 32 × Nat × Nat) := []
  /-- entries of the front end's journal in use (R117) -/
  out     : Nat := 0
  /-- the writes that the front end has acquired (R115, R121) -/
  knows   : List Nat := []
  deriving DecidableEq, Repr

/-! ## Fabric -/

/-- A circuit of the current transit (R403–R407): the peer, the lanes it runs on, the peer's relay space, the next
lseq sent and expected, and the packets sent and not acknowledged at link level. -/
structure Circuit where
  peer   : BitVec 11
  lanes  : BitVec 4
  occ    : BitVec 8
  txNext : BitVec 15
  rxNext : BitVec 15
  sent   : List Packet
  /-- link packets of the dwell used, resends among them (R405) -/
  used   : Nat := 0
  /-- destinations of ordered packets that the peer refused to relay, and that this end refused (R411) -/
  refused : List (BitVec 11) := []
  rxRefused : List (BitVec 11 × BitVec 11) := []
  deriving DecidableEq, Repr

/-- An Orrery port (R413, R418). -/
structure Port where
  state   : BitVec 2
  width   : Bool
  lanes   : BitVec 4
  mstreak : BitVec 2
  occ     : BitVec 8
  pchip   : BitVec 11
  pport   : BitVec 6
  transit : BitVec 5
  mism    : Nat
  lost    : Nat
  keyfail : Nat
  shares  : Table Word
  circuit : Option Circuit
  /-- re-enabled at this domain time, waiting for the loopback trim (R404) -/
  trim    : Option Word
  /-- a lane lost at half width: disabled at the end of the transit (R407) -/
  dying   : Bool
  /-- the transit whose guard is decided, counted from transit 0; the port word sent in it; an end marker was sent since
  (R402, R407) -/
  guardAt : Option Nat := none
  word    : Option Word := none
  marker  : Bool := false
  deriving DecidableEq, Repr

/-- A bulk packet that arrived and is not acknowledged: the member tiles of this chip at which its write is still to be performed, and
the refusals that its chip must hear of before it hears that the packet is over (R420). -/
structure BulkTodo where
  seq   : BitVec 48
  tiles : List Nat
  told  : List Msg
  deriving DecidableEq, Repr

/-- The streams between this chip and one peer (R408–R411). -/
structure PairStream where
  (txOrd txBulk ctl : BitVec 48)
  unsent  : List Packet
  resend  : List Packet
  out     : List Packet
  /-- path of the outstanding ordered packets: the relay chip, or the peer itself for direct -/
  path    : Option (BitVec 11)
  rxNext  : BitVec 48
  rxBase  : BitVec 48
  rxMap   : BitVec 1024
  ackDue  : Bool
  /-- seq of the newest acknowledgement received -/
  ackSeq  : Option (BitVec 48)
  todo    : List BulkTodo := []
  deriving DecidableEq, Repr

structure Fabric where
  relaydrop : Nat
  resent  : Nat
  events  : Nat
  albase  : Word
  epoch   : BitVec 12
  forming : Bool
  ports   : Table Port
  rclass  : Table (BitVec 32)
  rmap    : Table (BitVec 16)
  almanac : Table (BitVec 32)
  streams : Table PairStream
  relay   : Table (List Packet)
  /-- the meeting table: of the ordered pair of chips a × 2^11 + b, transit × 2^6 + port (R400) -/
  meet    : Table Nat := []
  /-- packets whose key check failed, by the job that they name (R415) -/
  jobFails : Table Nat := []
  /-- packets that became ready to send so far (R421); the model's own -/
  made    : Nat := 0
  /-- relay quotas that the fabric manager set, in packets, by job (R412) -/
  quota   : Table Nat := []
  deriving DecidableEq, Repr

/-! ## Security -/

/-- An SPDM session (R478, R480): the transcript and the draw of its key exchange, and the hash of the peer's key once mutually
authenticated. -/
structure Session where
  port   : Bool
  id     : Nat
  open_  : Bool
  th     : BitVec 512 := 0
  draw   : Nat := 0
  peer   : Option (BitVec 512)
  deriving DecidableEq, Repr

/-- A certificate: a public key, and the signature of the key above it in the chain (R475). -/
structure Cert where
  key : BitVec 1064
  sig : BitVec 1056
  deriving DecidableEq, Repr

/-- What the responder sends (R478, R480): a code and its data. -/
inductive Reply where
  | version (lo hi : Nat)
  | capabilities
  | algorithms
  | digests (d : BitVec 512)
  /-- Virow root, identity, alias -/
  | certificate (root : BitVec 1064) (identity alias_ : Cert)
  | signed (slots : List (BitVec 512)) (sig : BitVec 1056)
  | share (sess : Nat) (pt : BitVec 1064)
  | ok
  | refused
  | status (code : Byte)
  | nonce (n : BitVec 256)
  | wrapKey (c : Cert)
  deriving DecidableEq, Repr

/-- TDISP interface states (R490). -/
inductive IfState where
  | unlocked | locked | run
  deriving DecidableEq, Repr

structure Iface where
  st  : IfState
  job : BitVec 12
  (qlo qhi : Nat)
  /-- its selective IDE stream, 0–63 -/
  stream : Nat := 0
  deriving DecidableEq, Repr

structure Security where
  slots    : Table (BitVec 512)
  failed   : Option Nat
  rollback : Table Nat
  versioned : List Bool
  negotiated : List Bool
  sessions : List Session
  nextSess : Nat
  draws    : Nat
  owners   : Table (BitVec 512)
  nonces   : Table (BitVec 256)
  linkKeys : Table (BitVec 256)
  memKeys  : Table (BitVec 512)
  imgKeys  : Table (List (BitVec 1064))
  ifaces   : Table Iface
  ide      : Table (BitVec 256)
  /-- the dissolve that is being served: port, session, job (R480, R485) -/
  dissolving : Option (Bool × Nat × BitVec 12) := none
  replies  : List Reply
  deriving DecidableEq, Repr

/-! ## Debug and power -/

/-- A trace record (R497): four words. -/
structure Rec where
  (w0 w1 w2 w3 : Word)
  deriving DecidableEq, Repr

structure Debug where
  open_   : Bool
  err     : Bool
  job     : BitVec 12
  state   : BitVec 2
  reason  : BitVec 4
  bps     : Table Word
  on      : Bool
  wrap    : Bool
  chrono  : Bool
  samp    : Bool
  sper    : BitVec 4
  base    : BitVec 41
  lg      : BitVec 4
  head    : Word
  lost    : Bool
  pinerr  : Bool
  refused : Nat
  lostcnt : Nat
  chrhead : Word
  chr     : Table Rec
  queue   : List Rec
  /-- pinned translations: page of the buffer, physical address and log2 of the size of the page that maps it (R499) -/
  pins    : Table (Nat × Nat)
  /-- the first sample period that no sample was taken in (R497), and the time of each core's last record (R498) -/
  sampNext : Nat := 0
  recAt   : Table Word := []
  /-- a force release happened: records count as lost until `on` is set again (R500) -/
  forced  : Bool
  deriving DecidableEq, Repr

structure Power where
  fatal   : Bool
  reason  : BitVec 7
  stage   : BitVec 4
  budget  : BitVec 16
  /-- settings by place and quantity (R501) -/
  limits  : List (ThrottlePlace × BitVec 24)
  /-- the settings before each throttle that is not restored, newest first (R505) -/
  before  : List (ThrottlePlace × BitVec 24) := []
  /-- the readings of PWRSTAT (R512) -/
  stat    : Word := 0
  deriving DecidableEq, Repr

/-! ## The state -/

/-- The state of one chip. Tables are keyed: `frames` by frame key, `cores` by core key, `tiles`, `arrays` and
`engines` by tile key, `dies` by die. An unlisted entry is as after reset. -/
structure State where
  clk     : Clock
  run     : Sched
  mem     : Memories
  frames  : Table Frame
  cores   : Table Core
  tiles   : Table Tile
  arrays  : Table TArray
  engines : Table Engine
  net     : List Msg
  dies    : Table Die
  parks   : List Park
  chip    : Chip
  fe      : FrontEnd
  fab     : Fabric
  sec     : Security
  dbg     : Debug
  pwr     : Power
  deriving DecidableEq, Repr

/-! ## Stops -/

/-- Why the machine stops: never. An address beyond the device memory of R1 yields undefined values (R5, R14; log 17). -/
inductive Fault where
  deriving DecidableEq, Repr

/-- Why an instruction has no meaning. -/
inductive Refusal where
  /-- An instruction of the table without a meaning yet; raised by its arm of exec. Safe. -/
  | notModelled (mnemonic : String)
  deriving DecidableEq, Repr

/-! ## Reset values -/

/-- A frame-table entry after reset: free, every register 0 and full (R78; log 5). -/
def Frame.reset : Frame :=
  { state := .free, gen := 0, cls := 0, prio := 0, job := 0, curPrio := 0,
    g := [], gFull := BitVec.allOnes 64, gPoison := 0, gLive := 0,
    v := [], vFull := BitVec.allOnes 256, vPoison := 0, vLive := 0,
    m := [], mFull := BitVec.allOnes 8, mPoison := 0, mLive := 0, c := [],
    pc := 0, fcsr := 0, vfx := 0, cause := 0, epc := 0, tval := 0, tstat := 0,
    origin := { chip := 0, die := 0, tile := 0, core := 0, frame := 0, gen := 0 },
    guest := false, atSvc := false, rpt := none, rptSaved := none, wait := .none, pend := [], trapEntry := none, acq := none,
    follow := none, stream := [], resident := false, transfer := none, heldMsgs := [], since := 0, lastIssue := 0, issueNo := 0, counted := false,
    undef := 0, fetched := [], entry := 0, started := 0 }

def Template.reset : Template :=
  { glive := 0, gempty := 0, vlive := 0, vempty := 0, mlive := 0, mempty := 0, npre := 0, preoff := 0,
    pin := 0, rest := 0 }

def Handler.reset : Handler := { bound := false, entry := 0, tmpl := Template.reset, taddr := 0, prio := 0 }

/-- A core after reset (R79, R163, R216, R457). -/
def Core.reset : Core :=
  { split := 0, job := none, handlers := [], mask := 0, queue := [], held := [], pins := [],
    qdead := 0, orphans := 0, bounces := 0, deadtrap := false, jrefused := 0, jdead := 0, journal := [],
    fwd := [], migres := 0, miggf := 0, migfr := 0, mig := none, traffic := [], see := [], stream := none,
    engNum := 0, gated := false, idleAt := 0, stealAt := 0, stealOut := false }

/-- A tile after reset: every bank in cache-way mode (R205). -/
def Tile.reset : Tile :=
  { mode := BitVec.allOnes 24, gate := 0, wlock := false, err := false, changing := [], waking := [],
    vgrp := 0, tvec := 0, waiters := [] }

def Latch.reset : Latch := { st := .empty, n := 0, data := [], scales := [], bad := [], badScale := [] }

def Acc.reset : Acc := { elems := [], bad := [], owner := none, drain := none, freeing := false }

/-- An array after reset (R276, R277). -/
def TArray.reset : TArray :=
  { lease := none, reqs := [], lastCore := 31, a0 := Latch.reset, a1 := Latch.reset, b0 := Latch.reset,
    b1 := Latch.reset, acc0 := Acc.reset, acc1 := Acc.reset, acc2 := Acc.reset, acc3 := Acc.reset,
    queue := [], drainNo := 0, log := [], lost := 0, sticky := 0 }

def Engine.reset : Engine := { cmds := [], recent := [], pairing := [], resend := [] }

def Die.reset : Die :=
  { pgEn := false, pgTile := 0, pgClass := 0, dropped := false, dropcount := 0, pft := [], fb := [],
    notif := false }

def GroupEntry.reset : GroupEntry :=
  { err := 0, shv := false, busy := false, pv := false, cv := false, prev := 0, cur := 0, saddr := 0,
    nver := 0, sv := false, job := 0, count := 0, shadow := [], curM := [], prevM := [], owner := 0 }

def Job.reset : Job :=
  { image := false, tiles := [], steal := 0, state := 0, step := 0, cause := 0, handles := [], pages := [],
    removed := false }

def Queue.reset : Queue :=
  { en := false, job := 0, msix := 0, lent := 0, qbase := 0, cbase := 0, pub := 0, fetch := 0, done := 0, epoch := 0 }

/-- A port after reset (R418). -/
def Port.reset : Port :=
  { state := 1, width := false, lanes := 0xF, mstreak := 0, occ := 0, pchip := 0, pport := 0, transit := 0,
    mism := 0, lost := 0, keyfail := 0, shares := [], circuit := none, trim := none, dying := false }

def PairStream.reset : PairStream :=
  { txOrd := 0, txBulk := 0, ctl := 0, unsent := [], resend := [], out := [], path := none, rxNext := 0,
    rxBase := 0, rxMap := 0, ackDue := false, ackSeq := none }

def Iface.reset : Iface := { st := .unlocked, job := 0, qlo := 0, qhi := 0 }

def Clock.reset : Clock := { stepNo := 0, cycle := 0, dtime := 0, free := 0 }

def Sched.reset : Sched := { agenda := [], cur := 0 }

def Memories.reset : Memories :=
  { dev := [], owner := [], bad := [], badBank := [], badSram := [], badArena := [], counters := [], bank := [], sram := [], arena := [], host := [], l1 := [], way := [],
    icache := [] }

def Chip.reset : Chip :=
  { chipNo := 0, nChips := 1, troot := [], tlb := [], groups := [], jpol := [], jobs := [], waiters := [],
    spilled := [] }

def FrontEnd.reset : FrontEnd :=
  { hlease := 0, expired := false, dropcpl := 0, bad := 0, queues := [], cmds := [], nextId := 0,
    msixSent := [], lost0 := false, lost1 := false, answers := [] }

def Fabric.reset : Fabric :=
  { relaydrop := 0, resent := 0, events := 0, albase := 0, epoch := 0, forming := true, ports := [],
    rclass := [], rmap := [], almanac := [], streams := [], relay := [] }

def Security.reset : Security :=
  { slots := [], failed := none, rollback := [], versioned := [false, false], negotiated := [false, false],
    sessions := [], nextSess := 0, draws := 0, owners := [], nonces := [], linkKeys := [], memKeys := [],
    imgKeys := [], ifaces := [], ide := [], replies := [] }

def Debug.reset : Debug :=
  { open_ := false, err := false, job := 0, state := 0, reason := 0, bps := [], on := false, wrap := false,
    chrono := false, samp := false, sper := 0, base := 0, lg := 0, head := 0, lost := false, pinerr := false,
    refused := 0, lostcnt := 0, chrhead := 0, chr := [], queue := [], pins := [], forced := false }

/-- Power block after reset (R512). -/
def Power.reset : Power :=
  { fatal := false, reason := 0, stage := 0, budget := 3600, limits := [] }

/-- The machine right after reset (R509; every field as its map or a log entry says). -/
def State.reset : State :=
  { clk := Clock.reset, run := Sched.reset, mem := Memories.reset, frames := [], cores := [], tiles := [],
    arrays := [], engines := [], net := [], dies := [], parks := [], chip := Chip.reset,
    fe := FrontEnd.reset, fab := Fabric.reset, sec := Security.reset, dbg := Debug.reset,
    pwr := Power.reset }

end Sys2Proof.Machine
end

