-- ==== Sys2Proof/Machine/Table.lean ====
section
/-! DEFINITION. Machine/Table.lean: reading and writing sparse tables and byte memories, byte order (R6), and the
bit-field helpers of the register maps. -/

namespace Sys2Proof.Machine

/-! ## Tables -/

/-- The value listed under a key. -/
def Tab.get? {α : Type} : Table α → Nat → Option α
  | [], _ => none
  | (k, v) :: t, i => if k = i then some v else Tab.get? t i

/-- The value under a key, or what an unlisted key holds. -/
def Tab.get {α : Type} (t : Table α) (i : Nat) (d : α) : α := (Tab.get? t i).getD d

/-- Lists a value under a key, keys rising. -/
def Tab.put {α : Type} : Table α → Nat → α → Table α
  | [], i, v => [(i, v)]
  | (k, w) :: t, i, v =>
    if i < k then (i, v) :: (k, w) :: t
    else if i = k then (i, v) :: t
    else (k, w) :: Tab.put t i v

/-- Unlists a key. -/
def Tab.del {α : Type} : Table α → Nat → Table α
  | [], _ => []
  | (k, w) :: t, i => if k = i then Tab.del t i else (k, w) :: Tab.del t i

/-- Unlists the keys from `lo` up to and without `hi`. -/
def Tab.clear {α : Type} (t : Table α) (lo hi : Nat) : Table α :=
  t.filter (fun p => !(decide (lo ≤ p.1) && decide (p.1 < hi)))

/-! ## Memories -/

/-- Writes a byte, keeping the canonical form: a byte equal to what an unlisted key reads as is unlisted. -/
def Mem.put (blank : Option Byte) (m : List Host.Cell) (a : Nat) (b : Byte) : List Host.Cell :=
  if blank = some b then Tab.del m a else Tab.put m a b

/-- Writes consecutive bytes. -/
def Mem.puts (blank : Option Byte) : List Host.Cell → Nat → List Byte → List Host.Cell
  | m, _, [] => m
  | m, a, b :: bs => Mem.puts blank (Mem.put blank m a b) (a + 1) bs

/-- Keys rise strictly from a bound on. -/
def Mem.rising : Nat → List Host.Cell → Bool
  | _, [] => true
  | lo, (k, _) :: t => decide (lo ≤ k) && Mem.rising (k + 1) t

/-- The canonical form: keys strictly rising, no entry equal to what an unlisted key reads as. -/
def Mem.wf (blank : Option Byte) (m : List Host.Cell) : Bool :=
  Mem.rising 0 m && m.all (fun c => decide (blank ≠ some c.2))

/-! ## Byte order (R6) -/

/-- Little-endian value of bytes. -/
def leNat : List Byte → Nat
  | [] => 0
  | b :: bs => b.toNat + 256 * leNat bs

/-- Little-endian 64-bit value of bytes, zero-extended. -/
def leWord (bs : List Byte) : Word := BitVec.ofNat 64 (leNat bs)

/-- The low `n` bytes of a value, least significant first. -/
def leBytes (v : Nat) : Nat → List Byte
  | 0 => []
  | n + 1 => BitVec.ofNat 8 v :: leBytes (v / 256) n

/-- Big-endian value of bytes (R49, R484). -/
def beNat (bs : List Byte) : Nat := bs.foldl (fun acc b => acc * 256 + b.toNat) 0

/-- A public point as it is written: 0x04, X, Y, each big-endian (R484). -/
def keyBytes (k : BitVec 1064) : List Byte := (leBytes k.toNat 133).reverse

/-! ## Bit fields -/

/-- Field x[lo + len − 1 : lo] as a number (R6). -/
def fld {n : Nat} (x : BitVec n) (lo len : Nat) : Nat := (x.extractLsb' lo len).toNat

/-- Bit `i` set to `b`. -/
def setBit {n : Nat} (x : BitVec n) (i : Nat) (b : Bool) : BitVec n :=
  if b then x ||| (1#n <<< i) else x &&& ~~~(1#n <<< i)

/-- Field at `lo` of width `len` replaced by the low bits of a number. -/
def putFld {n : Nat} (x : BitVec n) (lo len v : Nat) : BitVec n :=
  (x &&& ~~~((BitVec.ofNat n (2 ^ len - 1)) <<< lo)) ||| (BitVec.ofNat n (v % 2 ^ len) <<< lo)

/-- A Bool as a number, for placing one-bit fields. -/
def b2n (b : Bool) : Nat := if b then 1 else 0

/-- A number placed at a bit position of a 64-bit word. -/
def at64 (v lo : Nat) : Word := BitVec.ofNat 64 (v * 2 ^ lo)

/-- Saturating count (R163, R216, R418, R446, R492). -/
def satAdd (v by_ max : Nat) : Nat := min (v + by_) max

/-- A sign-extended field. -/
def sext64 {n : Nat} (x : BitVec n) : Word := x.signExtend 64

/-- Replace the element at an index of a list, if there is one. -/
def setAt {α : Type} : List α → Nat → α → List α
  | [], _, _ => []
  | _ :: t, 0, x => x :: t
  | h :: t, i + 1, x => h :: setAt t i x

/-- Remove the element at an index of a list. -/
def dropAt {α : Type} : List α → Nat → List α
  | [], _ => []
  | _ :: t, 0 => t
  | h :: t, i + 1 => h :: dropAt t i

/-- Indexes below `n` at which a property holds, rising. -/
def idxs (n : Nat) (p : Nat → Bool) : List Nat := (List.range n).filter p

end Sys2Proof.Machine
end

