-- ==== Sys2Proof/Machine/Float.lean ====
section
/-! DEFINITION. Machine/Float.lean: IEEE 754 arithmetic on any binary format, computed exactly and rounded once
(R238–R241, R247–R249), and the narrow formats of R260. -/

namespace Sys2Proof.Machine

/-- A binary format: exponent and fraction bits; `sat` marks E4M3, whose top exponent holds normals (R260). -/
structure Fmt where
  e   : Nat
  f   : Nat
  e4  : Bool
  deriving DecidableEq, Repr

def Fmt.f16 : Fmt := { e := 5, f := 10, e4 := false }
def Fmt.bf16 : Fmt := { e := 8, f := 7, e4 := false }
def Fmt.f32 : Fmt := { e := 8, f := 23, e4 := false }
def Fmt.f64 : Fmt := { e := 11, f := 52, e4 := false }
def Fmt.e4m3 : Fmt := { e := 4, f := 3, e4 := true }
def Fmt.e5m2 : Fmt := { e := 5, f := 2, e4 := false }

def Fmt.width (t : Fmt) : Nat := 1 + t.e + t.f
def Fmt.bias (t : Fmt) : Int := 2 ^ (t.e - 1) - 1
/-- Exponent of the smallest subnormal. -/
def Fmt.qmin (t : Fmt) : Int := 1 - t.bias - t.f
/-- Magnitude codes: infinity, or the NaN code of E4M3. -/
def Fmt.top (t : Fmt) : Nat := if t.e4 then 2 ^ (t.e + t.f) - 1 else (2 ^ t.e - 1) * 2 ^ t.f
/-- The canonical quiet NaN (R239; 0x7F and 0x7E for the FP8 formats, R252). -/
def Fmt.qnan (t : Fmt) : Nat := if t.e4 then 0x7F else (2 ^ t.e - 1) * 2 ^ t.f + 2 ^ (t.f - 1)
/-- A magnitude code with a sign. -/
def Fmt.signed (t : Fmt) (neg : Bool) (mag : Nat) : Nat := (if neg then 2 ^ (t.e + t.f) else 0) + mag

/-! ## Flags (R241) -/

abbrev Flags := Byte
def Flags.NV : Flags := 0x10
def Flags.DZ : Flags := 0x08
def Flags.OF : Flags := 0x04
def Flags.UF : Flags := 0x02
def Flags.NX : Flags := 0x01

/-! ## Values -/

/-- A value: NaN (signalling or not), infinity, or (−1)^neg × m × 2^x exactly. -/
inductive FV where
  | nan (sig : Bool)
  | inf (neg : Bool)
  | fin (neg : Bool) (m : Nat) (x : Int)
  deriving DecidableEq, Repr

/-- The value of a code (R260). -/
def Fmt.read (t : Fmt) (bits : Nat) : FV :=
  let neg := decide (bits / 2 ^ (t.e + t.f) % 2 = 1)
  let ex := bits / 2 ^ t.f % 2 ^ t.e
  let fr := bits % 2 ^ t.f
  if t.e4 then
    if bits % 2 ^ (t.e + t.f) = t.top then .nan false
    else if ex = 0 then .fin neg fr t.qmin else .fin neg (2 ^ t.f + fr) (t.qmin + (ex - 1 : Nat))
  else if ex = 2 ^ t.e - 1 then
    if fr = 0 then .inf neg else .nan (decide (fr < 2 ^ (t.f - 1)))
  else if ex = 0 then .fin neg fr t.qmin
  else .fin neg (2 ^ t.f + fr) (t.qmin + (ex - 1 : Nat))

/-- A code read as an operand: a subnormal is a zero of its sign under fz (R240). -/
def Fmt.operand (t : Fmt) (fz : Bool) (bits : Nat) : FV :=
  match t.read bits with
  | .fin neg m x => if fz && decide (m < 2 ^ t.f) then .fin neg 0 x else .fin neg m x
  | v => v

def FV.isNan : FV → Bool
  | .nan _ => true
  | _ => false
def FV.isSig : FV → Bool
  | .nan s => s
  | _ => false
def FV.isZero : FV → Bool
  | .fin _ m _ => decide (m = 0)
  | _ => false
def FV.neg : FV → FV
  | .nan s => .nan s
  | .inf n => .inf (!n)
  | .fin n m x => .fin (!n) m x

/-! ## Rounding (R238, R240) -/

/-- Whether the magnitude rounds up: lower neighbour odd, remainder against half. -/
def roundsUp (rm : Nat) (neg odd : Bool) (rem half : Nat) : Bool :=
  match rm with
  | 0 => decide (half < rem) || (decide (rem = half) && odd)
  | 1 => false
  | 2 => neg && decide (rem ≠ 0)
  | 3 => !neg && decide (rem ≠ 0)
  | _ => decide (half ≤ rem) && decide (rem ≠ 0)

/-- m × 2^x rounded to a multiple of 2^q: the multiple and whether it is inexact. -/
def roundAt (rm : Nat) (neg : Bool) (m : Nat) (x q : Int) : Nat × Bool :=
  if q ≤ x then (m * 2 ^ (x - q).toNat, false)
  else
    let d := (q - x).toNat
    let hi := m / 2 ^ d
    let rem := m % 2 ^ d
    (if roundsUp rm neg (decide (hi % 2 = 1)) rem (2 ^ d / 2) then hi + 1 else hi, decide (rem ≠ 0))

/-- What an overflow delivers (R238); the FP8 formats saturate (R252). -/
def Fmt.overflow (t : Fmt) (sat : Bool) (rm : Nat) (neg : Bool) : Nat :=
  let m := t.top - 1
  if sat then t.signed neg m
  else match rm with
    | 1 => t.signed neg m
    | 2 => if neg then t.signed neg t.top else t.signed neg m
    | 3 => if neg then t.signed neg m else t.signed neg t.top
    | _ => t.signed neg t.top

/-- Round a value to a format: code and flags. `sat`: conversions to FP8, which saturate and ignore fz (R252). -/
def Fmt.round (t : Fmt) (sat : Bool) (rm : Nat) (fz : Bool) (v : FV) : Nat × Flags :=
  match v with
  | .nan sig => (t.qnan, if sig then Flags.NV else 0)
  | .inf neg => if sat then (t.signed neg (t.top - 1), Flags.NX) else (t.signed neg t.top, 0)
  | .fin neg m x =>
    if m = 0 then (t.signed neg 0, 0)
    else
      let E := x + Nat.log2 m
      let q := max (E - t.f) t.qmin
      let r := roundAt rm neg m x q
      let u := roundAt rm neg m x (E - t.f)
      let tiny := decide ((if u.1 = 2 ^ (t.f + 1) then E + 1 else E) < 1 - t.bias)
      let mag := r.1 + ((q - t.qmin).toNat) * 2 ^ t.f
      if tiny && fz && !sat then (t.signed neg 0, Flags.UF ||| Flags.NX)
      else if t.top ≤ mag then (t.overflow sat rm neg, Flags.OF ||| Flags.NX)
      else (t.signed neg mag, (if r.2 then Flags.NX else 0) ||| (if tiny && r.2 then Flags.UF else 0))

/-! ## Arithmetic -/

/-- The zero of an exact cancellation: −0 only under RDN (R238). -/
def zeroSum (rm : Nat) : FV := .fin (decide (rm = 2)) 0 0

/-- Exact sum of two finite values. -/
def addFin (rm : Nat) (n1 : Bool) (m1 : Nat) (x1 : Int) (n2 : Bool) (m2 : Nat) (x2 : Int) : FV :=
  if m1 = 0 ∧ m2 = 0 then (if n1 = n2 then .fin n1 0 0 else zeroSum rm)
  else
    let x := min x1 x2
    let a := m1 * 2 ^ (x1 - x).toNat
    let b := m2 * 2 ^ (x2 - x).toNat
    if n1 = n2 then .fin n1 (a + b) x
    else if a = b then zeroSum rm
    else if b < a then .fin n1 (a - b) x
    else .fin n2 (b - a) x

/-- Exact sum, with NV for infinities of opposite signs and for signalling operands. -/
def FV.add (rm : Nat) (a b : FV) : FV × Flags :=
  let sig : Flags := if a.isSig || b.isSig then Flags.NV else 0
  match a, b with
  | .nan _, _ => (.nan false, sig)
  | _, .nan _ => (.nan false, sig)
  | .inf n, .inf k => if n = k then (.inf n, 0) else (.nan false, Flags.NV)
  | .inf n, _ => (.inf n, 0)
  | _, .inf n => (.inf n, 0)
  | .fin n1 m1 x1, .fin n2 m2 x2 => (addFin rm n1 m1 x1 n2 m2 x2, 0)

/-- Exact product; 0 × ∞ is invalid. -/
def FV.mul (a b : FV) : FV × Flags :=
  let sig : Flags := if a.isSig || b.isSig then Flags.NV else 0
  match a, b with
  | .nan _, _ => (.nan false, sig)
  | _, .nan _ => (.nan false, sig)
  | .inf n, .inf k => (.inf (n != k), 0)
  | .inf n, .fin k m _ => if m = 0 then (.nan false, Flags.NV) else (.inf (n != k), 0)
  | .fin k m _, .inf n => if m = 0 then (.nan false, Flags.NV) else (.inf (n != k), 0)
  | .fin n1 m1 x1, .fin n2 m2 x2 => (.fin (n1 != n2) (m1 * m2) (x1 + x2), 0)

/-- Quotient with a sticky last bit, enough bits for one rounding to any format here. -/
def FV.div (a b : FV) : FV × Flags :=
  let sig : Flags := if a.isSig || b.isSig then Flags.NV else 0
  match a, b with
  | .nan _, _ => (.nan false, sig)
  | _, .nan _ => (.nan false, sig)
  | .inf _, .inf _ => (.nan false, Flags.NV)
  | .inf n, .fin k _ _ => (.inf (n != k), 0)
  | .fin k _ _, .inf n => (.fin (n != k) 0 0, 0)
  | .fin n1 m1 x1, .fin n2 m2 x2 =>
    if m2 = 0 then (if m1 = 0 then (.nan false, Flags.NV) else (.inf (n1 != n2), Flags.DZ))
    else if m1 = 0 then (.fin (n1 != n2) 0 0, 0)
    else
      let k := 60 + Nat.log2 m2
      let q := m1 * 2 ^ k / m2
      let r := m1 * 2 ^ k % m2
      (.fin (n1 != n2) (2 * q + (if r = 0 then 0 else 1)) (x1 - x2 - k - 1), 0)

/-- Integer square root, bit by bit. -/
def isqrt (n : Nat) : Nat → Nat → Nat
  | 0, r => r
  | i + 1, r => isqrt n i (if (r + 2 ^ i) * (r + 2 ^ i) ≤ n then r + 2 ^ i else r)

/-- Square root with a sticky last bit (R241, R247). -/
def FV.sqrt (a : FV) : FV × Flags :=
  match a with
  | .nan s => (.nan false, if s then Flags.NV else 0)
  | .inf n => if n then (.nan false, Flags.NV) else (.inf false, 0)
  | .fin n m x =>
    if m = 0 then (.fin n 0 0, 0)
    else if n then (.nan false, Flags.NV)
    else
      let odd := decide (x % 2 ≠ 0)
      let m := (if odd then 2 * m else m) * 2 ^ 120
      let h := (if odd then x - 1 else x) / 2 - 60
      let r := isqrt m 96 0
      (.fin false (2 * r + (if r * r = m then 0 else 1)) (h - 1), 0)

/-- Order of two finite values: −1, 0 or 1, zeros equal. -/
def cmpFin (n1 : Bool) (m1 : Nat) (x1 : Int) (n2 : Bool) (m2 : Nat) (x2 : Int) : Int :=
  let x := min x1 x2
  let a : Int := (m1 * 2 ^ (x1 - x).toNat : Nat)
  let b : Int := (m2 * 2 ^ (x2 - x).toNat : Nat)
  let a := if n1 then -a else a
  let b := if n2 then -b else b
  if a < b then -1 else if a = b then 0 else 1

/-- Order of two numbers; none if one is a NaN. -/
def FV.cmp (a b : FV) : Option Int :=
  match a, b with
  | .nan _, _ => none
  | _, .nan _ => none
  | .inf n, .inf k => some (if n = k then 0 else if n then -1 else 1)
  | .inf n, .fin _ _ _ => some (if n then -1 else 1)
  | .fin _ _ _, .inf n => some (if n then 1 else -1)
  | .fin n1 m1 x1, .fin n2 m2 x2 => some (cmpFin n1 m1 x1 n2 m2 x2)

/-- Sign of a number. -/
def FV.sign : FV → Bool
  | .nan _ => false
  | .inf n => n
  | .fin n _ _ => n

/-! ## Operations on codes (R247–R249) -/

/-- Rounding control: mode and flush (R237). -/
structure Rc where
  rm : Nat
  fz : Bool
  deriving DecidableEq, Repr

/-- Round an exact result, joining the flags. -/
def Fmt.finish (t : Fmt) (rc : Rc) (r : FV × Flags) : Nat × Flags :=
  let d := t.round false rc.rm rc.fz r.1
  (d.1, d.2 ||| r.2)

def Fmt.addOp (t : Fmt) (rc : Rc) (a b : Nat) : Nat × Flags :=
  t.finish rc (FV.add rc.rm (t.operand rc.fz a) (t.operand rc.fz b))
def Fmt.subOp (t : Fmt) (rc : Rc) (a b : Nat) : Nat × Flags :=
  t.finish rc (FV.add rc.rm (t.operand rc.fz a) (t.operand rc.fz b).neg)
def Fmt.mulOp (t : Fmt) (rc : Rc) (a b : Nat) : Nat × Flags :=
  t.finish rc (FV.mul (t.operand rc.fz a) (t.operand rc.fz b))
def Fmt.divOp (t : Fmt) (rc : Rc) (a b : Nat) : Nat × Flags :=
  t.finish rc (FV.div (t.operand rc.fz a) (t.operand rc.fz b))
def Fmt.sqrtOp (t : Fmt) (rc : Rc) (a : Nat) : Nat × Flags := t.finish rc (FV.sqrt (t.operand rc.fz a))

/-- ±(A × B) ± C with one rounding; 0 × ∞ is invalid even with a NaN addend (R241). -/
def Fmt.fmaOp (t : Fmt) (negP negC : Bool) (rc : Rc) (a b c : Nat) : Nat × Flags :=
  let A := t.operand rc.fz a
  let B := t.operand rc.fz b
  let C := t.operand rc.fz c
  let p := FV.mul A B
  let r := FV.add rc.rm (if negP then p.1.neg else p.1) (if negC then C.neg else C)
  t.finish rc (r.1, r.2 ||| p.2)

/-- minimumNumber and maximumNumber: NaNs are ignored, −0 below +0 (R248). -/
def Fmt.minmax (t : Fmt) (isMax : Bool) (rc : Rc) (a b : Nat) : Nat × Flags :=
  let A := t.operand rc.fz a
  let B := t.operand rc.fz b
  let fl : Flags := if A.isSig || B.isSig then Flags.NV else 0
  let code (v : FV) : Nat := (t.round false rc.rm rc.fz v).1
  match A.cmp B with
  | none => if A.isNan && B.isNan then (t.qnan, fl) else if A.isNan then (code B, fl) else (code A, fl)
  | some o =>
    let aLess := decide (o < 0) || (decide (o = 0) && A.sign && !B.sign)
    (code (if aLess != isMax then A else B), fl)

/-- A with sign 0; a NaN gives the canonical NaN, no flag (R247). -/
def Fmt.absOp (t : Fmt) (a : Nat) : Nat := if (t.read a).isNan then t.qnan else a % 2 ^ (t.e + t.f)
/-- A with its sign inverted. -/
def Fmt.negOp (t : Fmt) (a : Nat) : Nat :=
  if (t.read a).isNan then t.qnan else (a + 2 ^ (t.e + t.f)) % 2 ^ t.width

/-- Float compares (R249): 0 eq, 1 lt, 2 le, 3 un. -/
inductive FCmp where
  | eq | lt | le | un
  deriving DecidableEq, Repr

def Fmt.cmpOp (t : Fmt) (k : FCmp) (rc : Rc) (a b : Nat) : Bool × Flags :=
  let A := t.operand rc.fz a
  let B := t.operand rc.fz b
  let any := A.isNan || B.isNan
  let sig := A.isSig || B.isSig
  match k with
  | .eq => (decide (A.cmp B = some 0), if sig then Flags.NV else 0)
  | .lt => (decide (A.cmp B = some (-1)), if any then Flags.NV else 0)
  | .le => (decide (A.cmp B = some (-1)) || decide (A.cmp B = some 0), if any then Flags.NV else 0)
  | .un => (any, if sig then Flags.NV else 0)

/-! ## Conversions (R252) -/

/-- Format to format. -/
def cvtFF (src dst : Fmt) (sat : Bool) (rc : Rc) (a : Nat) : Nat × Flags :=
  dst.round sat rc.rm rc.fz (src.operand rc.fz a)

/-- FP8 to FP32: exact, the FP8 side ignores fz (R240); a subnormal result does not exist. -/
def cvtFrom8 (src : Fmt) (rc : Rc) (a : Nat) : Nat × Flags := Fmt.f32.round false rc.rm false (src.read a)

/-- A signed integer of w bits to a format. -/
def cvtIF (w : Nat) (dst : Fmt) (rc : Rc) (a : Nat) : Nat × Flags :=
  let neg := decide (2 ^ (w - 1) ≤ a % 2 ^ w)
  dst.round false rc.rm rc.fz (.fin neg (if neg then 2 ^ w - a % 2 ^ w else a % 2 ^ w) 0)

/-- A format to a signed integer of w bits. -/
def cvtFI (src : Fmt) (w : Nat) (rc : Rc) (a : Nat) : Nat × Flags :=
  let hi := 2 ^ (w - 1) - 1
  match src.operand rc.fz a with
  | .nan _ => (hi, Flags.NV)
  | .inf n => (if n then 2 ^ (w - 1) else hi, Flags.NV)
  | .fin n m x =>
    let r := roundAt rc.rm n m x 0
    if n then
      if 2 ^ (w - 1) < r.1 then (2 ^ (w - 1), Flags.NV) else ((2 ^ w - r.1) % 2 ^ w, if r.2 then Flags.NX else 0)
    else if hi < r.1 then (hi, Flags.NV) else (r.1, if r.2 then Flags.NX else 0)

end Sys2Proof.Machine
end

