-- ==== Sys2Proof/Machine/Formats.lean ====
section
/-! DEFINITION. Machine/Formats.lean: block-scaled formats and their codes (R260–R265), rounding to a set of codes
(R266), and the window sum (R271–R273). -/

namespace Sys2Proof.Machine

/-! ## Four-bit codes (R264) -/

/-- Magnitudes of codes 0–7 in eighths: type 1 is E2M1, 2 powers of two, 3 hybrid; type 0 is the integers 0–8. -/
def setMags (type : Nat) : List Nat :=
  match type with
  | 0 => [0, 8, 16, 24, 32, 40, 48, 56, 64]
  | 1 => [0, 4, 8, 12, 16, 24, 32, 48]
  | 2 => [0, 1, 2, 4, 8, 16, 32, 64]
  | _ => [0, 8, 16, 24, 32, 48, 64, 96]

/-- The value of a four-bit code of a type. -/
def codeValue (type code : Nat) : FV :=
  if type = 0 then
    if code < 8 then .fin false code 0 else .fin true (16 - code) 0
  else .fin (decide (8 ≤ code)) ((setMags type).getD (code % 8) 0) (-3)

/-- Multiply a value by 2^k; a NaN scale makes a NaN. -/
def FV.scaled (v : FV) (k : Option Int) : FV :=
  match k, v with
  | none, _ => .nan false
  | some k, .fin n m x => .fin n m (x + k)
  | some _, v => v

/-- E8M0: 2^(x − 127), 0xFF is NaN (R262). -/
def e8m0 (x : Nat) : Option Int := if x = 255 then none else some ((x : Int) - 127)
/-- K4 scale byte: 2^(x − 31), x = 63 is NaN (R264). -/
def k4Scale (b : Nat) : Option Int := if b % 64 = 63 then none else some ((b % 64 : Nat) - 31 : Int)

/-- Element values of the block-scaled formats (R263, R264). -/
def mxe4Value (code scale : Nat) : FV := (Fmt.e4m3.read code).scaled (e8m0 scale)
def mxf4Value (code scale : Nat) : FV := (codeValue 1 code).scaled (e8m0 scale)
def k4Value (code scale : Nat) : FV := (codeValue (scale / 64) code).scaled (k4Scale scale)

/-! ## Rounding to a set of codes (R266) -/

/-- Index of the largest magnitude not above num/den, in a rising list. -/
def lowerIdx (mags : List Nat) (num den : Nat) : Nat := (mags.filter fun t => decide (t * den ≤ num)).length - 1

/-- Round a finite value to a code of a four-bit set. Type 0 reaches 7 and −8. -/
def roundToSet (type rm : Nat) (neg : Bool) (m : Nat) (x : Int) : Nat × Flags :=
  let mags := if type = 0 && !neg then (setMags 0).take 8 else setMags type
  let num := m * 2 ^ (x + 3).toNat
  let den := 2 ^ (-(x + 3)).toNat
  let code (i : Nat) : Nat := if type = 0 then (if neg then (16 - i) % 16 else i) else (if neg then 8 + i else i)
  let top := mags.length - 1
  if mags.getD top 0 * den < num then (code top, Flags.OF ||| Flags.NX)
  else
    let i := lowerIdx mags num den
    let lo := mags.getD i 0
    if lo * den = num then (code i, 0)
    else
      let hi := mags.getD (i + 1) 0
      let up := match rm with
        | 0 => decide ((lo + hi) * den < 2 * num) || (decide ((lo + hi) * den = 2 * num) && decide (i % 2 = 1))
        | 1 => false
        | 2 => neg
        | 3 => !neg
        | _ => decide ((lo + hi) * den ≤ 2 * num)
      (code (if up then i + 1 else i), Flags.NX)

/-! ## The window sum (R272, R273) -/

/-- Exponent of a nonzero finite term. -/
def FV.expo : FV → Option Int
  | .fin _ m x => if m = 0 then none else some (x + Nat.log2 m)
  | _ => none

/-- A finite term truncated to a multiple of 2^k: signed multiple and whether something was lost. -/
def FV.truncated (k : Int) : FV → Int × Bool
  | .fin n m x =>
    let r := roundAt 1 n m x k
    (if n then -(r.1 : Int) else r.1, r.2)
  | _ => (0, false)

/-- The window sum of finite terms. -/
def windowFinite (ts : List FV) : Nat :=
  match (ts.filterMap FV.expo).max? with
  | none => Fmt.f32.signed (ts.all FV.sign) 0
  | some E =>
    let k := E - 50
    let parts := ts.map (FV.truncated k)
    let T : Int := (parts.map (·.1)).foldl (· + ·) 0
    let S := parts.any (·.2)
    if T = 0 then 0
    else (Fmt.f32.round false 0 false (.fin (decide (T < 0)) (T.natAbs * 2 ^ 64 + (if S then 1 else 0)) (k - 64))).1

/-- The result of one element from its products and the incoming accumulator value (R272, R273). -/
def windowSum (ts : List FV) : Nat :=
  let pos := ts.any fun v => decide (v = .inf false)
  let neg := ts.any fun v => decide (v = .inf true)
  if ts.any FV.isNan || (pos && neg) then 0x7FC00000
  else if pos then 0x7F800000
  else if neg then 0xFF800000
  else windowFinite ts

end Sys2Proof.Machine
end

