-- ==== Sys2Proof/Config.lean ====
section
/-! DEFINITION. Config.lean: the figures of the device (R1) and the values the spec leaves open, as constants
without a body: nothing can evaluate them, so a statement that holds, holds for every value (R5, log 4). -/

namespace Sys2Proof.Config

/-- Tiles of one die (R1). -/
def tilesPerDie : Nat := 176
/-- Cores of one tile, the service core included (R1). -/
def coresPerTile : Nat := 32
/-- The service core's number (R1). -/
def serviceCore : Nat := 31
/-- Bytes of main memory: 12 stacks of 96 GiB (R1). -/
def devBytes : Nat := 12 * 96 * 2 ^ 30
/-- Bytes of one tile-store bank (R1, R201). -/
def bankBytes : Nat := 0x20000
/-- Banks of one tile (R1). -/
def banks : Nat := 24
/-- Chips of the largest domain (R76). -/
def maxChips : Nat := 1536

/-- Free 64-bit values: the first argument is the counter of State.clk.free or a frame's `undef`, the second
tells values drawn at one moment apart. -/
opaque freeWord : Nat → Nat → Word
/-- Free bytes: bytes of memory that have no value (R489, log 6). -/
opaque freeByte : Nat → Nat → Byte
/-- Free choices the spec leaves to the device. -/
opaque freeBool : Nat → Nat → Bool
/-- Free numbers. -/
opaque freeNat : Nat → Nat → Nat
/-- At a step, the next word of a frame has been fetched, and its sources have left the interlocks (R169, R170; log 11). -/
opaque wordThere : Nat → Nat → Bool
/-- The host completes an access at an address with success (R211). -/
opaque hostServes : Nat → Nat → Bool
/-- Core cycles that pass at a step (log 3). -/
opaque stepCycles : Nat → Nat
/-- Domain nanoseconds that pass at a step (log 3). -/
opaque stepNs : Nat → Nat

/-- The map from lines of device memory to their home slices (R391; the spec gives none, log 12). -/
opaque sliceMap : Nat → Nat
/-- Home slice of a line of device memory, 0–703 (R1, R391). -/
def sliceOf (line : Nat) : Nat := sliceMap line % 704
/-- Where in the upper half of device memory the memory lies that the device reserves at reset, in MiB: the relay region of 1 GiB (R412),
the spill queue of each slice of 1 MiB (R344), and the megabyte with the publish counters of the queues (R112). The spec gives the sizes
and no place (log 68). -/
opaque relayMiB : Nat
opaque spillMiB : Nat → Nat
opaque pubMiB : Nat
/-- The address lies in the relay region. -/
def inRelay (pa : Nat) : Bool :=
  let base := 2 ^ 39 + 2 ^ 20 * (relayMiB % 2 ^ 18)
  decide (base ≤ pa) && decide (pa < base + 2 ^ 30)
/-- The address lies in the spill queue of a slice. -/
def inSpill (pa : Nat) : Bool :=
  let m := pa / 2 ^ 20 - (2 ^ 19 + 2 ^ 18 + 2048)
  decide (2 ^ 19 + 2 ^ 18 + 2048 ≤ pa / 2 ^ 20) && decide (m / 256 < 704) && decide (m % 256 = spillMiB (m / 256) % 256)
/-- A publish counter is the first word of a line of its own. -/
def pubPa (q : Nat) : Nat := 2 ^ 39 + 2 ^ 20 * (460000 + pubMiB % 100000) + 64 * q
/-- The device reserves the address: its line belongs to the device (R489). -/
def reserved (pa : Nat) : Bool :=
  decide (2 ^ 39 ≤ pa) && (inRelay pa || inSpill pa || decide (pa / 2 ^ 20 = pubPa 0 / 2 ^ 20))
/-- Seeing value of a reply (R502): delays are time, so the value is free. -/
opaque seeing : Nat → BitVec 16

/-- Offset of a handle in the window of an interface: port, interface, handle (R122; log 40). -/
opaque windowOffset : Bool → Nat → Nat → Nat

/-- SHA-512 (R16, R476; log 13). -/
opaque sha512 : List Byte → BitVec 512
/-- ECDSA P-521 verification: public key, digest, signature (R49, R476). -/
opaque ecdsaOk : BitVec 1064 → BitVec 512 → List Byte → Bool
/-- The unique device secret (R475). -/
opaque deviceSecret : BitVec 512
/-- The fused SHA-512 hash of Virow's firmware-signing public key (R475). -/
opaque firmwareKeyHash : BitVec 512
/-- The public key of the Virow root, and its signature over the identity key, made at manufacture and held in fuse-backed storage
(R475, R478). -/
opaque virowRoot : BitVec 1064
opaque virowSig : BitVec 1056
/-- The identity key, from the device secret alone, and its signatures (R475). -/
opaque identityPub : BitVec 512 → BitVec 1064
opaque identitySign : BitVec 512 → BitVec 1064 → BitVec 1056
/-- Alias and wrap public keys, from the device secret and measurement slots 2–4 (R475). -/
opaque aliasPub : BitVec 512 → List (BitVec 512) → BitVec 1064
opaque wrapPub : BitVec 512 → List (BitVec 512) → BitVec 1064
/-- Signature by the alias key over measurements and a nonce (R475, R478). -/
opaque aliasSign : BitVec 512 → List (BitVec 512) → BitVec 256 → BitVec 1056
/-- The ECDH secret of a point and the wrap key, which derives from the device secret and slots 2–4 (R475, R484). -/
opaque ecdh : BitVec 512 → List (BitVec 512) → BitVec 1064 → List Byte
/-- AES-256 decryption of one block, its bytes first to last from the top (R484). -/
opaque aesDec : List Byte → BitVec 128 → BitVec 128
/-- The point is on the curve (R480 BADARG). -/
opaque onCurve : BitVec 1064 → Bool
/-- Draws of the AES-256 CTR_DRBG (R488) and creation nonces (R480). -/
opaque drbg : Nat → BitVec 512
/-- ECDHE share of the responder (R478). -/
opaque dheShare : Nat → BitVec 1064
/-- The MAC that ends the handshake of the session with a draw and a transcript (R478). -/
opaque finishMac : Nat → BitVec 512 → BitVec 512
/-- The boot ROM's digest, fixed at manufacture: slot 1 (R476). -/
opaque romDigest : BitVec 512

end Sys2Proof.Config
end

