-- ==== Sys2Proof/Machine/Ops.lean ====
section
/-! DEFINITION. Machine/Ops.lean: the named operations over registers, presence, frames, cores and memory that the
meanings share, the issue check (R60), taking an exception (R430) and returning from one (R436). -/

namespace Sys2Proof.Machine

/-! ## Keys and parts -/

def coreOfFrame (k : Nat) : Nat := k / 256
def frameNo (k : Nat) : Nat := k % 256
def tileOfCore (c : Nat) : Nat := c / 32
def coreNo (c : Nat) : Nat := c % 32
def dieOfTile (t : Nat) : Nat := t / 176
def tileNo (t : Nat) : Nat := t % 176
def svcOfTile (t : Nat) : Nat := t * 32 + 31
def tileKey (die tile : Nat) : Nat := die * 176 + tile

def State.frame (s : State) (k : Nat) : Frame := Tab.get s.frames k Frame.reset
def State.core (s : State) (c : Nat) : Core := Tab.get s.cores c Core.reset
def State.tile (s : State) (t : Nat) : Tile := Tab.get s.tiles t Tile.reset
def State.array (s : State) (t : Nat) : TArray := Tab.get s.arrays t TArray.reset
def State.engine (s : State) (t : Nat) : Engine := Tab.get s.engines t Engine.reset
def State.die (s : State) (d : Nat) : Die := Tab.get s.dies d Die.reset
def State.job (s : State) (j : BitVec 12) : Job := Tab.get s.chip.jobs j.toNat Job.reset
def State.group (s : State) (g : Nat) : GroupEntry := Tab.get s.chip.groups g GroupEntry.reset
def State.jpol (s : State) (j : BitVec 12) : Word := Tab.get s.chip.jpol j.toNat 0

def State.setFrame (s : State) (k : Nat) (f : Frame) : State := { s with frames := Tab.put s.frames k f }
def State.setCore (s : State) (c : Nat) (x : Core) : State := { s with cores := Tab.put s.cores c x }
def State.setTile (s : State) (t : Nat) (x : Tile) : State := { s with tiles := Tab.put s.tiles t x }
def State.setArray (s : State) (t : Nat) (x : TArray) : State := { s with arrays := Tab.put s.arrays t x }
def State.setEngine (s : State) (t : Nat) (x : Engine) : State := { s with engines := Tab.put s.engines t x }
def State.setDie (s : State) (d : Nat) (x : Die) : State := { s with dies := Tab.put s.dies d x }
def State.setJob (s : State) (j : BitVec 12) (x : Job) : State :=
  { s with chip := { s.chip with jobs := Tab.put s.chip.jobs j.toNat x } }
def State.setGroup (s : State) (g : Nat) (x : GroupEntry) : State :=
  { s with chip := { s.chip with groups := Tab.put s.chip.groups g x } }
def State.send (s : State) (m : Msg) : State := { s with net := s.net ++ [m] }
def State.sendAll (s : State) (ms : List Msg) : State := { s with net := s.net ++ ms }

/-- The frame of the task that issues. -/
def State.me (s : State) : Frame := s.frame s.run.cur
def State.setMe (s : State) (f : Frame) : State := s.setFrame s.run.cur f
def State.updMe (s : State) (u : Frame → Frame) : State := s.setMe (u s.me)

/-- The core at which a frame executes: its tile's service core while a handler runs there (R430). -/
def Frame.coreAt (f : Frame) (key : Nat) : Nat :=
  if f.atSvc then svcOfTile (tileOfCore (coreOfFrame key)) else coreOfFrame key

def State.myCore (s : State) : Nat := s.me.coreAt s.run.cur
def State.myTile (s : State) : Nat := tileOfCore s.myCore
def State.myDie (s : State) : Nat := dieOfTile s.myTile

/-- Service mode: tstat.sv (R427). -/
def Frame.svc (f : Frame) : Bool := f.tstat.getLsbD 62
/-- A trap handler runs in this frame: tstat.h (R426). -/
def Frame.handling (f : Frame) : Bool := f.tstat.getLsbD 63

/-- Origin frame key (R455). -/
def Origin.key (o : Origin) : Nat :=
  (tileKey o.die.toNat o.tile.toNat * 32 + o.core.toNat) * 256 + o.frame.toNat

/-- The task's identity (R455). -/
def Frame.taskId (f : Frame) : TaskId := { chip := f.origin.chip, key := f.origin.key, gen := f.origin.gen }

/-- A fresh number for free values (log 4). -/
def State.fresh (s : State) : State := { s with clk := { s.clk with free := s.clk.free + 1 } }

/-! ## Registers (R64, R77) -/

/-- The value of a register that nothing has written since its frame's values became undefined (R29, R166);
of a frame never activated, 0 (log 5). -/
def undefReg (seed i : Nat) : Word := if seed = 0 then 0 else Config.freeWord seed i

/-- Index bases that keep the free values of the three files apart. -/
def Frame.rawG (f : Frame) (n : Nat) : Word := (Tab.get? f.g n).getD (undefReg f.undef n)
def Frame.rawE (f : Frame) (n e : Nat) : Word := (Tab.get? f.v (8 * n + e)).getD (undefReg f.undef (64 + 8 * n + e))
def Frame.rawM (f : Frame) (n : Nat) : Word := (Tab.get? f.m n).getD (undefReg f.undef (320 + n))

/-- g r; g0 reads 0 (R64). -/
def Frame.rdG (f : Frame) (r : GReg) : Word := if r = 0 then 0 else f.rawG r.toNat
/-- Element e of v r. -/
def Frame.rdE (f : Frame) (r : VReg) (e : Nat) : Word := f.rawE r.toNat e
/-- All of v r: element e at bits [64e+63:64e]. -/
def Frame.rdV (f : Frame) (r : VReg) : BitVec 512 :=
  (f.rdE r 7 ++ f.rdE r 6 ++ f.rdE r 5 ++ f.rdE r 4 ++ f.rdE r 3 ++ f.rdE r 2 ++ f.rdE r 1 ++ f.rdE r 0)
/-- m r; m0 reads all ones (R77). -/
def Frame.rdM (f : Frame) (r : MReg) : Word := if r = 0 then BitVec.allOnes 64 else f.rawM r.toNat
/-- Frame counter c r. -/
def Frame.rdC (f : Frame) (r : Nat) : Word := Tab.get f.c r 0

/-- Write g r: full, poison clear (R61); g0 discards (R64). -/
def Frame.wrG (f : Frame) (r : GReg) (v : Word) : Frame :=
  if r = 0 then f
  else { f with g := Tab.put f.g r.toNat v, gFull := setBit f.gFull r.toNat true,
                gPoison := setBit f.gPoison r.toNat false }
/-- Write element e of v r: that element full, not poisoned. -/
def Frame.wrE (f : Frame) (r : VReg) (e : Nat) (v : Word) : Frame :=
  { f with v := Tab.put f.v (8 * r.toNat + e) v, vFull := setBit f.vFull (8 * r.toNat + e) true,
           vPoison := setBit f.vPoison (8 * r.toNat + e) false }
/-- Write the elements of v r that `es` selects. -/
def Frame.wrEs (f : Frame) (r : VReg) (es : Nat → Bool) (x : BitVec 512) : Frame :=
  (List.range 8).foldl (fun f e => if es e then f.wrE r e (x.extractLsb' (64 * e) 64) else f) f
/-- Write all of v r. -/
def Frame.wrV (f : Frame) (r : VReg) (x : BitVec 512) : Frame := f.wrEs r (fun _ => true) x
/-- Write m r; m0 discards. -/
def Frame.wrM (f : Frame) (r : MReg) (v : Word) : Frame :=
  if r = 0 then f
  else { f with m := Tab.put f.m r.toNat v, mFull := setBit f.mFull r.toNat true,
                mPoison := setBit f.mPoison r.toNat false }
/-- Write a frame counter. -/
def Frame.wrC (f : Frame) (r : Nat) (v : Word) : Frame := { f with c := Tab.put f.c r v }

/-- Poison g r with a cause: the cause in the value slot (R78). -/
def Frame.poisonG (f : Frame) (r : GReg) (cause : Byte) : Frame :=
  if r = 0 then f
  else { f with g := Tab.put f.g r.toNat (cause.setWidth 64), gFull := setBit f.gFull r.toNat true,
                gPoison := setBit f.gPoison r.toNat true }
def Frame.poisonE (f : Frame) (r : VReg) (e : Nat) (cause : Byte) : Frame :=
  { f with v := Tab.put f.v (8 * r.toNat + e) (cause.setWidth 64),
           vFull := setBit f.vFull (8 * r.toNat + e) true,
           vPoison := setBit f.vPoison (8 * r.toNat + e) true }

/-- Clear the full bit of a long-latency destination at issue (R62, R64). -/
def Frame.emptyG (f : Frame) (r : GReg) : Frame :=
  if r = 0 then f else { f with gFull := setBit f.gFull r.toNat false, issuedAt := Tab.del f.issuedAt r.toNat }
def Frame.emptyE (f : Frame) (r : VReg) (e : Nat) : Frame :=
  { f with vFull := setBit f.vFull (8 * r.toNat + e) false, issuedAt := Tab.del f.issuedAt (64 + 8 * r.toNat + e) }

/-- A landing or the reply of a long-latency producer marks its register live (R155, R210, R221). -/
def Frame.liveG (f : Frame) (r : GReg) : Frame := if r = 0 then f else { f with gLive := setBit f.gLive r.toNat true }
def Frame.liveV (f : Frame) (r : VReg) : Frame := { f with vLive := setBit f.vLive r.toNat true }

/-- Fill a destination with a reply: value or poison, and live (R210, R211). -/
def Frame.fill (f : Frame) (d : Dst) (v : Res) : Frame :=
  match d, v with
  | .none, _ => f
  | .g r, .ok w => (f.wrG r w).liveG r
  | .g r, .err c => (f.poisonG r c).liveG r
  | .v r e, .ok w => (f.wrE r e.toNat w).liveV r
  | .v r e, .err c => (f.poisonE r e.toNat c).liveV r
  | .code pa, r => { f with fetched := Tab.put f.fetched pa r }
  | .engine .., _ => f

/-- Clear the full bit a destination names. -/
def Frame.emptyDst (f : Frame) (d : Dst) : Frame :=
  match d with
  | .none => f
  | .g r => f.emptyG r
  | .v r e => f.emptyE r e.toNat
  | .code _ => f
  | .engine .. => f

/-! ## Presence (R59, R60, R424) -/

def Src.strict : Src → Bool
  | .g _ s => s
  | .v _ s => s
  | .m _ s => s

/-- The tval that names a register (R424). -/
def regTval (file reg elem : Nat) : Word := BitVec.ofNat 64 (elem * 256 + file * 64 + reg)

/-- Cause and tval of a poisoned source, the first poisoned element of a vector. -/
def Frame.poisonOf (f : Frame) : Src → Option (Byte × Word)
  | .g r _ => if r ≠ 0 ∧ f.gPoison.getLsbD r.toNat then some ((f.rawG r.toNat).setWidth 8, regTval 0 r.toNat 0) else none
  | .v r _ =>
    ((List.range 8).find? (fun e => f.vPoison.getLsbD (8 * r.toNat + e))).map
      (fun e => ((f.rdE r e).setWidth 8, regTval 1 r.toNat e))
  | .m r _ => if r ≠ 0 ∧ f.mPoison.getLsbD r.toNat then some ((f.rawM r.toNat).setWidth 8, regTval 2 r.toNat 0) else none

/-- The tval of an empty source, the first empty element of a vector; none if the source is full. -/
def Frame.emptyOf (f : Frame) : Src → Option Word
  | .g r _ => if r ≠ 0 ∧ !f.gFull.getLsbD r.toNat then some (regTval 0 r.toNat 0) else none
  | .v r _ =>
    ((List.range 8).find? (fun e => !f.vFull.getLsbD (8 * r.toNat + e))).map (fun e => regTval 1 r.toNat e)
  | .m r _ => if r ≠ 0 ∧ !f.mFull.getLsbD r.toNat then some (regTval 2 r.toNat 0) else none

/-- The outcome of the presence check. -/
inductive Check where
  | trap (cause : Byte) (tval : Word)
  | block
  | go
  deriving DecidableEq, Repr

/-- Sources in format order: poison, then strict and empty, then empty (R60). -/
def Frame.check (f : Frame) (srcs : List Src) : Check :=
  match srcs.findSome? f.poisonOf with
  | some (c, t) => .trap c t
  | none =>
    match (srcs.filter Src.strict).findSome? f.emptyOf with
    | some t => .trap 0x02 t
    | none => if (srcs.findSome? f.emptyOf).isSome then .block else .go

/-! ## Cause codes (R423) -/

def Cause.ILLEGAL : Byte := 0x01
def Cause.EMPTY : Byte := 0x02
def Cause.ALIGN : Byte := 0x03
def Cause.XLATE : Byte := 0x04
def Cause.PERM : Byte := 0x05
def Cause.REFUSED : Byte := 0x06
def Cause.DEADLAND : Byte := 0x07
def Cause.ATOMTYPE : Byte := 0x08
def Cause.CWRAP : Byte := 0x09
def Cause.CWAITHOST : Byte := 0x0A
def Cause.LEASE : Byte := 0x0B
def Cause.SCALESEQ : Byte := 0x0C
def Cause.ORPHAN : Byte := 0x0D
def Cause.SVC : Byte := 0x0E
def Cause.BRK : Byte := 0x0F
def Cause.OWN : Byte := 0x10

/-! ## Program order -/

/-- The address of the word the task issues next, its own words' address in a repeat (R175, R176). -/
def Frame.wordAddr (f : Frame) : Word :=
  match f.rpt with
  | some r => r.base + 4 + BitVec.ofNat 64 (4 * r.j)
  | none => f.pc

/-- After an instruction that goes on: the next word, within an open repeat the next body word, and after its
last execution the word after the body (R175). -/
def Frame.advance (f : Frame) : Frame :=
  match f.rpt with
  | none => { f with pc := f.pc + 4 }
  | some r =>
    if r.j + 1 < r.body.length then { f with rpt := some { r with j := r.j + 1 } }
    else if r.k + 1 < r.n then { f with rpt := some { r with k := r.k + 1, j := 0 } }
    else { f with rpt := none, pc := r.base + BitVec.ofNat 64 (4 * (r.body.length + 1)) }

/-- The task blocks: waiting, evaluated again in full later (R10, R147). -/
def State.block (s : State) (w : Wait) : State :=
  s.updMe fun f => { f with state := .waiting, wait := w, since := if f.state = .waiting then f.since else s.clk.cycle }

/-- The task's condition is met: it runs (R147). -/
def Frame.unblock (f : Frame) : Frame := { f with state := .running, wait := .none }

/-- The job is suspending, suspended or being removed (R466, R468), or stopped by Eyepiece (R494). -/
def State.jobHeld (s : State) (j : BitVec 12) : Bool :=
  decide (2 ≤ (s.job j).state.toNat) || (s.dbg.open_ && decide (s.dbg.job = j) && decide (s.dbg.state ≠ 0))

/-- A frame whose wait or park is over: it runs in its slot, else or while its job is held it is ready (R147, R466,
R494). -/
def State.released (s : State) (f : Frame) : Frame :=
  { f with state := if f.resident && !s.jobHeld f.job then .running else .ready, wait := .none, since := s.clk.cycle }

/-! ## Debug records (R497, R498) -/

/-- The job of a frame is the open job and trace is on (R497). -/
def State.traced (s : State) (f : Frame) : Bool := s.dbg.open_ && s.dbg.on && decide (f.job = s.dbg.job)

/-- Words 0 and 1 of a record about a frame at a core (R497). -/
def State.recHead (s : State) (kind : Nat) (core : Nat) (f : Frame) (tag : Nat) : Word × Word :=
  let t := tileOfCore core
  (at64 kind 60 + at64 s.chip.chipNo.toNat 49 + at64 (dieOfTile t % 2) 48 + at64 (tileNo t) 40 + at64 (coreNo core) 35
      + at64 f.origin.frame.toNat 27 + at64 f.cls.toNat 23 + at64 f.job.toNat 11 + at64 (tag % 2048) 0,
   at64 f.origin.gen.toNat 56 + at64 (fld f.entry 2 55) 0)

/-- A record enters the trace unit's queue; when that is full, which is free above one record, or after a forced
release, it only counts as lost (R498, R500). -/
def State.record (s : State) (r : Rec) : State :=
  if s.dbg.on then
    if !s.dbg.queue.isEmpty && Config.freeBool s.clk.free 9 then
      { s with dbg := { s.dbg with lostcnt := satAdd s.dbg.lostcnt 1 0xFFFFFFFF } }.fresh
    else { s with dbg := { s.dbg with queue := s.dbg.queue ++ [r] } }
  else if s.dbg.forced then { s with dbg := { s.dbg with lostcnt := satAdd s.dbg.lostcnt 1 0xFFFFFFFF } }
  else s

/-- The time of a core's next record: the domain time, but never before that of its last record (R498). -/
def State.recTime (s : State) (core : Nat) : Word :=
  let last := Tab.get s.dbg.recAt core 0
  if s.clk.dtime.toNat < last.toNat then last else s.clk.dtime

/-- A record of the open job about a frame, if the job is traced (R497). -/
def State.trace (s : State) (kind : Nat) (core : Nat) (f : Frame) (tag : Nat) (payload : Word) : State :=
  if s.dbg.open_ && decide (f.job = s.dbg.job) then
    let h := s.recHead kind core f tag
    let s := s.record { w0 := h.1, w1 := h.2, w2 := s.recTime core, w3 := payload }
    { s with dbg := { s.dbg with recAt := Tab.put s.dbg.recAt core (s.recTime core) } }
  else s

/-! ## Slots (R164–R166) -/

/-- Slots of a core (R164). -/
def slotsOf (c : Nat) : Nat := if coreNo c = 31 then 16 else 8

/-- Frame keys resident at a core. -/
def State.residents (s : State) (c : Nat) : List Nat :=
  (s.frames.filter (fun p => p.2.resident && decide (p.2.coreAt p.1 = c))).map (·.1)

/-- Keep the values of live and poisoned registers; the others become undefined (R155, R166). -/
def Frame.saveLive (f : Frame) (seed : Nat) : Frame :=
  { f with
    g := (idxs 64 fun n => decide (n ≠ 0) && (f.gLive.getLsbD n || f.gPoison.getLsbD n)).map (fun n => (n, f.rawG n)),
    v := (idxs 256 fun i => f.vLive.getLsbD (i / 8) || f.vPoison.getLsbD i).map
          (fun i => (i, f.rawE (i / 8) (i % 8))),
    m := (idxs 8 fun n => decide (n ≠ 0) && (f.mLive.getLsbD n || f.mPoison.getLsbD n)).map (fun n => (n, f.rawM n)),
    undef := seed }

/-- A resident context leaves a core: its idle time begins at the earliest now (R506). -/
def State.leaves (s : State) (c : Nat) : State := s.setCore c { s.core c with idleAt := s.clk.cycle }

/-- Traffic for a gated core: it wakes (R506). -/
def State.rouse (s : State) (c : Nat) : State :=
  if (s.core c).gated then s.setCore c { s.core c with gated := false, idleAt := s.clk.cycle } else s

/-- The core that issued what a destination awaits is remembered when the task leaves it, so that the reply counts there (R502). -/
def dstKey (d : Dst) : Option Nat :=
  match d with
  | .g r => some r.toNat
  | .v r e => some (64 + 8 * r.toNat + e.toNat)
  | _ => none

def Frame.leftCore (f : Frame) (c : Nat) : Frame :=
  if f.gFull = BitVec.allOnes 64 ∧ f.vFull = BitVec.allOnes 256 then f
  else
    let open_ := ((idxs 64 fun n => !f.gFull.getLsbD n) ++ (idxs 256 fun i => !f.vFull.getLsbD i).map (64 + ·)).filter
      fun n => (Tab.get? f.issuedAt n).isNone
    { f with issuedAt := open_.foldl (fun t n => Tab.put t n c) f.issuedAt }

/-- The core whose accumulators a reply for a destination of a frame counts in. -/
def Frame.issuerAt (f : Frame) (key : Nat) (d : Dst) : Nat := ((dstKey d).bind (Tab.get? f.issuedAt)).getD (f.coreAt key)

/-- A task goes: its followers leave it and issue the words that they have received; where it is `gone`, joins with it are
cancelled too (R178, R179). -/
def State.loseFollowers (s : State) (k : Nat) (gone : Bool) : State :=
  { s with frames := s.frames.map fun p => match p.2.follow with
      | some (l, _, joined) =>
        if l ≠ k then p
        else if joined then (p.1, { p.2 with follow := none })
        else if gone ∧ p.2.wait = .join then (p.1, s.released { p.2 with follow := none })
        else p
      | none => p }

/-- An eviction writes this 64-byte line of the image: registers in groups of eight, a vector register, the masks, and the
control block of 256 bytes (R166). -/
def Frame.savesLine (f : Frame) (line : Nat) : Bool :=
  if line < 8 then (List.range 8).any fun i => f.gLive.getLsbD (8 * line + i) || f.gPoison.getLsbD (8 * line + i)
  else if line < 40 then f.vLive.getLsbD (line - 8) || (List.range 8).any fun e => f.vPoison.getLsbD (8 * (line - 8) + e)
  else if line = 40 then (List.range 8).any fun n => f.mLive.getLsbD n || f.mPoison.getLsbD n
  else decide (line < 45)

/-- Evict a frame from its slot (R166): a running one becomes ready, a waiting or parked one keeps its state (R147). It leaves
its leader, and a join is cancelled; its followers leave it (R178, R179). The image lines that it writes lose their
uncorrectable marks (R514). -/
def State.evict (s : State) (k : Nat) : State :=
  let s := s.fresh.leaves ((s.frame k).coreAt k)
  let f := s.frame k
  let goes := decide (f.state = .running) || decide (f.wait = .join)
  let s := s.setFrame k { (f.saveLive s.clk.free) with
    resident := false, follow := none, stream := [], state := if goes then .ready else f.state,
    wait := if goes then .none else f.wait, evictedAt := if goes then s.clk.cycle else f.evictedAt,
    since := if f.wait = .join then s.clk.cycle else f.since, yielded := false }
  let s : State := { s with mem := { s.mem with badArena := s.mem.badArena.filter fun l => !(decide (l / 64 = k) && f.savesLine (l % 64)) } }
  s.loseFollowers k false

/-- The context a core evicts for a frame of priority p: waiting or parked, earliest first (R165); else, which is free, one
that yielded, of no higher priority (R155); else a running one of lower priority, lowest then least recently issued. A
frame in transfer or with an open repeat is never taken. -/
def State.victim (s : State) (c p : Nat) : Option Nat :=
  let ok := (s.residents c).filter (fun k => (s.frame k).transfer.isNone && (s.frame k).rpt.isNone)
  let idle := ok.filter (fun k => (s.frame k).state = .waiting || (s.frame k).state = .parked)
  let earliest := idle.foldl (fun b k => match b with
    | none => some k
    | some j => if (s.frame k).since < (s.frame j).since then some k else b) none
  let yielded := ok.find? fun k => decide ((s.frame k).state = .ready) && decide ((s.frame k).curPrio ≤ p) && Config.freeBool s.clk.free 20
  match earliest.orElse fun _ => yielded with
  | some k => some k
  | none =>
    (ok.filter (fun k => (s.frame k).state = .running && decide ((s.frame k).curPrio < p))).foldl
      (fun b k => match b with
        | none => some k
        | some j =>
          if (s.frame k).curPrio < (s.frame j).curPrio ∨
             ((s.frame k).curPrio = (s.frame j).curPrio ∧ (s.frame k).issueNo < (s.frame j).issueNo)
          then some k else b) none

/-- Make room for one more context at a core. -/
def State.makeRoom (s : State) (c p : Nat) : State :=
  if (s.residents c).length < slotsOf c then s
  else match s.victim c p with
    | some k => s.evict k
    | none => s

/-- A context slot of the core is free (R164). -/
def State.slotFree (s : State) (c : Nat) : Bool := decide ((s.residents c).length < slotsOf c)

/-! ## The array lease as traps and moves meet it (R277, R280) -/

/-- End the lease if this frame holds it; `lost` sets the lease-lost flag tstat.ll (R280). -/
def State.endLease (s : State) (k : Nat) (lost : Bool) : State :=
  let t := tileOfCore (coreOfFrame k)
  let a := s.array t
  match a.lease with
  | some l =>
    if l.task = (s.frame k).origin.key ∧ l.gen = (s.frame k).origin.gen then
      let s := s.setArray t { a with lease := none }
      if lost then s.setFrame k { s.frame k with tstat := setBit (s.frame k).tstat 60 true } else s
    else s
  | none => s

/-- Withdraw a frame's waiting lease request (R287). -/
def State.dropLeaseReq (s : State) (k : Nat) : State :=
  let t := tileOfCore (coreOfFrame k)
  let a := s.array t
  s.setArray t { a with reqs := a.reqs.filter (fun r => decide (r.task ≠ (s.frame k).origin.key)) }

/-- Withdraw the frame's registered waits, polls and parked accesses; a wait at a peer chip by a message that follows it
there (R347, R425). -/
def State.withdraw (s : State) (k : Nat) : State :=
  let id := (s.frame k).taskId
  let mine : CWaiter → Bool := fun w => match w.w with
    | .task who .. => decide (who = id)
    | .front .. => false
  let keep : Msg → Bool := fun m => match m with
    | .cwait (.task who ..) .. => decide (who ≠ id)
    | .wake (.task who ..) .. => decide (who ≠ id)
    | .marker who => decide (who ≠ id)
    | _ => true
  let dropW : Waiter × BitVec 12 → Bool := fun w => match w.1 with
    | .task who .. => decide (who ≠ id)
    | .front .. => true
  let s := s.dropLeaseReq k
  let strip (m : Msg) : Msg := match m with
    | .toWake ws v rels => .toWake (ws.filter dropW) v rels
    | m => m
  let tiles := s.tiles.map fun p => (p.1, { p.2 with waiters := p.2.waiters.filter fun w => !mine w })
  let far : List Msg := match (s.frame k).wait with
    | .wake _ (.peer c pa) => [.unwait id (s.frame k).job (.peer c pa)]
    | _ => []
  let net := (s.net.filter keep).map strip ++ far
  let parks := s.parks.filter fun p => decide (p.who ≠ .task k)
  let chip := { s.chip with waiters := s.chip.waiters.filter fun w => !mine w,
                            spilled := s.chip.spilled.filter fun w => !mine w }
  { s with chip := chip, tiles := tiles, net := net, parks := parks }

/-- A task leaves its leader, and gives up its own stream channel (R179, R180). -/
def State.unfollow (s : State) (k : Nat) : State :=
  let f := s.frame k
  let s := s.setFrame k { f with follow := none, stream := [] }
  let c := coreOfFrame k
  let x := s.core c
  if x.stream = some (k, f.gen) then s.setCore c { x with stream := none } else s

/-- A task leaves its leader and its own followers: it retires or leaves its core (R177, R179). -/
def State.endFollow (s : State) (k : Nat) : State := (s.unfollow k).loseFollowers k true

/-! ## Copies in the L1 data caches (R203) -/

def l1Key (c line : Nat) : Nat := c * 2 ^ 36 + line

/-- Drop every line of a core's L1. -/
def State.flushL1 (s : State) (c : Nat) : State :=
  { s with mem := { s.mem with l1 := Tab.clear s.mem.l1 (l1Key c 0) (l1Key (c + 1) 0) } }

/-! ## Taking an exception (R428–R433) -/

def saveBase (k : Nat) : Nat := k * 4096 + 0xB10

/-- Save area of R431: g60, g61 and their full, poison and live bits. -/
def saveArea (f : Frame) : List Byte :=
  leBytes (f.rawG 60).toNat 8 ++ leBytes (f.rawG 61).toNat 8 ++
    [BitVec.ofNat 8 (b2n (f.gFull.getLsbD 60) + 2 * b2n (f.gPoison.getLsbD 60) + 4 * b2n (f.gFull.getLsbD 61)
      + 8 * b2n (f.gPoison.getLsbD 61) + 16 * b2n (f.gLive.getLsbD 60) + 32 * b2n (f.gLive.getLsbD 61))]

/-- The tile-window address of the frame image of a frame-table entry (R201, R430). -/
def imageAddr (k : Nat) : Word :=
  let c := coreOfFrame k
  let t := tileOfCore c
  at64 0x1FF 48 + at64 (dieOfTile t) 40 + at64 (tileNo t) 32
    + BitVec.ofNat 64 (0xE0000000 + 0x100000 * coreNo c + 0x1000 * frameNo k)

/-- The forwarding entry of an origin frame at its core (R456). -/
def State.fwdOf (s : State) (o : Nat) : Option Fwd :=
  (s.core (coreOfFrame o)).fwd.find? (fun e => decide (e.frame = frameNo o))

def State.setFwd (s : State) (o : Nat) (gen : BitVec 8) (host : FwdTo) : State :=
  let c := coreOfFrame o
  let x := s.core c
  let e : Fwd := { frame := frameNo o, gen := gen, host := host }
  s.setCore c { x with fwd := e :: x.fwd.filter (fun e => decide (e.frame ≠ frameNo o)) }

/-- Forwarding entries of a core in use: those that name a host, and the one that a frame whose first move is under way has taken
(R456). -/
def Core.fwdUsed (x : Core) : Nat :=
  x.fwd.length + match x.mig with
    | some m => if m.src = m.frame then 1 else 0
    | none => 0

def State.dropFwd (s : State) (o : Nat) : State :=
  let c := coreOfFrame o
  let x := s.core c
  s.setCore c { x with fwd := x.fwd.filter (fun e => decide (e.frame ≠ frameNo o)) }

/-- A fatal fault of a job is reported to the front end, with the frame's image address if there is a frame (R433). -/
def State.fatalFault (s : State) (job : BitVec 12) (cause : Byte) (image : Option Word) : State := s.send (.fatal job cause image)

/-- The frame is installed at its tile's service core and its handler starts, if its origin core has a
forwarding entry for it; a frame already on a service core stays in place (R430). The L1 copies of the core it comes to
are dropped, so that the task reads nothing older than before (R213; log 9). With no slot free and none to evict, the
frame waits for one (R164, R165; log 64). -/
def State.trapInstall (s : State) : State :=
  let k := s.run.cur
  let f := s.me
  let c := coreOfFrame k
  let t := tileOfCore c
  let svc := svcOfTile t
  let enter : Bool → State → State := fun fits s =>
    s.updMe fun f =>
      let f := (f.wrG 60 (imageAddr k)).liveG 60
      let f := (f.wrG 61 (f.cause.setWidth 64)).liveG 61
      { f.leftCore (f.coreAt k) with
               state := if fits then .running else .ready, wait := .none, resident := fits, atSvc := decide (coreNo c ≠ 31), yielded := false,
               pc := BitVec.ofNat 64 (4 * fld (s.tile t).tvec 2 55), since := s.clk.cycle }
  let install : State → State := fun s =>
    let s := s.makeRoom svc f.curPrio
    enter (s.slotFree svc) (s.flushL1 svc)
  if coreNo c = 31 then (if f.resident then enter true s else install s)
  else
  let s := s.leaves c
  if f.guest then install (s.setFwd f.origin.key f.origin.gen (.svc k))
  else if (s.core c).fwdUsed < 64 then install (s.setFwd k f.gen (.svc k))
  else s.updMe fun f => { f with state := .migrating, wait := .fwdEntry }

/-- Taking a trap (R430): the one operation every exact and asynchronous trap goes through. -/
def State.trapAt (s : State) (cause : Byte) (tval epc : Word) (async : Bool) : State :=
  let k := s.run.cur
  let s := s.updMe fun f => { f with
    cause := at64 (b2n async) 8 + cause.setWidth 64, epc := epc &&& ~~~3#64, tval := tval, counted := false }
  let f := s.me
  let t := tileOfCore (coreOfFrame k)
  let s := s.trace 5 (f.coreAt k) f 0 (at64 cause.toNat 55 + at64 (fld epc 2 55) 0)
  if f.handling || !((s.tile t).tvec.getLsbD 63) then
    let s := (s.endFollow k).withdraw k
    (s.updMe fun f => { f with state := .parked, wait := .halted, rpt := none, rptSaved := none, since := s.clk.cycle }).fatalFault f.job cause
      (some (imageAddr k))
  else
    let s := { s with mem := { s.mem with arena := Mem.puts (some 0) s.mem.arena (saveBase k) (saveArea f) } }
    let ts := f.tstat
    let ts := setBit ts 61 (ts.getLsbD 62)
    let ts := setBit (setBit ts 62 true) 63 true
    let ts := putFld ts 42 5 (coreNo (f.coreAt k))
    let ts := setBit ts 41 f.guest
    let ts := putFld ts 33 8 (if f.guest then frameNo k else 0)
    let ts := match f.rpt with
      | some r => putFld (putFld (setBit ts 59 true) 51 8 r.k) 47 4 r.j
      | none => putFld (putFld (setBit ts 59 false) 51 8 0) 47 4 0
    let s := (s.endFollow k).withdraw k
    let s := s.updMe fun f => { f with tstat := ts, wait := .none, state := .migrating, rpt := none, rptSaved := f.rpt }
    let s := s.endLease k true
    s.trapInstall

/-- An exact trap of the instruction being issued: epc names it, its body word inside a repeat (R428). -/
def State.trap (s : State) (cause : Byte) (tval : Word) : State :=
  s.trapAt cause tval s.me.wordAddr false

/-- The same state with another task issuing. -/
def State.asTask (s : State) (k : Nat) : State :=
  let r : Sched := { s.run with cur := k }
  { s with run := r }

/-- Issue an instruction with its sources: traps and blocks by presence, else the effect (R60, R66). -/
def State.issue (s : State) (srcs : List Src) (k : State → State) : State :=
  match s.me.check srcs with
  | .trap c t => s.trap c t
  | .block => s.block (.presence srcs)
  | .go => k (s.updMe Frame.unblock)

/-- A privileged form: PERM outside service mode, before presence (R66, R68). The tval is the model's choice
of the instruction's address (log 15). -/
def State.privileged (s : State) (k : State → State) : State :=
  if s.me.svc then k s else s.trap Cause.PERM s.me.wordAddr

/-- The instruction goes on to the next word. -/
def State.next (s : State) : State := s.updMe Frame.advance

/-- Write g r and go on. -/
def State.retG (s : State) (r : GReg) (v : Word) : State := s.updMe fun f => (f.wrG r v).advance

/-! ## Returning from an exception (R436) -/

/-- Bytes of the save area, as saved. -/
def State.savedByte (s : State) (k i : Nat) : Byte := Tab.get s.mem.arena (saveBase k + i) 0

def State.savedWord (s : State) (k i : Nat) : Word := leWord ((List.range 8).map (fun n => s.savedByte k (i + n)))

/-- g60 and g61 with their bits from the save area (R431, R436). -/
def Frame.restore (f : Frame) (w60 w61 : Word) (bits : Byte) : Frame :=
  { f with
    g := Tab.put (Tab.put f.g 60 w60) 61 w61,
    gFull := setBit (setBit f.gFull 60 (bits.getLsbD 0)) 61 (bits.getLsbD 2),
    gPoison := setBit (setBit f.gPoison 60 (bits.getLsbD 1)) 61 (bits.getLsbD 3),
    gLive := setBit (setBit f.gLive 60 (bits.getLsbD 4)) 61 (bits.getLsbD 5) }

/-- The repeat that tstat names, opened again at its k and j: the captured words, the body word j at pc (R176,
R436; log 16). -/
def Frame.reopen (f : Frame) (pc : Word) : Option Rpt :=
  if f.tstat.getLsbD 59 then
    f.rptSaved.map fun r =>
      { r with k := fld f.tstat 51 8, j := fld f.tstat 47 4, base := pc - 4 - BitVec.ofNat 64 (4 * fld f.tstat 47 4) }
  else none

/-- The return (R436); with no slot free and none to evict, the frame waits for one (log 64). A frame that moves back loses
the lease that its handler took (R277, R280). -/
def State.tret (s : State) : State :=
  let k := s.run.cur
  let f := s.me
  let ts := f.tstat
  let freed : State → State := fun s => match f.trapEntry with
    | some (c, e) =>
      let x := s.core c
      s.setCore c { x with journal := match Tab.get? x.journal e with
        | some j => if j.copies = 0 then Tab.del x.journal e else Tab.put x.journal e { j with state := 1, reason := 0 }
        | none => x.journal }
    | none => s
  let back : State → State := fun s =>
    if f.atSvc then
      if ts.getLsbD 41 then s.setFwd f.origin.key f.origin.gen (.guest k) else s.dropFwd k
    else s
  let r := f.reopen f.epc
  let ts' := setBit (setBit ts 63 false) 62 (ts.getLsbD 61)
  let ts' := setBit (setBit ts' 61 false) 59 false
  let ts' := setBit (putFld (putFld ts' 51 8 0) 47 4 0) 41 false
  let ts' := putFld ts' 33 8 0
  let s := back (freed s)
  let s := if f.atSvc then (s.makeRoom (coreOfFrame k) f.curPrio).flushL1 (coreOfFrame k) else s
  let fits := !f.atSvc || s.slotFree (coreOfFrame k)
  let s := s.updMe fun g =>
    { ((g.leftCore (f.coreAt k)).restore (s.savedWord k 0) (s.savedWord k 8) (s.savedByte k 16)) with
      tstat := ts', atSvc := false, trapEntry := none, pc := f.epc, rpt := r, rptSaved := none,
      state := if fits then .running else .ready, wait := .none, resident := fits, since := s.clk.cycle }
  if f.atSvc then s.endLease k true else s

end Sys2Proof.Machine
end

