-- ==== Sys2Proof/Machine/Xlate.lean ====
section
/-! DEFINITION. Machine/Xlate.lean: from addresses to places: page tables, translation caches, the tile window,
parking with its fault records (R200–R202, R439–R446), and reading and writing device memory under the owner
check (R489, R514). -/

namespace Sys2Proof.Machine

/-! ## Device memory (R489, R514) -/

/-- The job exists on this chip: JPOL.v (R479). -/
def State.jobExists (s : State) (j : BitVec 12) : Bool := (s.jpol j).getLsbD 63

/-- The tag of a request: job 0 carries the device tag (R483). -/
def tagOf (j : BitVec 12) : Owner := if j = 0 then .device else .job j

/-- The owner check of R489. -/
inductive Check489 where
  | served
  | refused
  /-- a line never written, or of a job that no longer exists -/
  | stale
  deriving DecidableEq, Repr

def State.ownerCheck (s : State) (tag : Owner) (owner : Option Owner) : Check489 :=
  match owner with
  | none => .stale
  | some o =>
    if o = tag then .served
    else match o, tag with
      | .device, _ => .refused
      | .job _, .device => .refused
      | .job k, .job _ => if s.jobExists k then .refused else .stale

/-- The owner of a line; memory that the device reserved at reset is its own (R344, R412, R489). -/
def State.lineOwner (s : State) (pa : Nat) : Option Owner :=
  if Config.reserved pa then some .device else Tab.get? s.mem.owner (pa / 64)

/-- What a read at a home yields. -/
inductive Got where
  | bytes (bs : List Byte)
  | err (cause : Byte)
  deriving DecidableEq, Repr

/-- One byte of device memory; a byte with no value is free (log 6). -/
def State.devByte (s : State) (pa : Nat) : Byte := (Tab.get? s.mem.dev pa).getD (Config.freeByte s.clk.free pa)

def freeBytes (seed pa n : Nat) : List Byte := (List.range n).map fun i => Config.freeByte seed (pa + i)

/-- A read of `n` bytes within one line of device memory (R211, R489, R514); beyond the memory of the chip the value is
undefined (R1, R14; log 17). -/
def State.devRead (s : State) (tag : Owner) (pa n : Nat) : Got :=
  if Config.devBytes ≤ pa then .bytes (freeBytes s.clk.free pa n)
  else match s.ownerCheck tag (s.lineOwner pa) with
    | .refused => .err Cause.PERM
    | .stale => if s.mem.bad.contains (pa / 64) then .err Cause.REFUSED else .bytes (freeBytes s.clk.free pa n)
    | .served =>
      if s.mem.bad.contains (pa / 64) then .err Cause.REFUSED
      else .bytes ((List.range n).map fun i => s.devByte (pa + i))

/-- The place lies in a range of device memory. -/
def Place.inDev (p : Place) (lo hi : Nat) : Bool :=
  match p with
  | .dev a => decide (lo ≤ a) && decide (a < hi)
  | _ => false

/-- The write was made in a range of device memory. -/
def Write.inDev (x : Write) (lo hi : Nat) : Bool := x.at_.inDev lo hi

/-- A write within one line of device memory; none where it is refused. A line that changes owner loses its old
bytes, and a write of all 64 bytes clears the uncorrectable mark. Beyond the memory of the chip nothing is kept (log 17). -/
def State.devWrite (s : State) (tag : Owner) (pa : Nat) (bs : List Byte) : Option State :=
  let line := pa / 64
  let old := match s.ownerCheck tag (s.lineOwner pa) with
    | .served => s.mem.dev
    | _ => Tab.clear s.mem.dev (64 * line) (64 * line + 64)
  if Config.devBytes ≤ pa then some s
  else if s.ownerCheck tag (s.lineOwner pa) = .refused then none
  else
    let bad := if bs.length = 64 then s.mem.bad.filter (fun l => decide (l ≠ line)) else s.mem.bad
    let past := match s.ownerCheck tag (s.lineOwner pa) with
      | .served => s.mem.past
      | _ => s.mem.past.filter fun x => !x.inDev (64 * line) (64 * line + 64)
    some { s with mem := { s.mem with dev := Mem.puts none old pa bs,
                                      owner := Tab.put s.mem.owner line tag, bad := bad, past := past } }

/-- Writes that may cross lines, each line checked by itself; the second component says that all were served. -/
def State.devWrites (s : State) (tag : Owner) : Nat → Nat → List Byte → State × Bool
  | 0, _, _ => (s, true)
  | fuel + 1, pa, bs =>
    match bs with
    | [] => (s, true)
    | b :: rest =>
      let n := 64 - pa % 64
      match s.devWrite tag pa ((b :: rest).take n) with
      | some s => s.devWrites tag fuel (pa + n) ((b :: rest).drop n)
      | none => ((s.devWrites tag fuel (pa + n) ((b :: rest).drop n)).1, false)

/-- Reads that may cross lines; the first error decides. -/
def State.devReads (s : State) (tag : Owner) : Nat → Nat → Nat → Got
  | 0, _, _ => .bytes []
  | fuel + 1, pa, n =>
    if n = 0 then .bytes []
    else
      let m := min n (64 - pa % 64)
      match s.devRead tag pa m, s.devReads tag fuel (pa + m) (n - m) with
      | .bytes a, .bytes b => .bytes (a ++ b)
      | .err c, _ => .err c
      | _, .err c => .err c

/-! ## Host memory (R211, R440) -/

/-- The port that HLEASE.owner names (R109). -/
def State.hostPort (s : State) : Option Bool :=
  match fld s.fe.hlease 62 2 with
  | 1 => some false
  | 2 => some true
  | _ => none

/-- Host memory answers an access of a task: an owner is named and its port delivers; without one the access is
refused with PERM (R440). -/
def State.hostUp (s : State) : Bool :=
  match s.hostPort with
  | some false => !s.fe.lost0
  | some true => !s.fe.lost1
  | none => false

/-- The host completes a read or an AtomicOp of a task; whether it completes with Unsupported Request or Completer Abort
instead is the host's, and free (R211; log 4). -/
def State.hostAnswers (s : State) (a : Nat) : Bool := s.hostUp && Config.hostServes s.clk.free a

/-- Host memory behind a port. -/
def hostKey (port : Bool) (a : Nat) : Nat := b2n port * 2 ^ 64 + a % 2 ^ 64
def State.portByte (s : State) (port : Bool) (a : Nat) : Byte :=
  (Tab.get? s.mem.host (hostKey port a)).getD (Config.freeByte s.clk.free (hostKey port a))
def State.portBytes (s : State) (port : Bool) (a n : Nat) : List Byte := (List.range n).map fun i => s.portByte port (a + i)
def State.portPut (s : State) (port : Bool) (a : Nat) (bs : List Byte) : State :=
  { s with mem := { s.mem with host := Mem.puts none s.mem.host (hostKey port a) bs } }

/-- The memory of the host that a task's access reaches: the one behind the port of the lease (R440). -/
def State.hostBytes (s : State) (a n : Nat) : List Byte := s.portBytes (s.hostPort.getD false) a n
def State.hostPut (s : State) (a : Nat) (bs : List Byte) : State := s.portPut (s.hostPort.getD false) a bs

/-! ## Page tables (R439, R440) -/

/-- A page-table entry, read as the device; none where the walk treats it as invalid (R489, R491). -/
def State.pte (s : State) (pa : Nat) : Option Word :=
  match s.devRead .device pa 8 with
  | .bytes bs => some (leWord bs)
  | .err _ => none

/-- The outcome of a walk: a leaf at level 2 or 3 with log2 of its page size, or the level whose entry is invalid
(4: no valid root). -/
inductive Walk where
  | leaf (w : Word) (level lg : Nat)
  | invalid (level : Nat)
  deriving DecidableEq, Repr

/-- The table an entry names: bits [51:13]. -/
def tableOf (w : Word) : Nat := fld w 13 39 * 2 ^ 13

/-- The entry of a run that the translation takes its fields from: the accessed page's own or the run's first,
with no stated choice (R440; log 4). -/
def State.runLeaf (s : State) (t idx : Nat) (own : Word) : Walk :=
  if Config.freeBool s.clk.free 0 then .leaf own 3 16
  else match s.pte (t + 8 * (idx / 32 * 32)) with
    | some first => if first.getLsbD 63 && first.getLsbD 62 then .leaf first 3 21 else .leaf own 3 16
    | none => .leaf own 3 16

/-- The four-level walk (R439). -/
def State.walk (s : State) (job : BitVec 12) (va : Word) : Walk :=
  let root := Tab.get s.chip.troot job.toNat 0
  if !root.getLsbD 63 then .invalid 4
  else match s.pte (fld root 14 38 * 2 ^ 14 + 8 * fld va 46 11) with
    | none => .invalid 0
    | some e0 =>
      if !e0.getLsbD 63 || e0.getLsbD 62 then .invalid 0
      else match s.pte (tableOf e0 + 8 * fld va 36 10) with
        | none => .invalid 1
        | some e1 =>
          if !e1.getLsbD 63 || e1.getLsbD 62 then .invalid 1
          else match s.pte (tableOf e1 + 8 * fld va 26 10) with
            | none => .invalid 2
            | some e2 =>
              if !e2.getLsbD 63 then .invalid 2
              else if e2.getLsbD 62 then .leaf e2 2 26
              else match s.pte (tableOf e2 + 8 * fld va 16 10) with
                | none => .invalid 3
                | some e3 =>
                  if !e3.getLsbD 63 || !e3.getLsbD 62 then .invalid 3
                  else if e3.getLsbD 54 then s.runLeaf (tableOf e2) (fld va 16 10) e3
                  else .leaf e3 3 16

/-- Physical address of an address under a leaf of page size 2^lg: the page's low physical bits count as zero
(R440). -/
def leafPa (leaf : Word) (lg : Nat) (va : Word) : Nat :=
  fld leaf 16 36 * 2 ^ 16 / 2 ^ lg * 2 ^ lg + va.toNat % 2 ^ lg

/-! ## Translation caches (R442, R443) -/

def Tlb.covers (e : Tlb) (job : BitVec 12) (va : Word) : Bool :=
  decide (e.job = job) && decide (e.base = va.toNat / 2 ^ e.lg)

/-- The cached translation an access meets: the first level that holds one. -/
def State.tlbHit (s : State) (levels : List TlbAt) (job : BitVec 12) (va : Word) : Option Tlb :=
  levels.findSome? fun l => s.chip.tlb.find? fun e => decide (e.at_ = l) && e.covers job va

/-- Entries of a level (R442). -/
def TlbAt.room : TlbAt → Nat
  | .core _ => 64
  | .tile _ => 1024
  | .die _ => 24576

/-- A level takes a translation. In a full one another goes; which one, and whether one goes where there is room, as a level need not
put any entry anywhere, is free (log 4). -/
def tlbPut (seed : Nat) (t : List Tlb) (e : Tlb) : List Tlb :=
  let rest := t.filter fun x => !(decide (x.at_ = e.at_) && decide (x.job = e.job) && decide (x.base = e.base) && decide (x.lg = e.lg))
  match rest.filter fun x => decide (x.at_ = e.at_) with
  | [] => e :: rest
  | v :: vs =>
    if decide (e.at_.room ≤ vs.length + 1) || Config.freeBool seed 1 then e :: rest.erase (((v :: vs)[Config.freeNat seed 1 % (vs.length + 1)]?).getD v)
    else e :: rest

/-- Enter a translation at some levels of the access. -/
def State.tlbFill (s : State) (levels : List TlbAt) (job : BitVec 12) (va leaf : Word) (lg : Nat) : State :=
  let put (t : List Tlb) (l : TlbAt) : List Tlb := tlbPut s.clk.free t { at_ := l, job := job, base := va.toNat / 2 ^ lg, lg := lg, leaf := leaf }
  { s with chip := { s.chip with tlb := levels.foldl put s.chip.tlb } }

def coreLevels (c : Nat) : List TlbAt := [.core c, .tile (tileOfCore c), .die (dieOfTile (tileOfCore c))]
def tileLevels (t : Nat) : List TlbAt := [.tile t, .die (dieOfTile t)]

/-- Kinds of access (R441). -/
inductive AccKind where
  | fetch | read | write | both
  deriving DecidableEq, Repr

def AccKind.permitted (a : AccKind) (leaf : Word) : Bool :=
  match a with
  | .fetch => leaf.getLsbD 57
  | .read => leaf.getLsbD 59
  | .write => leaf.getLsbD 58
  | .both => leaf.getLsbD 59 && leaf.getLsbD 58

/-- The outcome of a translation: a place; PERM; no valid leaf, with the level; a host-owned page. -/
inductive Xl where
  | ok (p : Place)
  | perm
  | noLeaf (level : Nat)
  | own (p : Place)
  deriving DecidableEq, Repr

/-- The target of a leaf (R440). A peer number that is the own chip's reaches own memory (log 19). -/
def State.leafPlace (s : State) (leaf : Word) (lg : Nat) (va : Word) : Place :=
  let pa := leafPa leaf lg va
  if fld leaf 60 2 = 0 then .dev pa
  else if fld leaf 60 2 = 1 then
    if leaf.extractLsb' 0 11 = s.chip.chipNo then .dev pa else .peer (leaf.extractLsb' 0 11) pa
  else .host pa

/-- The checks of a leaf, in order (R441). -/
def State.checkLeaf (s : State) (leaf : Word) (lg : Nat) (svc : Bool) (acc : AccKind) (va : Word) : Xl :=
  if fld leaf 60 2 = 3 then .perm
  else if leaf.getLsbD 56 && !svc then .perm
  else if !acc.permitted leaf then .perm
  else if leaf.getLsbD 55 then .own (s.leafPlace leaf lg va)
  else .ok (s.leafPlace leaf lg va)

/-- Translate: the first level that holds a translation serves the access and fills the levels above it; a miss in every level is walked,
and a walk that finds a leaf fills every level (R442). -/
def State.translate (s : State) (levels : List TlbAt) (job : BitVec 12) (svc : Bool) (acc : AccKind) (va : Word) : State × Xl :=
  match s.tlbHit levels job va with
  | some e => ((s.tlbFill (levels.takeWhile fun l => decide (l ≠ e.at_)) job va e.leaf e.lg).fresh, s.checkLeaf e.leaf e.lg svc acc va)
  | none => match s.walk job va with
    | .invalid l => (s, .noLeaf l)
    | .leaf w _ lg => ((s.tlbFill levels job va w lg).fresh, s.checkLeaf w lg svc acc va)

/-! ## Parking (R444–R446) -/

/-- A fault that could not be recorded or entered. -/
def Die.drop (d : Die) : Die := { d with dropped := true, dropcount := satAdd d.dropcount 1 0xFFFF }

/-- Enter a new pending fault in the fault buffer (R445). -/
def Die.enter (d : Die) (kind : BitVec 3) (job : BitVec 12) (level : Nat) (page : BitVec 41) (core : BitVec 5)
    (tile : BitVec 8) (time : BitVec 32) : Die :=
  if d.fb.any (fun p => decide (p.2.job = job) && decide (p.2.page = page)) then d
  else match (idxs 8 fun e => (Tab.get? d.fb e).isNone).head? with
    | none => d.drop
    | some e =>
      { d with fb := Tab.put d.fb e { kind := kind, job := job, level := BitVec.ofNat 4 level, page := page,
                                      count := 1, core := core, tile := tile, time := time } }

/-- Record a park under XLATE: coalesce, or make a pending-fault entry (R444). -/
def Die.fault (d : Die) (kind : BitVec 3) (job : BitVec 12) (level : Nat) (page : BitVec 41) (core : BitVec 5)
    (tile : BitVec 8) (time : BitVec 32) : Die :=
  if d.pft.any (fun p => decide (p.job = job) && decide (p.page = page)) then
    { d with
      pft := d.pft.map (fun p => if p.job = job ∧ p.page = page then { p with count := p.count + 1 } else p),
      fb := d.fb.map (fun p => if p.2.job = job ∧ p.2.page = page
              then (p.1, { p.2 with count := satAdd p.2.count 1 0xFFFF }) else p) }
  else if d.pft.length < 256 then
    let e : Pft := { job := job, page := page, count := 1 }
    Die.enter { d with pft := d.pft ++ [e] } kind job level page core tile time
  else d.drop

/-- An access parks under XLATE on the die of a tile. -/
def State.parkXlate (s : State) (who : ParkWho) (kind : BitVec 3) (tile : Nat) (core : BitVec 5) (job : BitVec 12)
    (va : Word) (level : Nat) (svc : Bool := false) : State :=
  let d := dieOfTile tile
  let page := va.extractLsb' 16 41
  let x := (s.die d).fault kind job level page core (BitVec.ofNat 8 (tileNo tile)) (s.clk.dtime.setWidth 32)
  { s.setDie d x with parks := s.parks ++ [{ who := who, own := false, die := d, job := job, va := va, svc := svc }] }

/-- An access parks under OWN: never recorded (R123). -/
def State.parkOwn (s : State) (who : ParkWho) (tile : Nat) (job : BitVec 12) (va : Word) (svc : Bool := false) : State :=
  { s with parks := s.parks ++ [{ who := who, own := true, die := dieOfTile tile, job := job, va := va, svc := svc }] }

/-- The current task parks: its instruction has had no effect (R147, R444). -/
def State.parkMe (s : State) (own : Bool) : State :=
  s.updMe fun f => { f with state := .parked, wait := if own then .own else .xlate, since := s.clk.cycle }

def State.taskParkXlate (s : State) (kind : BitVec 3) (va : Word) (level : Nat) : State :=
  (s.parkXlate (.task s.run.cur) kind s.myTile (BitVec.ofNat 5 (coreNo s.myCore)) s.me.job va level).parkMe false

def State.taskParkOwn (s : State) (va : Word) : State :=
  (s.parkOwn (.task s.run.cur) s.myTile s.me.job va).parkMe true

/-! ## The tile window (R201) -/

/-- How an instruction uses an address: kind of access, and whether it is a plain scalar load or store, with its
size. -/
structure Use where
  acc   : AccKind
  plain : Bool
  size  : Nat
  deriving DecidableEq, Repr

/-- An address in the tile window. -/
def inWindow (va : Word) : Bool := decide (fld va 48 9 = 0x1FF)

/-- The address is beyond the 57-bit range (R200). -/
def beyond (va : Word) : Bool := decide (fld va 57 7 ≠ 0)

/-- Bank `n` does not refuse scratchpad accesses: it is in scratchpad mode, and not gated and refusing (R201, R208). While it changes it
holds them (R206). -/
def Tile.bankOpen (t : Tile) (n : Nat) : Bool := t.changing.contains n || (!t.mode.getLsbD n && !(t.gate.getLsbD n && t.wlock))

/-- The window row of a tile offset, its condition on the service mode and form checked; none is PERM. Rows of
another tile's banks and scratchpads are checked at that tile (R211). -/
def State.windowRow (s : State) (own : Bool) (t off : Nat) (svc : Bool) (u : Use) : Option Place :=
  let row : Option Place := if svc && u.plain && decide (u.size = 8) && decide (off % 8 = 0) then some (.win t off) else none
  if off < 0x300000 then
    if !own || (s.tile t).bankOpen (off / 0x20000) then some (.bank t off) else none
  else if 0x01000000 ≤ off ∧ off < 0x01000000 + 0x10000 * 31 then
    let c := t * 32 + (off - 0x01000000) / 0x10000
    if !own || decide (off % 0x10000 < (s.core c).split.toNat * 0x4000) then some (.sram c (off % 0x10000)) else none
  else if 0xE0000000 ≤ off ∧ off < 0xE2000000 then
    if svc && decide (u.acc ≠ .both) then
      some (.image ((t * 32 + (off - 0xE0000000) / 0x100000) * 256 + off / 0x1000 % 256) (off % 0x1000))
    else none
  else if 0xFB000000 ≤ off ∧ off < 0xFB010000 then
    if u.plain && decide (u.acc = .read) then some (.cap (off - 0xFB000000) svc)
    else if svc && u.plain && decide (u.acc = .write) && decide (u.size = 8) && decide (off = 0xFB000018) then some (.cap 0x18 true) else none
  else if 0xF0000000 ≤ off ∧ off < 0xF0002000 then row
  else if 0xF1000000 ≤ off ∧ off < 0xF1002000 then row
  else if 0xF2000000 ≤ off ∧ off < 0xF2000008 then row
  else if 0xF3000000 ≤ off ∧ off < 0xF3008000 then if u.acc = .read then row else none
  else if 0xF4000000 ≤ off ∧ off < 0xF4008000 then row
  else if 0xF5000000 ≤ off ∧ off < 0xF5000200 then row
  else if 0xF6000000 ≤ off ∧ off < 0xF6000008 then row
  else if 0xF7000000 ≤ off ∧ off < 0xF7008000 then if u.acc = .read then row else none
  else if 0xF8000000 ≤ off ∧ off < 0xF8000200 then row
  else if 0xF9000000 ≤ off ∧ off < 0xF9008000 then row
  else if 0xFA000000 ≤ off ∧ off < 0xFA000400 then row
  else if 0xFC000000 ≤ off ∧ off < 0xFC021800 then row
  else none

/-- A window address from a core's tile (R201). -/
def State.window (s : State) (tile : Nat) (svc : Bool) (va : Word) (u : Use) : Option Place :=
  if fld va 41 7 ≠ 0 then none
  else if fld va 32 8 = 0xFF then s.windowRow true tile (fld va 0 32) svc u
  else if 175 < fld va 32 8 then none
  else
    let t := tileKey (fld va 40 1) (fld va 32 8)
    s.windowRow (decide (t = tile)) t (fld va 0 32) svc u

/-! ## The access check of an instruction (R200–R202, R210) -/

/-- The outcome of the check of one address. -/
inductive Target where
  | trap (cause : Byte)
  | xlate (level : Nat)
  | own (p : Place)
  | ok (p : Place)
  deriving DecidableEq, Repr

/-- Address limit, alignment, then window or translation. -/
def State.target (s : State) (va : Word) (align : Nat) (u : Use) : State × Target :=
  if beyond va then (s, .trap Cause.PERM)
  else if va.toNat % align ≠ 0 then (s, .trap Cause.ALIGN)
  else if inWindow va then
    match s.window s.myTile s.me.svc va u with
    | some p => (s, .ok p)
    | none => (s, .trap Cause.PERM)
  else
    match s.translate (coreLevels s.myCore) s.me.job s.me.svc u.acc va with
    | (s, .ok p) => (s, .ok p)
    | (s, .own p) => (s, .own p)
    | (s, .perm) => (s, .trap Cause.PERM)
    | (s, .noLeaf l) => (s, .xlate l)

/-- Fault-record kind of an access (R446). -/
def AccKind.kind : AccKind → BitVec 3
  | .read => 0
  | .write => 1
  | .fetch => 2
  | .both => 3

/-- Check an address of the current instruction, trap or park on failure, else go on with the place. -/
def State.access (s : State) (va : Word) (align : Nat) (u : Use) (k : State → Place → State) : State :=
  match s.target va align u with
  | (s, .trap c) => s.trap c va
  | (s, .xlate l) => s.taskParkXlate u.acc.kind va l
  | (s, .own _) => s.taskParkOwn va
  | (s, .ok p) => k s p

end Sys2Proof.Machine
end

