-- ==== Sys2Proof/Machine/Operands.lean ====
section
/-! DEFINITION. Machine/Operands.lean: the operand forms the instructions share, and the values of the scalar
operations (R55–R59, R186–R193). -/

namespace Sys2Proof.Machine

/-! ## Scalar values (R186–R192) -/

def Alu.add (A B : Word) : Word := A + B
def Alu.sub (A B : Word) : Word := A - B
def Alu.mul (A B : Word) : Word := A * B
/-- Bits [127:64] of the signed product. -/
def Alu.mulh (A B : Word) : Word := (A.signExtend 128 * B.signExtend 128).extractLsb' 64 64
/-- Bits [127:64] of the unsigned product. -/
def Alu.mulhu (A B : Word) : Word := (A.setWidth 128 * B.setWidth 128).extractLsb' 64 64
/-- Division toward zero, with the two fixed cases (R187). -/
def Alu.div (A B : Word) : Word :=
  if B = 0 then BitVec.allOnes 64 else if A = BitVec.intMin 64 ∧ B = BitVec.allOnes 64 then A
  else BitVec.ofInt 64 (A.toInt.tdiv B.toInt)
def Alu.divu (A B : Word) : Word := if B = 0 then BitVec.allOnes 64 else BitVec.ofNat 64 (A.toNat / B.toNat)
/-- The remainder has the sign of the dividend (R187). -/
def Alu.rem (A B : Word) : Word :=
  if B = 0 then A else if A = BitVec.intMin 64 ∧ B = BitVec.allOnes 64 then 0
  else BitVec.ofInt 64 (A.toInt.tmod B.toInt)
def Alu.remu (A B : Word) : Word := if B = 0 then A else BitVec.ofNat 64 (A.toNat % B.toNat)
def Alu.and (A B : Word) : Word := A &&& B
def Alu.or (A B : Word) : Word := A ||| B
def Alu.xor (A B : Word) : Word := A ^^^ B
def Alu.andn (A B : Word) : Word := A &&& ~~~B
/-- Shifts use B[5:0] only. -/
def Alu.shl (A B : Word) : Word := A <<< fld B 0 6
def Alu.shr (A B : Word) : Word := A >>> fld B 0 6
def Alu.sar (A B : Word) : Word := A.sshiftRight (fld B 0 6)
def Alu.min (A B : Word) : Word := if A.slt B then A else B
def Alu.max (A B : Word) : Word := if A.slt B then B else A
def Alu.minu (A B : Word) : Word := if A.ult B then A else B
def Alu.maxu (A B : Word) : Word := if A.ult B then B else A
def Alu.bit (b : Bool) : Word := if b then 1 else 0
def Alu.seq (A B : Word) : Word := Alu.bit (decide (A = B))
def Alu.sne (A B : Word) : Word := Alu.bit (decide (A ≠ B))
def Alu.slt (A B : Word) : Word := Alu.bit (A.slt B)
def Alu.sltu (A B : Word) : Word := Alu.bit (A.ult B)
/-- Width of the field of R188, cut at bit 63. -/
def Alu.bfw (B : Word) : Nat := Nat.min (fld B 8 7) (64 - fld B 0 6)
def Alu.bfx (A B : Word) : Word := BitVec.ofNat 64 (A.toNat / 2 ^ fld B 0 6 % 2 ^ Alu.bfw B)
def Alu.bfxs (A B : Word) : Word :=
  let w := Alu.bfw B
  if w = 0 then 0
  else if A.getLsbD (fld B 0 6 + w - 1) then Alu.bfx A B - BitVec.ofNat 64 (2 ^ w) else Alu.bfx A B
/-- Leading zeros, 64 for 0. -/
def Alu.clz (A : Word) : Word := BitVec.ofNat 64 ((List.range 64).findIdx fun i => A.getLsbD (63 - i))
/-- Trailing zeros, 64 for 0. -/
def Alu.ctz (A : Word) : Word := BitVec.ofNat 64 ((List.range 64).findIdx fun i => A.getLsbD i)
def Alu.popc (A : Word) : Word := BitVec.ofNat 64 ((List.range 64).filter fun i => A.getLsbD i).length
/-- Byte i moves to byte 7 − i. -/
def Alu.bswap (A : Word) : Word := BitVec.ofNat 64 (beNat (leBytes A.toNat 8))
/-- Rotate left by a constant (R191). -/
def Alu.rol (A : Word) (c : BitVec 6) : Word := (A <<< c.toNat) ||| (A >>> ((64 - c.toNat) % 64))
/-- d[37:19] ← imm19 (R192). -/
def Alu.lim (i : BitVec 19) (D : Word) : Word := (D &&& ~~~(0x7FFFF#64 <<< 19)) ||| (i.setWidth 64 <<< 19)
/-- d[56:38] ← imm19, d[63:57] ← 0 (R192). -/
def Alu.lih (i : BitVec 19) (D : Word) : Word := (D &&& 0x3FFFFFFFFF#64) ||| (i.setWidth 64 <<< 38)

/-! ## Scalar forms -/

/-- Register–register: ka covers a, kb covers b (R59, R185). -/
def State.alu (s : State) (op : Word → Word → Word) (d a b : GReg) (ka kb : Bool) : State :=
  s.issue [.g a ka, .g b kb] fun s => s.retG d (op (s.me.rdG a) (s.me.rdG b))

/-- One general source. -/
def State.alu1 (s : State) (op : Word → Word) (d a : GReg) (ka : Bool) : State :=
  s.issue [.g a ka] fun s => s.retG d (op (s.me.rdG a))

/-- Conditional move: d keeps value and presence when the condition fails (R189). -/
def State.movIf (s : State) (c : Word → Bool) (d a b : GReg) (ka kb : Bool) : State :=
  s.issue [.g a ka, .g b kb] fun s => if c (s.me.rdG b) then s.retG d (s.me.rdG a) else s.next

/-- Compare and branch (R193). -/
def State.branch (s : State) (taken : Word → Word → Bool) (a b : GReg) (o : BitVec 13) : State :=
  s.issue [.g a false, .g b false] fun s =>
    if taken (s.me.rdG a) (s.me.rdG b) then s.updMe fun f => { f with pc := f.wordAddr + sext64 o * 4 } else s.next

end Sys2Proof.Machine
end

