-- ==== Sys2Proof/Machine/Net.lean ====
section
/-! DEFINITION. Machine/Net.lean: what is in flight: which message waits for which (R137, R213, R222, R349), journal
entries (R214), where a frame's traffic goes (R220, R456), the caches that loads may hit, releases and acquires
(R231, R354). -/

namespace Sys2Proof.Machine

/-! ## Landing addresses (R76) -/

def LandAddr.ofWord (w : Word) : LandAddr :=
  { chip := w.extractLsb' 51 11, die := w.extractLsb' 50 1, tile := w.extractLsb' 42 8, core := w.extractLsb' 37 5,
    frame := w.extractLsb' 29 8, gen := w.extractLsb' 21 8, cls := w.extractLsb' 19 2, reg := w.extractLsb' 13 6,
    elem := w.extractLsb' 10 3, ctr := w.extractLsb' 8 2 }

def LandAddr.toWord (a : LandAddr) : Word :=
  at64 2 62 + at64 a.chip.toNat 51 + at64 a.die.toNat 50 + at64 a.tile.toNat 42 + at64 a.core.toNat 37
    + at64 a.frame.toNat 29 + at64 a.gen.toNat 21 + at64 a.cls.toNat 19 + at64 a.reg.toNat 13
    + at64 a.elem.toNat 10 + at64 a.ctr.toNat 8

def LandAddr.core? (a : LandAddr) : Nat := tileKey a.die.toNat a.tile.toNat * 32 + a.core.toNat
/-- Frame key on its chip. -/
def LandAddr.key (a : LandAddr) : Nat := a.core?  * 256 + a.frame.toNat

/-- Chip 0x7FF stands for the issuing chip (R217). -/
def State.physical (s : State) (chip : BitVec 11) : BitVec 11 := if chip = 0x7FF then s.chip.chipNo else chip

/-- The checks that R217 and R341 share: space, tile, chip. -/
def State.landOk (s : State) (w : Word) : Bool :=
  let a := LandAddr.ofWord w
  decide (fld w 62 2 = 2) && decide (a.tile.toNat ≤ 175)
    && (decide (a.chip = 0x7FF) || decide (a.chip.toNat < s.chip.nChips))

/-- R217: a landing address of `lnd` or `rput`; `whole` for the vector forms. -/
def State.landValid (s : State) (w : Word) (whole : Bool) : Bool :=
  let a := LandAddr.ofWord w
  s.landOk w && decide (fld w 0 8 = 0)
    && (if whole then decide (a.cls = 1) && decide (a.elem = 0) && decide (a.reg.toNat < 32)
        else (decide (a.cls = 0) && decide (a.elem = 0)) || (decide (a.cls = 1) && decide (a.reg.toNat < 32)))
    && (decide (a.core ≠ 31) || s.me.svc)

/-! ## Messages -/

/-- Two accesses overlap. -/
def Place.overlaps (p : Place) (n : Nat) (q : Place) (m : Nat) : Bool :=
  let near (a b : Nat) : Bool := decide (a < b + m) && decide (b < a + n)
  match p, q with
  | .dev a, .dev b => near a b
  | .peer c a, .peer d b => decide (c = d) && near a b
  | .host a, .host b => near a b
  | .bank t a, .bank u b => decide (t = u) && near a b
  | .sram t a, .sram u b => decide (t = u) && near a b
  | .image t a, .image u b => decide (t = u) && near a b
  | .win t a, .win u b => decide (t = u) && near a b
  | .cap a _, .cap b _ => near a b
  | .frameCtr a, .frameCtr b => decide (a.chip = b.chip) && decide (a.key = b.key) && decide (a.reg = b.reg)
  | _, _ => false

/-- Task of a message. -/
def Msg.who? : Msg → Option TaskId
  | .read who .. => some who
  | .reply who .. => some who
  | .remote who .. => some who
  | .store _ who .. => some who
  | .lndRead _ who .. => some who
  | .landing _ who .. => some who
  | .cwait (.task who ..) .. => some who
  | .unwait who .. => some who
  | .add _ who .. => who
  | .observe who .. => some who
  | .atomic _ who .. => some who
  | .wake (.task who ..) .. => some who
  | .away _ who _ => some who
  | .env e => e.task
  | .group e => e.task
  | .engQuery who .. => some who
  | _ => none

/-- Place and size of an access on its way to its home; a wait that polls there has arrived, and holds nothing back (R345). -/
def Msg.place? : Msg → Option (Place × Nat)
  | .read _ _ p n .. => some (p, n)
  | .store _ _ _ p bs .. => some (p, bs.length)
  | .lndRead _ _ _ p n .. => some (p, n)
  | .cwait _ _ p _ none => some (p, 8)
  | .unwait _ _ p => some (p, 8)
  | .add _ _ _ p .. => some (p, 8)
  | .observe _ _ p _ _ _ => some (p, 8)
  | .atomic _ _ _ p dbl .. => some (p, if dbl then 8 else 4)
  | _ => none

/-- Chip and frame key a landing or frame-counter add is for. -/
def Msg.target? : Msg → Option (BitVec 11 × Nat)
  | .lndRead _ _ _ _ _ la _ => some (la.chip, la.key)
  | .landing _ _ _ la _ _ => some (la.chip, la.key)
  | .away _ _ la => some (la.chip, la.key)
  | .add _ _ _ (.frameCtr la) .. => some (la.chip, la.key)
  | _ => none

/-- Job of a message. -/
def Msg.job? : Msg → Option (BitVec 12)
  | .read _ j .. => some j
  | .store _ _ j .. => some j
  | .lndRead _ _ j .. => some j
  | .landing _ _ j .. => some j
  | .cwait _ j .. => some j
  | .unwait _ j _ => some j
  | .add _ _ j .. => some j
  | .observe _ j .. => some j
  | .atomic _ _ j .. => some j
  | .env e => some e.job
  | .group e => some e.job
  | .copies _ _ j _ => some j
  | .engQuery _ j .. => some j
  | _ => none

def Env.chip (e : Env) : BitVec 11 := e.hdr.extractLsb' 53 11
/-- Destination core key. -/
def Env.core (e : Env) : Nat := tileKey (fld e.hdr 52 1) (fld e.hdr 44 8) * 32 + fld e.hdr 39 5
def Env.cls (e : Env) : BitVec 4 := e.hdr.extractLsb' 35 4
def Env.stl (e : Env) : Bool := e.hdr.getLsbD 34
def Env.origin (e : Env) : Nat := fld e.hdr 32 2

/-- An earlier message that must be performed before a later one: accesses of one task to one location, landings
and adds of one task to one frame, envelopes of one task to one core that have not bounced (R137, R213, R222,
R349, R367). -/
def mustPrecede (a b : Msg) : Bool :=
  (a.who?.isSome && decide (a.who? = b.who?)) &&
  ((match a.place?, b.place? with
    | some (p, n), some (q, m) => p.overlaps n q m
    | _, _ => false)
   || (match b with
      | .lndRead .. => false
      | _ => a.target?.isSome && decide (a.target? = b.target?))
   || (match a, b with
      | .env x, .env y => decide (x.chip = y.chip) && decide (x.core = y.core) && !x.hdr.getLsbD 19 && !y.hdr.getLsbD 19
      | .env x, .group y => decide (x.chip = y.chip) && !x.hdr.getLsbD 19
      | .group x, .env y => decide (x.chip = y.chip) && !y.hdr.getLsbD 19
      | .group x, .group y => decide (x.chip = y.chip)
      | _, _ => false))

/-- Message n exists and nothing earlier must precede it. -/
def State.deliverable (s : State) (n : Nat) : Option Msg :=
  match s.net[n]? with
  | none => none
  | some m => if (s.net.take n).any (fun a => mustPrecede a m) then none else some m

def State.dropMsg (s : State) (n : Nat) : State := { s with net := dropAt s.net n }
/-- Replace message n, keeping its place in the order. -/
def State.swapMsg (s : State) (n : Nat) (m : Msg) : State := { s with net := setAt s.net n m }

/-- The current task has an earlier access in flight that overlaps. -/
def State.pending (s : State) (p : Place) (n : Nat) : Bool :=
  s.net.any fun m => decide (m.who? = some s.me.taskId) &&
    match m.place? with
    | some (q, k) => p.overlaps n q k
    | none => false

/-- A fill of the current task that reads some of these bytes is queued: it is an earlier load of the task, so a later access
waits for it (R294, R367). -/
def State.fillPending (s : State) (p : Place) (n : Nat) : Bool :=
  s.arrays.any fun a => a.2.queue.any fun c => decide (c.task = s.me.origin.key) && decide (c.gen = s.me.origin.gen) && match c.op with
    | .fill _ _ _ _ rows scales => rows.any (fun q => p.overlaps n q.2 64) || scales.any fun q => p.overlaps n q.2 4
    | _ => false

/-- An acquiring `cpoll` of the current task is not answered yet: later accesses wait for it (R354). -/
def State.acquiring (s : State) : Bool :=
  s.net.any fun m => decide (m.who? = some s.me.taskId) &&
    match m with
    | .observe _ _ _ (.poll (some _)) _ _ => true
    | .reply _ _ _ (some _) _ => true
    | .remote _ _ acq => acq
    | _ => false

/-! ## Journal (R214–R216) -/

/-- Kinds of R215. -/
def JKind.st : BitVec 4 := 0
def JKind.pst : BitVec 4 := 1
def JKind.rput : BitVec 4 := 2
def JKind.lnd : BitVec 4 := 3
def JKind.env : BitVec 4 := 4
def JKind.atom : BitVec 4 := 5
def JKind.vst : BitVec 4 := 6
def JKind.vscat : BitVec 4 := 7

/-- The lowest free journal entries of a core. -/
def Core.freeEntries (c : Core) : List Nat := idxs 64 fun e => (Tab.get? c.journal e).isNone

def State.journal (s : State) (c e : Nat) : Option JEntry := Tab.get? (s.core c).journal e
def State.setJournal (s : State) (c e : Nat) (x : Option JEntry) : State :=
  s.setCore c { s.core c with journal := match x with
    | some j => Tab.put (s.core c).journal e j
    | none => Tab.del (s.core c).journal e }

/-- Fill a journal entry of the current task's core: transmitted. -/
def State.enter (s : State) (e : Nat) (kind : BitVec 4) (dest : Word) (copies : Nat) (write : Bool) : State :=
  s.setJournal s.myCore e (some { kind := kind, state := 1, task := s.me.taskId, dest := dest, reason := 0,
                                  bounces := 0, copies := copies, bounced := [], write := write, ctr := none, job := s.me.job })

/-- A `pst` names its counter in its entry. -/
def State.enterCtr (s : State) (e : Nat) (ctr : Option Place) : State :=
  match s.journal s.myCore e with
  | some j => s.setJournal s.myCore e (some { j with ctr := ctr })
  | none => s

/-- The sender that names an entry of the current task's core. -/
def State.entrySender (s : State) (e : Nat) : Sender := .core s.chip.chipNo s.myCore e

/-- Block until the journal has a free entry, then go on with it (R212, R214). -/
def State.withEntry (s : State) (k : State → Nat → State) : State :=
  match (s.core s.myCore).freeEntries.head? with
  | none => s.block .retry
  | some e => k s e

/-- Some entry of the task is not freed, in any core's journal (R214, R461). -/
def State.entriesOf (s : State) (id : TaskId) : Bool :=
  s.cores.any fun c => c.2.journal.any fun e => decide (e.2.task = id)

/-- Every write of the task is performed: refused writes count as performed (R231). -/
def State.writesDone (s : State) (id : TaskId) : Bool :=
  !(s.cores.any fun c => c.2.journal.any fun e =>
      decide (e.2.task = id) && e.2.write && decide (e.2.state ≠ 3))
  && !(s.net.any fun m => match m with
      | .atomic none who .. => decide (who = id)
      | .remote who _ _ => decide (who = id)
      | _ => false)

/-- No load or value-returning operation of the task is still on its way to its home. -/
def State.loadsDone (s : State) (id : TaskId) : Bool :=
  !(s.net.any fun m => match m with
    | .read who .. => decide (who = id)
    | .observe who .. => decide (who = id)
    | .add (.value who _) .. => decide (who = id)
    | .atomic none who .. => decide (who = id)
    | .remote who _ _ => decide (who = id)
    | _ => false)

/-- No fill of the task is still in an array's queue: fill reads are loads of the task (R294, R386). -/
def State.fillsDone (s : State) (id : TaskId) : Bool :=
  !(s.arrays.any fun a => a.2.queue.any fun c => decide (c.task = id.key) && decide (c.gen = id.gen) && match c.op with
    | .fill .. => true
    | _ => false)

/-- Every earlier load and value-returning operation of the task has read its value (R354). -/
def State.readsDone (s : State) (id : TaskId) : Bool := s.loadsDone id && s.fillsDone id

/-! ## Caches (R203, R205, R213) -/

def wayKey (t line : Nat) : Nat := t * 2 ^ 36 + line

/-- Overwrite bytes of a line copy. -/
def CLine.patch (l : CLine) (off : Nat) (bs : List Byte) : CLine :=
  { l with bytes := l.bytes.take off ++ bs ++ l.bytes.drop (off + bs.length) }

/-- Update a core's L1 copy of the line of a store, if present (R212). -/
def State.patchL1 (s : State) (c pa : Nat) (bs : List Byte) : State :=
  match Tab.get? s.mem.l1 (l1Key c (pa / 64)) with
  | none => s
  | some l => { s with mem := { s.mem with l1 := Tab.put s.mem.l1 (l1Key c (pa / 64)) (l.patch (pa % 64) bs) } }

def State.patchWay (s : State) (t pa : Nat) (bs : List Byte) : State :=
  match Tab.get? s.mem.way (wayKey t (pa / 64)) with
  | none => s
  | some l => { s with mem := { s.mem with way := Tab.put s.mem.way (wayKey t (pa / 64)) (l.patch (pa % 64) bs) } }

/-- Update every copy of a line on the chip: a plain load of a counter word gives what `cread` gives (R340). -/
def State.patchCopies (s : State) (pa : Nat) (bs : List Byte) : State :=
  let put (p : Nat × CLine) : Nat × CLine := if p.1 % 2 ^ 36 = pa / 64 then (p.1, p.2.patch (pa % 64) bs) else p
  { s with mem := { s.mem with l1 := s.mem.l1.map put, way := s.mem.way.map put } }

/-- Drop every copy of a line on the chip. -/
def State.dropCopies (s : State) (line : Nat) : State :=
  let keep (p : Nat × CLine) : Bool := decide (p.1 % 2 ^ 36 ≠ line)
  { s with mem := { s.mem with l1 := s.mem.l1.filter keep, way := s.mem.way.filter keep } }

/-- Drop one line of a core's L1 (R360). -/
def State.dropL1 (s : State) (c pa : Nat) : State :=
  { s with mem := { s.mem with l1 := Tab.del s.mem.l1 (l1Key c (pa / 64)) } }

/-- Drop every line of a tile's cache ways. -/
def State.flushWay (s : State) (t : Nat) : State :=
  { s with mem := { s.mem with way := Tab.clear s.mem.way (wayKey t 0) (wayKey (t + 1) 0) } }

/-- Acquire at a scope for the tasks of a core: copies older than the acquire are dropped (R354). -/
def State.acquireAt (s : State) (c : Nat) (sc : Scope) : State :=
  match sc with
  | .tile => s.flushL1 c
  | _ => (s.flushL1 c).flushWay (tileOfCore c)

/-- The L1 copy of a line that the job may read (R489). -/
def State.l1Line (s : State) (c pa : Nat) (tag : Owner) : Option CLine :=
  match Tab.get? s.mem.l1 (l1Key c (pa / 64)) with
  | some l => if l.owner = some tag then some l else none
  | none => none

def State.wayLine (s : State) (t pa : Nat) (tag : Owner) : Option CLine :=
  match Tab.get? s.mem.way (wayKey t (pa / 64)) with
  | some l => if l.owner = some tag then some l else none
  | none => none

/-- The core has an L1 data cache: split below 4 (R203). -/
def State.hasL1 (s : State) (c : Nat) : Bool := decide ((s.core c).split.toNat < 4)
/-- The tile has a bank in cache-way mode that is not gated (R205). -/
def State.hasWay (s : State) (t : Nat) : Bool :=
  (List.range 24).any fun n => (s.tile t).mode.getLsbD n && !(s.tile t).gate.getLsbD n && !(s.tile t).waking.any (fun w => decide (w.1 = n))

/-- The 64 bytes of a line at its home. -/
def State.homeLine (s : State) (pa : Nat) : CLine :=
  { bytes := (List.range 64).map fun i => s.devByte (64 * (pa / 64) + i), owner := s.lineOwner pa }

/-- A cache of `size` lines, keyed from `lo` up to `hi`, takes a line; when it is full, the line that goes is free (log 4). -/
def putLine (t : Table CLine) (lo hi size seed key : Nat) (l : CLine) : Table CLine :=
  let mine := t.filter fun p => decide (lo ≤ p.1) && decide (p.1 < hi) && decide (p.1 ≠ key)
  if mine.length < size then Tab.put t key l
  else match mine[Config.freeNat seed 0 % mine.length]? with
    | some v => Tab.put (Tab.del t v.1) key l
    | none => t

/-- Lines of a core's L1: 16 KiB for each part that is no scratchpad (R203), and of a tile's ways: 128 KiB each (R205). -/
def State.l1Lines (s : State) (c : Nat) : Nat := 256 * (4 - (s.core c).split.toNat)
def State.wayLines (s : State) (t : Nat) : Nat := 2048 * (idxs 24 fun n => (s.tile t).mode.getLsbD n && !(s.tile t).gate.getLsbD n).length

/-- Copy a line from its home into a core's L1, or into a tile's ways. -/
def State.fillL1 (s : State) (c pa : Nat) (l : CLine) : State :=
  if s.hasL1 c then
    { s with mem := { s.mem with l1 := putLine s.mem.l1 (l1Key c 0) (l1Key (c + 1) 0) (s.l1Lines c) s.clk.free (l1Key c (pa / 64)) l } }
  else s
def State.fillWay (s : State) (t pa : Nat) (l : CLine) : State :=
  if s.hasWay t then
    { s with mem := { s.mem with way := putLine s.mem.way (wayKey t 0) (wayKey (t + 1) 0) (s.wayLines t) s.clk.free (wayKey t (pa / 64)) l } }
  else s

/-- A read at the home makes the copies that the reader's core and tile hold as new as itself, so that no later load of
the task goes back (R367). -/
def State.renew (s : State) (c pa : Nat) : State :=
  let l := s.homeLine pa
  let s := if (Tab.get? s.mem.l1 (l1Key c (pa / 64))).isSome then s.fillL1 c pa l else s
  if (Tab.get? s.mem.way (wayKey (tileOfCore c) (pa / 64))).isSome then s.fillWay (tileOfCore c) pa l else s

/-! ## Where traffic for a frame goes (R220, R456) -/

def FwdTo.key : FwdTo → Nat
  | .svc k => k
  | .guest k => k

/-- The key of the table entry that holds the content of an origin frame. -/
def State.homeOf (s : State) (o : Nat) : Nat :=
  match s.fwdOf o with
  | some e => if e.gen = (s.frame o).gen then e.host.key else o
  | none => o

/-- The fate of traffic at its origin core (R220). -/
inductive Fate where
  | dead
  | refused
  /-- held at the origin core while the frame moves -/
  | held
  /-- held at the slot controller until the slot transfer ends -/
  | transfer (key : Nat)
  | apply (key : Nat)
  deriving DecidableEq, Repr

/-- Free or retired. -/
def Frame.gone (f : Frame) : Bool := decide (f.state = .free) || decide (f.state = .retired)

/-- The job tag that row 1 of R220 compares: a live frame's own, else its core's (log 23). -/
def State.tagAt (s : State) (o : Nat) : Option (BitVec 12) :=
  if (s.frame o).gone then (s.core (coreOfFrame o)).job else some (s.frame o).job

/-- The table of R220, in its order; `job` is given where the traffic carries one to check. -/
def State.fate (s : State) (o : Nat) (gen : BitVec 8) (job : Option (BitVec 12)) : Fate :=
  let f := s.frame o
  if job.isSome && (s.tagAt o).isSome && decide (s.tagAt o ≠ job) then .refused
  else if f.gone || decide (f.gen ≠ gen) then .dead
  else
    let k := s.homeOf o
    let h := s.frame k
    if h.state = .migrating then (if h.wait = .fwdEntry then .transfer k else .held)
    else if h.transfer.isSome then .transfer k
    else .apply k

/-- A write that removes the last empty source of a blocked frame ends its wait (R147, R168, R221). -/
def State.stir (s : State) (f : Frame) : Frame :=
  match f.wait with
  | .presence srcs => if f.state = .waiting ∧ f.check srcs ≠ .block then s.released f else f
  | _ => f

end Sys2Proof.Machine
end

