-- ==== Sys2Proof/Machine/Frames.lean ====
section
/-! DEFINITION. Machine/Frames.lean: a task's own frame (R154–R157), retirement (R463, R464), residency and aging
(R149, R164–R167), moving a frame (R455–R462). -/

namespace Sys2Proof.Machine

/-! ## Retirement (R156, R463, R464) -/

/-- A frame-table entry that becomes free: its generation advances (R144). -/
def Frame.freed (f : Frame) : Frame := { Frame.reset with gen := f.gen + 1 }

/-- Accumulators owned by an origin frame start to be freed (R283). -/
def TArray.release (a : TArray) (o : Nat) (gen : BitVec 8) : TArray :=
  let fr (x : Acc) : Acc := match x.owner with
    | some w => if w.key = o ∧ w.gen = gen then { x with freeing := true } else x
    | none => x
  { a with acc0 := fr a.acc0, acc1 := fr a.acc1, acc2 := fr a.acc2, acc3 := fr a.acc3 }

/-- Refused entries of a task that retires complete without it: freed, or as before while copies are out (R156, R215). -/
def State.freeRefused (s : State) (id : TaskId) : State :=
  let one (j : JEntry) : Option JEntry :=
    if j.task = id ∧ j.state = 3 then (if j.copies = 0 then none else some { j with state := 1, reason := 0 }) else some j
  { s with cores := s.cores.map fun c => (c.1, { c.2 with journal := c.2.journal.filterMap fun e => (one e.2).map fun j => (e.1, j) }) }

/-- The current task retires (R156). At its origin the frame becomes free at once; elsewhere a notice goes to the origin, and the guest
entry is freed, or the entry that a handler left stays until its notice arrives: of a guest its own beside the origin's (R464). -/
def State.retire (s : State) : State :=
  let k := s.run.cur
  let f := s.me
  let o := f.origin.key
  let t := tileOfCore (coreOfFrame k)
  let s := s.trace 2 (f.coreAt k) f 0 (BitVec.ofNat 64 (s.clk.cycle - f.started))
  let s := ((s.endFollow k).withdraw k).leaves (f.coreAt k)
  let s := s.endLease k false
  let s := (s.setArray t ((s.array t).release o f.origin.gen)).freeRefused f.taskId
  if f.guest then
    let s := if f.atSvc then (s.setFrame k { f with state := .retired, resident := false }).send (.notice k f.origin.gen) else s.setFrame k f.freed
    (s.setFrame o { s.frame o with state := .retired }).send (.notice o f.origin.gen)
  else if f.atSvc then (s.setFrame k { f with state := .retired, resident := false }).send (.notice k f.origin.gen)
  else s.setFrame k f.freed

/-! ## arm, live, myaddr, yield (R155, R157) -/

/-- `arm.g`: empties the selected registers and marks them live. -/
def Frame.armG (f : Frame) (sel : Word) : Frame :=
  let m := sel &&& ~~~1#64
  { f with gFull := f.gFull &&& ~~~m, gPoison := f.gPoison &&& ~~~m, gLive := f.gLive ||| m }

/-- The presence bits that `arm.v` clears. -/
def armBits (sel : Word) (elems : Byte) : BitVec 256 :=
  let e : Byte := if elems = 0 then 0xFF else elems
  (List.range 32).foldr (fun n x => if sel.getLsbD n then x ||| ((e.setWidth 256) <<< (8 * n)) else x) 0

def Frame.armV (f : Frame) (sel : Word) (elems : Byte) : Frame :=
  let m := armBits sel elems
  { f with vFull := f.vFull &&& ~~~m, vPoison := f.vPoison &&& ~~~m, vLive := f.vLive ||| sel.setWidth 32 }

def Frame.armM (f : Frame) (sel : Word) : Frame :=
  let m : Byte := (sel &&& ~~~1#64).setWidth 8
  { f with mFull := f.mFull &&& ~~~m, mPoison := f.mPoison &&& ~~~m, mLive := f.mLive ||| m }

/-- The landing address that `myaddr` yields: the origin's, wherever the task runs (R75, R455). -/
def Frame.landing (f : Frame) (cls : BitVec 2) (reg : BitVec 6) (elem : BitVec 3) (ctr : BitVec 2) : Word :=
  LandAddr.toWord { chip := f.origin.chip, die := f.origin.die, tile := f.origin.tile, core := f.origin.core,
                    frame := f.origin.frame, gen := f.origin.gen, cls := cls, reg := reg, elem := elem, ctr := ctr }

/-! ## Residency (R164, R165, R167) -/

/-- The job is suspending, suspended or being removed: its aging clocks stand (R466, R468). -/
def State.agingStopped (s : State) (j : BitVec 12) : Bool := decide (2 ≤ (s.job j).state.toNat)

/-- The frame may not issue though it is resident: its job is suspending, suspended or being removed, or stopped;
while a stop is in progress, running frames and handlers go on (R466, R494). -/
def State.issueHeld (s : State) (f : Frame) : Bool :=
  decide (2 ≤ (s.job f.job).state.toNat)
    || (s.dbg.open_ && decide (s.dbg.job = f.job)
        && (decide (s.dbg.state = 2) || (decide (s.dbg.state = 1) && decide (f.state ≠ .running) && !f.handling)))

/-- Frames of a core that are ready and wait for a slot; while a stop is in progress handlers go on (R494). -/
def State.readyAt (s : State) (c : Nat) : List Nat :=
  (s.frames.filter fun p => decide (p.2.state = .ready) && decide (p.2.coreAt p.1 = c) && p.2.transfer.isNone
      && !p.2.resident && !s.issueHeld p.2).map (·.1)

/-- Since when a frame is ready and out of its slot (R165). -/
def Frame.waitsSince (f : Frame) : Nat := max f.since f.evictedAt

/-- Highest current priority, then ready earliest (R165). -/
def State.bestReady (s : State) (c : Nat) : Option Nat :=
  (s.readyAt c).foldl (fun b k => match b with
    | none => some k
    | some j =>
      if (s.frame j).curPrio < (s.frame k).curPrio ∨
         ((s.frame j).curPrio = (s.frame k).curPrio ∧ (s.frame k).waitsSince < (s.frame j).waitsSince) then some k else b) none

/-- The load of a frame into a slot begins (R165, R166). -/
def State.loadSlot (s : State) (k : Nat) : State :=
  s.setFrame k { s.frame k with resident := true, transfer := some true }

/-- A ready frame enters a free slot, evicting as R165 orders. -/
def State.residency (s : State) (c : Nat) : State :=
  match s.bestReady c with
  | none => s
  | some k =>
    if (s.residents c).length < slotsOf c then s.loadSlot k
    else match s.victim c (s.frame k).curPrio with
      | none => s
      | some v =>
        let s := s.evict v
        (s.setFrame v { s.frame v with transfer := some false }).loadSlot k

/-- A resident ready frame (after `yield`) runs again. -/
def Frame.rerun (f : Frame) : Frame :=
  if f.state = .ready ∧ f.resident then { f with state := .running, yielded := false } else { f with yielded := false }

/-! ## Moving a frame (R457–R460) -/

/-- The lowest free frame of a core that no pinned template reserves (R144). -/
def State.lowestFree (s : State) (c : Nat) : Option Nat :=
  (idxs 256 fun n => decide ((s.frame (c * 256 + n)).state = .free) && (Tab.get? (s.core c).pins n).isNone).head?

/-- The frame holds array state of its tile: the lease, an accumulator, or a queued `mld` or `mma` of its own. -/
def State.tiedTo (s : State) (t o : Nat) (gen : BitVec 8) : Bool :=
  let a := s.array t
  let owns (x : Acc) : Bool := match x.owner with
    | some w => decide (w.key = o) && decide (w.gen = gen)
    | none => false
  (match a.lease with
    | some l => decide (l.task = o) && decide (l.gen = gen)
    | none => false)
  || owns a.acc0 || owns a.acc1 || owns a.acc2 || owns a.acc3
  || a.queue.any fun c => decide (c.task = o) && decide (c.gen = gen) &&
      (match c.op with
        | .mma .. => true
        | .fill .. => true
        | _ => false)

/-- A frame of the job in the destination core's table, neither free nor retired (R458). -/
def State.jobAt (s : State) (c : Nat) (j : BitVec 12) : Bool :=
  s.frames.any fun p => decide (coreOfFrame p.1 = c) && decide (p.2.job = j) && !p.2.gone

/-- The result of a move's checks, in their order; none starts it with its guest frame (R458). -/
def State.moveCheck (s : State) (c : Nat) (v : Word) : Sum (BitVec 3) Nat :=
  let o := c * 256 + fld v 0 8
  let f := s.frame o
  let k := s.homeOf o
  let h := s.frame k
  let dt := tileKey (fld v 40 1) (fld v 32 8)
  let dc := dt * 32 + fld v 27 5
  if f.gone || decide (h.state = .migrating) || h.handling then .inl 1
  else if decide (175 < fld v 32 8) || decide (fld v 27 5 = 31) || decide (dc = coreOfFrame k) || !s.jobAt dc f.job then .inl 2
  else if decide (k = o) && decide (64 ≤ (s.core c).fwdUsed) then .inl 3
  else match s.lowestFree dc with
    | none => .inl 4
    | some n =>
      if decide (dt ≠ tileOfCore (coreOfFrame k)) && s.tiedTo (tileOfCore (coreOfFrame k)) o f.gen then .inl 5
      else .inr (dc * 256 + n)

/-- Record an open repeat in tstat, its body word in epc (R176, R459). -/
def Frame.recordRpt (f : Frame) : Frame :=
  match f.rpt with
  | none => f
  | some r =>
    { f with tstat := putFld (putFld (setBit f.tstat 59 true) 51 8 r.k) 47 4 r.j, epc := f.wordAddr,
             rpt := none, rptSaved := some r }

/-- A MIGCMD write: refused with nothing changed, or the move starts (R457–R459). Traffic that a slot transfer of the frame
held goes first of what the origin holds (R167, R462). -/
def State.migrateStart (s : State) (c : Nat) (v : Word) : State :=
  let x := s.core c
  if !v.getLsbD 63 || x.mig.isSome then s
  else match s.moveCheck c v with
    | .inl r => s.setCore c { x with migres := r, migfr := v.setWidth 8 }
    | .inr g =>
      let o := c * 256 + fld v 0 8
      let k := s.homeOf o
      let left := (s.frame k).state
      let s := s.setCore c { x with migfr := v.setWidth 8, miggf := BitVec.ofNat 8 (frameNo g), migres := 0,
                                    traffic := x.traffic ++ (s.frame k).heldMsgs,
                                    mig := some { frame := o, src := k, guest := g, left := left } }
      let s := ((s.endFollow k).withdraw k).leaves (coreOfFrame k)
      let s := s.endLease k true
      let s := s.setFrame k { (s.frame k).recordRpt with state := .migrating, resident := false, transfer := none, heldMsgs := [] }
      s.setFrame g { s.frame g with state := .migrating, guest := true, job := (s.frame k).job }

/-- A retirement notice at the origin: the forwarding entry is freed, the frame passes to free and its generation
advances (R464). -/
def State.noticeAt (s : State) (o : Nat) (gen : BitVec 8) : State :=
  let f := s.frame o
  if f.origin.gen = gen ∨ f.gen = gen then (s.dropFwd o).setFrame o f.freed else s

/-! ## The meanings -/

abbrev FrOut := Host.Outcome State Fault Refusal

/-- `arm.g` (R155). -/
def execArmG (a : GReg) (ka : Bool) (s : State) : FrOut :=
  .next (s.issue [.g a ka] fun s => s.updMe fun f => (f.armG (f.rdG a)).advance)
/-- `arm.v` (R155). -/
def execArmV (a b : GReg) (ka kb : Bool) (s : State) : FrOut :=
  .next (s.issue [.g a ka, .g b kb] fun s => s.updMe fun f => (f.armV (f.rdG a) ((f.rdG b).setWidth 8)).advance)
/-- `arm.m` (R155). -/
def execArmM (a : GReg) (ka : Bool) (s : State) : FrOut :=
  .next (s.issue [.g a ka] fun s => s.updMe fun f => (f.armM (f.rdG a)).advance)
/-- `live.g`, `live.v`, `live.m` by t: the new live set (R155). -/
def execLive (a : GReg) (ka : Bool) (t : BitVec 2) (s : State) : FrOut :=
  .next (s.issue [.g a ka] fun s => s.updMe fun f =>
    let x := f.rdG a
    (if t = 0 then { f with gLive := x &&& ~~~1#64 }
     else if t = 1 then { f with vLive := x.setWidth 32 }
     else { f with mLive := x.setWidth 8 &&& ~~~1#8 }).advance)
/-- `myaddr`: a is the register, s the counter, c the class, e the element, all literals (R75, R157). -/
def execMyaddr (d a : BitVec 6) (c ctr : BitVec 2) (e : BitVec 3) (s : State) : FrOut :=
  .next (s.issue [] fun s => s.retG d (s.me.landing c a e ctr))
/-- `yield` (R155); while a stop is in progress the task goes on (R494). Followers leave (R179). -/
def execYield (s : State) : FrOut :=
  .next (s.issue [] fun s => (s.updMe fun f =>
    { f.advance with state := if s.jobHeld f.job then f.state else .ready, since := s.clk.cycle, yielded := true }).loseFollowers s.run.cur false)
/-- `end` (R156). -/
def execEndTask (s : State) : FrOut := .next (s.issue [] State.retire)

/-- CONTEXT_AGING: a context that is ready, in a slot (R147: running) or out of one, and has not issued for 4,096 cycles
per level rises one (R149). -/
def execContextAging (task : Nat) (s : State) : FrOut :=
  let f := s.frame task
  let base := max f.lastIssue f.since
  .next (if (f.state = .ready ∨ f.state = .running) ∧ f.curPrio < 3 ∧ 4096 * (f.curPrio - f.prio.toNat + 1) ≤ s.clk.cycle - base
      ∧ s.agingStopped f.job = false
    then s.setFrame task { f with curPrio := f.curPrio + 1 } else s)

/-- FRAME_RESIDENCY (R165). -/
def execFrameResidency (core : Nat) (s : State) : FrOut := .next (s.residency core)

/-- MIGRATE_START (R459). -/
def execMigrateStart (core : Nat) (v : Word) (s : State) : FrOut := .next (s.migrateStart core v)

/-- RETIREMENT_NOTICE (R464). -/
def execRetirementNotice (n : Nat) (s : State) : FrOut :=
  .next (match s.deliverable n with
    | some (.notice o gen) => (s.dropMsg n).noticeAt o gen
    | _ => s)

end Sys2Proof.Machine
end

