-- ==== Sys2Proof/Machine/Flags.lean ====
section
/-! DEFINITION. Machine/Flags.lean: `fcsr`, the sticky flags vfx, the flag lanes (R237, R242, R243), and writes
to control registers that touch them (R79, R258). -/

namespace Sys2Proof.Machine

/-- Rounding mode and flush of a task (R237). -/
def Frame.rc (f : Frame) : Rc := { rm := fld f.fcsr 0 3, fz := f.fcsr.getLsbD 3 }

/-- A write to `fcsr`: an rm of 5–7 leaves rm unchanged and writes fz (R237). -/
def fcsrWritten (old v : Word) : Word :=
  let rm := if fld v 0 3 ≤ 4 then fld v 0 3 else fld old 0 3
  at64 (8 * b2n (v.getLsbD 3) + rm) 0

/-- The flag lane of a destination element e of width w (R242). -/
def flagLane (w e : Nat) : Nat :=
  if w = 64 then 2 * e else if w = 32 then e else if w = 16 then e / 2 else e / 4

/-- OR flags into a flag lane (R242). -/
def orFlags (vfx : BitVec 128) (lane : Nat) (fl : Flags) : BitVec 128 := vfx ||| ((fl.setWidth 128) <<< (8 * lane))

/-- OR a list of (flag lane, flags), unless q (R243). -/
def Frame.raise (f : Frame) (q : Bool) (fls : List (Nat × Flags)) : Frame :=
  if q then f else { f with vfx := fls.foldl (fun x p => orFlags x p.1 p.2) f.vfx }

/-- Bits [7:5] of every flag byte are zero whatever value is supplied (R242). -/
def vfxKept (v : Word) : Word := v &&& 0x1F1F1F1F1F1F1F1F#64

end Sys2Proof.Machine
end

