-- ==== Sys2Proof/Machine/Order.lean ====
section
/-! DEFINITION. Machine/Order.lean: location consistency (R363–R368): the writes that each home has performed, the value that a
read returns, what releasing adds carry and what acquiring observations take from them (R354, R355). -/

namespace Sys2Proof.Machine

/-! ## Bytes at their homes -/

def bankKey (t off : Nat) : Nat := t * 2 ^ 22 + off
def sramKey (c off : Nat) : Nat := c * 2 ^ 16 + off

def State.bankByte (s : State) (t off : Nat) : Byte := Tab.get s.mem.bank (bankKey t off) 0
def State.sramByte (s : State) (c off : Nat) : Byte := Tab.get s.mem.sram (sramKey c off) 0

def State.localBytes (s : State) (p : Place) (n : Nat) : List Byte :=
  match p with
  | .bank t off => (List.range n).map fun i => s.bankByte t (off + i)
  | .sram c off => (List.range n).map fun i => s.sramByte c (off + i)
  | _ => []

/-- Bytes of a location as the last writes left them. -/
def State.homeBytes (s : State) (p : Place) (n : Nat) : List Byte :=
  match p with
  | .dev pa => (List.range n).map fun i => s.devByte (pa + i)
  | .host a => s.hostBytes a n
  | p => s.localBytes p n

def Place.plus (p : Place) (n : Nat) : Place :=
  match p with
  | .dev pa => .dev (pa + n)
  | .peer c pa => .peer c (pa + n)
  | .host a => .host (a + n)
  | .bank t off => .bank t (off + n)
  | .sram c off => .sram c (off + n)
  | .image f off => .image f (off + n)
  | .win t off => .win t (off + n)
  | .cap off svc => .cap (off + n) svc
  | .frameCtr la => .frameCtr la
  | .latch t b second scale i => .latch t b second scale (i + n)

/-! ## Locations (R363) -/

/-- The location of a byte of device memory, a bank, a scratchpad or host memory, and the byte's place in it. -/
def Place.word (p : Place) : Option (Place × Nat) :=
  match p with
  | .dev pa => some (.dev (pa / 8 * 8), pa % 8)
  | .host a => some (.host (a / 8 * 8), a % 8)
  | .bank t off => some (.bank t (off / 8 * 8), off % 8)
  | .sram c off => some (.sram c (off / 8 * 8), off % 8)
  | _ => none

/-- Bytes from a place on, location by location: each with the first byte in it. -/
def Place.pieces (p : Place) (bs : List Byte) : List (Place × Nat × List Byte) :=
  match p.word with
  | none => []
  | some (q, off) => (List.range ((off + bs.length + 7) / 8)).map fun i =>
      let lo := if i = 0 then off else 0
      (q.plus (8 * i), lo, (bs.drop (8 * i - off)).take (8 - lo))

/-- A place as records name it: an address of the host behind a port is told from that of the other port's. -/
def State.located (s : State) (p : Place) : Place :=
  match p with
  | .host a => .host (hostKey (s.hostPort.getD false) a)
  | p => p

/-! ## Writes (R365) -/

/-- Byte i of a location as some writes, one over the other, leave it, and the number of the last that wrote it. -/
def shown (ws : List Write) (i : Nat) : Option (Byte × Nat) :=
  ws.foldl (fun b x => if x.off ≤ i then match x.bytes[i - x.off]? with
    | some v => some (v, x.id)
    | none => b
    else b) none

/-- The writes on record explain the bytes that a location holds. -/
def explains (ws : List Write) (off : Nat) (bs : List Byte) : Bool :=
  (List.range bs.length).all fun i => decide ((shown ws (off + i)).map Prod.fst = bs[i]?)

/-- A write enters the record of its location, after the writes that happen before it and, for an atomic, after the earlier atomics
(R361, R365). A location that something else changed meanwhile begins a new record, with the bytes that it held. -/
def State.recordIn (s : State) (w : WNo) (atom : Bool) (past : List Write) (x : Place × Nat × List Byte) : List Write :=
  let here := past.filter fun y => decide (y.at_ = x.1)
  let now := s.homeBytes x.1 8
  let kept := if explains here 0 now then here else [{ id := 0, at_ := x.1, off := 0, bytes := now, after := [], atom := false }]
  let before := kept.filter fun y => decide (y.id = 0) || w.knows.contains y.id || (atom && y.atom)
  past.filter (fun y => decide (y.at_ ≠ x.1)) ++ kept ++
    [{ id := w.id, at_ := x.1, off := x.2.1, bytes := x.2.2, after := (before.flatMap fun y => y.id :: y.after).eraseDups, atom := atom }]

/-- A write of bytes at a place, made from state s to t, enters the records of its locations. Where it took the line from another
owner, nothing of what the line held stays on record (R489). -/
def State.recorded (s t : State) (w : WNo) (atom : Bool) (p : Place) (bs : List Byte) : State :=
  let taken : Bool := match p with
    | .dev pa => decide (s.lineOwner pa ≠ t.lineOwner pa)
    | _ => false
  let b := if taken then t else s
  { t with mem := { t.mem with past := ((s.located p).pieces bs).foldl (b.recordIn w atom) t.mem.past } }

/-- A write of the current task takes a number; from now on it happens before what the task does. -/
def State.newWrite (s : State) : State × WNo :=
  let w : WNo := { id := s.chip.chipNo.toNat * 2 ^ 64 + s.mem.wrote + 1, knows := s.me.knows }
  ({ s with mem := { s.mem with wrote := s.mem.wrote + 1 } }.updMe fun f => { f with knows := w.id :: f.knows }, w)

/-! ## Reads (R366–R368) -/

/-- The writes that the reads of a task have returned at some bytes of a location (R363, R367); none for a read that is no task's. -/
def State.returned (s : State) (who : Option TaskId) (x : Place × Nat × List Byte) : List Nat :=
  (s.mem.reads.filter fun r => decide (some r.1 = who) && (List.range x.2.2.length).any fun j => decide (r.2.1 = x.1.plus (x.2.1 + j))).map (·.2.2)

/-- The write that each byte of a piece comes from, as some writes leave the location. -/
def sources (ws : List Write) (x : Place × Nat × List Byte) : List (Place × Nat) :=
  (List.range x.2.2.length).filterMap fun j => (shown ws (x.2.1 + j)).map fun g => (x.1.plus (x.2.1 + j), g.2)

/-- The writes that a read takes, each as a whole, one over the other in an order that keeps the write order: the initial value, the
known ones, any others, and one of them over those that do not lie after it (R363, R366). Which they are, is free (log 9). -/
def State.taken (s : State) (known : List Nat) (i : Nat) (here : List Write) : List Write :=
  let ws := (here.zipIdx.filter fun y => decide (y.1.id = 0) || known.contains y.1.id || Config.freeBool s.clk.free (1000 + 64 * i + y.2)).map (·.1)
  match here[Config.freeNat s.clk.free (1000 + i) % here.length]? with
  | none => ws
  | some p =>
    let later (y : Write) : Bool := y.after.contains p.id
    (ws.filter fun y => !later y && decide (y ≠ p)) ++ p :: ws.filter later

/-- What a read of one location returns that knows of some writes, and the writes that its bytes come from (R366): of no byte one
that a known write lies after. A counter, and a location that something else changed, have one value (R340). -/
def State.viewWord (s : State) (known : List Nat) (i : Nat) (x : Place × Nat × List Byte) : List Byte × List (Place × Nat) :=
  let here := s.mem.past.filter fun y => decide (y.at_ = x.1)
  if here.isEmpty || s.mem.counters.contains x.1 || !explains here x.2.1 x.2.2 then (x.2.2, sources here x)
  else
    let ws := s.taken known i here
    (((List.range x.2.2.length).map fun j => shown ws (x.2.1 + j)).zipWith (fun g b => (g.map Prod.fst).getD b) x.2.2, sources ws x)

/-- The bytes that a read of a task, or of an engine, at a place returns, of which the last written are given. -/
def State.view (s : State) (who : Option TaskId) (known : List Nat) (p : Place) (bs : List Byte) : List Byte × List (Place × Nat) :=
  match p.word with
  | none => (bs, [])
  | some _ =>
    let vs := ((s.located p).pieces bs).zipIdx.map fun x => s.viewWord (known ++ s.returned who x.1) x.2 x.1
    (vs.flatMap (·.1), vs.flatMap (·.2))

/-- A read of a task returns bytes at a place (R366); none of its later reads of a byte goes back behind what it returned there
(R367, R368). -/
def State.look (s : State) (who : TaskId) (known : List Nat) (p : Place) (bs : List Byte) : State × List Byte :=
  let v := s.view (some who) known p bs
  ({ s with mem := { s.mem with reads := v.2.map (fun r => (who, r)) ++ s.mem.reads } }, v.1)

/-- The same of what its home yields. -/
def State.lookGot (s : State) (who : TaskId) (known : List Nat) (p : Place) (g : Got) : State × Got :=
  match g with
  | .bytes bs => ((s.look who known p bs).1, .bytes (s.look who known p bs).2)
  | g => (s, g)

/-- An operation of a task returned the last value of some bytes (R361); it tells of no other bytes (R389). -/
def State.sawLast (s : State) (who : TaskId) (p : Place) (n : Nat) : State :=
  let rs := ((s.located p).pieces (s.homeBytes p n)).flatMap fun x => sources (s.mem.past.filter fun y => decide (y.at_ = x.1)) x
  { s with mem := { s.mem with reads := rs.map (fun r => (who, r)) ++ s.mem.reads } }

/-! ## Releases and acquires (R354, R355) -/

/-- Same frame counter, or same place. -/
def Place.sameCounter (p q : Place) : Bool :=
  match p, q with
  | .frameCtr a, .frameCtr b => decide (a.chip = b.chip) && decide (a.key = b.key) && decide (a.gen = b.gen) && decide (a.reg = b.reg)
  | p, q => decide (p = q)

/-- A scope covers parties that lie at one tile, on one chip, or anywhere. -/
def scopeCovers (a near : Scope) : Bool :=
  match a, near with
  | .domain, _ => true
  | .chip, .domain => false
  | .chip, _ => true
  | .tile, n => decide (n = .tile)

/-- The least scope that covers the releasing party and a party of a chip, at a tile or at none (R355). -/
def Rel.near (r : Rel) (chip : BitVec 11) (tile : Option Nat) : Scope :=
  if r.chip ≠ chip then .domain else if r.tile.isSome ∧ r.tile = tile then .tile else .chip

/-- The writes that an observation at a scope acquires: of releases whose scope and its own cover the other party (R354). -/
def acquired (rels : List Rel) (sc : Scope) (chip : BitVec 11) (tile : Option Nat) : List Nat :=
  rels.flatMap fun r => if scopeCovers r.scope (r.near chip tile) && scopeCovers sc (r.near chip tile) then r.knows else []

/-- A `cset` at its home: an observer after it acquires only adds that follow it (R352). -/
def State.dropReleases (s : State) (p : Place) : State :=
  { s with mem := { s.mem with rels := s.mem.rels.filter fun x => !x.1.sameCounter p } }

/-- What adds to a counter released, in the order of the adds (R353). -/
def State.relsOf (s : State) (p : Place) : List Rel := (s.mem.rels.filter fun x => x.1.sameCounter p).map (·.2)

/-- An add is made at its home: what it releases stands from now on. -/
def State.releases (s : State) (p : Place) (r : Option Rel) : State :=
  match r with
  | some r => { s with mem := { s.mem with rels := s.mem.rels ++ [(p, r)] } }
  | none => s

/-- What a releasing add of the current task carries: all that happens before it (R354). -/
def State.myRel (s : State) (sc : Option Scope) : Option Rel :=
  sc.map fun sc => { scope := sc, chip := s.chip.chipNo, tile := some s.myTile, knows := s.me.knows }

/-- A task has acquired at a scope what some releases carry. -/
def Frame.acquires (f : Frame) (sc : Scope) (rels : List Rel) (chip : BitVec 11) (tile : Nat) : Frame :=
  { f with knows := (acquired rels sc chip (some tile) ++ f.knows).eraseDups, rels := rels, acq := some sc }

end Sys2Proof.Machine
end

