-- ==== Sys2Proof/Machine/MemOps.lean ====
section
/-! DEFINITION. Machine/MemOps.lean: loads, stores, landings, counted stores, vector memory, prefetch and fences as
they issue (R209–R232). What their messages do at the homes is in Home.lean. -/

namespace Sys2Proof.Machine

/-! ## Local scratchpads (R212) -/

def State.bankPut (s : State) (t off : Nat) (bs : List Byte) : State :=
  { s with mem := { s.mem with bank := Mem.puts (some 0) s.mem.bank (bankKey t off) bs } }
def State.sramPut (s : State) (c off : Nat) (bs : List Byte) : State :=
  { s with mem := { s.mem with sram := Mem.puts (some 0) s.mem.sram (sramKey c off) bs } }

/-- Own core's scratchpad or a bank of the own tile (R212). -/
def Place.isLocal (p : Place) (c : Nat) : Bool :=
  match p with
  | .bank t _ => decide (t = tileOfCore c)
  | .sram k _ => decide (k = c)
  | _ => false

/-- A bank under change or waking holds its accesses; an access to a gated bank starts its wake, which clears the gate bit
(R206, R208). The second component: the access may proceed. -/
def State.bankTouch (s : State) (t n : Nat) : State × Bool :=
  let x := s.tile t
  if x.changing.contains n || x.waking.any (fun w => decide (w.1 = n)) then (s, false)
  else if x.gate.getLsbD n && !x.wlock then
    (s.setTile t { x with gate := setBit x.gate n false, waking := x.waking ++ [(n, s.clk.cycle)] }, false)
  else (s, true)

def State.touch (s : State) (p : Place) : State × Bool :=
  match p with
  | .bank t off => s.bankTouch t (off / 0x20000)
  | _ => (s, true)

/-- Marks of uncorrectable lines that stay after a write: those of lines that it does not cover (R507, R514). -/
def marksAfter (bad : List Nat) (key n : Nat) : List Nat :=
  bad.filter fun l => !(decide (key ≤ 64 * l) && decide (64 * l + 64 ≤ key + n))

def State.localPut (s : State) (p : Place) (bs : List Byte) : State :=
  match p with
  | .bank t off =>
    let s := s.bankPut t off bs
    { s with mem := { s.mem with badBank := marksAfter s.mem.badBank (bankKey t off) bs.length } }
  | .sram c off =>
    let s := s.sramPut c off bs
    { s with mem := { s.mem with badSram := marksAfter s.mem.badSram (sramKey c off) bs.length } }
  | _ => s

/-- A marked line lies under some of the bytes from a key on. -/
def marked (bad : List Nat) (key n : Nat) : Bool := bad.any fun l => decide (key < 64 * l + 64) && decide (64 * l < key + n)

/-- The bytes are uncorrectable at their home (R211, R507). -/
def State.localBad (s : State) (p : Place) (n : Nat) : Bool :=
  match p with
  | .bank t off => marked s.mem.badBank (bankKey t off) n
  | .sram c off => marked s.mem.badSram (sramKey c off) n
  | .image k off => marked s.mem.badArena (k * 4096 + off) n
  | _ => false

/-- Bytes of a bank or a scratchpad, or poison (R211). -/
def State.localGot (s : State) (p : Place) (n : Nat) : Got :=
  if s.localBad p n then .err Cause.REFUSED else .bytes (s.localBytes p n)

/-- A value read, or the cause of its failure. -/
def Got.value : Got → Except Byte (List Byte)
  | .bytes bs => .ok bs
  | .err c => .error c

/-- A value read, as a reply carries it. -/
def Got.res : Got → Res
  | .bytes bs => .ok (leWord bs)
  | .err c => .err c

/-! ## Counter words (R340) -/

/-- A counter operation, or the loader, makes its word a counter (R35, R340). Frame counters are counters from the start. -/
def State.noteCounter (s : State) (p : Place) : State :=
  let p := s.located p
  let add : State := if s.mem.counters.contains p then s else { s with mem := { s.mem with counters := p :: s.mem.counters } }
  match p with
  | .dev _ => add
  | .bank .. => add
  | .host _ => add
  | _ => s

/-- The value of a counter at a place becomes undefined, in memory and in every copy. The place of a host counter tells its host. -/
def State.spoilOne (s : State) (p : Place) : State :=
  let bs := leBytes (Config.freeWord s.clk.free 30).toNat 8
  match p with
  | .dev pa => ({ s with mem := { s.mem with dev := Mem.puts none s.mem.dev pa bs } }.patchCopies pa bs).fresh
  | .bank t off => (s.bankPut t off bs).fresh
  | .host a => { s with mem := { s.mem with host := Mem.puts none s.mem.host a bs } }.fresh
  | _ => s

/-- Bytes were written that are not a counter operation's: the counters among them have undefined values, those of a frame in its
image too (R340). -/
def State.spoil (s : State) (p : Place) (n : Nat) : State :=
  match p with
  | .image k off =>
    (idxs 4 fun i => decide (off < 0xA48 + 8 * i) && decide (0xA40 + 8 * i < off + n) && !(s.frame k).resident).foldl (fun s i =>
      (s.setFrame k ((s.frame k).wrC i (Config.freeWord s.clk.free 30))).fresh) s
  | p => (s.mem.counters.filter fun c => (s.located p).overlaps n c 8).foldl State.spoilOne s

/-- A local store of the current task is performed: as one write of its own number, byte by byte in its locations (R212, R363). -/
def State.localStore (s : State) (w : WNo) (p : Place) (bs : List Byte) : State :=
  (s.recorded (s.localPut p bs) w false p bs).spoil p bs.length

/-- Local accesses wait for the bank, and for the task's own earlier accesses to the same bytes (R213). -/
def State.whenLocal (s : State) (p : Place) (n : Nat) (k : State → State) : State :=
  match s.touch p with
  | (s, false) => s.block .retry
  | (s, true) => if s.pending p n then s.block .retry else k s

/-! ## Loads (R209, R210) -/

/-- A store of the current core to these bytes is not performed yet: the L1 copy may be ahead of the home (R212). -/
def State.coreStoring (s : State) (p : Place) (n : Nat) : Bool :=
  s.net.any fun m => match m with
    | .store (.core chip c _) _ _ q bs .. => decide (chip = s.chip.chipNo) && decide (c = s.myCore) && p.overlaps n q bs.length
    | _ => false

/-- The bytes of an L1 copy that may serve a load: present, the job's own, no own access to the bytes and no store of the
core to them in flight, and a value that the read may return (R366, R367); that it does is free (log 4). -/
def State.l1Hit (s : State) (p : Place) (n : Nat) : Option (List Byte) :=
  match p with
  | .dev pa =>
    match s.l1Line s.myCore pa (tagOf s.me.job) with
    | some l =>
      let bs := (l.bytes.drop (pa % 64)).take n
      if s.pending p n || s.coreStoring p n || !Config.freeBool s.clk.free 2
        || decide ((s.look s.me.taskId s.me.knows p (s.homeBytes p n)).2 ≠ bs) then none else some bs
    | none => none
  | _ => none

/-- Send one read on its way; the destination is emptied at issue (R210). -/
def State.startRead (s : State) (p : Place) (n : Nat) (d : Dst) : State :=
  let id := s.me.taskId
  let job := s.me.job
  let ks := s.me.knows
  let r : State × Msg :=
    if p.isLocal s.myCore then
      let x := s.lookGot id ks p (s.localGot p n)
      (x.1, .reply id d x.2.res none none)
    else match s.l1Hit p n with
      | some bs => ((s.look id ks p (s.homeBytes p n)).1, .reply id d (.ok (leWord bs)) none none)
      | none => (s, .read id job p n d ks)
  ((r.1.updMe fun f => f.emptyDst d).send r.2).fresh

/-- Later accesses wait for an unanswered acquiring `cpoll`: they come after what it acquires, and a store never reaches
a read that the releaser made before its add (R354). -/
def State.afterAcquire (s : State) (k : State → State) : State := if s.acquiring then s.block .retry else k s

/-- Later accesses wait for the task's queued fills of the same bytes (R367). -/
def State.afterFills (s : State) (p : Place) (n : Nat) (k : State → State) : State := if s.fillPending p n then s.block .retry else k s

/-- Scalar load. -/
def State.load (s : State) (size : Nat) (d a : GReg) (ka : Bool) (i : BitVec 12) : State :=
  s.issue [.g a ka] fun s => s.afterAcquire fun s =>
    let ea := s.me.rdG a + sext64 i * BitVec.ofNat 64 size
    s.access ea size { acc := .read, plain := true, size := size } fun s p =>
      s.afterFills p size fun s =>
        if p.isLocal s.myCore then s.whenLocal p size fun s => (s.startRead p size (.g d)).next
        else (s.startRead p size (.g d)).next

/-! ## Stores (R212) -/

/-- The check of a store's address: a posted store to a host-owned page keeps its journal entry and parks there, so
the task goes on (R124, R125). `parked` tells the continuation. -/
def State.accessStore (s : State) (va : Word) (align : Nat) (u : Use) (k : State → Place → Bool → State) : State :=
  match s.target va align u with
  | (s, .trap c) => s.trap c va
  | (s, .xlate l) => s.taskParkXlate u.acc.kind va l
  | (s, .own p) => k s p true
  | (s, .ok p) => k s p false

/-- Transmit a posted write, or park it under OWN with its entry. -/
def State.post (s : State) (va : Word) (parked : Bool) (m : Msg) : State :=
  if parked then s.parkOwn (.store m) s.myTile s.me.job va s.me.svc else s.send m

/-- A store updates the core's own L1 copy (R212). -/
def State.storeL1 (s : State) (p : Place) (bs : List Byte) : State :=
  match p with
  | .dev pa => s.patchL1 s.myCore pa bs
  | _ => s

/-- Scalar store: the value register is field d, and ka covers both (R209). -/
def State.store (s : State) (size : Nat) (d a : GReg) (ka : Bool) (i : BitVec 12) : State :=
  s.issue [.g d ka, .g a ka] fun s => s.afterAcquire fun s =>
    let ea := s.me.rdG a + sext64 i * BitVec.ofNat 64 size
    let bs := leBytes (s.me.rdG d).toNat size
    s.accessStore ea size { acc := .write, plain := true, size := size } fun s p parked =>
      if p.isLocal s.myCore then s.whenLocal p size fun s => (s.newWrite.1.localStore s.newWrite.2 p bs).next
      else s.withEntry fun s e =>
        let w := s.newWrite.2
        let s := s.newWrite.1.enter e JKind.st ea 1 true
        let s := if parked then s else s.storeL1 p bs
        (s.post ea parked (.store (s.entrySender e) s.me.taskId s.me.job p bs false none w)).next

/-! ## Landings (R217–R219) -/

/-- A landing address with the issuing chip's number filled in. -/
def State.landOf (s : State) (w : Word) : LandAddr :=
  let a := LandAddr.ofWord w
  { a with chip := s.physical a.chip }

/-- `lnd`: address limit, alignment, landing address, then window or translation (R218). -/
def State.lnd (s : State) (size : Nat) (whole : Bool) (a b : GReg) (ka kb : Bool) : State :=
  s.issue [.g a ka, .g b kb] fun s => s.afterAcquire fun s =>
    let ea := s.me.rdG a
    let la := s.me.rdG b
    if beyond ea then s.trap Cause.PERM ea
    else if ea.toNat % size ≠ 0 then s.trap Cause.ALIGN ea
    else if !s.landValid la whole then s.trap Cause.PERM la
    else s.access ea size { acc := .read, plain := false, size := size } fun s p => s.afterFills p size fun s =>
      s.withEntry fun s e =>
        let s := s.enter e JKind.lnd la 1 true
        (s.send (.lndRead (s.entrySender e) s.me.taskId s.me.job p size (s.landOf la) s.me.knows)).next

/-- `rput`: the value is read at issue (R219). -/
def State.rput (s : State) (whole : Bool) (src : Src) (vals : Frame → List Word) (a : GReg) (ka : Bool) : State :=
  s.issue [.g a ka, src] fun s =>
    let la := s.me.rdG a
    if !s.landValid la whole then s.trap Cause.PERM la
    else s.withEntry fun s e =>
      let s := s.enter e JKind.rput la 1 true
      (s.send (.landing (s.entrySender e) s.me.taskId s.me.job (s.landOf la) (vals s.me) none)).next

/-! ## Counter addresses (R341–R343) -/

/-- Which counter form asks (R341, R342). -/
inductive CtrUse where
  | add | fadd | wait | set
  deriving DecidableEq, Repr

def CtrUse.acc : CtrUse → AccKind
  | .add => .write
  | .fadd => .both
  | .wait => .read
  | .set => .both

/-- A class-2 address names the current task's own frame (R343). -/
def State.ownFrame (s : State) (la : LandAddr) : Bool :=
  decide (la.chip = s.me.origin.chip) && decide (la.key = s.me.origin.key) && decide (la.gen = s.me.origin.gen)

/-- The checks of R341 in order: cause of the trap, or the counter's place. -/
def State.counter (s : State) (va : Word) (u : CtrUse) : State × Target :=
  if fld va 62 2 = 2 then
    let la := s.landOf va
    if la.cls ≠ 2 ∨ !s.landOk va ∨ 3 < la.reg.toNat ∨ la.elem ≠ 0 ∨ fld va 0 8 ≠ 0 then (s, .trap Cause.PERM)
    else if (u = .wait ∨ u = .set) ∧ !s.ownFrame la then (s, .trap Cause.PERM)
    else (s, .ok (.frameCtr la))
  else if beyond va then (s, .trap Cause.PERM)
  else if va.toNat % 8 ≠ 0 then (s, .trap Cause.ALIGN)
  else
    match s.target va 8 { acc := u.acc, plain := false, size := 8 } with
    | (s, .ok (.sram _ _)) => (s, .trap Cause.PERM)
    | (s, .ok (.image _ _)) => (s, .trap Cause.PERM)
    | (s, .ok (.bank t off)) => if (s.tile t).mode.getLsbD (off / 0x20000) && !(s.tile t).changing.contains (off / 0x20000) then (s, .trap Cause.PERM)
      else (s, .ok (.bank t off))
    | (s, .ok (.host h)) =>
      if u = .wait then (s, .trap Cause.CWAITHOST) else if u = .set then (s, .trap Cause.PERM) else (s, .ok (.host h))
    | r => r

/-- Check a counter address, trap or park, else go on with the place. -/
def State.withCounter (s : State) (va : Word) (u : CtrUse) (k : State → Place → State) : State :=
  match s.counter va u with
  | (s, .trap c) => s.trap c va
  | (s, .xlate l) => s.taskParkXlate 3 va l
  | (s, .own _) => s.taskParkOwn va
  | (s, .ok p) => k s p

/-! ## Counted stores (R225) -/

/-- `pst`: always posted, even when the address is local. -/
def State.pst (s : State) (size : Nat) (d a b : GReg) (ka kb : Bool) : State :=
  s.issue [.g d ka, .g a ka, .g b kb] fun s => s.afterAcquire fun s =>
    let ea := s.me.rdG a
    let bs := leBytes (s.me.rdG d).toNat size
    let B := s.me.rdG b
    let go : State → Place → Bool → Option Place → State := fun s p parked c =>
      s.withEntry fun s e =>
        let w := s.newWrite.2
        let s := (s.newWrite.1.enter e JKind.pst ea 1 true).enterCtr e c
        let s := if parked then s else s.storeL1 p bs
        (s.post ea parked (.store (s.entrySender e) s.me.taskId s.me.job p bs true c w)).next
    s.accessStore ea size { acc := .write, plain := false, size := size } fun s p parked =>
      if B = 0 then go s p parked none
      else s.withCounter B .add fun s c => go s p parked (some c)

/-! ## Vector memory (R226–R228) -/

/-- The unmasked elements with their addresses. -/
def vmElems (f : Frame) (m : MReg) (addr : Nat → Word) : List (Nat × Word) :=
  (idxs 8 fun i => (f.rdM m).getLsbD i).map fun i => (i, addr i)

/-- Check elements in order, collecting their targets. -/
def State.targets (s : State) (u : Use) : List (Nat × Word) → State × List (Nat × Word × Target)
  | [] => (s, [])
  | (i, va) :: es =>
    let r := s.target va 8 u
    let t := r.1.targets u es
    (t.1, (i, va, r.2) :: t.2)

/-- The lowest-numbered failing element decides; else an unmapped element parks the whole instruction; else, for
loads, a host-owned one does; else go on with the elements (R227). -/
def State.elements (s : State) (u : Use) (es : List (Nat × Word)) (loads : Bool)
    (k : State → List (Nat × Word × Place × Bool) → State) : State :=
  let r := s.targets u es
  let s := r.1
  match r.2.findSome? (fun e => match e.2.2 with | .trap c => some (c, e.2.1) | _ => none) with
  | some (c, va) => s.trap c va
  | none =>
    match r.2.findSome? (fun e => match e.2.2 with | .xlate l => some (l, e.2.1) | _ => none) with
    | some (l, va) => s.taskParkXlate u.acc.kind va l
    | none =>
      match r.2.findSome? (fun e => match e.2.2 with | .own _ => some e.2.1 | _ => none), loads with
      | some va, true => s.taskParkOwn va
      | _, _ => k s (r.2.filterMap fun e => match e.2.2 with
          | .ok p => some (e.1, e.2.1, p, false)
          | .own p => some (e.1, e.2.1, p, true)
          | _ => none)

/-- Every local element may be accessed now. -/
def State.whenAllLocal (s : State) (ps : List Place) (k : State → State) : State :=
  match ps with
  | [] => k s
  | p :: ps =>
    if p.isLocal s.myCore then s.whenLocal p 8 fun s => s.whenAllLocal ps k else s.whenAllLocal ps k

def vmUse (acc : AccKind) : Use := { acc := acc, plain := false, size := 8 }

/-- Base plus offset (R226). -/
def vmBase (f : Frame) (b : GReg) (o : BitVec 10) : Word := f.rdG b + sext64 o * 64

/-- `vld` and `vgath`: read each unmasked element. -/
def State.vload (s : State) (d : VReg) (m : MReg) (addr : Nat → Word) : State :=
  s.elements (vmUse .read) (vmElems s.me m addr) true fun s es =>
    if es.any fun e => s.fillPending e.2.2.1 8 then s.block .retry
    else s.whenAllLocal (es.map fun e => e.2.2.1) fun s =>
      (es.foldl (fun s e => s.startRead e.2.2.1 8 (.v d (BitVec.ofNat 3 e.1))) s).next

def State.vld (s : State) (d : VReg) (b : GReg) (m : MReg) (ka : Bool) (o : BitVec 10) : State :=
  s.issue ((if decide (m ≠ 0) then [.v d ka] else []) ++ [.m m ka, .g b ka]) fun s => s.afterAcquire fun s =>
    let ea := vmBase s.me b o
    if beyond ea then s.trap Cause.PERM ea
    else if ea.toNat % 64 ≠ 0 then s.trap Cause.ALIGN ea
    else s.vload d m fun i => ea + BitVec.ofNat 64 (8 * i)

def State.vgath (s : State) (d : VReg) (b : GReg) (m : MReg) (ka : Bool) (o : BitVec 10) : State :=
  s.issue ((if decide (m ≠ 0) then [.v d ka] else []) ++ [.v (d + 1) ka, .m m ka, .g b ka]) fun s => s.afterAcquire fun s =>
    let f := s.me
    s.vload d m fun i => vmBase f b o + f.rdE (d + 1) i

/-- Bytes of element i of v d. -/
def elemBytes (f : Frame) (d : VReg) (i : Nat) : List Byte := leBytes (f.rdE d i).toNat 8

/-- `vst`: local or posted as a whole, one journal entry (R228). A full vector is one 64-byte write (R514). -/
def State.vst (s : State) (d : VReg) (b : GReg) (m : MReg) (ka : Bool) (o : BitVec 10) : State :=
  s.issue [.v d ka, .m m ka, .g b ka] fun s => s.afterAcquire fun s =>
    let f := s.me
    let ea := vmBase f b o
    if beyond ea then s.trap Cause.PERM ea
    else if ea.toNat % 64 ≠ 0 then s.trap Cause.ALIGN ea
    else s.elements (vmUse .write) (vmElems f m fun i => ea + BitVec.ofNat 64 (8 * i)) false fun s es =>
      match es with
      | [] => s.next
      | (_, _, p0, parked) :: _ =>
        let writes : List (Place × List Byte) :=
          if es.length = 8 then [(p0, (List.range 8).flatMap fun i => elemBytes f d i)]
          else es.map fun x => (x.2.2.1, elemBytes f d x.1)
        if p0.isLocal s.myCore then
          s.whenAllLocal (es.map fun e => e.2.2.1) fun s =>
            (writes.foldl (fun t w => t.localStore s.newWrite.2 w.1 w.2) s.newWrite.1).next
        else s.withEntry fun s e =>
          let n := s.newWrite.2
          let s := s.newWrite.1.enter e JKind.vst ea writes.length true
          (writes.foldl (fun s w =>
            let s := if parked then s else s.storeL1 w.1 w.2
            s.post ea parked (.store (s.entrySender e) s.me.taskId s.me.job w.1 w.2 false none n)) s).next

/-- `vscat`: one entry for each unmasked element that is not local, all held before any is sent (R228). -/
def State.vscat (s : State) (d : VReg) (b : GReg) (m : MReg) (ka : Bool) (o : BitVec 10) : State :=
  s.issue [.v d ka, .v (d + 1) ka, .m m ka, .g b ka] fun s => s.afterAcquire fun s =>
    let f := s.me
    s.elements (vmUse .write) (vmElems f m fun i => vmBase f b o + f.rdE (d + 1) i) false fun s es =>
      let far := es.filter fun e => !e.2.2.1.isLocal s.myCore
      if (s.core s.myCore).freeEntries.length < far.length then s.block .retry
      else s.whenAllLocal (es.map fun e => e.2.2.1) fun s =>
        (es.foldl (fun s x =>
          let bs := elemBytes f d x.1
          let w := s.newWrite.2
          if x.2.2.1.isLocal s.myCore then s.newWrite.1.localStore w x.2.2.1 bs
          else match (s.core s.myCore).freeEntries.head? with
            | none => s
            | some e =>
              let s := s.newWrite.1.enter e JKind.vscat x.2.1 1 true
              let s := if x.2.2.2 then s else s.storeL1 x.2.2.1 bs
              s.post x.2.1 x.2.2.2 (.store (s.entrySender e) s.me.taskId s.me.job x.2.2.1 bs false none w)) s).next

/-! ## Prefetch and fences (R229–R232) -/

/-- `pf`: dropped unless the line is own-chip device memory that the job may read; never traps or parks. -/
def State.prefetch (s : State) (d a : GReg) (ka : Bool) (i : BitVec 12) : State :=
  s.issue [.g a ka] fun s =>
    let ea := s.me.rdG a + sext64 i * 64
    if beyond ea || inWindow ea then s.next
    else match s.translate (coreLevels s.myCore) s.me.job s.me.svc .read ea with
      | (s, .ok (.dev pa)) =>
        let l := s.homeLine pa
        if s.ownerCheck (tagOf s.me.job) l.owner ≠ .served ∨ s.mem.bad.contains (pa / 64) ∨ Config.devBytes ≤ pa then s.next
        else if d = 0 then ((s.renew s.myCore pa).fillL1 s.myCore pa l).fresh.next
        else if d = 1 then (s.fillWay s.myTile pa l).fresh.next
        else s.next
      | (s, _) => s.next

/-- Wait for a release at any scope: every earlier write performed (R231). -/
def State.release (s : State) (k : State → State) : State :=
  if s.writesDone s.me.taskId then k s else s.block .retry

/-- The wait of a releasing add: writes and reads (R349, R354). -/
def State.releaseAdd (s : State) (sc : BitVec 2) (k : State → State) : State :=
  if sc = 0 then k s
  else if s.writesDone s.me.taskId && s.readsDone s.me.taskId then k s
  else s.block .retry

/-- Scope of a two-bit code: 0 .t, 1 .c, 2 .d. -/
def scopeOf (x : BitVec 2) : Scope := if x = 0 then .tile else if x = 1 then .chip else .domain

/-- Scope of an sc field: 1 .t, 2 .c, 3 .d; none for 0. -/
def scScope (x : BitVec 2) : Option Scope :=
  if x = 0 then none else if x = 1 then some .tile else if x = 2 then some .chip else some .domain

/-! ## The meanings -/

abbrev MOut := Host.Outcome State Fault Refusal

/-- Access size of the size codes 0–3 (R209, R218, R225). -/
def sizeOf2 (x : BitVec 2) : Nat := 2 ^ x.toNat

/-- `ld8` (R210). -/
def execLd8 (d a : GReg) (ka : Bool) (i : BitVec 12) (s : State) : MOut := .next (s.load 1 d a ka i)
/-- `ld16` (R210). -/
def execLd16 (d a : GReg) (ka : Bool) (i : BitVec 12) (s : State) : MOut := .next (s.load 2 d a ka i)
/-- `ld32` (R210). -/
def execLd32 (d a : GReg) (ka : Bool) (i : BitVec 12) (s : State) : MOut := .next (s.load 4 d a ka i)
/-- `ld64` (R210). -/
def execLd64 (d a : GReg) (ka : Bool) (i : BitVec 12) (s : State) : MOut := .next (s.load 8 d a ka i)
/-- `st8` (R212). -/
def execSt8 (d a : GReg) (ka : Bool) (i : BitVec 12) (s : State) : MOut := .next (s.store 1 d a ka i)
/-- `st16` (R212). -/
def execSt16 (d a : GReg) (ka : Bool) (i : BitVec 12) (s : State) : MOut := .next (s.store 2 d a ka i)
/-- `st32` (R212). -/
def execSt32 (d a : GReg) (ka : Bool) (i : BitVec 12) (s : State) : MOut := .next (s.store 4 d a ka i)
/-- `st64` (R212). -/
def execSt64 (d a : GReg) (ka : Bool) (i : BitVec 12) (s : State) : MOut := .next (s.store 8 d a ka i)
/-- `lnd.8` to `lnd.64` (R218). -/
def execLnd (a b : GReg) (ka kb : Bool) (sz : BitVec 2) (s : State) : MOut := .next (s.lnd (sizeOf2 sz) false a b ka kb)
/-- `lnd.v` (R218). -/
def execLndV (a b : GReg) (ka kb : Bool) (s : State) : MOut := .next (s.lnd 64 true a b ka kb)
/-- `rput` (R219). -/
def execRput (a b : GReg) (ka kb : Bool) (s : State) : MOut :=
  .next (s.rput false (.g b kb) (fun f => [f.rdG b]) a ka)
/-- `rput.v`: b names v0–v31 (R219). -/
def execRputV (a b : GReg) (ka kb : Bool) (s : State) : MOut :=
  .next (s.rput true (.v (b.setWidth 5) kb) (fun f => (List.range 8).map fun e => f.rdE (b.setWidth 5) e) a ka)
/-- `pst` (R225). -/
def execPst (d a b : GReg) (ka kb : Bool) (sz : BitVec 2) (s : State) : MOut := .next (s.pst (sizeOf2 sz) d a b ka kb)
/-- `fence.p` blocks until every journal entry of the task is freed (R230). -/
def execFenceP (s : State) : MOut :=
  .next (s.issue [] fun s => if s.entriesOf s.me.taskId then s.block .retry else s.next)
/-- `fence.r.s` (R231). -/
def execFenceR (_sc : BitVec 2) (s : State) : MOut := .next (s.issue [] fun s => s.release State.next)
/-- `fence.a.s` widens the task's last acquire (R232). -/
def execFenceA (sc : BitVec 2) (s : State) : MOut :=
  .next (s.issue [] fun s => s.afterAcquire fun s =>
    match s.me.acq with
    | none => s.next
    | some q =>
      let near := if scopeCovers q (scopeOf sc) then q else scopeOf sc
      ((s.acquireAt s.myCore near).updMe fun f => { f.acquires near f.rels s.chip.chipNo s.myTile with acq := none }).next)
/-- `pf` (R229). -/
def execPf (d a : GReg) (ka : Bool) (i : BitVec 12) (s : State) : MOut := .next (s.prefetch d a ka i)
/-- `vld` (R227). -/
def execVld (d : VReg) (b : GReg) (m : MReg) (ka : Bool) (o : BitVec 10) (s : State) : MOut := .next (s.vld d b m ka o)
/-- `vst` (R228). -/
def execVst (d : VReg) (b : GReg) (m : MReg) (ka : Bool) (o : BitVec 10) (s : State) : MOut := .next (s.vst d b m ka o)
/-- `vgath` (R227). -/
def execVgath (d : VReg) (b : GReg) (m : MReg) (ka : Bool) (o : BitVec 10) (s : State) : MOut := .next (s.vgath d b m ka o)
/-- `vscat` (R228). -/
def execVscat (d : VReg) (b : GReg) (m : MReg) (ka : Bool) (o : BitVec 10) (s : State) : MOut := .next (s.vscat d b m ka o)

end Sys2Proof.Machine
end

