-- ==== Sys2Proof/Machine/Images.lean ====
section
/-! DEFINITION. Machine/Images.lean: the frame image of a frame-table entry (R78): what its bytes read as, and what
writing them changes. -/

namespace Sys2Proof.Machine

def FState.code : FState → Nat
  | .free => 0
  | .ready => 1
  | .running => 2
  | .waiting => 3
  | .parked => 4
  | .migrating => 5
  | .retired => 6

/-- The state word (R78). -/
def Frame.stateWord (f : Frame) : Word :=
  at64 f.gen.toNat 32 + at64 f.cls.toNat 28 + at64 f.prio.toNat 26 + at64 f.state.code 0

/-- The entry with the state that its state field shows: of an origin whose frame runs elsewhere, the frame's (R455). -/
def State.shown (s : State) (k : Nat) : Frame :=
  let f := s.frame k
  if f.guest || decide (f.state ≠ .migrating) then f else { f with state := (s.frame (s.homeOf k)).state }

/-- The word of the image at a multiple of 8, while the frame is not resident; none where the image has no field. The g0 slot
reads as zero and the m0 slot, which is m0, as all ones (R77). -/
def Frame.imageWord (f : Frame) (off : Nat) : Option Word :=
  if off < 0x200 then some (f.rdG (BitVec.ofNat 6 (off / 8)))
  else if off < 0xA00 then some (f.rawE ((off - 0x200) / 64) ((off - 0x200) / 8 % 8))
  else if off < 0xA40 then some (f.rdM (BitVec.ofNat 3 ((off - 0xA00) / 8)))
  else if off < 0xA60 then some (f.rdC ((off - 0xA40) / 8))
  else if off = 0xA60 then some f.gFull
  else if off = 0xA68 then some f.gPoison
  else if off < 0xA90 then some (f.vFull.extractLsb' (8 * (off - 0xA70)) 64)
  else if off < 0xAB0 then some (f.vPoison.extractLsb' (8 * (off - 0xA90)) 64)
  else if off = 0xAB0 then some (at64 f.mFull.toNat 0 + at64 f.mPoison.toNat 8)
  else if off = 0xAB8 then some f.gLive
  else if off = 0xAC0 then some (at64 f.vLive.toNat 0 + at64 f.mLive.toNat 32)
  else if off = 0xAC8 then some f.pc
  else if off = 0xAD0 then some f.fcsr
  else if off < 0xAE8 then some (f.vfx.extractLsb' (8 * (off - 0xAD8)) 64)
  else if off = 0xAF0 then some f.cause
  else if off = 0xAF8 then some f.epc
  else if off = 0xB00 then some f.tval
  else if off = 0xB08 then some f.tstat
  else none

/-- The bytes of the tail that a running handler has: the save area and the bytes free to it (R431). -/
def inTail (off : Nat) : Bool := decide (0xB10 ≤ off) && !(decide (0xB21 ≤ off) && decide (off < 0xB28))

/-- A byte of the image of an entry: the state word always; the tail from memory while a handler runs, its reserved bytes
zero; the rest undefined while the frame is resident (R78, R431). -/
def State.imageByte (s : State) (k off : Nat) : Byte :=
  let f := s.frame k
  let free := Config.freeByte s.clk.free (k * 4096 + off)
  if 0xB10 ≤ off then
    if f.handling then (if inTail off then Tab.get s.mem.arena (k * 4096 + off) 0 else 0)
    else if f.resident then free else 0
  else if 0xAE8 ≤ off ∧ off < 0xAF0 then (s.shown k).stateWord.extractLsb' (8 * (off % 8)) 8
  else if f.resident then free
  else match f.imageWord (off / 8 * 8) with
    | some w => w.extractLsb' (8 * (off % 8)) 8
    | none => free

def State.imageBytes (s : State) (k off n : Nat) : List Byte := (List.range n).map fun i => s.imageByte k (off + i)

/-- Write a word of the image of a frame that is not resident. The state word is read-only, and so are the slots of
g0 and m0. The program counter and epc keep their low bits zero (R53, R428), and `fcsr`, vfx, `cause` and `tstat` their
reserved bits, as their maps say (R237, R242, R426); what R78 leaves open of them is the model's choice (log 26). -/
def Frame.setImageWord (f : Frame) (off : Nat) (w : Word) : Frame :=
  if off < 8 then f
  else if off < 0x200 then { f with g := Tab.put f.g (off / 8) w }
  else if off < 0xA00 then { f with v := Tab.put f.v ((off - 0x200) / 8) w }
  else if off = 0xA00 then f
  else if off < 0xA40 then { f with m := Tab.put f.m ((off - 0xA00) / 8) w }
  else if off < 0xA60 then f.wrC ((off - 0xA40) / 8) w
  else if off = 0xA60 then { f with gFull := setBit w 0 true }
  else if off = 0xA68 then { f with gPoison := setBit w 0 false }
  else if off < 0xA90 then { f with vFull := putFld f.vFull (8 * (off - 0xA70)) 64 w.toNat }
  else if off < 0xAB0 then { f with vPoison := putFld f.vPoison (8 * (off - 0xA90)) 64 w.toNat }
  else if off = 0xAB0 then { f with mFull := setBit (w.setWidth 8) 0 true, mPoison := setBit (w.extractLsb' 8 8) 0 false }
  else if off = 0xAB8 then { f with gLive := setBit w 0 false }
  else if off = 0xAC0 then { f with vLive := w.setWidth 32, mLive := setBit (w.extractLsb' 32 8) 0 false }
  else if off = 0xAC8 then { f with pc := w &&& ~~~3#64 }
  else if off = 0xAD0 then { f with fcsr := fcsrWritten f.fcsr w }
  else if off < 0xAE8 then { f with vfx := putFld f.vfx (8 * (off - 0xAD8)) 64 (vfxKept w).toNat }
  else if off = 0xAF0 then { f with cause := w &&& 0x1FF#64 }
  else if off = 0xAF8 then { f with epc := w &&& ~~~3#64 }
  else if off = 0xB00 then { f with tval := w }
  else if off = 0xB08 then { f with tstat := w &&& ~~~0x1FFFFFFFF#64 }
  else f

/-- Write one byte of an image. A write to a field of a resident frame has no lasting effect, as the eviction writes
the field again; the tail takes a write while a handler runs. A write that fills the last empty source of a waiting frame does not end
its wait, as R168 names landings only (log 26). -/
def State.imagePut1 (s : State) (k off : Nat) (b : Byte) : State :=
  let f := s.frame k
  if 0xB10 ≤ off then
    if f.handling && inTail off then
      let b := if off = 0xB20 then b &&& 0x3F else b
      { s with mem := { s.mem with arena := Mem.put (some 0) s.mem.arena (k * 4096 + off) b } }
    else s
  else if f.resident then s
  else match f.imageWord (off / 8 * 8) with
    | some w => s.setFrame k (f.setImageWord (off / 8 * 8) (putFld w (8 * (off % 8)) 8 b.toNat))
    | none => s

def State.imageBytesPut (s : State) (k : Nat) : Nat → List Byte → State
  | _, [] => s
  | off, b :: bs => (s.imagePut1 k off b).imageBytesPut k (off + 1) bs

/-- Write bytes of an image; lines that they cover lose their uncorrectable marks (R514). -/
def State.imagePut (s : State) (k off : Nat) (bs : List Byte) : State :=
  let s := s.imageBytesPut k off bs
  { s with mem := { s.mem with badArena := marksAfter s.mem.badArena (k * 4096 + off) bs.length } }

def State.imageGot (s : State) (k off n : Nat) : Got :=
  if s.localBad (.image k off) n then .err Cause.REFUSED else .bytes (s.imageBytes k off n)

/-- A load into a slot that reads marked lines of the image (R211, R491, R514): the registers that it reads from them come back poisoned,
and a fatal fault of the frame's job with cause REFUSED is reported; the frame issues no more (log 26). -/
def State.loadMarked (s : State) (k : Nat) : State :=
  if !(s.mem.badArena.any fun l => decide (l / 64 = k) && (s.frame k).savesLine (l % 64)) then s
  else
    let bad (off : Nat) : Bool := s.localBad (.image k off) 8
    State.fatalFault (job := (s.frame k).job) (cause := Cause.REFUSED) (image := some (imageAddr k)) <| s.setFrame k <|
      let f := s.frame k
      let f := (idxs 64 fun n => decide (n ≠ 0) && f.gLive.getLsbD n && bad (8 * n)).foldl (fun f n => f.poisonG (BitVec.ofNat 6 n) Cause.REFUSED) f
      let f := (idxs 256 fun i => f.vLive.getLsbD (i / 8) && bad (0x200 + 8 * i)).foldl (fun f i => f.poisonE (BitVec.ofNat 5 (i / 8)) (i % 8) Cause.REFUSED) f
      (idxs 8 fun n => decide (n ≠ 0) && f.mLive.getLsbD n && bad (0xA00 + 8 * n)).foldl (fun f n =>
        { f with m := Tab.put f.m n (Cause.REFUSED.setWidth 64), mFull := setBit f.mFull n true, mPoison := setBit f.mPoison n true })
        { f with state := .parked, wait := .halted, since := s.clk.cycle }

end Sys2Proof.Machine
end

