-- ==== Sys2Proof/Machine/Array.lean ====
section
/-! DEFINITION. Machine/Array.lean: the tile array: leases, ownership, latches and their fills, multiply-accumulate,
drains and the error log (R276–R306). -/

namespace Sys2Proof.Machine

/-! ## Parts -/

def TArray.acc (a : TArray) (n : BitVec 2) : Acc :=
  if n = 0 then a.acc0 else if n = 1 then a.acc1 else if n = 2 then a.acc2 else a.acc3

def TArray.setAcc (a : TArray) (n : BitVec 2) (x : Acc) : TArray :=
  if n = 0 then { a with acc0 := x } else if n = 1 then { a with acc1 := x }
  else if n = 2 then { a with acc2 := x } else { a with acc3 := x }

def TArray.latch (a : TArray) (l sideB : Bool) : Latch :=
  match l, sideB with
  | false, false => a.a0
  | true, false => a.a1
  | false, true => a.b0
  | true, true => a.b1

def TArray.setLatch (a : TArray) (l sideB : Bool) (x : Latch) : TArray :=
  match l, sideB with
  | false, false => { a with a0 := x }
  | true, false => { a with a1 := x }
  | false, true => { a with b0 := x }
  | true, true => { a with b1 := x }

/-- The origin of the current task owns the tag (R282). -/
def AccOwner.mine (w : AccOwner) (f : Frame) : Bool := decide (w.key = f.origin.key) && decide (w.gen = f.origin.gen)

/-! ## The error log (R305) -/

/-- An event: logged while fewer than eight entries are valid, else counted; the accumulator's sticky bit is set. -/
def TArray.logEvent (a : TArray) (kind : Nat) (acc : BitVec 2) (row col kx core : Nat) (time : Word) : TArray :=
  let w := at64 1 63 + at64 kind 60 + at64 acc.toNat 58 + at64 (row % 128) 51 + at64 (col % 64) 45 + at64 (kx % 256) 37
    + at64 (core % 32) 32 + at64 (fld time 0 32) 0
  let sticky := setBit a.sticky acc.toNat true
  if a.log.length < 8 then { a with log := a.log ++ [w], sticky := sticky }
  else { a with lost := satAdd a.lost 1 0xFFFFFF, sticky := sticky }

/-- The core of the command that drains an accumulator. -/
def TArray.drainCore (a : TArray) (acc : BitVec 2) : Nat :=
  match a.queue.find? fun c => c.draining && (match c.op with | .mdrain x .. => decide (x = acc) | _ => false) with
  | some c => c.core.toNat
  | none => 0

/-- A row has left the array, or failed (R300). -/
def TArray.rowTaken (a : TArray) (acc : BitVec 2) (row : Nat) : TArray :=
  let x := a.acc acc
  a.setAcc acc { x with drain := x.drain.map fun rs => rs.filter fun r => decide (r ≠ row) }

/-- A row whose envelope failed (R301). -/
def TArray.rowFailed (a : TArray) (acc : BitVec 2) (row : Nat) (time : Word) : TArray :=
  (a.logEvent 5 acc row 0 0 (a.drainCore acc) time).rowTaken acc row

/-! ## Leases (R277–R281) -/

def State.myArray (s : State) : TArray := s.array s.myTile
def State.updArray (s : State) (t : Nat) (u : TArray → TArray) : State := s.setArray t (u (s.array t))

/-- The current task holds its tile's lease. -/
def State.holds (s : State) : Bool :=
  match s.myArray.lease with
  | some l => decide (l.task = s.me.origin.key) && decide (l.gen = s.me.origin.gen)
  | none => false

/-- Trap with LEASE; its tval (R281). -/
def leaseTval (n reason : Nat) : Word := at64 n 4 + at64 reason 0

/-- Go on only as the holder; otherwise LEASE, reason 2 clearing the lost flag, else reason 1 (R281). -/
def State.needLease (s : State) (k : State → State) : State :=
  if s.holds then k s
  else if s.me.tstat.getLsbD 60 then
    (s.updMe fun f => { f with tstat := setBit f.tstat 60 false }).trap Cause.LEASE (leaseTval 0 2)
  else s.trap Cause.LEASE (leaseTval 0 1)

/-- A request comes before another: higher current priority, then round-robin after the core last granted (R277). -/
def State.reqBefore (s : State) (last : BitVec 5) (p q : LeaseReq) : Bool :=
  let pr (r : LeaseReq) : Nat := (s.frame (s.homeOf r.task)).curPrio
  let turn (r : LeaseReq) : Nat := (r.core.toNat + 31 - last.toNat) % 32
  decide (pr q < pr p) || (decide (pr p = pr q) && decide (turn p < turn q))

/-- The request granted next; none of a task whose job is suspended (R466). -/
def State.nextReq (s : State) (a : TArray) : Option LeaseReq :=
  (a.reqs.filter fun r => !s.agingStopped (s.frame (s.homeOf r.task)).job).foldl (fun b r => match b with
    | none => some r
    | some x => if s.reqBefore a.lastCore r x then some r else some x) none

/-- The lease may be granted: none holds it, a request waits, and no enqueued `mma` still reads a latch (R280). -/
def TArray.grantable (a : TArray) : Bool :=
  a.lease.isNone && !a.reqs.isEmpty &&
    !(a.queue.any fun c => match c.op with | .mma .. => true | _ => false)

/-- Grant: all four latch sides become empty, and fills still queued load nothing that can be read, so they end
(R280). A waiting requester has its 0 and goes on; out of its slot it becomes ready (R287). -/
def State.grant (s : State) (t : Nat) : State :=
  let a := s.array t
  if !a.grantable then s
  else match s.nextReq a with
    | none => s
    | some r =>
      let queue := a.queue.filter fun c => match c.op with | .fill .. => false | _ => true
      let k := s.homeOf r.task
      let f := s.frame k
      let s := s.setArray t { a with
        lease := some { task := r.task, gen := r.gen, core := r.core, frame := BitVec.ofNat 8 (frameNo k), job := f.job, count := 0,
                        bound := r.bound, quiet := s.clk.cycle },
        reqs := a.reqs.filter fun x => decide (x ≠ r), lastCore := r.core,
        a0 := Latch.reset, a1 := Latch.reset, b0 := Latch.reset, b1 := Latch.reset, queue := queue }
      match f.wait with
      | .lease d => s.setFrame k (s.released (f.wrG d 0).advance)
      | _ => s

/-- End the lease of whoever holds it, setting the lost flag (R280). -/
def State.revoke (s : State) (t : Nat) : State :=
  match (s.array t).lease with
  | none => s
  | some l =>
    let k := s.homeOf l.task
    let s := s.setArray t { s.array t with lease := none }
    s.setFrame k { s.frame k with tstat := setBit (s.frame k).tstat 60 true }

/-- A command of the holder is counted and waits for room in the queue (R278). -/
def State.enqueuing (s : State) (l : Lease) : Bool := (s.frame (s.homeOf l.task)).counted

/-- Another request waits, and the holder is not running; waits on the array itself do not count (R279). -/
def State.challenged (s : State) (a : TArray) (l : Lease) : Bool :=
  let f := s.frame (s.homeOf l.task)
  !a.reqs.isEmpty && (!f.resident || decide (f.state = .waiting) || decide (f.state = .parked)) && decide (f.wait ≠ .array)

/-- Every array whose lease is not challenged notes the cycle (R279). -/
def State.watchLeases (s : State) : State :=
  let note (a : TArray) (l : Lease) : Lease := if s.challenged a l then l else { l with quiet := s.clk.cycle }
  { s with arrays := s.arrays.map fun p => (p.1, { p.2 with lease := p.2.lease.map (note p.2) }) }

/-! ## The command queue (R285) -/

/-- Count the command, once (R278). -/
def State.countCmd (s : State) : State :=
  if s.me.counted then s
  else (s.updArray s.myTile fun a => { a with lease := a.lease.map fun l => { l with count := l.count + 1 } }).updMe fun f =>
    { f with counted := true }

/-- Count the command, wait for room, enqueue (R278, R285); the lease is held. -/
def State.enqueue (s : State) (op : AOp) (k : State → State) : State :=
  let s := s.countCmd
  if 8 ≤ s.myArray.queue.length then s.block .array
  else
    let c : ACmd := { op := op, task := s.me.origin.key, gen := s.me.origin.gen, core := BitVec.ofNat 5 (coreNo s.myCore),
                      job := s.me.job, draining := false, knows := s.me.knows }
    k ((s.updArray s.myTile fun a => { a with queue := a.queue ++ [c] }).updMe fun f => { f with counted := false })

def AOp.acc? : AOp → Option (BitVec 2)
  | .mma _ acc _ => some acc
  | .fill .. => none
  | .mzero acc => some acc
  | .mdrain acc .. => some acc

/-- The command that runs next: the first that is not a running drain, unless its accumulator drains. -/
def TArray.head (a : TArray) : Option (Nat × ACmd) :=
  match a.queue.findIdx? fun c => !c.draining with
  | none => none
  | some i => match a.queue[i]? with
    | none => none
    | some c => match c.op.acc? with
      | some n => if (a.acc n).drain.isSome then none else some (i, c)
      | none => some (i, c)

def TArray.done (a : TArray) (i : Nat) : TArray := { a with queue := dropAt a.queue i }

/-! ## Ownership (R282, R283) -/

/-- Owned by a frame other than the current one. -/
def State.ownedByOther (s : State) (n : BitVec 2) : Bool :=
  match (s.myArray.acc n).owner with
  | some w => !w.mine s.me
  | none => false

def State.ownedByMe (s : State) (n : BitVec 2) : Bool :=
  match (s.myArray.acc n).owner with
  | some w => w.mine s.me
  | none => false

/-- Claim a free accumulator. -/
def State.claim (s : State) (n : BitVec 2) : State :=
  let o := s.me.origin
  let w : AccOwner := { job := s.me.job, core := o.core, frame := o.frame, gen := o.gen, key := o.key }
  s.updArray s.myTile fun a =>
    match (a.acc n).owner with
    | some _ => a
    | none => a.setAcc n { a.acc n with owner := some w }

/-! ## Pairs (R271) -/

inductive ElemFmt where
  | bf16 | fp16 | e4 | e5 | mxe4 | mxf4 | k4 | i8
  deriving DecidableEq, Repr

/-- A pair: element formats, the number of products, which sides take scale bytes. -/
structure Pair where
  fa : ElemFmt
  fb : ElemFmt
  k  : Nat
  sa : Bool
  sb : Bool
  deriving DecidableEq, Repr

def pairOf (p : BitVec 4) : Pair :=
  match p.toNat with
  | 0 => { fa := .bf16, fb := .bf16, k := 32, sa := false, sb := false }
  | 1 => { fa := .fp16, fb := .fp16, k := 32, sa := false, sb := false }
  | 2 => { fa := .e4, fb := .e4, k := 64, sa := false, sb := false }
  | 3 => { fa := .e4, fb := .e5, k := 64, sa := false, sb := false }
  | 4 => { fa := .e5, fb := .e4, k := 64, sa := false, sb := false }
  | 5 => { fa := .e5, fb := .e5, k := 64, sa := false, sb := false }
  | 6 => { fa := .mxe4, fb := .mxe4, k := 64, sa := true, sb := true }
  | 7 => { fa := .mxf4, fb := .mxf4, k := 128, sa := true, sb := true }
  | 8 => { fa := .k4, fb := .k4, k := 128, sa := true, sb := true }
  | 9 => { fa := .k4, fb := .e4, k := 64, sa := true, sb := false }
  | _ => { fa := .i8, fb := .i8, k := 64, sa := false, sb := false }

/-- The n code that a scaled side must have recorded: k ÷ 32 bytes (R290, R296). -/
def needN (k : Nat) : BitVec 2 := if k = 64 then 1 else 2

def ElemFmt.width : ElemFmt → Nat
  | .bf16 => 16
  | .fp16 => 16
  | .e4 => 8
  | .e5 => 8
  | .mxe4 => 8
  | .i8 => 8
  | .mxf4 => 4
  | .k4 => 4

/-- The value of an element code with its scale byte. -/
def ElemFmt.value (f : ElemFmt) (code scale : Nat) : FV :=
  match f with
  | .bf16 => Fmt.bf16.read code
  | .fp16 => Fmt.f16.read code
  | .e4 => Fmt.e4m3.read code
  | .e5 => Fmt.e5m2.read code
  | .mxe4 => mxe4Value code scale
  | .mxf4 => mxf4Value code scale
  | .k4 => k4Value code scale
  | .i8 => .fin (decide (128 ≤ code)) (if 128 ≤ code then 256 - code else code) 0

/-! ## Latches (R297, R303) -/

/-- Element t of row or column r is marked bad, or its block's scale byte is. -/
def Latch.badElem (x : Latch) (r w t : Nat) : Bool := x.bad.contains (8 * r + w * t / 64)
def Latch.badBlock (x : Latch) (r b : Nat) : Bool := x.badScale.contains (4 * r + b)

/-- The code of element t of row or column r (R297). -/
def Latch.code (x : Latch) (r w t : Nat) : Nat := fld (Tab.get x.data (8 * r + w * t / 64) 0) (w * t % 64) w

/-- The value that element t takes part as (R303). -/
def Latch.value (x : Latch) (f : ElemFmt) (scaled : Bool) (r t : Nat) : FV :=
  if x.badElem r f.width t || (scaled && x.badBlock r (t / 32)) then .fin false 0 0
  else f.value (x.code r f.width t) (Tab.get x.scales (4 * r + t / 32) 0).toNat

/-- A signed integer of 8 bits, or zero where bad (R275, R303). -/
def Latch.int8 (x : Latch) (r t : Nat) : Int :=
  if x.badElem r 8 t then 0 else (BitVec.ofNat 8 (x.code r 8 t)).toInt

/-! ## mma (R296) -/

/-- The new value of element (i, j) (R272–R275). -/
def mmaElem (p : Pair) (a b : Latch) (i j : Nat) (c : BitVec 32) : BitVec 32 :=
  match p.fa with
  | .i8 => BitVec.ofInt 32 (c.toInt + ((List.range p.k).map fun t => a.int8 i t * b.int8 j t).foldl (· + ·) 0)
  | _ =>
    let terms := (List.range p.k).map fun t => (FV.mul (a.value p.fa p.sa i t) (b.value p.fb p.sb j t)).1
    BitVec.ofNat 32 (windowSum (terms ++ [Fmt.f32.read c.toNat]))

/-- All elements, as one command; a bad element stays bad (R304). -/
def mmaElems (p : Pair) (a b : Latch) (x : Acc) : Table (BitVec 32) :=
  (List.range 8192).map fun e =>
    let c := Tab.get x.elems e 0
    (e, if x.bad.contains e then c else mmaElem p a b (e / 64) (e % 64) c)

/-- Coordinates of the bad elements, then bad blocks, of a side that an `mma` reads (R303). -/
def badUses (x : Latch) (f : ElemFmt) (scaled : Bool) (rows k : Nat) : List (Bool × Nat × Nat) :=
  if x.bad.isEmpty && x.badScale.isEmpty then []
  else (List.range rows).flatMap fun r =>
    ((idxs k fun t => x.badElem r f.width t).map fun t => (false, r, t))
    ++ (if scaled then (idxs (k / 32) fun b => x.badBlock r b).map fun b => (true, r, b) else [])

/-- Log the uses of a side: kinds 0 and 2 name rows, kinds 1 and 3 columns (R305). -/
def TArray.logUses (a : TArray) (sideB : Bool) (acc : BitVec 2) (core : Nat) (time : Word) (us : List (Bool × Nat × Nat)) : TArray :=
  us.foldl (fun a u => a.logEvent ((if u.1 then 2 else 0) + (if sideB then 1 else 0)) acc
    (if sideB then 0 else u.2.1) (if sideB then u.2.1 else 0) u.2.2 core time) a

/-- Execute the `mma` at the head of the queue. -/
def State.mmaExecute (s : State) (t : Nat) : State :=
  let a := s.array t
  match a.head with
  | some (i, c) =>
    match c.op with
    | .mma pr acc l =>
      let p := pairOf pr
      let la := a.latch l false
      let lb := a.latch l true
      let x := a.acc acc
      let y := (a.setAcc acc { x with elems := mmaElems p la lb x }).done i
      let y := y.logUses false acc c.core.toNat s.clk.dtime (badUses la p.fa p.sa 128 p.k)
      s.setArray t (y.logUses true acc c.core.toNat s.clk.dtime (badUses lb p.fb p.sb 64 p.k))
    | _ => s
  | none => s

/-- `mma` at issue: every check, the claim, the enqueue (R296). -/
def State.mma (s : State) (pr : BitVec 4) (acc : BitVec 2) (lt : BitVec 6) : State :=
  s.issue [] fun s => s.needLease fun s =>
    let l := lt.getLsbD 0
    let p := pairOf pr
    let a := s.myArray
    let la := a.latch l false
    let lb := a.latch l true
    if s.ownedByOther acc then s.trap Cause.LEASE (leaseTval acc.toNat 3)
    else if la.st = .empty ∨ lb.st = .empty then s.trap Cause.LEASE (leaseTval lt.toNat 4)
    else if p.sa ∧ la.n ≠ needN p.k then s.trap Cause.SCALESEQ 0
    else if p.sb ∧ lb.n ≠ needN p.k then s.trap Cause.SCALESEQ 1
    else (s.claim acc).enqueue (.mma pr acc l) State.next

/-! ## Fills (R290–R294) -/

/-- Check one computed address of an `mld` (R293). -/
def State.fillTarget (s : State) (sideB : Bool) (va : Word) (align : Nat) : State × Target :=
  if beyond va then (s, .trap Cause.PERM)
  else if va.toNat % align ≠ 0 then (s, .trap Cause.ALIGN)
  else if !sideB && !inWindow va then (s, .trap Cause.PERM)
  else match s.target va align { acc := .read, plain := false, size := align } with
    | (s, .ok (.bank t off)) =>
      if (sideB || decide (t = s.myTile)) && (s.tile t).bankOpen (off / 0x20000) then (s, .ok (.bank t off)) else (s, .trap Cause.PERM)
    | (s, .ok (.dev pa)) => if sideB then (s, .ok (.dev pa)) else (s, .trap Cause.PERM)
    | (s, .own (.dev pa)) => if sideB then (s, .own (.dev pa)) else (s, .trap Cause.PERM)
    | (s, .ok _) => (s, .trap Cause.PERM)
    | (s, .own _) => (s, .trap Cause.PERM)
    | r => r

def State.fillTargets (s : State) (sideB : Bool) (align : Nat) : List Word → State × List (Word × Target)
  | [] => (s, [])
  | va :: vas =>
    let r := s.fillTarget sideB va align
    let t := r.1.fillTargets sideB align vas
    (t.1, (va, r.2) :: t.2)

/-- The place of a passed address. -/
def Target.place? : Target → Option Place
  | .ok p => some p
  | _ => none

/-- Every address checked: the first outright failure decides; else the first that is unmapped or flipped to the host parks the
instruction, under XLATE or OWN as that one is (log 70); else go on (R293). -/
def State.whenFill (s : State) (ts : List (Word × Target)) (k : State → State) : State :=
  match ts.findSome? (fun e => match e.2 with | .trap c => some (c, e.1) | _ => none) with
  | some (c, va) => s.trap c va
  | none =>
    match ts.find? (fun e => match e.2 with | .ok _ => false | _ => true) with
    | some (va, .xlate l) => s.taskParkXlate 6 va l
    | some (va, _) => s.taskParkOwn va
    | none => k s

/-- The four lines of the index vector of `mld.a`, in the own tile window (R290). -/
def State.indexLines (s : State) (index : Nat) : List (Word × Option Place) :=
  (List.range 4).map fun i =>
    let va := at64 0x1FF 48 + at64 0xFF 32 + at64 (index + 64 * i) 0
    (va, if 2 ^ 32 ≤ index + 64 * i then none else s.window s.myTile s.me.svc va { acc := .read, plain := false, size := 64 })

/-- A line of the own tile, or poison. -/
def State.lineGot (s : State) (p : Place) : Got :=
  match p with
  | .image k off => s.imageGot k off 64
  | p => s.localGot p 64

/-- The index vector: a load of 256 bytes, as the task's reads are (R290, R291, R367). A line that is uncorrectable traps with the cause
that a load of it would meet, and an offset that is no multiple of 64 as a misaligned load of that address would (log 70). -/
def State.indexVector (s : State) (index : Nat) : State × Sum (List Nat) (Byte × Word) :=
  let ls := s.indexLines index
  if index % 64 ≠ 0 then (s, .inr (Cause.ALIGN, at64 0x1FF 48 + at64 0xFF 32 + at64 index 0))
  else match ls.find? fun l => l.2.isNone with
    | some l => (s, .inr (Cause.PERM, l.1))
    | none =>
      let r := ls.foldl (fun (a : State × List (Word × Got)) l => match l.2 with
        | some p =>
          let x := a.1.lookGot a.1.me.taskId a.1.me.knows p (a.1.lineGot p)
          (x.1.fresh, a.2 ++ [(l.1, x.2)])
        | none => a) (s, [])
      let gs := r.2
      match gs.findSome? fun g => match g.2 with | .err c => some (c, g.1) | _ => none with
      | some e => (s, .inr e)
      | none =>
        let bs := gs.flatMap fun g => match g.2 with
          | .bytes b => b
          | .err _ => []
        (r.1, .inl ((List.range 128).map fun r => leNat ((bs.drop (2 * r)).take 2)))

/-- Every bank that is read answers; an access to a gated bank starts its wake (R208). -/
def State.touchAll (s : State) : List Place → State × Bool
  | [] => (s, true)
  | p :: ps => match s.touch p with
    | (s, false) => (s, false)
    | (s, true) => s.touchAll ps

/-- `mld.a` and `mld.b` at issue (R291, R292). -/
def State.mld (s : State) (sideB l : Bool) (a b sc : GReg) : State :=
  s.issue ([.g a false, .g b false] ++ (if decide (sc ≠ 0) then [.g sc false] else [])) fun s => s.needLease fun s => if s.acquiring then s.block .array else
    let ga := s.me.rdG a
    let lay := s.me.rdG b
    let gs := s.me.rdG sc
    let n := lay.extractLsb' 46 2
    let stride := fld lay 48 16
    let sstride := fld lay 32 14
    if ga.toNat % 64 ≠ 0 then s.trap Cause.ALIGN ga
    else if n = 3 then s.trap Cause.PERM lay
    else
      let indexed := !sideB && decide (fld lay 0 32 ≠ 0xFFFFFFFF)
      let lines := if indexed then (s.indexLines (fld lay 0 32)).filterMap Prod.snd else []
      let r := if indexed then s.indexVector (fld lay 0 32) else (s, .inl (List.range (if sideB then 64 else 128)))
      let w := if lines.any fun p => s.pending p 64 then (s, false) else s.touchAll lines
      match r.2 with
      | .inr (c, va) => s.trap c va
      | .inl idx => if !w.2 then w.1.block .array else
        let nb := if n = 1 then 2 else 4
        let rows := s.fillTargets sideB 64 (idx.map fun i => ga + BitVec.ofNat 64 (i * 64 * stride))
        let scales := if n = 0 then (rows.1, []) else rows.1.fillTargets sideB nb (idx.map fun i => gs + BitVec.ofNat 64 (i * sstride))
        let s := scales.1
        s.whenFill (rows.2 ++ scales.2) fun s =>
          if !(s.writesDone s.me.taskId && s.loadsDone s.me.taskId) then s.block .array
          else
            let passed (ts : List (Word × Target)) : List (Word × Place) := ts.filterMap fun e => e.2.place?.map fun p => (e.1, p)
            s.enqueue (.fill sideB l n s.me.svc (passed rows.2) (passed scales.2)) fun s =>
              let s := { s with mem := { s.mem with reads := r.1.mem.reads }, clk := { s.clk with free := max s.clk.free r.1.clk.free } }
              (s.updArray s.myTile fun x => x.setLatch l sideB { x.latch l sideB with st := .loading, n := n }).next

/-- Bytes that a fill reads at a place; none where the read fails (R294). -/
def State.fillRead (s : State) (job : BitVec 12) (p : Place) (n : Nat) : Option (List Byte) :=
  let got : Got := match p with
    | .dev pa => s.devRead (tagOf job) pa n
    | .bank t off => if (s.tile t).bankOpen (off / 0x20000) then s.localGot p n else .err Cause.PERM
    | _ => .err Cause.PERM
  match got with
  | .bytes bs => some bs
  | .err _ => none

/-- Word w of a fill: its address, place and size. Each row or column has eight, then come the scale bytes of each. -/
def fillWordAt (rows scales : List (Word × Place)) (n : BitVec 2) (w : Nat) : Option (Word × Place × Nat) :=
  if w < 8 * rows.length then rows[w / 8]?.map fun x => (x.1 + BitVec.ofNat 64 (8 * (w % 8)), x.2.plus (8 * (w % 8)), 8)
  else scales[w - 8 * rows.length]?.map fun x => (x.1, x.2, if n = 1 then 2 else 4)

/-- Where a word of a fill is read: a page of device memory as it is translated now, none where that fails (R294). -/
def State.fillPlace (s : State) (t : Nat) (job : BitVec 12) (svc : Bool) (va : Word) (p : Place) : State × Option Place :=
  match p with
  | .dev _ =>
    match s.translate (tileLevels t) job svc .read va with
    | (s, .ok (.dev pa)) => (s, some (.dev pa))
    | (s, _) => (s, none)
  | p => (s, some p)

/-- A word enters a side: word w, or the scale bytes of a row or column above the words; a failed read marks them bad (R294). -/
def Latch.enter (x : Latch) (words w : Nat) (got : Option (List Byte)) (nb : Nat) : Latch :=
  if w < words then
    let bad := x.bad.filter fun b => decide (b ≠ w)
    match got with
    | some bs => { x with data := Tab.put x.data w (leWord bs), bad := bad }
    | none => { x with bad := bad ++ [w] }
  else
    let r := w - words
    let bad := x.badScale.filter fun b => decide (b / 4 ≠ r)
    match got with
    | some bs => { x with scales := (List.range nb).foldl (fun t b => Tab.put t (4 * r + b) ((bs[b]?).getD 0)) x.scales, badScale := bad }
    | none => { x with badScale := bad ++ (List.range nb).map fun b => 4 * r + b }

/-- The fill at the head of the queue has read a word. -/
def TArray.wordRead (a : TArray) (i w : Nat) : TArray :=
  match a.queue[i]? with
  | some c => { a with queue := setAt a.queue i { c with read := w :: c.read } }
  | none => a

/-- Read one word of the fill at the head of the queue. What it reads at a home makes the copies at its task's core as new as
itself (R367); a bank under change or waking holds it (R206, R208). -/
def State.fillWord (s : State) (t w : Nat) : State :=
  match (s.array t).head with
  | some (i, c) =>
    match c.op with
    | .fill sideB l n svc rows scales =>
      match c.read.contains w, fillWordAt rows scales n w with
      | false, some (va, p, size) =>
        let r := s.fillPlace t c.job svc va p
        let enter (s : State) (got : Option (List Byte)) : State := s.updArray t fun a =>
          (a.setLatch l sideB ((a.latch l sideB).enter (8 * rows.length) w got size)).wordRead i w
        match r.2 with
        | none => enter r.1 none
        | some p =>
          match r.1.touch p with
          | (s, false) => s
          | (s, true) =>
            let who : TaskId := { chip := s.chip.chipNo, key := c.task, gen := c.gen }
            let read := s.fillRead c.job p size
            let got := read.map fun bs => (s.look who c.knows p bs).2
            let s := match read with
              | some bs => (s.look who c.knows p bs).1
              | none => s
            let s := match p with
              | .dev pa => s.renew (t * 32 + c.core.toNat) pa
              | _ => s
            (enter s got).fresh
      | _, _ => s
    | _ => s
  | none => s

/-- The fill at the head ends when every word is read: the side is loaded, unless a later fill of it is accepted, whose n and
state stand (R291, R294). -/
def TArray.fillEnd (a : TArray) : TArray :=
  match a.head with
  | some (i, c) =>
    match c.op with
    | .fill sideB l n _ rows scales =>
      if (List.range (8 * rows.length + scales.length)).all c.read.contains then
        let x := a.latch l sideB
        let later := (a.queue.drop (i + 1)).any fun d => match d.op with
          | .fill b k .. => decide (b = sideB) && decide (k = l)
          | _ => false
        (a.setLatch l sideB { x with
          st := if later then .loading else .loaded,
          scales := if n = 0 then [] else x.scales, badScale := if n = 0 then [] else x.badScale }).done i
      else a
    | _ => a
  | none => a

/-- The word that the fill at the head of the queue reads next: its words are read in no stated order, each by itself, so it is a
free one of those that are left (R294, R363; log 9). -/
def State.fillNext (s : State) (t : Nat) : Option Nat :=
  match (s.array t).head with
  | some (_, c) =>
    match c.op with
    | .fill _ _ _ _ rows scales =>
      let left := (List.range (8 * rows.length + scales.length)).filter fun w => !c.read.contains w
      left[Config.freeNat s.clk.free 21 % left.length]?
    | _ => none
  | none => none

/-- Read the next word of the fill at the head of the queue. -/
def State.fillOne (s : State) (t : Nat) : State :=
  match s.fillNext t with
  | some w => ((s.fillWord t w).updArray t TArray.fillEnd).fresh
  | none => s

/-! ## mzero, mfree, mdrain (R288, R289, R299, R300) -/

/-- Members of a version on this chip. -/
def State.membersHere (s : State) (ms : List (BitVec 11 × Nat)) : List Nat :=
  (ms.filter fun m => decide (m.1 = s.chip.chipNo)).map (·.2)

/-- `mdrain` at issue (R299). The rule gives no tval for the PERM trap of a group without a committed version or members; it is the
routing word, as for a descriptor's word in R316 (log 15). -/
def State.mdrain (s : State) (acc : BitVec 2) (a b : GReg) : State :=
  s.issue [.g a false, .g b false] fun s => s.needLease fun s =>
    let rw_ := s.me.rdG a
    let user := s.me.rdG b
    let g := s.group (fld rw_ 5 8)
    let ms := s.membersHere g.curM
    let cls := rw_.extractLsb' 0 4
    if !s.ownedByMe acc then s.trap Cause.LEASE (leaseTval acc.toNat 3)
    else if rw_.getLsbD 4 then
      if !g.cv || ms.isEmpty then s.trap Cause.PERM rw_
      else s.enqueue (.mdrain acc cls (some (fld rw_ 5 8, g.cur)) ms user) State.next
    else s.enqueue (.mdrain acc cls none [s.myCore] user) State.next

/-- Destination part of a header: chip, die, tile and core of a core key (R127). -/
def coreHdr (chip : BitVec 11) (c : Nat) : Word :=
  at64 chip.toNat 53 + at64 (dieOfTile (tileOfCore c) % 2) 52 + at64 (tileNo (tileOfCore c)) 44 + at64 (coreNo c) 39

/-- The array envelope of a row (R300). -/
def State.rowEnv (s : State) (t : Nat) (c : ACmd) (acc : BitVec 2) (cls : BitVec 4) (dest : Nat) (dn : BitVec 32) (user : Word) (r : Nat) : Env :=
  let tag := at64 dn.toNat 32 + at64 s.chip.chipNo.toNat 21 + at64 (dieOfTile t) 20 + at64 (tileNo t) 12 + at64 acc.toNat 0
  { hdr := coreHdr s.chip.chipNo dest + at64 cls.toNat 35 + at64 3 32 + at64 c.job.toNat 20,
    w1 := 0, pl := [BitVec.ofNat 64 r, tag, user, 0, 0, 0], sender := .array t acc r, task := none, job := c.job, rel := none,
    svc := false, stamp := none, row := some (t, acc, r, dn, user), stolen := none }

/-- Start the drain at the head of the queue: its 128 envelopes go out (R299). -/
def State.drainStart (s : State) (t : Nat) : State :=
  let a := s.array t
  match a.head with
  | some (i, c) =>
    match c.op with
    | .mdrain acc cls _ ms user =>
      let x := a.acc acc
      let a' := (a.setAcc acc { x with drain := some (List.range 128) })
      let s' := s.setArray t { a' with queue := setAt a.queue i { c with draining := true }, drainNo := a.drainNo + 1 }
      s'.sendAll ((List.range 128).map fun r =>
        .env (s.rowEnv t c acc cls ((ms[r % ms.length]?).getD 0) a.drainNo user r))
    | _ => s
  | none => s

/-- The drain of an accumulator has ended: its command completes (R300). -/
def TArray.drainEnd (a : TArray) (acc : BitVec 2) : TArray :=
  let x := a.acc acc
  match x.drain with
  | some [] =>
    let mine (c : ACmd) : Bool := c.draining && (match c.op with | .mdrain y .. => decide (y = acc) | _ => false)
    { (a.setAcc acc { x with drain := none }) with queue := a.queue.filter fun c => !mine c }
  | _ => a

/-- A freed accumulator: no command on it and no drain (R283). -/
def TArray.mayFree (a : TArray) (acc : BitVec 2) : Bool :=
  (a.acc acc).freeing && (a.acc acc).drain.isNone && !(a.queue.any fun c => decide (c.op.acc? = some acc))

/-! ## mlease, mrel, merr (R287, R306) -/

def State.mlease (s : State) (d b : GReg) : State :=
  s.issue [.g b false] fun s =>
    let w := s.me.rdG b
    let s := s.updMe fun f => { f with tstat := setBit f.tstat 60 false }
    if s.holds then s.retG d 0
    else
      let s := s.dropLeaseReq s.run.cur
      let bound := if fld w 16 16 = 0 then 64 else min (fld w 16 16) 1024
      let r : LeaseReq := { task := s.me.origin.key, gen := s.me.origin.gen, core := BitVec.ofNat 5 (coreNo s.myCore), bound := bound }
      let t := s.myTile
      let s := (s.updArray t fun a => { a with reqs := a.reqs ++ [r] }).grant t
      if s.holds then s.retG d 0
      else if w.getLsbD 0 then (s.dropLeaseReq s.run.cur).retG d 1
      else s.block (.lease d)

/-- The word that `merr` reads (R306). -/
def TArray.word (a : TArray) (n : Nat) : Word :=
  if n < 8 then (a.log[n]?).getD 0
  else if n = 8 then at64 a.lost 16 + at64 a.sticky.toNat 8 + at64 a.log.length 0
  else if n = 9 then
    match a.lease with
    | some l => at64 1 63 + at64 (b2n !a.reqs.isEmpty) 62 + at64 l.core.toNat 40 + at64 l.frame.toNat 32
        + at64 (min l.count 0xFFFF) 16 + at64 l.bound 0
    | none => at64 (b2n !a.reqs.isEmpty) 62
  else if 12 ≤ n ∧ n ≤ 15 then
    let x := a.acc (BitVec.ofNat 2 (n - 12))
    match x.owner with
    | some w => at64 1 63 + at64 (b2n x.drain.isSome) 62 + at64 (b2n !x.bad.isEmpty) 61 + at64 w.core.toNat 40
        + at64 w.frame.toNat 32 + at64 w.gen.toNat 24 + at64 w.job.toNat 0
    | none => 0
  else 0

def State.merr (s : State) (d b : GReg) : State :=
  s.issue [.g b false] fun s =>
    let w := s.me.rdG b
    let n := fld w 0 5
    let v := s.myArray.word n
    let s := if n = 8 ∧ w.getLsbD 5 then s.updArray s.myTile fun a => { a with log := [], lost := 0, sticky := 0 } else s
    s.retG d v

/-! ## The meanings -/

abbrev ArOut := Host.Outcome State Fault Refusal

/-- `mma` (R296). -/
def execMma (p : BitVec 4) (c : BitVec 2) (l : BitVec 6) (s : State) : ArOut := .next (s.mma p c l)
/-- `mlease` (R287). -/
def execMlease (d b : GReg) (s : State) : ArOut := .next (s.mlease d b)
/-- `mrel` (R287). -/
def execMrel (s : State) : ArOut := .next (s.issue [] fun s => (s.endLease s.run.cur false).next)
/-- `mzero` (R288). -/
def execMzero (c : BitVec 2) (s : State) : ArOut :=
  .next (s.issue [] fun s => s.needLease fun s =>
    if s.ownedByOther c then s.trap Cause.LEASE (leaseTval c.toNat 3)
    else (s.claim c).enqueue (.mzero c) State.next)
/-- `mfree` (R289). -/
def execMfree (c : BitVec 2) (s : State) : ArOut :=
  .next (s.issue [] fun s =>
    if !s.ownedByMe c then s.next
    else (s.updArray s.myTile fun a => a.setAcc c { a.acc c with freeing := true }).block .array)
/-- `mld.a` (R291). -/
def execMldA (l : Bool) (a b sc : GReg) (s : State) : ArOut := .next (s.mld false l a b sc)
/-- `mld.b` (R292). -/
def execMldB (l : Bool) (a b sc : GReg) (s : State) : ArOut := .next (s.mld true l a b sc)
/-- `mdrain` (R299). -/
def execMdrain (c : BitVec 2) (a b : GReg) (s : State) : ArOut := .next (s.mdrain c a b)
/-- `merr` (R306). -/
def execMerr (d b : GReg) (s : State) : ArOut := .next (s.merr d b)

/-- ARRAY_LEASE_GRANT (R277, R280). -/
def execArrayLeaseGrant (tile : Nat) (s : State) : ArOut := .next (s.grant tile)
/-- ARRAY_LEASE_BOUND_END (R278). -/
def execArrayLeaseBoundEnd (tile : Nat) (s : State) : ArOut :=
  .next (match (s.array tile).lease with
    | some l => if l.bound ≤ l.count ∧ !(s.array tile).reqs.isEmpty ∧ !s.enqueuing l then s.revoke tile else s
    | none => s)
/-- ARRAY_LEASE_REVOKE (R279). -/
def execArrayLeaseRevoke (tile : Nat) (s : State) : ArOut :=
  .next (match (s.array tile).lease with
    | some l =>
      if s.challenged (s.array tile) l ∧ 4096 ≤ s.clk.cycle - l.quiet then s.revoke tile else s
    | none => s)
/-- ARRAY_FILL: a word of the fill at the head is read (R294). -/
def execArrayFill (tile : Nat) (s : State) : ArOut := .next (s.fillOne tile)
/-- ARRAY_MMA_EXECUTE (R296). -/
def execArrayMmaExecute (tile : Nat) (s : State) : ArOut := .next (s.mmaExecute tile)
/-- ARRAY_MZERO_EXECUTE (R288). -/
def execArrayMzeroExecute (tile : Nat) (s : State) : ArOut :=
  let a := s.array tile
  .next (match a.head with
    | some (i, c) =>
      match c.op with
      | .mzero acc => s.setArray tile ((a.setAcc acc { a.acc acc with elems := [], bad := [] }).done i)
      | _ => s
    | none => s)
/-- ARRAY_DRAIN_START (R299). -/
def execArrayDrainStart (tile : Nat) (s : State) : ArOut := .next (s.drainStart tile)
/-- ARRAY_DRAIN_COMPLETE (R300). -/
def execArrayDrainComplete (tile : Nat) (acc : BitVec 2) (s : State) : ArOut := .next (s.updArray tile fun a => a.drainEnd acc)
/-- ACCUMULATOR_FREE (R283). -/
def execAccumulatorFree (tile : Nat) (acc : BitVec 2) (s : State) : ArOut :=
  .next (if (s.array tile).mayFree acc then s.updArray tile fun a => a.setAcc acc Acc.reset else s)
/-- ARRAY_SOFT_ERROR: an element found uncorrectable; its owner's core stands for the command's (R304, log 27). -/
def execArraySoftError (tile : Nat) (acc : BitVec 2) (row : BitVec 7) (col : BitVec 6) (s : State) : ArOut :=
  .next (s.updArray tile fun a =>
    let x := a.acc acc
    let core := match x.owner with
      | some w => w.core.toNat
      | none => 0
    let e := 64 * row.toNat + col.toNat
    (a.setAcc acc { x with bad := if x.bad.contains e then x.bad else x.bad ++ [e] }).logEvent 4 acc row.toNat col.toNat 0 core s.clk.dtime)

end Sys2Proof.Machine
end

