-- ==== Sys2Proof/Machine/Atomics.lean ====
section
/-! DEFINITION. Machine/Atomics.lean: the data atomics (R356–R362). -/

namespace Sys2Proof.Machine

/-- The operation of an ALU atomic by its code (R72). -/
def aluOp (o : BitVec 3) : AmoOp :=
  match o.toNat with
  | 0 => .add
  | 1 => .and
  | 2 => .or
  | 3 => .xor
  | 4 => .min
  | 5 => .max
  | 6 => .minu
  | _ => .maxu

/-- The new value on w-bit values; none where nothing is written (R357, R358). -/
def amoNew (op : AmoOp) (w old v D : Nat) : Option Nat :=
  let sgn (x : Nat) : Int := if 2 ^ (w - 1) ≤ x then (x : Int) - 2 ^ w else x
  match op with
  | .add => some ((old + v) % 2 ^ w)
  | .and => some (old &&& v)
  | .or => some (old ||| v)
  | .xor => some (old ^^^ v)
  | .min => some (if sgn v < sgn old then v else old)
  | .max => some (if sgn old < sgn v then v else old)
  | .minu => some (if v < old then v else old)
  | .maxu => some (if old < v then v else old)
  | .swap => some v
  | .cas => if old = D then some v else none
  | .incw => some (if D ≤ old then 0 else old + 1)
  | .addb => if D ≤ old then none else some (Nat.min (old + v) D)
  | .fadd => some (Fmt.f32.addOp { rm := 0, fz := false } old v).1

/-- An atomic on its way to its home: posted with a journal entry of kind 5, or value-returning (R359). -/
def State.amoFar (s : State) (posted : Bool) (va : Word) (id : TaskId) (job : BitVec 12) (p : Place) (dbl : Bool) (op : AmoOp)
    (v d : Word) (r : GReg) : State :=
  if posted then
    s.withEntry fun s e =>
      let w := s.newWrite.2
      let s := s.newWrite.1.enter e JKind.atom va 1 true
      (s.send (.atomic (some (s.entrySender e)) id job p dbl op v d .none w)).next
  else
    let w := s.newWrite.2
    ((s.newWrite.1.updMe fun f => f.emptyG r).send (.atomic none id job p dbl op v d (.g r) w)).next

/-- Value-returning and posted atomics; an atomic on the own core's scratchpad is local (R359). -/
def State.amo (s : State) (dbl : Bool) (op : AmoOp) (srcs : List Src) (posted : Bool) (v D : Frame → Word) (d a : GReg) : State :=
  s.issue srcs fun s => s.afterAcquire fun s =>
    let va := s.me.rdG a
    let n := if dbl then 8 else 4
    let vv := v s.me
    let dd := D s.me
    s.access va n { acc := .both, plain := false, size := n } fun s p => s.afterFills p n fun s =>
      let id := s.me.taskId
      let job := s.me.job
      let s := match p with
        | .dev pa => s.dropL1 s.myCore pa
        | _ => s
      match p with
      | .sram c off =>
        if c = s.myCore then s.whenLocal p n fun s =>
          let old := leNat (s.localBytes p n)
          let bad := s.localBad p n
          let w := s.newWrite.2
          let s := s.newWrite.1
          let s := if bad then s else s.sawLast id p n
          let s := match amoNew op (8 * n) old (vv.toNat % 2 ^ (8 * n)) (dd.toNat % 2 ^ (8 * n)) with
            | some x => if bad then s else s.recorded (s.sramPut c off (leBytes x n)) w true p (leBytes x n)
            | none => s
          if posted then s.next
          else
            let v : Res := if bad then .err Cause.REFUSED else .ok (BitVec.ofNat 64 old)
            ((s.updMe fun f => f.emptyG d).send (.reply id (.g d) v none none)).next
        else s.amoFar posted va id job p dbl op vv dd d
      | _ => s.amoFar posted va id job p dbl op vv dd d
abbrev AOut := Host.Outcome State Fault Refusal

/-- `amo32`/`amo64` add, and, or, xor, min, max, minu, maxu (R357). -/
def execAmoAlu (w : Bool) (d a b : GReg) (ka kb : Bool) (o : BitVec 3) (s : State) : AOut :=
  .next (s.amo w (aluOp o) [.g a ka, .g b kb] (decide (d = 0)) (fun f => f.rdG b) (fun _ => 0) d a)
/-- `amo.swap` (R357). -/
def execAmoSwap (w : Bool) (d a b : GReg) (ka kb : Bool) (s : State) : AOut :=
  .next (s.amo w .swap [.g a ka, .g b kb] (decide (d = 0)) (fun f => f.rdG b) (fun _ => 0) d a)
/-- `amo.cas` reads d first (R356). -/
def execAmoCas (w : Bool) (d a b : GReg) (ka kb : Bool) (s : State) : AOut :=
  .next (s.amo w .cas [.g d ka, .g a ka, .g b kb] false (fun f => f.rdG b) (fun f => f.rdG d) d a)
/-- `amo.incw` has no operand (R356). -/
def execAmoIncw (w : Bool) (d a : GReg) (ka : Bool) (s : State) : AOut :=
  .next (s.amo w .incw [.g d ka, .g a ka] false (fun _ => 0) (fun f => f.rdG d) d a)
/-- `amo.addb` reads its bound in d (R356). -/
def execAmoAddb (w : Bool) (d a b : GReg) (ka kb : Bool) (s : State) : AOut :=
  .next (s.amo w .addb [.g d ka, .g a ka, .g b kb] false (fun f => f.rdG b) (fun f => f.rdG d) d a)
/-- `amo32.fadd` (R358). -/
def execAmoFadd (d a b : GReg) (ka kb : Bool) (s : State) : AOut :=
  .next (s.amo false .fadd [.g a ka, .g b kb] (decide (d = 0)) (fun f => f.rdG b) (fun _ => 0) d a)

end Sys2Proof.Machine
end

