-- ==== Sys2Proof/Machine/Counters.lean ====
section
/-! DEFINITION. Machine/Counters.lean: the counter instructions as they issue (R338–R352). -/

namespace Sys2Proof.Machine

/-- A threshold is reached when the value lies within the 2^63 values ahead of it (R338). -/
def reached (v t : Word) : Bool := decide ((v - t).toNat < 2 ^ 63)

/-- The posted form: a journal entry of kind 5 (R349). -/
def State.postedAdd (s : State) (va : Word) (p : Place) (v : Word) (rel : Option Rel) : State :=
  s.withEntry fun s e =>
    let s := s.enter e JKind.atom va 1 false
    (s.send (.add (.posted (s.entrySender e)) (some s.me.taskId) s.me.job p v rel)).next

/-- `cadd` and `cfadd`: address, increment, release, then the add (R349). -/
def State.counterAdd (s : State) (u : CtrUse) (d a b : GReg) (ka kb : Bool) (sc : BitVec 2) (value : Bool) : State :=
  s.issue [.g a ka, .g b kb] fun s => s.afterAcquire fun s =>
    let va := s.me.rdG a
    let v := s.me.rdG b
    s.withCounter va u fun s p =>
      if 2 ^ 63 ≤ v.toNat then s.trap Cause.CWRAP v
      else s.releaseAdd sc fun s =>
        if value then
          let id := s.me.taskId
          let job := s.me.job
          ((s.updMe fun f => f.emptyG d).send (.add (.value id (.g d)) (some id) job p v (s.myRel (scScope sc)))).next
        else s.postedAdd va p v (s.myRel (scScope sc))

/-- `cwait`: the task waits until its wake; the instruction is not finished before (R350). -/
def State.cwait (s : State) (sc : BitVec 2) (d a b : GReg) (ka kb : Bool) : State :=
  s.issue [.g a ka, .g b kb] fun s => s.afterAcquire fun s =>
    let va := s.me.rdG a
    let t := s.me.rdG b
    s.withCounter va .wait fun s p =>
      let w : Waiter := .task s.me.taskId ((scScope sc).getD .tile) (.g d) s.clk.stepNo
      (s.send (.cwait w s.me.job p t none)).block (.wake s.clk.stepNo p)

/-- One observation at the home (R351, R352). -/
def State.observe (s : State) (srcs : List Src) (u : CtrUse) (kind : ObsKind) (val : Frame → Word) (d a : GReg) : State :=
  s.issue srcs fun s => s.afterAcquire fun s =>
    let va := s.me.rdG a
    let v := val s.me
    s.withCounter va u fun s p =>
      let id := s.me.taskId
      let job := s.me.job
      ((s.updMe fun f => f.emptyG d).send (.observe id job p kind v (.g d))).next

abbrev COut := Host.Outcome State Fault Refusal

/-- `cadd` (R349). -/
def execCadd (a b : GReg) (ka kb : Bool) (sc : BitVec 2) (s : State) : COut :=
  .next (s.counterAdd .add 0 a b ka kb sc false)
/-- `cfadd`: posted if d = 0 (R349). -/
def execCfadd (d a b : GReg) (ka kb : Bool) (sc : BitVec 2) (s : State) : COut :=
  .next (s.counterAdd .fadd d a b ka kb sc (decide (d ≠ 0)))
/-- `cwait` (R350). -/
def execCwait (d a b : GReg) (ka kb : Bool) (sc : BitVec 2) (s : State) : COut := .next (s.cwait sc d a b ka kb)
/-- `cpoll` (R351). -/
def execCpoll (d a b : GReg) (ka kb : Bool) (sc : BitVec 2) (s : State) : COut :=
  .next (s.observe [.g a ka, .g b kb] .wait (.poll (scScope sc)) (fun f => f.rdG b) d a)
/-- `cread` (R351). -/
def execCread (d a : GReg) (ka : Bool) (s : State) : COut := .next (s.observe [.g a ka] .wait .read (fun _ => 0) d a)
/-- `cset` is privileged (R348, R352). -/
def execCset (d a b : GReg) (ka kb : Bool) (s : State) : COut :=
  .next (s.privileged fun s => s.observe [.g a ka, .g b kb] .set .set (fun f => f.rdG b) d a)

end Sys2Proof.Machine
end

