-- ==== Sys2Proof/Machine/Envelopes.lean ====
section
/-! DEFINITION. Machine/Envelopes.lean: sending (R127–R133), acceptance and bounce (R134–R138), handler tables
(R139–R143), activation (R144–R146), aging, stealing (R149–R153) and groups (R158–R162). -/

namespace Sys2Proof.Machine

/-! ## Packets to peer chips -/

def State.stream (s : State) (chip : BitVec 11) : PairStream := Tab.get s.fab.streams chip.toNat PairStream.reset
def State.setStream (s : State) (chip : BitVec 11) (x : PairStream) : State :=
  { s with fab := { s.fab with streams := Tab.put s.fab.streams chip.toNat x } }

/-- A packet that has not been transmitted: its seq, key and link fields are set when it is (R408, R414). -/
def State.packet (s : State) (dest : BitVec 11) (job : BitVec 12) (bulk : Bool) (kind : BitVec 4) (body : Body) : Packet :=
  { dest := dest, src := s.chip.chipNo, job := job, bulk := bulk, kind := kind, seq := 0, rly := false, lack := 0, lseq := 0,
    crc := true, key := 0, body := body, made := s.fab.made }

/-- Queue a packet for a peer chip. -/
def State.toPeer (s : State) (dest : BitVec 11) (job : BitVec 12) (bulk : Bool) (kind : BitVec 4) (body : Body) : State :=
  let x := s.stream dest
  let s' := s.setStream dest { x with unsent := x.unsent ++ [s.packet dest job bulk kind body] }
  { s' with fab := { s'.fab with made := s.fab.made + 1 } }

/-- The chip that waits for an answer. -/
def Sender.chip (x : Sender) (own : BitVec 11) : BitVec 11 :=
  match x with
  | .core c .. => c
  | .front c .. => c
  | .engine c .. => c
  | _ => own

/-- Send an answer: on this chip, or by the stream to its chip. -/
def State.answer (s : State) (chip : BitVec 11) (job : BitVec 12) (kind : BitVec 4) (m : Msg) : State :=
  if chip = s.chip.chipNo then s.send m else s.toPeer chip job false kind (.msg m)

/-! ## Seeing (R502) -/

/-- Accumulator 16d + k for a reply from a tile of this chip to a core of this chip. -/
def seeIndex (c t k : Nat) : Nat :=
  16 * (if tileOfCore c = t then 0 else if dieOfTile (tileOfCore c) = dieOfTile t then 1 else 2) + k

/-- The accumulator that a reply to a sender counts in. -/
def State.seeFor (s : State) (x : Sender) (t k : Nat) : Option Nat :=
  match x with
  | .core chip c _ => if chip = s.chip.chipNo then some (seeIndex c t k) else some (48 + k)
  | _ => none

/-! ## Sending (R129–R132) -/

/-- Payload registers: none, or six from d on. -/
def payloadSrcs (d : GReg) (ka : Bool) : List Src := if d = 0 then [] else (List.range 6).map fun i => .g (d + BitVec.ofNat 6 i) ka
def Frame.payload (f : Frame) (d : GReg) : List Word :=
  (List.range 6).map fun i => if d = 0 then 0 else f.rdG (d + BitVec.ofNat 6 i)

/-- The header with its hardware fields (R127). -/
def hdrFilled (h : Word) (origin : Nat) (job : BitVec 12) : Word :=
  putFld (putFld (putFld h 32 2 origin) 20 12 job.toNat) 16 4 0

/-- The header with its destination (R128). -/
def hdrTo (h : Word) (chip : BitVec 11) (c : Nat) : Word := putFld h 39 25 0 + coreHdr chip c

/-- The envelope of the current task. -/
def State.envOf (s : State) (hdr w1 : Word) (pl : List Word) (e : Nat) (rel : Option Scope) (stamp : Option (Nat × BitVec 16)) : Env :=
  { hdr := hdr, w1 := w1, pl := pl, sender := s.entrySender e, task := some s.me.taskId, job := s.me.job, rel := rel,
    svc := s.me.svc, stamp := stamp, row := none, stolen := none, knows := s.me.knows }

/-- Release at the form's scope first, after what the task has acquired (R378); without a scope go on. -/
def State.releasing (s : State) (rel : Option Scope) (k : State → State) : State :=
  if rel.isSome then s.afterAcquire fun s => s.release k else k s

/-- Release, take a journal entry and transmit the messages (R130). -/
def State.transmit (s : State) (hdr w1 : Word) (pl : List Word) (rel : Option Scope) (stamp : Option (Nat × BitVec 16))
    (raw : Word) (n : Nat) (msgs : Env → List Msg) : State :=
  s.releasing rel fun s => s.withEntry fun s e =>
    let s := s.enter e JKind.env raw n false
    (s.sendAll (msgs (s.envOf hdr w1 pl e rel stamp))).next

/-- `send` (R130). -/
def State.sendTask (s : State) (d a b : GReg) (ka kb : Bool) (sc : BitVec 2) : State :=
  s.issue (payloadSrcs d ka ++ [.g a ka, .g b kb]) fun s =>
    let f := s.me
    let h := f.rdG a
    let chip := s.physical (h.extractLsb' 53 11)
    if 175 < fld h 44 8 ∨ s.chip.nChips ≤ chip.toNat then s.trap Cause.PERM h
    else if fld h 39 5 = 31 ∧ !f.svc then s.trap Cause.PERM h
    else
      let hdr := putFld (hdrFilled h 0 f.job) 53 11 chip.toNat
      s.transmit hdr (f.rdG b) (f.payload d) (scScope sc) none h 1 fun e => [.env e]

/-- `spawn`: to the own core, releasing at tile scope (R130). -/
def State.spawnTask (s : State) (d a b : GReg) (ka kb : Bool) : State :=
  s.issue (payloadSrcs d ka ++ [.g a ka, .g b kb]) fun s =>
    let f := s.me
    let h := f.rdG a
    let hdr := hdrTo (hdrFilled h 2 f.job) s.chip.chipNo s.myCore
    s.transmit hdr (f.rdG b) (f.payload d) (some .tile) none h 1 fun e => [.env e]

/-- Other chips that hold members of a version, each once. -/
def State.farChips (s : State) (ms : List (BitVec 11 × Nat)) : List (BitVec 11) :=
  (ms.foldl (fun t m => if m.1 = s.chip.chipNo then t else Tab.put t m.1.toNat m.1) ([] : Table (BitVec 11))).map (·.2)

/-- `sendg`: one stamped packet for each chip of the current version (R130, R161). -/
def State.sendgTask (s : State) (d a b : GReg) (ka kb : Bool) (sc : BitVec 2) : State :=
  s.issue (payloadSrcs d ka ++ [.g a ka, .g b kb]) fun s =>
    let f := s.me
    let h := f.rdG a
    let grp := fld h 44 8
    let g := s.group grp
    if !g.cv then s.trap Cause.PERM h
    else
      let far := s.farChips g.curM
      let hdr := hdrFilled h 1 f.job
      s.transmit hdr (f.rdG b) (f.payload d) (scScope sc) (some (grp, g.cur)) h (1 + far.length) fun e =>
        (s.chip.chipNo :: far).map fun c => .group { e with hdr := putFld e.hdr 53 11 c.toNat }

/-! ## The activation queue (R135, R141) -/

def Core.stored (c : Core) (st : Stored) : Nat := (c.queue.filter fun q => decide (q.stored = st)).length

/-- Places taken on the held list (R138, R141). -/
def Core.heldPlaces (c : Core) : Nat := c.held.length + c.stored .held

/-- Envelopes in the spill area of a tile (R135). -/
def State.tileSpill (s : State) (t : Nat) : Nat :=
  ((List.range 32).map fun i => (s.core (t * 32 + i)).stored .spill).foldl (· + ·) 0

/-- Where one more envelope is stored: inbox, else spill area. -/
def State.room (s : State) (c : Nat) : Option Stored :=
  let x := s.core c
  if x.stored .inbox < 64 then some .inbox
  else if x.stored .spill < 128 ∧ s.tileSpill (tileOfCore c) < 512 then some .spill
  else none

/-- The earliest arrival in a queue with a property. -/
def earliest (q : List QEnv) (p : QEnv → Bool) : Option QEnv :=
  (q.filter p).foldl (fun b e => match b with
    | none => some e
    | some x => if e.arrival < x.arrival then some e else some x) none

/-- Store an envelope elsewhere. -/
def Core.restore (c : Core) (e : QEnv) (st : Stored) : Core :=
  { c with queue := c.queue.map fun q => if q.arrival = e.arrival ∧ q.env = e.env then { q with stored := st } else q }

/-- While an inbox has room, the earliest envelope of its core stored outside it moves into it (R135). -/
def State.inboxFill (s : State) (c : Nat) : Nat → State
  | 0 => s
  | n + 1 =>
    let x := s.core c
    match earliest x.queue fun q => decide (q.stored ≠ .inbox) with
    | some e => if x.stored .inbox < 64 then (s.setCore c (x.restore e .inbox)).inboxFill c n else s
    | none => s

/-- While a core may spill, its earliest queued envelope stored on the held list moves into the spill area (R141). -/
def State.spillFill (s : State) (c : Nat) : Nat → State
  | 0 => s
  | n + 1 =>
    let x := s.core c
    match earliest x.queue fun q => decide (q.stored = .held) with
    | some e => match s.room c with
      | some st => (s.setCore c (x.restore e st)).spillFill c n
      | none => s
    | none => s

/-- After places at a core freed: its inbox fills, and with it the spill area of its tile (R135, R141). -/
def State.refill (s : State) (c : Nat) : State :=
  (List.range 32).foldl (fun s i =>
    let k := tileOfCore c * 32 + i
    s.spillFill k (s.core k).queue.length) (s.inboxFill c (s.core c).queue.length)

/-! ## Acceptance (R133–R138) -/

/-- What becomes of an arriving envelope; one of a job that is being removed is discarded (R148). -/
inductive Verdict where
  | accepted | bounced | refused | orphan | discarded
  deriving DecidableEq, Repr

/-- The destination core belongs to the envelope's job; a service core takes what service mode sent, and origin 3
with job 0 (R133, R134). -/
def State.takes (s : State) (c : Nat) (e : Env) : Bool :=
  if coreNo c = 31 then e.svc || (decide (e.origin = 3) && decide (e.job = 0))
  else decide ((s.core c).job = some e.job)

def Core.handler (x : Core) (cls : BitVec 4) : Handler := Tab.get x.handlers cls.toNat Handler.reset

/-- Place an arriving envelope (R135, R138). -/
def State.accept (s : State) (e : Env) : State × Verdict :=
  let c := e.core
  let x := s.core c
  if (s.job e.job).state = 4 then (s, .discarded)
  else if !s.takes c e then (s, .refused)
  else
    let h := x.handler e.cls
    if !h.bound then
      if x.heldPlaces < 16 then
        let q : QEnv := { env := e, prio := 0, base := 0, arrival := s.clk.stepNo, cycle := s.clk.cycle, stored := .held }
        ((s.setCore c { x with held := x.held ++ [q] }).rouse c, .accepted)
      else (s, .orphan)
    else match s.room c with
      | none => (s.setCore c { x with bounces := satAdd x.bounces 1 0xFFFF }, .bounced)
      | some st =>
        let p := (e.stolen).getD h.prio.toNat
        let q : QEnv := { env := e, prio := p, base := p, arrival := s.clk.stepNo, cycle := s.clk.cycle, stored := st }
        ((s.setCore c { x with queue := x.queue ++ [q] }).rouse c, .accepted)

/-- An envelope that was accepted before fails: it returns to its sender, whose entry was freed at the acceptance (R131, R138,
R143; log 24). -/
def State.failsLate (s : State) (e : Env) (cause : Byte) : State :=
  match e.sender with
  | .core chip .. => s.answer chip e.job 8 (.late e cause)
  | .front chip .. => s.answer chip e.job 8 (.late e cause)
  | .array t acc row => s.updArray t fun a => a.rowFailed acc row s.clk.dtime
  | .die _ => s.send (.refusal e.sender cause Cause.PERM)
  | _ => s

/-- The retry time after the n-th bounce (R136); j is pseudo-random, hence free. -/
def State.retryAt (s : State) (n : Nat) : Nat :=
  s.clk.cycle + 256 * 2 ^ min (n - 1) 8 + Config.freeNat s.clk.free 0 % 256

/-- A bounced envelope returns to its journal entry (R136). -/
def State.bouncedTo (s : State) (c e : Nat) (env : Env) : State :=
  match s.journal c e with
  | some j =>
    (s.setJournal c e (some { j with state := 2, bounces := j.bounces + 1, bounced := j.bounced ++ [(env, s.retryAt (j.bounces + 1))] })).fresh
  | none => s

/-- Entries of the front end's journal are free again (R117). -/
def State.feFree (s : State) (n : Nat) : State := { s with fe := { s.fe with out := s.fe.out - n } }

/-- A bounced envelope of a LAUNCH returns to its command; of one that has ended it is not sent again (R117, R136). -/
def State.bouncedToFront (s : State) (cmd : Nat) (e : Env) : State :=
  let b : Env × Nat := ({ e with bounces := e.bounces + 1 }, s.retryAt (e.bounces + 1))
  let mine (x : Cmd) : Bool := decide (x.id = cmd) && decide (x.phase = .running)
  if s.fe.cmds.any mine then
    let cmds := s.fe.cmds.map fun x => if mine x then { x with bounced := x.bounced ++ [b] } else x
    { s with fe := { s.fe with cmds := cmds } }.fresh
  else s.feFree 1

/-- A bounce: to a journal entry here or at a peer, to the front end, or sent again by the device itself (log 65). -/
def State.bounceEnv (s : State) (e : Env) : State :=
  let e := { e with hdr := setBit e.hdr 19 true }
  let again : Env := { e with bounces := e.bounces + 1, due := s.retryAt (e.bounces + 1) }
  if e.stolen.isSome then (s.send (.env again)).fresh
  else match e.sender with
    | .core chip c n => if chip = s.chip.chipNo then s.bouncedTo c n e else s.toPeer chip e.job false 2 (.msg (.bounce e.sender e))
    | .front chip cmd _ =>
      if chip ≠ s.chip.chipNo then s.toPeer chip e.job false 2 (.msg (.bounce e.sender e)) else s.bouncedToFront cmd e
    | _ => (s.send (.env again)).fresh

/-- Send an answer to the sender of an envelope, on this chip or at its own. -/
def State.tellSender (s : State) (e : Env) (kind : BitVec 4) (m : Msg) : State := s.answer (e.sender.chip s.chip.chipNo) e.job kind m

/-- Tell the sender (R131, R133, R138). -/
def State.settle (s : State) (e : Env) (v : Verdict) : State :=
  match v with
  | .bounced => s.bounceEnv e
  | .accepted =>
    if e.stolen.isSome then s
    else match e.sender with
      | .core .. => s.tellSender e 2 (.ack e.sender (s.seeFor e.sender (tileOfCore e.core) 9))
      | .front .. => s.tellSender e 2 (.ack e.sender none)
      | _ => s
  | .refused =>
    if e.stolen.isSome then s.failsLate e Cause.REFUSED
    else match e.sender with
      | .core .. => s.tellSender e 8 (.refusal e.sender Cause.REFUSED Cause.PERM)
      | .front .. => s.tellSender e 8 (.refusal e.sender Cause.REFUSED Cause.PERM)
      | _ => s.failsLate e Cause.REFUSED
  | .orphan =>
    if e.stolen.isSome then s.failsLate e Cause.ORPHAN
    else match e.sender with
      | .core .. => s.tellSender e 8 (.refusal e.sender Cause.ORPHAN 0)
      | .front .. => s.tellSender e 8 (.refusal e.sender Cause.ORPHAN 0)
      | _ => s.failsLate e Cause.ORPHAN
  | .discarded =>
    match e.sender with
    | .core .. => if e.stolen.isSome then s else s.tellSender e 2 (.ack e.sender none)
    | .front .. => if e.stolen.isSome then s else s.tellSender e 2 (.ack e.sender none)
    | .array .. => s.failsLate e Cause.REFUSED
    | .die _ => s.failsLate e Cause.REFUSED
    | _ => s

/-! ## Multicast at a chip (R161) -/

/-- How a chip classifies a stamp. -/
inductive Stamp where
  | members (ms : List Nat)
  | later
  | stale
  deriving DecidableEq, Repr

def State.classify (s : State) (g : Nat) (v : BitVec 16) : Stamp :=
  let x := s.group g
  if x.cv && decide (v = x.cur) then .members (s.membersHere x.curM)
  else if x.pv && decide (v = x.prev) then .members (s.membersHere x.prevM)
  else if !x.cv || (decide (1 ≤ (v - x.cur).toNat) && decide ((v - x.cur).toNat ≤ 32767)) then .later
  else .stale

/-- An entry waits for n more copies than the packet it counted. -/
def State.moreCopies (s : State) (x : Sender) (job : BitVec 12) (n : Nat) : State :=
  match x with
  | .core chip c e =>
    if chip = s.chip.chipNo then
      match s.journal c e with
      | some j => s.setJournal c e (some { j with copies := j.copies + n })
      | none => s
    else s.toPeer chip job false 2 (.msg (.more x job n))
  | _ => s

/-- Replicate message n, a multicast packet at this chip: one copy for each member, a header naming the member
(R128); a later stamp waits; a stale one fails as REFUSED. -/
def State.replicate (s : State) (n : Nat) (e : Env) : State :=
  match e.stamp with
  | none => s
  | some (g, v) =>
    match s.classify g v with
    | .later => s
    | .stale =>
      let x := s.group g
      ((s.dropMsg n).setGroup g { x with err := x.err ||| 8 }).tellSender e 8 (.refusal e.sender Cause.REFUSED Cause.PERM)
    | .members ms =>
      let copies := ms.map fun c => Msg.env { e with hdr := hdrTo e.hdr s.chip.chipNo c }
      let s := { s with net := s.net.take n ++ copies ++ s.net.drop (n + 1) }
      match ms with
      | [] => s.tellSender e 2 (.ack e.sender none)
      | _ :: rest => s.moreCopies e.sender e.job rest.length

/-- An arriving envelope or multicast packet; one for a peer leaves by its stream. -/
def State.envArrival (s : State) (n : Nat) : State :=
  match s.deliverable n with
  | some (.env e) =>
    if s.clk.cycle < e.due then s
    else if e.chip ≠ s.chip.chipNo then (s.dropMsg n).toPeer e.chip e.job false 6 (.msg (.env e))
    else
      let r := (s.dropMsg n).accept e
      r.1.settle e r.2
  | some (.group e) =>
    if e.chip ≠ s.chip.chipNo then (s.dropMsg n).toPeer e.chip e.job false 6 (.msg (.group e)) else s.replicate n e
  | _ => s

/-! ## Handler tables (R139–R143) -/

/-- The 48 bytes of a template (R27). -/
def Template.ofBytes (bs : List Byte) : Template :=
  let at_ (o n : Nat) : Nat := leNat ((bs.drop o).take n)
  { glive := BitVec.ofNat 64 (at_ 0 8), gempty := BitVec.ofNat 64 (at_ 8 8), vlive := BitVec.ofNat 32 (at_ 0x10 4),
    vempty := BitVec.ofNat 32 (at_ 0x14 4), mlive := BitVec.ofNat 8 (at_ 0x18 1), mempty := BitVec.ofNat 8 (at_ 0x19 1),
    npre := BitVec.ofNat 16 (at_ 0x1A 2), preoff := BitVec.ofNat 32 (at_ 0x1C 4), pin := BitVec.ofNat 16 (at_ 0x20 2),
    rest := BitVec.ofNat 112 (at_ 0x22 14) }

def Template.pinned (t : Template) : Bool := t.pin.getLsbD 15
def Template.pinFrame (t : Template) : Nat := fld t.pin 0 8

/-- The checks of R30, with the range of presets and of their registers (R27). -/
def Template.ok (t : Template) (regs : List Nat) : Bool :=
  decide (fld t.glive 0 9 = 0x1FE) && decide (fld t.gempty 0 9 = 0) && !t.mlive.getLsbD 0 && !t.mempty.getLsbD 0
    && decide (t.npre.toNat ≤ 55) && regs.all (fun r => decide (9 ≤ r) && decide (r ≤ 63) && t.glive.getLsbD r)
    && decide regs.Nodup

/-- Bytes at a place, read at once; of a peer's memory the contents, and whether it refuses the read or the line is
uncorrectable, are free here (log 25). -/
def State.placeBytes (s : State) (job : BitVec 12) (p : Place) (n : Nat) : Got :=
  match p with
  | .dev pa => s.devReads (tagOf job) 64 pa n
  | .peer _ pa =>
    if Config.freeBool s.clk.free 21 then .bytes (freeBytes s.clk.free pa n)
    else .err (if Config.freeBool s.clk.free 22 then Cause.PERM else Cause.REFUSED)
  | .host a => if s.hostAnswers a then .bytes (s.hostBytes a n) else .err Cause.PERM
  | .image k off => s.imageGot k off n
  | .win .. => .err Cause.PERM
  | .cap .. => .err Cause.PERM
  | .frameCtr _ => .err Cause.PERM
  | p => s.localGot p n

/-- Move the held envelopes of a class into the activation queue, in arrival order (R141). -/
def State.releaseHeld (s : State) (c : Nat) (cls : BitVec 4) (pr : Nat) : Nat → State
  | 0 => s
  | n + 1 =>
    let x := s.core c
    match earliest x.held fun q => decide (q.env.cls = cls) with
    | none => s
    | some q =>
      let x := { x with held := x.held.filter fun h => !(decide (h.arrival = q.arrival) && decide (h.env = q.env)) }
      let s := s.setCore c x
      let st := (s.room c).getD .held
      let q := { q with prio := (q.env.stolen).getD pr, base := (q.env.stolen).getD pr, stored := st }
      (s.setCore c { x with queue := x.queue ++ [q] }).releaseHeld c cls pr n

/-- The status of a `bind` reaches g d as a long-latency reply (R140). -/
def State.bindReply (s : State) (d : GReg) (v : Res) : State :=
  let id := s.me.taskId
  ((s.updMe fun f => f.emptyG d).send (.reply id (.g d) v none none)).fresh.next

/-- The presets are read; then the checks and the binding (R141). -/
def State.bindWith (s : State) (d : GReg) (entry : Word) (cls : BitVec 4) (pr : BitVec 2) (t : Word) (tm : Template)
    (ps : List (Nat × Word × Target)) : State :=
  let got := ps.map fun e => match e.2.2 with
    | .ok p => s.placeBytes s.me.job p 16
    | _ => .bytes []
  match got.findSome? fun g => match g with | .err c => some c | _ => none with
  | some c => s.bindReply d (.err c)
  | none =>
    let presets : List (Nat × Word) := got.map fun g => match g with
      | .bytes bs => (leNat (bs.take 1), leWord (bs.drop 8))
      | .err _ => (0, 0)
    let regs := presets.map Prod.fst
    let c := s.myCore
    let x := s.core c
    if !tm.ok regs || (tm.pinned && decide (Tab.get? x.pins tm.pinFrame ≠ some t)) then s.bindReply d (.ok 1)
    else
      let h : Handler := { bound := true, entry := entry, tmpl := tm, taddr := t, prio := pr, presets := presets }
      let x := { x with handlers := Tab.put x.handlers cls.toNat h }
      ((s.setCore c x).releaseHeld c cls pr.toNat x.held.length).bindReply d (.ok 0)

/-- `bind`: the template and its presets are read, translated and parked as loads are (R141). -/
def State.bind (s : State) (d a b : GReg) (ka kb : Bool) : State :=
  s.issue [.g a ka, .g b kb] fun s => s.afterAcquire fun s =>
    let entry := s.me.rdG a
    let w := s.me.rdG b
    let t := w &&& ~~~63#64
    if entry.toNat % 4 ≠ 0 then s.bindReply d (.ok 2)
    else
      let u : Use := { acc := .read, plain := false, size := 8 }
      s.access t 8 u fun s p =>
        match s.placeBytes s.me.job p 48 with
        | .err c => s.bindReply d (.err c)
        | .bytes bs =>
          let tm := Template.ofBytes bs
          let vas := (List.range tm.npre.toNat).map fun i => (i, t + tm.preoff.setWidth 64 + BitVec.ofNat 64 (16 * i))
          let r := s.targets u vas
          let s := r.1
          let bad : Option (Word × Target) := r.2.findSome? fun e => match e.2.2 with
            | Target.ok _ => none
            | x => some (e.2.1, x)
          match bad with
          | some (va, .trap c) => s.trap c va
          | some (va, .xlate l) => s.taskParkXlate 0 va l
          | some (va, _) => s.taskParkOwn va
          | none => s.bindWith d entry (w.extractLsb' 2 4) (w.extractLsb' 0 2) t tm r.2

/-! ## Activation (R144–R146) -/

/-- A queued envelope is eligible at its core: its class unmasked, its job not held; unbound classes are handled;
a pinned frame or an ordinary one is free (R143, R146). -/
def State.eligible (s : State) (c : Nat) (q : QEnv) : Bool :=
  let x := s.core c
  let h := x.handler q.env.cls
  !x.mask.getLsbD q.env.cls.toNat && !s.jobHeld q.env.job &&
    (!h.bound
      || (h.tmpl.pinned && decide ((s.frame (c * 256 + h.tmpl.pinFrame)).state = .free))
      || (!h.tmpl.pinned && (s.lowestFree c).isSome))

/-- The envelope served next: highest current priority, then arrival (R146). -/
def State.nextEnv (s : State) (c : Nat) : Option QEnv :=
  ((s.core c).queue.filter (s.eligible c)).foldl (fun b q => match b with
    | none => some q
    | some x => if x.prio < q.prio ∨ (x.prio = q.prio ∧ q.arrival < x.arrival) then some q else some x) none

def Core.without (x : Core) (q : QEnv) : Core :=
  { x with queue := x.queue.filter fun e => !(decide (e.arrival = q.arrival) && decide (e.env = q.env)) }

/-- A queued envelope leaves a core; with the last one its idle time begins at the earliest now (R506). -/
def State.unqueue (s : State) (c : Nat) (q : QEnv) : State :=
  let x := (s.core c).without q
  s.setCore c { x with idleAt := if x.queue.isEmpty then s.clk.cycle else x.idleAt }

/-- One preset, read through the job's page tables at the core (R139). A page that is the host's at that moment fails with PERM: the rule
does not say, and an activation cannot park (log 25). -/
def State.readPreset (s : State) (c : Nat) (job : BitVec 12) (va : Word) : State × Sum (Nat × Word) Byte :=
  if beyond va then (s, .inr Cause.PERM)
  else
    let r : State × Option Place :=
      if inWindow va then (s, s.window (tileOfCore c) false va { acc := .read, plain := false, size := 8 })
      else match s.translate (coreLevels c) job (decide (coreNo c = 31)) .read va with
        | (s, .ok p) => (s, some p)
        | (s, _) => (s, none)
    match r.2 with
    | none => (r.1, .inr Cause.PERM)
    | some p =>
      match r.1.placeBytes job p 16 with
      | .bytes bs => (r.1.fresh, .inl (leNat (bs.take 1), leWord (bs.drop 8)))
      | .err e => (r.1, .inr e)

def State.readPresets (s : State) (c : Nat) (job : BitVec 12) : List Word → State × Sum (List (Nat × Word)) Byte
  | [] => (s, .inl [])
  | va :: vas =>
    match s.readPreset c job va with
    | (s, .inr e) => (s, .inr e)
    | (s, .inl p) => match s.readPresets c job vas with
      | (s, .inl ps) => (s, .inl (p :: ps))
      | (s, .inr e) => (s, .inr e)

/-- The presets that an activation applies: those of the binding; where the list has changed since, their values are undefined
(R14, R139). -/
def Handler.presetsNow (h : Handler) (seed : Nat) (read : List (Nat × Word)) : List (Nat × Word) :=
  if read = h.presets then h.presets else h.presets.map fun p => (p.1, Config.freeWord seed (400 + p.1))

/-- Every register undefined and full, counters and trap state zero, then the template (R29, R145). -/
def Frame.activated (f : Frame) (origin : Origin) (e : Env) (h : Handler) (svc : Bool) (seed cycle : Nat) (presets : List (Nat × Word)) : Frame :=
  let t := h.tmpl
  let vempty : BitVec 256 := (List.range 32).foldl (fun x n => if t.vempty.getLsbD n then x ||| (0xFF#256 <<< (8 * n)) else x) 0
  let base : Frame := { Frame.reset with
    state := .ready, gen := f.gen, cls := e.cls, prio := h.prio, job := e.job, curPrio := h.prio.toNat,
    gFull := ~~~t.gempty, gLive := t.glive, vFull := ~~~vempty, vLive := t.vlive, mFull := ~~~t.mempty, mLive := t.mlive,
    pc := h.entry, tstat := if svc then at64 1 62 else 0, origin := origin, undef := seed + 1, since := cycle, entry := h.entry, started := cycle }
  let base := presets.foldl (fun f p => f.wrG (BitVec.ofNat 6 p.1) p.2) base
  let base := base.wrG 1 e.w1
  let base := (List.range 6).foldl (fun f i => f.wrG (BitVec.ofNat 6 (i + 2)) ((e.pl[i]?).getD 0)) base
  base.wrG 8 e.hdr

/-- The row that an array envelope brings: v0–v3, full and live; bad elements arrive as 0x7FC0_0ECC (R300, R304). -/
def Frame.withRow (f : Frame) (x : Acc) (row : Nat) : Frame :=
  let el (j : Nat) : Nat := if x.bad.contains (64 * row + j) then 0x7FC00ECC else (Tab.get x.elems (64 * row + j) 0).toNat
  (List.range 32).foldl (fun f i =>
    let v : VReg := BitVec.ofNat 5 (i / 8)
    (f.wrE v (i % 8) (BitVec.ofNat 64 (el (2 * i) + 2 ^ 32 * el (2 * i + 1)))).liveV v) f

/-- Log the bad elements of a delivered row and let the row leave its array (R300, R304). -/
def TArray.deliver (a : TArray) (acc : BitVec 2) (row : Nat) (time : Word) : TArray :=
  let bad := idxs 64 fun j => (a.acc acc).bad.contains (64 * row + j)
  (bad.foldl (fun a j => a.logEvent 4 acc row j 0 (a.drainCore acc) time) a).rowTaken acc row

/-- The scope of a released envelope covers the activated core (R132). -/
def State.relCovers (s : State) (e : Env) (c : Nat) : Option Scope :=
  match e.rel, e.sender with
  | some .tile, .core chip k _ => if chip = s.chip.chipNo ∧ tileOfCore k = tileOfCore c then some .tile else none
  | some .chip, .core chip _ _ => if chip = s.chip.chipNo then some .chip else none
  | some .chip, .front chip _ _ => if chip = s.chip.chipNo then some .chip else none
  | some .domain, _ => some .domain
  | _, _ => none

/-- The lowest breakpoint that an activation matches (R496). -/
def State.matching (s : State) (f : Frame) : Option Nat :=
  if s.dbg.open_ && decide (s.dbg.job = f.job) then
    (idxs 8 fun n =>
      let b := Tab.get s.dbg.bps n 0
      b.getLsbD 63 && (!b.getLsbD 62 || decide (fld b 58 4 = f.cls.toNat)) && (!b.getLsbD 57 || decide (fld b 2 55 = fld f.entry 2 55))).head?
  else none

/-- A breakpoint match begins a stop, or during one replaces reason 0 (R496). -/
def State.breakpoint (s : State) (f : Frame) : State :=
  match s.matching f with
  | none => s
  | some n =>
    if s.dbg.state = 0 then { s with dbg := { s.dbg with state := 1, reason := BitVec.ofNat 4 (8 + n) } }
    else if s.dbg.reason = 0 then { s with dbg := { s.dbg with reason := BitVec.ofNat 4 (8 + n) } }
    else s

/-- Activate a queued envelope in a frame (R145). -/
def State.activateIn (s : State) (c n : Nat) (q : QEnv) (h : Handler) (presets : List (Nat × Word)) : State :=
  let k := c * 256 + n
  let e := q.env
  let f := s.frame k
  let t := tileOfCore c
  let o : Origin := { chip := s.chip.chipNo, die := BitVec.ofNat 1 (dieOfTile t), tile := BitVec.ofNat 8 (tileNo t),
                      core := BitVec.ofNat 5 (coreNo c), frame := BitVec.ofNat 8 n, gen := f.gen }
  let s := s.fresh
  let g := f.activated o e h (decide (coreNo c = 31)) s.clk.free s.clk.cycle presets
  let g := match e.row with
    | some (at_, acc, row, _, _) => g.withRow ((s.array at_).acc acc) row
    | none => g
  let s := match e.row with
    | some (at_, acc, row, _, _) => s.updArray at_ fun a => a.deliver acc row s.clk.dtime
    | none => s
  let g := { g with knows := if (s.relCovers e c).isSome then e.knows else [], rels := [] }
  let s := { s with mem := { s.mem with reads := s.mem.reads.filter fun r => decide (r.1 ≠ g.taskId) } }
  let s := match s.relCovers e c with
    | some sc => s.acquireAt c sc
    | none => s
  let s := ((s.setFrame k g).unqueue c q).rouse c
  ((s.refill c).trace 1 c g 0 e.hdr).breakpoint g

/-- One step of a core's queue engine (R143, R145, R146); none after a device-fatal event (R510). -/
def State.activate (s : State) (c : Nat) : State :=
  if s.pwr.fatal then s else
  match s.nextEnv c with
  | none => s
  | some q =>
    let h := (s.core c).handler q.env.cls
    if !h.bound then
      let s := s.unqueue c q
      let y := s.core c
      if y.heldPlaces < 16 then (s.setCore c { y with held := y.held ++ [{ q with stored := .held }] }).refill c
      else (s.refill c).failsLate q.env Cause.ORPHAN
    else
      let n := if h.tmpl.pinned then some h.tmpl.pinFrame else s.lowestFree c
      match n with
      | none => s
      | some n =>
        let base := h.taddr + h.tmpl.preoff.setWidth 64
        match s.readPresets c q.env.job ((List.range h.tmpl.npre.toNat).map fun i => base + BitVec.ofNat 64 (16 * i)) with
        | (s, .inl ps) => (s.activateIn c n q h (h.presetsNow s.clk.free ps)).fresh
        | (s, .inr cause) => if (s.net.any fun m => decide (m = .fatal q.env.job cause none)) then s else s.fatalFault q.env.job cause none

/-! ## Stealing (R151–R153) -/

/-- The queue engine does not pass over the envelope: unmasked, bound, and no pinned frame of it is in use (R146). -/
def State.inTurn (s : State) (c : Nat) (q : QEnv) : Bool :=
  let x := s.core c
  let h := x.handler q.env.cls
  !x.mask.getLsbD q.env.cls.toNat && !s.jobHeld q.env.job && h.bound
    && (!h.tmpl.pinned || decide ((s.frame (c * 256 + h.tmpl.pinFrame)).state = .free))

/-- A core is idle: no ready or running context, no eligible envelope (R151). -/
def State.idle (s : State) (c : Nat) : Bool :=
  !(s.frames.any fun p => decide (p.2.coreAt p.1 = c) && (decide (p.2.state = .ready) || decide (p.2.state = .running)))
    && !((s.core c).queue.any (s.inTurn c))

/-- The victim lies in the job's steal domain: 0 tile, 1 die, 2 chip (R151). -/
def stealDomain (steal : BitVec 2) (c v : Nat) : Bool :=
  if steal = 0 then decide (tileOfCore c = tileOfCore v)
  else if steal = 1 then decide (dieOfTile (tileOfCore c) = dieOfTile (tileOfCore v))
  else true

/-- Classes bound and unmasked (R151). -/
def Core.stealMask (x : Core) : BitVec 16 :=
  BitVec.ofNat 16 ((List.range 16).foldl (fun m n => if (x.handler (BitVec.ofNat 4 n)).bound && !x.mask.getLsbD n then m + 2 ^ n else m) 0)

/-- A steal request goes out (R151). -/
def State.stealRequest (s : State) (c v : Nat) : State :=
  let x := s.core c
  match x.job with
  | some j =>
    if coreNo c ≠ 31 ∧ coreNo v ≠ 31 ∧ c ≠ v ∧ (s.core v).job = some j ∧ stealDomain (s.job j).steal c v ∧ s.idle c ∧ !x.gated
        ∧ !x.stealOut ∧ x.stealAt ≤ s.clk.cycle ∧ s.agingStopped j = false then
      (s.setCore c { x with stealOut := true }).send (.stealReq c v x.stealMask j)
    else s
  | none => s

/-- May a queued envelope be stolen (R152). -/
def State.stealable (s : State) (v : Nat) (classes : BitVec 16) (job : BitVec 12) (q : QEnv) : Bool :=
  let h := (s.core v).handler q.env.cls
  q.env.stl && classes.getLsbD q.env.cls.toNat && decide (q.env.job = job) &&
    (!h.bound || !h.tmpl.pinned || decide ((s.frame (v * 256 + h.tmpl.pinFrame)).state = .free))

/-- The tail of the queue: lowest current priority, latest arrival (R152). -/
def State.tailEnv (s : State) (v : Nat) (classes : BitVec 16) (job : BitVec 12) : Option QEnv :=
  ((s.core v).queue.filter (s.stealable v classes job)).foldl (fun b q => match b with
    | none => some q
    | some x => if q.prio < x.prio ∨ (q.prio = x.prio ∧ x.arrival < q.arrival) then some q else some x) none

/-- The request reaches its victim and wakes it (R506), and the victim answers, unless the job is suspended (R466); or the answer
reaches the thief (R152). -/
def State.stealStep (s : State) (n : Nat) : State :=
  match s.net[n]? with
  | some (.stealReq thief v classes job) =>
    let s := s.rouse v
    if s.agingStopped job then s
    else match s.tailEnv v classes job with
    | some q =>
      let e := { q.env with hdr := hdrTo q.env.hdr s.chip.chipNo thief, stolen := some q.prio }
      ((s.unqueue v q).refill v).swapMsg n (.stealAns thief (some e))
    | none => s.swapMsg n (.stealAns thief none)
  | some (.stealAns thief none) =>
    (s.dropMsg n).setCore thief { s.core thief with stealOut := false, stealAt := s.clk.cycle + 512 }
  | some (.stealAns thief (some e)) =>
    (s.swapMsg n (.env e)).setCore thief { s.core thief with stealOut := false }
  | _ => s

/-! ## Groups (R158–R162) -/

/-- Cores of a member word under a placement, as (chip, core) under a sorting key (R36, R37); none for a logical tile
that the placement does not hold. -/
def memberCores (tiles : Table (BitVec 11 × Nat)) (w : BitVec 32) : Option (Table (BitVec 11 × Nat)) :=
  let scope := fld w 30 2
  let cores (t : BitVec 11 × Nat) (ns : List Nat) : Table (BitVec 11 × Nat) :=
    ns.map fun n => (t.1.toNat * 2 ^ 20 + t.2 * 32 + n, (t.1, t.2 * 32 + n))
  if scope = 3 then some (tiles.flatMap fun p => cores p.2 (List.range 31))
  else match Tab.get? tiles (fld w 5 20) with
    | none => none
    | some t =>
      if scope = 0 then some (cores t [fld w 25 5])
      else if scope = 1 then some (cores t (List.range 31))
      else some (tiles.flatMap fun p =>
        if p.2.1 = t.1 ∧ dieOfTile p.2.2 = dieOfTile t.2 then cores p.2 (List.range 31) else [])

/-- The union of member words, in order (R37). -/
def expandMembers (tiles : Table (BitVec 11 × Nat)) (ws : List (BitVec 32)) : Option (List (BitVec 11 × Nat)) :=
  (ws.foldl (fun acc w => match acc, memberCores tiles w with
    | some t, some cs => some (cs.foldl (fun t c => Tab.put t c.1 c.2) t)
    | _, _ => none) (some [])).map fun t => t.map (·.2)

/-- Load shadow (R159). -/
def State.groupLoad (s : State) (g : Nat) : State :=
  let x := s.group g
  let bad := s.setGroup g { x with err := x.err ||| 4, shv := false }
  let pa := x.saddr.toNat * 64
  let n := x.count.toNat
  let tiles := (s.job x.job).tiles
  if n = 0 ∨ Config.devBytes < pa + 4 * n ∨ !(tiles.any fun p => decide (p.2.1 = s.chip.chipNo)) then bad
  else match s.devReads .device (n / 8 + 1) pa (4 * n) with
    | .err _ => bad
    | .bytes bs =>
      match expandMembers tiles ((List.range n).map fun i => BitVec.ofNat 32 (leNat ((bs.drop (4 * i)).take 4))) with
      | none => bad
      | some ms => (s.setGroup g { x with shv := true, shadow := ms }).fresh

/-- Some core would belong to more than four groups with g's shadow current (R160). -/
def State.tooMany (s : State) (g : Nat) : Bool :=
  (s.group g).shadow.any fun m =>
    decide (4 < 1 + (s.chip.groups.filter fun p => decide (p.1 ≠ g) && p.2.cv && p.2.curM.contains m).length)

/-- Commit (R159, R160). -/
def State.groupCommit (s : State) (g : Nat) : State :=
  let x := s.group g
  let ahead := (x.nver - x.cur).toNat
  if !x.shv || x.busy then s.setGroup g { x with err := x.err ||| 2 }
  else if s.tooMany g || (x.sv && x.cv && !(decide (1 ≤ ahead) && decide (ahead ≤ 32767))) then s.setGroup g { x with err := x.err ||| 1 }
  else s.setGroup g { x with
    prev := x.cur, pv := x.cv, prevM := x.curM, cur := if x.sv then x.nver else x.cur + 1, curM := x.shadow, cv := true,
    shv := false, shadow := [], busy := x.cv, owner := x.job }

/-- A packet stamped with the previous version remains at a replication point (R159). -/
def State.stamped (s : State) (g : Nat) (v : BitVec 16) : Bool :=
  (s.net.any fun m => match m with
    | .group e => decide (e.stamp = some (g, v))
    | .env e => decide (e.stamp = some (g, v)) && !e.hdr.getLsbD 19
    | .copies _ _ _ c => decide (c.g = g) && decide (c.ver = v)
    | _ => false)
  || (s.fab.streams.any fun p => (p.2.unsent ++ p.2.resend ++ p.2.out).any fun q => match q.body with
    | .msg (.group e) => decide (e.stamp = some (g, v))
    | .multi c => decide (c.g = g) && decide (c.ver = v)
    | _ => false)
  || s.engines.any fun e => e.2.cmds.any fun c =>
      (decide (c.form = 1) || decide (c.form = 4)) && decide (fld c.w2 40 8 = g) && decide (c.ver = v)

/-! ## The meanings -/

abbrev EnOut := Host.Outcome State Fault Refusal

/-- `send` (R130). -/
def execSend (d a b : GReg) (ka kb : Bool) (sc : BitVec 2) (s : State) : EnOut := .next (s.sendTask d a b ka kb sc)
/-- `sendg` (R130). -/
def execSendg (d a b : GReg) (ka kb : Bool) (sc : BitVec 2) (s : State) : EnOut := .next (s.sendgTask d a b ka kb sc)
/-- `spawn` (R130). -/
def execSpawn (d a b : GReg) (ka kb : Bool) (s : State) : EnOut := .next (s.spawnTask d a b ka kb)
/-- `bind` (R141). -/
def execBind (d a b : GReg) (ka kb : Bool) (s : State) : EnOut := .next (s.bind d a b ka kb)
/-- `unbind` (R141). -/
def execUnbind (d a : GReg) (ka : Bool) (s : State) : EnOut :=
  .next (s.issue [.g a ka] fun s =>
    let cls := (s.me.rdG a).extractLsb' 0 4
    let c := s.myCore
    let x := s.core c
    let h := x.handler cls
    (s.setCore c { x with handlers := Tab.put x.handlers cls.toNat { h with bound := false } }).retG d (Alu.bit h.bound))
/-- `clsmask` (R141). -/
def execClsmask (d a b : GReg) (ka kb : Bool) (s : State) : EnOut :=
  .next (s.issue [.g a ka, .g b kb] fun s =>
    let A := (s.me.rdG a).setWidth 16
    let B := (s.me.rdG b).setWidth 16
    let c := s.myCore
    let x := s.core c
    (s.setCore c { x with mask := (x.mask &&& ~~~A) ||| B }).retG d (x.mask.setWidth 64))

/-- ENVELOPE_ARRIVAL (R135–R138, R161). -/
def execEnvelopeArrival (n : Nat) (s : State) : EnOut := .next (s.envArrival n)
/-- BOUNCE_RETRY: a bounced envelope goes to the same core again once its wait is over (R136). -/
def execBounceRetry (core entry : Nat) (s : State) : EnOut :=
  .next (match s.journal core entry with
    | some j =>
      match j.bounced.find? fun b => decide (b.2 ≤ s.clk.cycle) with
      | some b =>
        let rest := j.bounced.erase b
        (s.setJournal core entry (some { j with bounced := rest, state := if j.state = 2 ∧ rest.isEmpty then 1 else j.state })).send (.env b.1)
      | none => s
    | none => s)
/-- ACTIVATION (R145). -/
def execActivation (core : Nat) (s : State) : EnOut := .next (s.activate core)
/-- ENVELOPE_AGING: one level for each 16,384 cycles after arrival (R149). -/
def execEnvelopeAging (core idx : Nat) (s : State) : EnOut :=
  let x := s.core core
  .next (match x.queue[idx]? with
    | some q =>
      if q.prio < 3 ∧ 16384 * (q.prio - q.base + 1) ≤ s.clk.cycle - q.cycle ∧ s.agingStopped q.env.job = false then
        s.setCore core { x with queue := setAt x.queue idx { q with prio := q.prio + 1 } }
      else s
    | none => s)
/-- STEAL_REQUEST (R151). -/
def execStealRequest (core victim : Nat) (s : State) : EnOut := .next (s.stealRequest core victim)
/-- STEAL_ANSWER (R152). -/
def execStealAnswer (n : Nat) (s : State) : EnOut := .next (s.stealStep n)
/-- GROUP_LOAD_SHADOW (R159). -/
def execGroupLoadShadow (g : Nat) (s : State) : EnOut := .next (s.groupLoad g)
/-- GROUP_DISCARD_SHADOW (R159). -/
def execGroupDiscardShadow (g : Nat) (s : State) : EnOut :=
  .next (s.setGroup g { s.group g with shv := false, shadow := [] })
/-- GROUP_PREV_DRAINED (R159). -/
def execGroupPrevDrained (g : Nat) (s : State) : EnOut :=
  let x := s.group g
  .next (if x.busy && !s.stamped g x.prev then s.setGroup g { x with busy := false, pv := false, prevM := [] } else s)

end Sys2Proof.Machine
end

