-- ==== Sys2Proof/WellFormed.lean ====
section
/-! DEFINITION. WellFormed.lean: the ranges that descriptions give the fields of their forms; a value outside raises
ILLEGAL (R56, R65). -/

namespace Sys2Proof

/-- Numbers of the control registers (R79). -/
def csrListed (c : BitVec 12) : Bool :=
  [0x000, 0x001, 0x002, 0x010, 0x011, 0x020, 0x021, 0x022, 0x023, 0x030, 0x040, 0x041].contains c.toNat
    || (decide (0x100 ≤ c.toNat) && decide (c.toNat ≤ 0x13F))

/-- Parts that a conversion with function f may name (R251): four where a lane takes an eighth or quarter of the
width, two where half, one where the widths are equal. -/
def vcvtParts (f : BitVec 4) : Nat :=
  match f.toNat with
  | 0 | 1 | 2 | 3 | 4 | 5 => 2
  | 6 | 7 | 8 | 9 => 1
  | _ => 4

/-- The fields of an instruction are in their ranges. An event has no ranges. -/
def Instr.wf (i : Instr) : Bool :=
  match i with
  | .rputV _ b _ _ => decide (b.toNat < 32)
  | .fenceR s => decide (s ≠ 3)
  | .fenceA s => decide (s ≠ 3)
  | .pf d _ _ _ => decide (d.toNat ≤ 2)
  | .cwait _ _ _ _ _ s => decide (s ≠ 0)
  | .send d _ _ _ _ _ => decide (d.toNat ≤ 58)
  | .sendg d _ _ _ _ _ => decide (d.toNat ≤ 58)
  | .spawn d _ _ _ _ => decide (d.toNat ≤ 58)
  | .live _ _ t => decide (t ≠ 3)
  | .myaddr _ a _ s e =>
    if s = 0 then decide (e = 0)
    else if s = 1 then decide (a.toNat < 32)
    else if s = 2 then decide (a.toNat < 4) && decide (e = 0)
    else false
  | .rpt _ _ _ n _ => decide (n ≠ 0)
  | .vgath d _ _ _ _ => !d.getLsbD 0
  | .vscat d _ _ _ _ => !d.getLsbD 0
  | .vcvt _ _ p _ q _ f => decide (p.toNat < vcvtParts f) && (!q || decide (f.toNat < 14))
  | .vrsum _ _ _ q _ t => !q || decide (2 ≤ t.toNat)
  | .vqntMxe4 d a p _ _ => !d.getLsbD 0 && !a.getLsbD 0 && decide (p.toNat < 2)
  | .vqntMxf4 d a _ _ _ => !d.getLsbD 0 && !a.getLsbD 0
  | .vqntK4 d a _ _ _ _ => !d.getLsbD 0 && !a.getLsbD 0
  | .vdqnt d a t p _ _ => !d.getLsbD 0 && !a.getLsbD 0 && decide (t ≠ 3) && (decide (t ≠ 0) || decide (p.toNat < 2))
  | .vsplat d _ _ _ => decide (d.toNat < 32)
  | .vget _ a _ _ _ => decide (a.toNat < 32)
  | .vput d _ _ _ _ => decide (d.toNat < 32)
  | .mget _ a _ => decide (a.toNat < 8)
  | .mput d _ _ => decide (d.toNat < 8)
  | .mma p _ l => decide (p.toNat ≤ 10) && decide (l.toNat ≤ 1)
  | .xcopy _ a _ _ _ => decide (1 ≤ a.toNat) && decide (a.toNat ≤ 59)
  | .xcopyg _ a _ _ _ => decide (1 ≤ a.toNat) && decide (a.toNat ≤ 59)
  | .xgath _ a _ _ _ => decide (1 ≤ a.toNat) && decide (a.toNat ≤ 59)
  | .xscat _ a _ _ _ => decide (1 ≤ a.toNat) && decide (a.toNat ≤ 59)
  | .xred _ a _ _ _ => decide (1 ≤ a.toNat) && decide (a.toNat ≤ 59)
  | .csrr _ c => csrListed c
  | .csrw _ _ _ c => csrListed c
  | .csrset _ _ _ c => csrListed c
  | .csrclr _ _ _ c => csrListed c
  | _ => true

end Sys2Proof
end

