-- ==== Sys2Proof/Decode.lean ====
section
/-! DEFINITION. Decode.lean: from words to instructions, with the name of what is wrong with every other word (R65),
and back. The formats are those of R55, the majors those of R69, the functions those of R70–R75. -/

namespace Sys2Proof

open Sys2Proof.Machine

/-- Why a word names no instruction (R65). -/
inductive Illegal where
  /-- fewer than four bytes -/
  | short
  /-- the major is unassigned or reserved -/
  | major
  /-- the function or sub-operation is unassigned for the major -/
  | function
  /-- a reserved field is not zero -/
  | reserved
  /-- a field holds a value outside its range -/
  | range
  deriving DecidableEq, Repr

abbrev Dec := Except Illegal Instr

/-- An instruction whose reserved fields must be zero. -/
def need (ok : Bool) (i : Instr) : Dec := if ok then .ok i else .error .reserved

/-! ## Formats (R55) -/

/-- The major opcode. -/
def opOf (w : IWord) : BitVec 7 := w.extractLsb' 25 7

/-- The fields of RR, register–register. -/
def onRR {α : Type} (w : IWord) (f : BitVec 6 → BitVec 6 → BitVec 6 → Bool → Bool → BitVec 5 → α) : α :=
  f (w.extractLsb' 19 6) (w.extractLsb' 13 6) (w.extractLsb' 7 6) (w.getLsbD 6) (w.getLsbD 5) (w.extractLsb' 0 5)

/-- The fields of RI, register–immediate. -/
def onRI {α : Type} (w : IWord) (f : BitVec 6 → BitVec 6 → Bool → BitVec 12 → α) : α :=
  f (w.extractLsb' 19 6) (w.extractLsb' 13 6) (w.getLsbD 12) (w.extractLsb' 0 12)

/-- The fields of B, compare and branch. -/
def onB {α : Type} (w : IWord) (f : BitVec 6 → BitVec 6 → BitVec 13 → α) : α :=
  f (w.extractLsb' 19 6) (w.extractLsb' 13 6) (w.extractLsb' 0 13)

/-- The fields of J, jump. -/
def onJ {α : Type} (w : IWord) (f : BitVec 25 → α) : α :=
  f (w.extractLsb' 0 25)

/-- The fields of LI, long immediate. -/
def onLI {α : Type} (w : IWord) (f : BitVec 6 → BitVec 19 → α) : α :=
  f (w.extractLsb' 19 6) (w.extractLsb' 0 19)

/-- The fields of V, vector. -/
def onV {α : Type} (w : IWord) (f : BitVec 5 → BitVec 5 → BitVec 5 → BitVec 3 → Bool → Bool → Bool → BitVec 4 → α) : α :=
  f (w.extractLsb' 20 5) (w.extractLsb' 15 5) (w.extractLsb' 10 5) (w.extractLsb' 7 3) (w.getLsbD 6) (w.getLsbD 5) (w.getLsbD 4) (w.extractLsb' 0 4)

/-- The fields of VM, vector memory. -/
def onVM {α : Type} (w : IWord) (f : BitVec 5 → BitVec 6 → BitVec 3 → Bool → BitVec 10 → α) : α :=
  f (w.extractLsb' 20 5) (w.extractLsb' 14 6) (w.extractLsb' 11 3) (w.getLsbD 10) (w.extractLsb' 0 10)

/-- The fields of X, matrix. -/
def onX {α : Type} (w : IWord) (f : BitVec 2 → BitVec 6 → BitVec 6 → BitVec 6 → BitVec 5 → α) : α :=
  f (w.extractLsb' 23 2) (w.extractLsb' 17 6) (w.extractLsb' 11 6) (w.extractLsb' 5 6) (w.extractLsb' 0 5)

/-- The fields of the fields of `rpt` (R174). -/
def onRpt {α : Type} (w : IWord) (f : BitVec 3 → BitVec 3 → BitVec 3 → BitVec 4 → BitVec 8 → BitVec 4 → α) : α :=
  f (w.extractLsb' 22 3) (w.extractLsb' 19 3) (w.extractLsb' 16 3) (w.extractLsb' 12 4) (w.extractLsb' 4 8) (w.extractLsb' 0 4)

/-! ## Majors (R69–R75) -/

/-- Major 0x01 (register–register). -/
def dec01 (d a b : BitVec 6) (ka kb : Bool) (fn : BitVec 5) : Dec :=
  match fn.toNat with
  | 0 => .ok (.add d a b ka kb)
  | 1 => .ok (.sub d a b ka kb)
  | 2 => .ok (.mul d a b ka kb)
  | 3 => .ok (.mulh d a b ka kb)
  | 4 => .ok (.mulhu d a b ka kb)
  | 5 => .ok (.div d a b ka kb)
  | 6 => .ok (.divu d a b ka kb)
  | 7 => .ok (.rem d a b ka kb)
  | 8 => .ok (.remu d a b ka kb)
  | 9 => .ok (.and d a b ka kb)
  | 10 => .ok (.or d a b ka kb)
  | 11 => .ok (.xor d a b ka kb)
  | 12 => .ok (.andn d a b ka kb)
  | 13 => .ok (.shl d a b ka kb)
  | 14 => .ok (.shr d a b ka kb)
  | 15 => .ok (.sar d a b ka kb)
  | 16 => .ok (.min d a b ka kb)
  | 17 => .ok (.max d a b ka kb)
  | 18 => .ok (.minu d a b ka kb)
  | 19 => .ok (.maxu d a b ka kb)
  | 20 => .ok (.seq d a b ka kb)
  | 21 => .ok (.sne d a b ka kb)
  | 22 => .ok (.slt d a b ka kb)
  | 23 => .ok (.sltu d a b ka kb)
  | 24 => .ok (.movz d a b ka kb)
  | 25 => .ok (.movn d a b ka kb)
  | 26 => .ok (.bfx d a b ka kb)
  | 27 => .ok (.bfxs d a b ka kb)
  | 28 => need (decide (b = 0) && !kb) (.clz d a ka)
  | 29 => need (decide (b = 0) && !kb) (.ctz d a ka)
  | 30 => need (decide (b = 0) && !kb) (.popc d a ka)
  | 31 => need (decide (b = 0) && !kb) (.bswap d a ka)
  | _ => .error .function

/-- Major 0x04 (shift immediate). -/
def dec04 (d a : BitVec 6) (ka : Bool) (im : BitVec 12) : Dec :=
  match fld im 6 6 with
  | 0 => .ok (.shli d a ka (im.extractLsb' 0 6))
  | 1 => .ok (.shri d a ka (im.extractLsb' 0 6))
  | 2 => .ok (.sari d a ka (im.extractLsb' 0 6))
  | 3 => .ok (.roli d a ka (im.extractLsb' 0 6))
  | _ => .error .function

/-- Major 0x18 (register–register). -/
def dec18 (d a b : BitVec 6) (ka kb : Bool) (fn : BitVec 5) : Dec :=
  match fn.toNat with
  | 0 | 1 | 2 | 3 => need (decide (d = 0)) (.lnd a b ka kb (fn.extractLsb' 0 2))
  | 4 => need (decide (d = 0)) (.lndV a b ka kb)
  | _ => .error .function

/-- Major 0x19 (register–register). -/
def dec19 (d a b : BitVec 6) (ka kb : Bool) (fn : BitVec 5) : Dec :=
  match fn.toNat with
  | 0 => need (decide (d = 0)) (.rput a b ka kb)
  | 1 => need (decide (d = 0)) (.rputV a b ka kb)
  | _ => .error .function

/-- Major 0x1A (register–register). -/
def dec1A (d a b : BitVec 6) (ka kb : Bool) (fn : BitVec 5) : Dec :=
  match fn.toNat with
  | 0 | 1 | 2 | 3 => .ok (.pst d a b ka kb (fn.extractLsb' 0 2))
  | _ => .error .function

/-- Major 0x1B (register–register). -/
def dec1B (d a b : BitVec 6) (ka kb : Bool) (fn : BitVec 5) : Dec :=
  match fn.toNat with
  | 0 => need (decide (d = 0) && decide (a = 0) && decide (b = 0) && !ka && !kb) (.fenceP)
  | 4 | 5 | 6 => need (decide (d = 0) && decide (a = 0) && decide (b = 0) && !ka && !kb) (.fenceR (fn.extractLsb' 0 2))
  | 8 | 9 | 10 => need (decide (d = 0) && decide (a = 0) && decide (b = 0) && !ka && !kb) (.fenceA (fn.extractLsb' 0 2))
  | _ => .error .function

/-- Major 0x20 (register–register). -/
def dec20 (w : Bool) (d a b : BitVec 6) (ka kb : Bool) (fn : BitVec 5) : Dec :=
  match fn.toNat with
  | 0 | 1 | 2 | 3 | 4 | 5 | 6 | 7 => .ok (.amoAlu w d a b ka kb (fn.extractLsb' 0 3))
  | 8 => .ok (.amoSwap w d a b ka kb)
  | 9 => .ok (.amoCas w d a b ka kb)
  | 10 => need (decide (b = 0) && !kb) (.amoIncw w d a ka)
  | 11 => .ok (.amoAddb w d a b ka kb)
  | 12 => .ok (.amoFadd d a b ka kb)
  | _ => .error .function

/-- Major 0x21 (register–register). -/
def dec21 (w : Bool) (d a b : BitVec 6) (ka kb : Bool) (fn : BitVec 5) : Dec :=
  match fn.toNat with
  | 0 | 1 | 2 | 3 | 4 | 5 | 6 | 7 => .ok (.amoAlu w d a b ka kb (fn.extractLsb' 0 3))
  | 8 => .ok (.amoSwap w d a b ka kb)
  | 9 => .ok (.amoCas w d a b ka kb)
  | 10 => need (decide (b = 0) && !kb) (.amoIncw w d a ka)
  | 11 => .ok (.amoAddb w d a b ka kb)
  | _ => .error .function

/-- Major 0x22 (register–register). -/
def dec22 (d a b : BitVec 6) (ka kb : Bool) (fn : BitVec 5) : Dec :=
  match fn.toNat with
  | 0 | 1 | 2 | 3 => need (decide (d = 0)) (.cadd a b ka kb (fn.extractLsb' 0 2))
  | 4 | 5 | 6 | 7 => .ok (.cfadd d a b ka kb (fn.extractLsb' 0 2))
  | 9 | 10 | 11 => .ok (.cwait d a b ka kb (fn.extractLsb' 0 2))
  | 12 | 13 | 14 | 15 => .ok (.cpoll d a b ka kb (fn.extractLsb' 0 2))
  | 16 => need (decide (b = 0) && !kb) (.cread d a ka)
  | 20 => .ok (.cset d a b ka kb)
  | _ => .error .function

/-- Major 0x30 (register–register). -/
def dec30 (d a b : BitVec 6) (ka kb : Bool) (fn : BitVec 5) : Dec :=
  match fn.toNat with
  | 0 | 1 | 2 | 3 => .ok (.send d a b ka kb (fn.extractLsb' 0 2))
  | _ => .error .function

/-- Major 0x31 (register–register). -/
def dec31 (d a b : BitVec 6) (ka kb : Bool) (fn : BitVec 5) : Dec :=
  match fn.toNat with
  | 0 | 1 | 2 | 3 => .ok (.sendg d a b ka kb (fn.extractLsb' 0 2))
  | _ => .error .function

/-- Major 0x32 (register–register). -/
def dec32 (d a b : BitVec 6) (ka kb : Bool) (fn : BitVec 5) : Dec :=
  match fn.toNat with
  | 0 => .ok (.spawn d a b ka kb)
  | _ => .error .function

/-- Major 0x33 (register–register). -/
def dec33 (d a b : BitVec 6) (ka kb : Bool) (fn : BitVec 5) : Dec :=
  match fn.toNat with
  | 0 => .ok (.bind d a b ka kb)
  | 1 => need (decide (b = 0) && !kb) (.unbind d a ka)
  | 2 => .ok (.clsmask d a b ka kb)
  | _ => .error .function

/-- Major 0x34 (register–register). -/
def dec34 (d a b : BitVec 6) (ka kb : Bool) (fn : BitVec 5) : Dec :=
  match fn.toNat with
  | 0 => need (decide (d = 0) && decide (b = 0) && !kb) (.armG a ka)
  | 1 => need (decide (d = 0)) (.armV a b ka kb)
  | 2 => need (decide (d = 0) && decide (b = 0) && !kb) (.armM a ka)
  | _ => .error .function

/-- Major 0x35 (register–register). -/
def dec35 (d a b : BitVec 6) (ka kb : Bool) (fn : BitVec 5) : Dec :=
  match fn.toNat with
  | 0 | 1 | 2 => need (decide (d = 0) && decide (b = 0) && !kb) (.live a ka (fn.extractLsb' 0 2))
  | _ => .error .function

/-- Major 0x36 (register–register). -/
def dec36 (d a b : BitVec 6) (ka kb : Bool) (fn : BitVec 5) : Dec :=
  match fn.toNat with
  | 0 | 1 | 2 | 3 | 4 | 5 | 6 | 7 | 8 | 9 | 10 | 11 | 12 | 13 | 14 | 15 | 16 | 17 | 18 | 19 | 20 | 21 | 22 | 23 | 24 | 25 | 26 | 27 | 28 | 29 | 30 | 31 => need (decide (b.extractLsb' 2 4 = 0) && !ka && !kb) (.myaddr d a (b.extractLsb' 0 2) (fn.extractLsb' 3 2) (fn.extractLsb' 0 3))
  | _ => .error .function

/-- Major 0x37 (register–register). -/
def dec37 (d a b : BitVec 6) (ka kb : Bool) (fn : BitVec 5) : Dec :=
  match fn.toNat with
  | 0 => need (decide (d = 0) && decide (a = 0) && decide (b = 0) && !ka && !kb) (.yield)
  | 1 => need (decide (d = 0) && decide (a = 0) && decide (b = 0) && !ka && !kb) (.endTask)
  | _ => .error .function

/-- Major 0x39 (register–register). -/
def dec39 (d a b : BitVec 6) (ka kb : Bool) (fn : BitVec 5) : Dec :=
  match fn.toNat with
  | 0 => .ok (.fol d a b ka kb)
  | _ => .error .function

/-- Major 0x3A (register–register). -/
def dec3A (d a b : BitVec 6) (ka kb : Bool) (fn : BitVec 5) : Dec :=
  match fn.toNat with
  | 0 => need (decide (d = 0) && decide (a = 0) && decide (b = 0) && !ka && !kb) (.unfol)
  | _ => .error .function

/-- Majors 0x40, 0x41, 0x42, 0x43 (vector). -/
def dec40 (w : BitVec 2) (d a b : BitVec 5) (m : BitVec 3) (q ka kb : Bool) (fn : BitVec 4) : Dec :=
  match fn.toNat with
  | 0 => need (!q) (.vadd w d a b m ka kb)
  | 1 => need (!q) (.vsub w d a b m ka kb)
  | 2 => need (!q) (.vmul w d a b m ka kb)
  | 3 => need (!q) (.vmulh w d a b m ka kb)
  | 4 => need (!q) (.vmulhu w d a b m ka kb)
  | 5 => need (!q) (.vmin w d a b m ka kb)
  | 6 => need (!q) (.vmax w d a b m ka kb)
  | 7 => need (!q) (.vminu w d a b m ka kb)
  | 8 => need (!q) (.vmaxu w d a b m ka kb)
  | 9 => need (!q) (.vadds w d a b m ka kb)
  | 10 => need (!q) (.vaddsu w d a b m ka kb)
  | 11 => need (!q) (.vsubs w d a b m ka kb)
  | 12 => need (!q) (.vsubsu w d a b m ka kb)
  | 13 => need (decide (b = 0) && !q && !kb) (.vabs w d a m ka)
  | _ => .error .function

/-- Majors 0x44, 0x45, 0x46, 0x47 (vector). -/
def dec44 (w : BitVec 2) (d a b : BitVec 5) (m : BitVec 3) (q ka kb : Bool) (fn : BitVec 4) : Dec :=
  match fn.toNat with
  | 0 => need (!q) (.vand w d a b m ka kb)
  | 1 => need (!q) (.vor w d a b m ka kb)
  | 2 => need (!q) (.vxor w d a b m ka kb)
  | 3 => need (!q) (.vandn w d a b m ka kb)
  | 4 => need (!q) (.vshl w d a b m ka kb)
  | 5 => need (!q) (.vshr w d a b m ka kb)
  | 6 => need (!q) (.vsar w d a b m ka kb)
  | _ => .error .function

/-- Majors 0x48, 0x49, 0x4A, 0x4B (vector). -/
def dec48 (w : BitVec 2) (d a b : BitVec 5) (m : BitVec 3) (q ka kb : Bool) (fn : BitVec 4) : Dec :=
  match fn.toNat with
  | 0 => need (decide (d.extractLsb' 3 2 = 0) && !q) (.veq w (d.extractLsb' 0 3) a b m ka kb)
  | 1 => need (decide (d.extractLsb' 3 2 = 0) && !q) (.vne w (d.extractLsb' 0 3) a b m ka kb)
  | 2 => need (decide (d.extractLsb' 3 2 = 0) && !q) (.vlt w (d.extractLsb' 0 3) a b m ka kb)
  | 3 => need (decide (d.extractLsb' 3 2 = 0) && !q) (.vltu w (d.extractLsb' 0 3) a b m ka kb)
  | 4 => need (decide (d.extractLsb' 3 2 = 0) && !q) (.vle w (d.extractLsb' 0 3) a b m ka kb)
  | 5 => need (decide (d.extractLsb' 3 2 = 0) && !q) (.vleu w (d.extractLsb' 0 3) a b m ka kb)
  | _ => .error .function

/-- Majors 0x4C, 0x4D, 0x4E, 0x4F (vector). -/
def dec4C (w : BitVec 2) (d a b : BitVec 5) (m : BitVec 3) (q ka kb : Bool) (fn : BitVec 4) : Dec :=
  match fn.toNat with
  | 0 => .ok (.vfadd w d a b m q ka kb)
  | 1 => .ok (.vfsub w d a b m q ka kb)
  | 2 => .ok (.vfmul w d a b m q ka kb)
  | 3 => .ok (.vfdiv w d a b m q ka kb)
  | 4 => need (decide (b = 0) && !kb) (.vfsqrt w d a m q ka)
  | 5 => .ok (.vfmin w d a b m q ka kb)
  | 6 => .ok (.vfmax w d a b m q ka kb)
  | 7 => .ok (.vfma w d a b m q ka kb)
  | 8 => .ok (.vfms w d a b m q ka kb)
  | 9 => .ok (.vfnma w d a b m q ka kb)
  | 10 => .ok (.vfnms w d a b m q ka kb)
  | 11 => need (decide (b = 0) && !kb) (.vfabs w d a m q ka)
  | 12 => need (decide (b = 0) && !kb) (.vfneg w d a m q ka)
  | _ => .error .function

/-- Majors 0x50, 0x51, 0x52, 0x53 (vector). -/
def dec50 (w : BitVec 2) (d a b : BitVec 5) (m : BitVec 3) (q ka kb : Bool) (fn : BitVec 4) : Dec :=
  match fn.toNat with
  | 0 => need (decide (d.extractLsb' 3 2 = 0)) (.vfeq w (d.extractLsb' 0 3) a b m q ka kb)
  | 1 => need (decide (d.extractLsb' 3 2 = 0)) (.vflt w (d.extractLsb' 0 3) a b m q ka kb)
  | 2 => need (decide (d.extractLsb' 3 2 = 0)) (.vfle w (d.extractLsb' 0 3) a b m q ka kb)
  | 3 => need (decide (d.extractLsb' 3 2 = 0)) (.vfun w (d.extractLsb' 0 3) a b m q ka kb)
  | _ => .error .function

/-- Major 0x54 (vector). -/
def dec54 (d a b : BitVec 5) (m : BitVec 3) (q ka kb : Bool) (fn : BitVec 4) : Dec :=
  match fn.toNat with
  | 0 | 1 | 2 | 3 | 4 | 5 | 6 | 7 | 8 | 9 | 10 | 11 | 12 | 13 | 14 | 15 => need (decide (b.extractLsb' 2 3 = 0) && !kb) (.vcvt d a (b.extractLsb' 0 2) m q ka fn)
  | _ => .error .function

/-- Major 0x55 (vector). -/
def dec55 (d a b : BitVec 5) (m : BitVec 3) (q ka kb : Bool) (fn : BitVec 4) : Dec :=
  match fn.toNat with
  | 0 | 1 | 2 | 3 => need (!q) (.vperm d a b m ka kb (fn.extractLsb' 0 2))
  | 4 | 5 | 6 | 7 => need (!q) (.vslide d a b m ka kb (fn.extractLsb' 0 2))
  | 8 => need (!q) (.vmerge d a b m ka kb)
  | _ => .error .function

/-- Major 0x56 (vector). -/
def dec56 (d a b : BitVec 5) (m : BitVec 3) (q ka kb : Bool) (fn : BitVec 4) : Dec :=
  match fn.toNat with
  | 0 => need (decide (d.extractLsb' 3 2 = 0) && decide (a.extractLsb' 3 2 = 0) && decide (b.extractLsb' 3 2 = 0) && decide (m = 0) && !q) (.mand (d.extractLsb' 0 3) (a.extractLsb' 0 3) (b.extractLsb' 0 3) ka kb)
  | 1 => need (decide (d.extractLsb' 3 2 = 0) && decide (a.extractLsb' 3 2 = 0) && decide (b.extractLsb' 3 2 = 0) && decide (m = 0) && !q) (.mor (d.extractLsb' 0 3) (a.extractLsb' 0 3) (b.extractLsb' 0 3) ka kb)
  | 2 => need (decide (d.extractLsb' 3 2 = 0) && decide (a.extractLsb' 3 2 = 0) && decide (b.extractLsb' 3 2 = 0) && decide (m = 0) && !q) (.mxor (d.extractLsb' 0 3) (a.extractLsb' 0 3) (b.extractLsb' 0 3) ka kb)
  | 3 => need (decide (d.extractLsb' 3 2 = 0) && decide (a.extractLsb' 3 2 = 0) && decide (b.extractLsb' 3 2 = 0) && decide (m = 0) && !q) (.mandn (d.extractLsb' 0 3) (a.extractLsb' 0 3) (b.extractLsb' 0 3) ka kb)
  | 4 => need (decide (d.extractLsb' 3 2 = 0) && decide (a.extractLsb' 3 2 = 0) && decide (b = 0) && decide (m = 0) && !q && !kb) (.mnot (d.extractLsb' 0 3) (a.extractLsb' 0 3) ka)
  | _ => .error .function

/-- Major 0x57 (vector). -/
def dec57 (d a b : BitVec 5) (m : BitVec 3) (q ka kb : Bool) (fn : BitVec 4) : Dec :=
  match fn.toNat with
  | 0 | 1 | 2 | 3 => need (decide (b = 0) && !kb) (.vrsum d a m q ka (fn.extractLsb' 0 2))
  | 4 => need (decide (b = 0) && !kb) (.vrminF32 d a m q ka)
  | 5 => need (decide (b = 0) && !kb) (.vrmaxF32 d a m q ka)
  | 6 => need (decide (b = 0) && !q && !kb) (.vrminI32 d a m ka)
  | 7 => need (decide (b = 0) && !q && !kb) (.vrmaxI32 d a m ka)
  | _ => .error .function

/-- Major 0x58 (vector). -/
def dec58 (d a b : BitVec 5) (m : BitVec 3) (q ka kb : Bool) (fn : BitVec 4) : Dec :=
  match fn.toNat with
  | 0 => need (decide (b.extractLsb' 2 3 = 0) && decide (m = 0) && !kb) (.vqntMxe4 d a (b.extractLsb' 0 2) q ka)
  | 1 => need (decide (b.extractLsb' 2 3 = 0) && decide (m = 0) && !kb) (.vqntMxf4 d a (b.extractLsb' 0 2) q ka)
  | 2 => need (decide (b.extractLsb' 4 1 = 0) && decide (m = 0) && !kb) (.vqntK4 d a (b.extractLsb' 2 2) (b.extractLsb' 0 2) q ka)
  | 3 => need (decide (b.extractLsb' 4 1 = 0) && decide (m = 0) && !kb) (.vdqnt d a (b.extractLsb' 2 2) (b.extractLsb' 0 2) q ka)
  | _ => .error .function

/-- Major 0x5D (register–register). -/
def dec5D (d a b : BitVec 6) (ka kb : Bool) (fn : BitVec 5) : Dec :=
  match fn.toNat with
  | 0 | 1 | 2 | 3 => need (decide (b = 0) && !kb) (.vsplat d a ka (fn.extractLsb' 0 2))
  | 4 => .ok (.vget d a b ka kb)
  | 5 => .ok (.vput d a b ka kb)
  | 6 => need (decide (b = 0) && !kb) (.mget d a ka)
  | 7 => need (decide (b = 0) && !kb) (.mput d a ka)
  | _ => .error .function

/-- Major 0x5E (vector). -/
def dec5E (d a b : BitVec 5) (m : BitVec 3) (q ka kb : Bool) (fn : BitVec 4) : Dec :=
  match fn.toNat with
  | 0 => need (decide (a = 0) && decide (b = 0) && !q && !kb) (.vfxrd d m ka)
  | 1 => need (decide (d = 0) && decide (b = 0) && !q && !kb) (.vfxwr a m ka)
  | 2 => need (decide (d = 0) && decide (a = 0) && decide (b = 0) && !q && !kb) (.vfxclr m ka)
  | _ => .error .function

/-- Major 0x6B (matrix). -/
def dec6B (c : BitVec 2) (a b s : BitVec 6) (fn : BitVec 5) : Dec :=
  match fn.toNat with
  | 0 => need (decide (c = 0) && decide (s = 0)) (.mlease a b)
  | 1 => need (decide (c = 0) && decide (a = 0) && decide (b = 0) && decide (s = 0)) (.mrel)
  | 2 => need (decide (a = 0) && decide (b = 0) && decide (s = 0)) (.mzero c)
  | 3 => need (decide (a = 0) && decide (b = 0) && decide (s = 0)) (.mfree c)
  | 4 => need (decide (c.extractLsb' 1 1 = 0)) (.mldA (c.getLsbD 0) a b s)
  | 5 => need (decide (c.extractLsb' 1 1 = 0)) (.mldB (c.getLsbD 0) a b s)
  | 6 => need (decide (s = 0)) (.mdrain c a b)
  | 7 => need (decide (c = 0) && decide (s = 0)) (.merr a b)
  | _ => .error .function

/-- Major 0x6C (register–register). -/
def dec6C (d a b : BitVec 6) (ka kb : Bool) (fn : BitVec 5) : Dec :=
  match fn.toNat with
  | 0 => .ok (.xcopy d a b ka kb)
  | 1 => .ok (.xcopyg d a b ka kb)
  | _ => .error .function

/-- Major 0x6D (register–register). -/
def dec6D (d a b : BitVec 6) (ka kb : Bool) (fn : BitVec 5) : Dec :=
  match fn.toNat with
  | 0 => .ok (.xgath d a b ka kb)
  | 1 => .ok (.xscat d a b ka kb)
  | _ => .error .function

/-- Major 0x6E (register–register). -/
def dec6E (d a b : BitVec 6) (ka kb : Bool) (fn : BitVec 5) : Dec :=
  match fn.toNat with
  | 0 => .ok (.xred d a b ka kb)
  | _ => .error .function

/-- Major 0x6F (register–register). -/
def dec6F (d a b : BitVec 6) (ka kb : Bool) (fn : BitVec 5) : Dec :=
  match fn.toNat with
  | 0 => need (decide (b = 0) && !kb) (.xstat d a ka)
  | 1 => need (decide (b = 0) && !kb) (.xcancel d a ka)
  | _ => .error .function

/-- Major 0x74 (register–register). -/
def dec74 (d a b : BitVec 6) (ka kb : Bool) (fn : BitVec 5) : Dec :=
  match fn.toNat with
  | 0 => need (decide (d = 0) && decide (b = 0) && !kb) (.svc a ka)
  | 1 => need (decide (d = 0) && decide (a = 0) && decide (b = 0) && !ka && !kb) (.tret)
  | _ => .error .function

/-- Major 0x75 (register–register). -/
def dec75 (d a b : BitVec 6) (ka kb : Bool) (fn : BitVec 5) : Dec :=
  match fn.toNat with
  | 0 => need (decide (d = 0)) (.tlbinv a b ka kb)
  | 1 => need (decide (d = 0) && decide (b = 0) && !kb) (.tlbinvAll a ka)
  | 2 => .ok (.tlbprobe d a b ka kb)
  | 3 => need (decide (d = 0) && decide (a = 0) && decide (b = 0) && !ka && !kb) (.tlbreplayAll)
  | _ => .error .function

/-- Major 0x79 (register–register). -/
def dec79 (d a b : BitVec 6) (ka kb : Bool) (fn : BitVec 5) : Dec :=
  match fn.toNat with
  | 0 => need (decide (d = 0)) (.trc a b ka kb)
  | _ => .error .function

/-- Major 0x7A (register–register). -/
def dec7A (d a b : BitVec 6) (ka kb : Bool) (fn : BitVec 5) : Dec :=
  match fn.toNat with
  | 0 => need (decide (b = 0) && !kb) (.seerd d a ka)
  | 1 => need (decide (b = 0) && !kb) (.seerdC d a ka)
  | _ => .error .function

/-- Major 0x7B (register–register). -/
def dec7B (d a b : BitVec 6) (ka kb : Bool) (fn : BitVec 5) : Dec :=
  match fn.toNat with
  | 0 => need (decide (a = 0) && decide (b = 0) && !ka && !kb) (.dbgsync d)
  | _ => .error .function

/-- The major opcode selects the format and the function map; ranges are checked after. -/
def decodeRaw (w : IWord) : Dec :=
  match (opOf w).toNat with
  | 0x01 => onRR w dec01
  | 0x02 => onRI w fun d a ka im => .ok (.addi d a ka im)
  | 0x03 => onRI w fun d a ka im => .ok (.andi d a ka im)
  | 0x04 => onRI w dec04
  | 0x05 => onLI w fun d im => .ok (.li d im)
  | 0x06 => onLI w fun d im => .ok (.lim d im)
  | 0x07 => onLI w fun d im => .ok (.lih d im)
  | 0x08 => onB w fun a b off => .ok (.beq a b off)
  | 0x09 => onB w fun a b off => .ok (.bne a b off)
  | 0x0A => onB w fun a b off => .ok (.blt a b off)
  | 0x0B => onB w fun a b off => .ok (.bge a b off)
  | 0x0C => onB w fun a b off => .ok (.bltu a b off)
  | 0x0D => onB w fun a b off => .ok (.bgeu a b off)
  | 0x0E => onJ w fun off => .ok (.jal off)
  | 0x0F => onRI w fun d a ka im => .ok (.jalr d a ka im)
  | 0x10 => onRI w fun d a ka im => .ok (.ld8 d a ka im)
  | 0x11 => onRI w fun d a ka im => .ok (.ld16 d a ka im)
  | 0x12 => onRI w fun d a ka im => .ok (.ld32 d a ka im)
  | 0x13 => onRI w fun d a ka im => .ok (.ld64 d a ka im)
  | 0x14 => onRI w fun d a ka im => .ok (.st8 d a ka im)
  | 0x15 => onRI w fun d a ka im => .ok (.st16 d a ka im)
  | 0x16 => onRI w fun d a ka im => .ok (.st32 d a ka im)
  | 0x17 => onRI w fun d a ka im => .ok (.st64 d a ka im)
  | 0x18 => onRR w dec18
  | 0x19 => onRR w dec19
  | 0x1A => onRR w dec1A
  | 0x1B => onRR w dec1B
  | 0x1C => onRI w fun d a ka im => .ok (.pf d a ka im)
  | 0x20 => onRR w (dec20 false)
  | 0x21 => onRR w (dec21 true)
  | 0x22 => onRR w dec22
  | 0x30 => onRR w dec30
  | 0x31 => onRR w dec31
  | 0x32 => onRR w dec32
  | 0x33 => onRR w dec33
  | 0x34 => onRR w dec34
  | 0x35 => onRR w dec35
  | 0x36 => onRR w dec36
  | 0x37 => onRR w dec37
  | 0x38 => onRpt w fun sd sa sb z n l => need (decide (z = 0)) (.rpt sd sa sb n l)
  | 0x39 => onRR w dec39
  | 0x3A => onRR w dec3A
  | 0x40 => onV w (dec40 0)
  | 0x41 => onV w (dec40 1)
  | 0x42 => onV w (dec40 2)
  | 0x43 => onV w (dec40 3)
  | 0x44 => onV w (dec44 0)
  | 0x45 => onV w (dec44 1)
  | 0x46 => onV w (dec44 2)
  | 0x47 => onV w (dec44 3)
  | 0x48 => onV w (dec48 0)
  | 0x49 => onV w (dec48 1)
  | 0x4A => onV w (dec48 2)
  | 0x4B => onV w (dec48 3)
  | 0x4C => onV w (dec4C 0)
  | 0x4D => onV w (dec4C 1)
  | 0x4E => onV w (dec4C 2)
  | 0x4F => onV w (dec4C 3)
  | 0x50 => onV w (dec50 0)
  | 0x51 => onV w (dec50 1)
  | 0x52 => onV w (dec50 2)
  | 0x53 => onV w (dec50 3)
  | 0x54 => onV w dec54
  | 0x55 => onV w dec55
  | 0x56 => onV w dec56
  | 0x57 => onV w dec57
  | 0x58 => onV w dec58
  | 0x59 => onVM w fun d b m ka off => .ok (.vld d b m ka off)
  | 0x5A => onVM w fun d b m ka off => .ok (.vst d b m ka off)
  | 0x5B => onVM w fun d b m ka off => .ok (.vgath d b m ka off)
  | 0x5C => onVM w fun d b m ka off => .ok (.vscat d b m ka off)
  | 0x5D => onRR w dec5D
  | 0x5E => onV w dec5E
  | 0x60 => onX w fun c a b s fn => need (decide (b = 0) && decide (s = 0) && decide (fn = 0)) (.mma 0 c a)
  | 0x61 => onX w fun c a b s fn => need (decide (b = 0) && decide (s = 0) && decide (fn = 0)) (.mma 1 c a)
  | 0x62 => onX w fun c a b s fn => need (decide (b = 0) && decide (s = 0) && decide (fn = 0)) (.mma 2 c a)
  | 0x63 => onX w fun c a b s fn => need (decide (b = 0) && decide (s = 0) && decide (fn = 0)) (.mma 3 c a)
  | 0x64 => onX w fun c a b s fn => need (decide (b = 0) && decide (s = 0) && decide (fn = 0)) (.mma 4 c a)
  | 0x65 => onX w fun c a b s fn => need (decide (b = 0) && decide (s = 0) && decide (fn = 0)) (.mma 5 c a)
  | 0x66 => onX w fun c a b s fn => need (decide (b = 0) && decide (s = 0) && decide (fn = 0)) (.mma 6 c a)
  | 0x67 => onX w fun c a b s fn => need (decide (b = 0) && decide (s = 0) && decide (fn = 0)) (.mma 7 c a)
  | 0x68 => onX w fun c a b s fn => need (decide (b = 0) && decide (s = 0) && decide (fn = 0)) (.mma 8 c a)
  | 0x69 => onX w fun c a b s fn => need (decide (b = 0) && decide (s = 0) && decide (fn = 0)) (.mma 9 c a)
  | 0x6A => onX w fun c a b s fn => need (decide (b = 0) && decide (s = 0) && decide (fn = 0)) (.mma 10 c a)
  | 0x6B => onX w dec6B
  | 0x6C => onRR w dec6C
  | 0x6D => onRR w dec6D
  | 0x6E => onRR w dec6E
  | 0x6F => onRR w dec6F
  | 0x70 => onRI w fun d a ka im => need (decide (a = 0) && !ka) (.csrr d im)
  | 0x71 => onRI w fun d a ka im => .ok (.csrw d a ka im)
  | 0x72 => onRI w fun d a ka im => .ok (.csrset d a ka im)
  | 0x73 => onRI w fun d a ka im => .ok (.csrclr d a ka im)
  | 0x74 => onRR w dec74
  | 0x75 => onRR w dec75
  | 0x78 => onJ w fun off => .ok (.brk off)
  | 0x79 => onRR w dec79
  | 0x7A => onRR w dec7A
  | 0x7B => onRR w dec7B
  | _ => .error .major

/-- The instruction of a word, or why it has none (R65). -/
def decode (w : IWord) : Dec :=
  match decodeRaw w with
  | .ok i => if i.wf then .ok i else .error .range
  | .error e => .error e

/-- The instruction at the front of some bytes, and the bytes after it (R53). -/
def decodeBytes : List Byte → Except Illegal (Instr × List Byte)
  | b0 :: b1 :: b2 :: b3 :: rest =>
    match decode (BitVec.ofNat 32 (leNat [b0, b1, b2, b3])) with
    | .ok i => .ok (i, rest)
    | .error e => .error e
  | _ => .error .short

/-- The instruction of a word numbered as the opcode table numbers its bits. -/
def decodeTableWord (nbits w : Nat) : Option Instr :=
  if 32 < nbits then none
  else match decodeBytes (leBytes w 4) with
    | .ok (i, _) => some i
    | .error _ => none

/-! ## Encoding -/

/-- The word of RR, register–register. -/
def rr (op : BitVec 7) (d : BitVec 6) (a : BitVec 6) (b : BitVec 6) (ka : Bool) (kb : Bool) (fn : BitVec 5) : IWord :=
  op ++ d ++ a ++ b ++ BitVec.ofBool ka ++ BitVec.ofBool kb ++ fn

/-- The word of RI, register–immediate. -/
def ri (op : BitVec 7) (d : BitVec 6) (a : BitVec 6) (ka : Bool) (im : BitVec 12) : IWord :=
  op ++ d ++ a ++ BitVec.ofBool ka ++ im

/-- The word of B, compare and branch. -/
def bf (op : BitVec 7) (a : BitVec 6) (b : BitVec 6) (off : BitVec 13) : IWord :=
  op ++ a ++ b ++ off

/-- The word of J, jump. -/
def jf (op : BitVec 7) (off : BitVec 25) : IWord :=
  op ++ off

/-- The word of LI, long immediate. -/
def lif (op : BitVec 7) (d : BitVec 6) (im : BitVec 19) : IWord :=
  op ++ d ++ im

/-- The word of V, vector. -/
def vf (op : BitVec 7) (d : BitVec 5) (a : BitVec 5) (b : BitVec 5) (m : BitVec 3) (q : Bool) (ka : Bool) (kb : Bool) (fn : BitVec 4) : IWord :=
  op ++ d ++ a ++ b ++ m ++ BitVec.ofBool q ++ BitVec.ofBool ka ++ BitVec.ofBool kb ++ fn

/-- The word of VM, vector memory. -/
def vmf (op : BitVec 7) (d : BitVec 5) (b : BitVec 6) (m : BitVec 3) (ka : Bool) (off : BitVec 10) : IWord :=
  op ++ d ++ b ++ m ++ BitVec.ofBool ka ++ off

/-- The word of X, matrix. -/
def xf (op : BitVec 7) (c : BitVec 2) (a : BitVec 6) (b : BitVec 6) (s : BitVec 6) (fn : BitVec 5) : IWord :=
  op ++ c ++ a ++ b ++ s ++ fn

/-- The word of the fields of `rpt` (R174). -/
def rptf (op : BitVec 7) (sd : BitVec 3) (sa : BitVec 3) (sb : BitVec 3) (z : BitVec 4) (n : BitVec 8) (l : BitVec 4) : IWord :=
  op ++ sd ++ sa ++ sb ++ z ++ n ++ l

/-- The word of an instruction; an event has none. -/
def encode : Instr → Option IWord
  | .add d a b ka kb => some (rr 0x01 d a b ka kb 0)
  | .sub d a b ka kb => some (rr 0x01 d a b ka kb 1)
  | .mul d a b ka kb => some (rr 0x01 d a b ka kb 2)
  | .mulh d a b ka kb => some (rr 0x01 d a b ka kb 3)
  | .mulhu d a b ka kb => some (rr 0x01 d a b ka kb 4)
  | .div d a b ka kb => some (rr 0x01 d a b ka kb 5)
  | .divu d a b ka kb => some (rr 0x01 d a b ka kb 6)
  | .rem d a b ka kb => some (rr 0x01 d a b ka kb 7)
  | .remu d a b ka kb => some (rr 0x01 d a b ka kb 8)
  | .and d a b ka kb => some (rr 0x01 d a b ka kb 9)
  | .or d a b ka kb => some (rr 0x01 d a b ka kb 10)
  | .xor d a b ka kb => some (rr 0x01 d a b ka kb 11)
  | .andn d a b ka kb => some (rr 0x01 d a b ka kb 12)
  | .shl d a b ka kb => some (rr 0x01 d a b ka kb 13)
  | .shr d a b ka kb => some (rr 0x01 d a b ka kb 14)
  | .sar d a b ka kb => some (rr 0x01 d a b ka kb 15)
  | .min d a b ka kb => some (rr 0x01 d a b ka kb 16)
  | .max d a b ka kb => some (rr 0x01 d a b ka kb 17)
  | .minu d a b ka kb => some (rr 0x01 d a b ka kb 18)
  | .maxu d a b ka kb => some (rr 0x01 d a b ka kb 19)
  | .seq d a b ka kb => some (rr 0x01 d a b ka kb 20)
  | .sne d a b ka kb => some (rr 0x01 d a b ka kb 21)
  | .slt d a b ka kb => some (rr 0x01 d a b ka kb 22)
  | .sltu d a b ka kb => some (rr 0x01 d a b ka kb 23)
  | .movz d a b ka kb => some (rr 0x01 d a b ka kb 24)
  | .movn d a b ka kb => some (rr 0x01 d a b ka kb 25)
  | .bfx d a b ka kb => some (rr 0x01 d a b ka kb 26)
  | .bfxs d a b ka kb => some (rr 0x01 d a b ka kb 27)
  | .clz d a ka => some (rr 0x01 d a 0 ka false 28)
  | .ctz d a ka => some (rr 0x01 d a 0 ka false 29)
  | .popc d a ka => some (rr 0x01 d a 0 ka false 30)
  | .bswap d a ka => some (rr 0x01 d a 0 ka false 31)
  | .addi d a ka i => some (ri 0x02 d a ka i)
  | .andi d a ka i => some (ri 0x03 d a ka i)
  | .shli d a ka c => some (ri 0x04 d a ka (0#6 ++ c))
  | .shri d a ka c => some (ri 0x04 d a ka (1#6 ++ c))
  | .sari d a ka c => some (ri 0x04 d a ka (2#6 ++ c))
  | .roli d a ka c => some (ri 0x04 d a ka (3#6 ++ c))
  | .li d i => some (lif 0x05 d i)
  | .lim d i => some (lif 0x06 d i)
  | .lih d i => some (lif 0x07 d i)
  | .beq a b o => some (bf 0x08 a b o)
  | .bne a b o => some (bf 0x09 a b o)
  | .blt a b o => some (bf 0x0A a b o)
  | .bge a b o => some (bf 0x0B a b o)
  | .bltu a b o => some (bf 0x0C a b o)
  | .bgeu a b o => some (bf 0x0D a b o)
  | .jal o => some (jf 0x0E o)
  | .jalr d a ka i => some (ri 0x0F d a ka i)
  | .ld8 d a ka i => some (ri 0x10 d a ka i)
  | .ld16 d a ka i => some (ri 0x11 d a ka i)
  | .ld32 d a ka i => some (ri 0x12 d a ka i)
  | .ld64 d a ka i => some (ri 0x13 d a ka i)
  | .st8 d a ka i => some (ri 0x14 d a ka i)
  | .st16 d a ka i => some (ri 0x15 d a ka i)
  | .st32 d a ka i => some (ri 0x16 d a ka i)
  | .st64 d a ka i => some (ri 0x17 d a ka i)
  | .lnd a b ka kb s => some (rr 0x18 0 a b ka kb (0#3 ++ s))
  | .lndV a b ka kb => some (rr 0x18 0 a b ka kb 4)
  | .rput a b ka kb => some (rr 0x19 0 a b ka kb 0)
  | .rputV a b ka kb => some (rr 0x19 0 a b ka kb 1)
  | .pst d a b ka kb s => some (rr 0x1A d a b ka kb (0#3 ++ s))
  | .fenceP => some (rr 0x1B 0 0 0 false false 0)
  | .fenceR s => some (rr 0x1B 0 0 0 false false (1#3 ++ s))
  | .fenceA s => some (rr 0x1B 0 0 0 false false (2#3 ++ s))
  | .pf d a ka i => some (ri 0x1C d a ka i)
  | .amoAlu w d a b ka kb o => some (rr (16#6 ++ BitVec.ofBool w) d a b ka kb (0#2 ++ o))
  | .amoSwap w d a b ka kb => some (rr (16#6 ++ BitVec.ofBool w) d a b ka kb 8)
  | .amoCas w d a b ka kb => some (rr (16#6 ++ BitVec.ofBool w) d a b ka kb 9)
  | .amoIncw w d a ka => some (rr (16#6 ++ BitVec.ofBool w) d a 0 ka false 10)
  | .amoAddb w d a b ka kb => some (rr (16#6 ++ BitVec.ofBool w) d a b ka kb 11)
  | .amoFadd d a b ka kb => some (rr 0x20 d a b ka kb 12)
  | .cadd a b ka kb s => some (rr 0x22 0 a b ka kb (0#3 ++ s))
  | .cfadd d a b ka kb s => some (rr 0x22 d a b ka kb (1#3 ++ s))
  | .cwait d a b ka kb s => some (rr 0x22 d a b ka kb (2#3 ++ s))
  | .cpoll d a b ka kb s => some (rr 0x22 d a b ka kb (3#3 ++ s))
  | .cread d a ka => some (rr 0x22 d a 0 ka false 16)
  | .cset d a b ka kb => some (rr 0x22 d a b ka kb 20)
  | .send d a b ka kb s => some (rr 0x30 d a b ka kb (0#3 ++ s))
  | .sendg d a b ka kb s => some (rr 0x31 d a b ka kb (0#3 ++ s))
  | .spawn d a b ka kb => some (rr 0x32 d a b ka kb 0)
  | .bind d a b ka kb => some (rr 0x33 d a b ka kb 0)
  | .unbind d a ka => some (rr 0x33 d a 0 ka false 1)
  | .clsmask d a b ka kb => some (rr 0x33 d a b ka kb 2)
  | .armG a ka => some (rr 0x34 0 a 0 ka false 0)
  | .armV a b ka kb => some (rr 0x34 0 a b ka kb 1)
  | .armM a ka => some (rr 0x34 0 a 0 ka false 2)
  | .live a ka t => some (rr 0x35 0 a 0 ka false (0#3 ++ t))
  | .myaddr d a c s e => some (rr 0x36 d a (0#4 ++ c) false false (s ++ e))
  | .yield => some (rr 0x37 0 0 0 false false 0)
  | .endTask => some (rr 0x37 0 0 0 false false 1)
  | .rpt sd sa sb n kb => some (rptf 0x38 sd sa sb 0 n kb)
  | .fol d a b ka kb => some (rr 0x39 d a b ka kb 0)
  | .unfol => some (rr 0x3A 0 0 0 false false 0)
  | .vadd w d a b m ka kb => some (vf (16#5 ++ w) d a b m false ka kb 0)
  | .vsub w d a b m ka kb => some (vf (16#5 ++ w) d a b m false ka kb 1)
  | .vmul w d a b m ka kb => some (vf (16#5 ++ w) d a b m false ka kb 2)
  | .vmulh w d a b m ka kb => some (vf (16#5 ++ w) d a b m false ka kb 3)
  | .vmulhu w d a b m ka kb => some (vf (16#5 ++ w) d a b m false ka kb 4)
  | .vmin w d a b m ka kb => some (vf (16#5 ++ w) d a b m false ka kb 5)
  | .vmax w d a b m ka kb => some (vf (16#5 ++ w) d a b m false ka kb 6)
  | .vminu w d a b m ka kb => some (vf (16#5 ++ w) d a b m false ka kb 7)
  | .vmaxu w d a b m ka kb => some (vf (16#5 ++ w) d a b m false ka kb 8)
  | .vadds w d a b m ka kb => some (vf (16#5 ++ w) d a b m false ka kb 9)
  | .vaddsu w d a b m ka kb => some (vf (16#5 ++ w) d a b m false ka kb 10)
  | .vsubs w d a b m ka kb => some (vf (16#5 ++ w) d a b m false ka kb 11)
  | .vsubsu w d a b m ka kb => some (vf (16#5 ++ w) d a b m false ka kb 12)
  | .vabs w d a m ka => some (vf (16#5 ++ w) d a 0 m false ka false 13)
  | .vand w d a b m ka kb => some (vf (17#5 ++ w) d a b m false ka kb 0)
  | .vor w d a b m ka kb => some (vf (17#5 ++ w) d a b m false ka kb 1)
  | .vxor w d a b m ka kb => some (vf (17#5 ++ w) d a b m false ka kb 2)
  | .vandn w d a b m ka kb => some (vf (17#5 ++ w) d a b m false ka kb 3)
  | .vshl w d a b m ka kb => some (vf (17#5 ++ w) d a b m false ka kb 4)
  | .vshr w d a b m ka kb => some (vf (17#5 ++ w) d a b m false ka kb 5)
  | .vsar w d a b m ka kb => some (vf (17#5 ++ w) d a b m false ka kb 6)
  | .veq w d a b m ka kb => some (vf (18#5 ++ w) (0#2 ++ d) a b m false ka kb 0)
  | .vne w d a b m ka kb => some (vf (18#5 ++ w) (0#2 ++ d) a b m false ka kb 1)
  | .vlt w d a b m ka kb => some (vf (18#5 ++ w) (0#2 ++ d) a b m false ka kb 2)
  | .vltu w d a b m ka kb => some (vf (18#5 ++ w) (0#2 ++ d) a b m false ka kb 3)
  | .vle w d a b m ka kb => some (vf (18#5 ++ w) (0#2 ++ d) a b m false ka kb 4)
  | .vleu w d a b m ka kb => some (vf (18#5 ++ w) (0#2 ++ d) a b m false ka kb 5)
  | .vfadd w d a b m q ka kb => some (vf (19#5 ++ w) d a b m q ka kb 0)
  | .vfsub w d a b m q ka kb => some (vf (19#5 ++ w) d a b m q ka kb 1)
  | .vfmul w d a b m q ka kb => some (vf (19#5 ++ w) d a b m q ka kb 2)
  | .vfdiv w d a b m q ka kb => some (vf (19#5 ++ w) d a b m q ka kb 3)
  | .vfsqrt w d a m q ka => some (vf (19#5 ++ w) d a 0 m q ka false 4)
  | .vfmin w d a b m q ka kb => some (vf (19#5 ++ w) d a b m q ka kb 5)
  | .vfmax w d a b m q ka kb => some (vf (19#5 ++ w) d a b m q ka kb 6)
  | .vfma w d a b m q ka kb => some (vf (19#5 ++ w) d a b m q ka kb 7)
  | .vfms w d a b m q ka kb => some (vf (19#5 ++ w) d a b m q ka kb 8)
  | .vfnma w d a b m q ka kb => some (vf (19#5 ++ w) d a b m q ka kb 9)
  | .vfnms w d a b m q ka kb => some (vf (19#5 ++ w) d a b m q ka kb 10)
  | .vfabs w d a m q ka => some (vf (19#5 ++ w) d a 0 m q ka false 11)
  | .vfneg w d a m q ka => some (vf (19#5 ++ w) d a 0 m q ka false 12)
  | .vfeq w d a b m q ka kb => some (vf (20#5 ++ w) (0#2 ++ d) a b m q ka kb 0)
  | .vflt w d a b m q ka kb => some (vf (20#5 ++ w) (0#2 ++ d) a b m q ka kb 1)
  | .vfle w d a b m q ka kb => some (vf (20#5 ++ w) (0#2 ++ d) a b m q ka kb 2)
  | .vfun w d a b m q ka kb => some (vf (20#5 ++ w) (0#2 ++ d) a b m q ka kb 3)
  | .vcvt d a p m q ka f => some (vf 0x54 d a (0#3 ++ p) m q ka false f)
  | .vperm d a b m ka kb w => some (vf 0x55 d a b m false ka kb (0#2 ++ w))
  | .vslide d a b m ka kb w => some (vf 0x55 d a b m false ka kb (1#2 ++ w))
  | .vmerge d a b m ka kb => some (vf 0x55 d a b m false ka kb 8)
  | .mand d a b ka kb => some (vf 0x56 (0#2 ++ d) (0#2 ++ a) (0#2 ++ b) 0 false ka kb 0)
  | .mor d a b ka kb => some (vf 0x56 (0#2 ++ d) (0#2 ++ a) (0#2 ++ b) 0 false ka kb 1)
  | .mxor d a b ka kb => some (vf 0x56 (0#2 ++ d) (0#2 ++ a) (0#2 ++ b) 0 false ka kb 2)
  | .mandn d a b ka kb => some (vf 0x56 (0#2 ++ d) (0#2 ++ a) (0#2 ++ b) 0 false ka kb 3)
  | .mnot d a ka => some (vf 0x56 (0#2 ++ d) (0#2 ++ a) 0 0 false ka false 4)
  | .vrsum d a m q ka t => some (vf 0x57 d a 0 m q ka false (0#2 ++ t))
  | .vrminF32 d a m q ka => some (vf 0x57 d a 0 m q ka false 4)
  | .vrmaxF32 d a m q ka => some (vf 0x57 d a 0 m q ka false 5)
  | .vrminI32 d a m ka => some (vf 0x57 d a 0 m false ka false 6)
  | .vrmaxI32 d a m ka => some (vf 0x57 d a 0 m false ka false 7)
  | .vqntMxe4 d a p q ka => some (vf 0x58 d a (0#3 ++ p) 0 q ka false 0)
  | .vqntMxf4 d a p q ka => some (vf 0x58 d a (0#3 ++ p) 0 q ka false 1)
  | .vqntK4 d a t p q ka => some (vf 0x58 d a (0#1 ++ t ++ p) 0 q ka false 2)
  | .vdqnt d a t p q ka => some (vf 0x58 d a (0#1 ++ t ++ p) 0 q ka false 3)
  | .vld d b m ka o => some (vmf 0x59 d b m ka o)
  | .vst d b m ka o => some (vmf 0x5A d b m ka o)
  | .vgath d b m ka o => some (vmf 0x5B d b m ka o)
  | .vscat d b m ka o => some (vmf 0x5C d b m ka o)
  | .vsplat d a ka w => some (rr 0x5D d a 0 ka false (0#3 ++ w))
  | .vget d a b ka kb => some (rr 0x5D d a b ka kb 4)
  | .vput d a b ka kb => some (rr 0x5D d a b ka kb 5)
  | .mget d a ka => some (rr 0x5D d a 0 ka false 6)
  | .mput d a ka => some (rr 0x5D d a 0 ka false 7)
  | .vfxrd d m ka => some (vf 0x5E d 0 0 m false ka false 0)
  | .vfxwr a m ka => some (vf 0x5E 0 a 0 m false ka false 1)
  | .vfxclr m ka => some (vf 0x5E 0 0 0 m false ka false 2)
  | .mma p c l => some (xf (6#3 ++ p) c l 0 0 0)
  | .mlease d b => some (xf 0x6B 0 d b 0 0)
  | .mrel => some (xf 0x6B 0 0 0 0 1)
  | .mzero c => some (xf 0x6B c 0 0 0 2)
  | .mfree c => some (xf 0x6B c 0 0 0 3)
  | .mldA l a b s => some (xf 0x6B (0#1 ++ BitVec.ofBool l) a b s 4)
  | .mldB l a b s => some (xf 0x6B (0#1 ++ BitVec.ofBool l) a b s 5)
  | .mdrain c a b => some (xf 0x6B c a b 0 6)
  | .merr d b => some (xf 0x6B 0 d b 0 7)
  | .xcopy d a b ka kb => some (rr 0x6C d a b ka kb 0)
  | .xcopyg d a b ka kb => some (rr 0x6C d a b ka kb 1)
  | .xgath d a b ka kb => some (rr 0x6D d a b ka kb 0)
  | .xscat d a b ka kb => some (rr 0x6D d a b ka kb 1)
  | .xred d a b ka kb => some (rr 0x6E d a b ka kb 0)
  | .xstat d a ka => some (rr 0x6F d a 0 ka false 0)
  | .xcancel d a ka => some (rr 0x6F d a 0 ka false 1)
  | .csrr d c => some (ri 0x70 d 0 false c)
  | .csrw d a ka c => some (ri 0x71 d a ka c)
  | .csrset d a ka c => some (ri 0x72 d a ka c)
  | .csrclr d a ka c => some (ri 0x73 d a ka c)
  | .svc a ka => some (rr 0x74 0 a 0 ka false 0)
  | .tret => some (rr 0x74 0 0 0 false false 1)
  | .tlbinv a b ka kb => some (rr 0x75 0 a b ka kb 0)
  | .tlbinvAll a ka => some (rr 0x75 0 a 0 ka false 1)
  | .tlbprobe d a b ka kb => some (rr 0x75 d a b ka kb 2)
  | .tlbreplayAll => some (rr 0x75 0 0 0 false false 3)
  | .brk c => some (jf 0x78 c)
  | .trc a b ka kb => some (rr 0x79 0 a b ka kb 0)
  | .seerd d a ka => some (rr 0x7A d a 0 ka false 0)
  | .seerdC d a ka => some (rr 0x7A d a 0 ka false 1)
  | .dbgsync d => some (rr 0x7B d 0 0 false false 0)
  | .asynchronousTrap => none
  | .lsplitWrite _ _ => none
  | .vgrpWrite _ _ => none
  | .fcsrWrite _ => none
  | .tsctlWrite _ _ => none
  | .tsctlChangeDone _ => none
  | .bankWakeDone _ _ => none
  | .registerWrite _ _ => none
  | .hleaseCas _ _ _ => none
  | .hleaseOtherAtomic _ _ => none
  | .hostLeaseExpiry => none
  | .qctlWrite _ _ _ => none
  | .qdbl _ _ _ => none
  | .commandFetch _ => none
  | .commandStart _ => none
  | .load _ => none
  | .launch _ => none
  | .launchEnvelopeSend _ => none
  | .copyin _ => none
  | .copyout _ => none
  | .hbind _ => none
  | .hrel _ => none
  | .wait _ => none
  | .signal _ => none
  | .tohost _ => none
  | .tohostCommit _ => none
  | .todevice _ => none
  | .suspend _ => none
  | .resume _ => none
  | .kill _ => none
  | .fatalFaultRemoval _ => none
  | .commandComplete _ => none
  | .hostWindowAccess _ _ _ _ => none
  | .envelopeArrival _ => none
  | .bounceRetry _ _ => none
  | .activation _ => none
  | .contextAging _ => none
  | .envelopeAging _ _ => none
  | .stealRequest _ _ => none
  | .stealAnswer _ => none
  | .frameResidency _ => none
  | .slotTransferEnd _ => none
  | .icacheLineArrival _ _ => none
  | .followJoinTimeout _ => none
  | .groupLoadShadow _ => none
  | .groupCommit _ => none
  | .groupDiscardShadow _ => none
  | .groupPrevDrained _ => none
  | .homeReadRequest _ => none
  | .replyArrival _ => none
  | .postedStorePerform _ => none
  | .lndHomeRead _ => none
  | .pstHome _ => none
  | .landingArrival _ => none
  | .journalAck _ => none
  | .refusalReturn _ => none
  | .deadlandReport _ => none
  | .cwaitRegister _ => none
  | .counterAddHome _ => none
  | .counterObserveHome _ => none
  | .waiterWake _ => none
  | .wakeArrival _ => none
  | .polledWaiterRead _ => none
  | .atomicHome _ => none
  | .engineCommandActivate _ => none
  | .engineSegmentComplete _ _ _ _ => none
  | .sidebandHalfArrival _ => none
  | .sidebandHalfResend _ _ => none
  | .sidebandPairTimeout _ _ => none
  | .arrayLeaseGrant _ => none
  | .arrayLeaseBoundEnd _ => none
  | .arrayLeaseRevoke _ => none
  | .arrayFill _ => none
  | .arrayMmaExecute _ => none
  | .arrayMzeroExecute _ => none
  | .arrayDrainStart _ => none
  | .arrayDrainComplete _ _ => none
  | .accumulatorFree _ _ => none
  | .arraySoftError _ _ _ _ => none
  | .pagerNotify _ => none
  | .fbclrWrite _ _ => none
  | .migrateStart _ _ => none
  | .migrationCommit _ => none
  | .retirementNotice _ => none
  | .transitGuard _ _ => none
  | .dwellStart _ => none
  | .dwellEnd _ => none
  | .linkPacketReceive _ _ => none
  | .ackReceive _ _ => none
  | .laneLoss _ _ => none
  | .endMarkerReceive _ => none
  | .relayForward _ => none
  | .portReenable _ => none
  | .domainTimeResync _ => none
  | .powerOnReset _ _ => none
  | .getVersion _ => none
  | .getCapabilities _ => none
  | .negotiateAlgorithms _ _ _ _ _ => none
  | .getDigests _ => none
  | .getCertificate _ _ => none
  | .challenge _ _ => none
  | .getMeasurements _ _ => none
  | .keyExchange _ _ => none
  | .finish _ _ _ _ => none
  | .heartbeat _ _ => none
  | .endSession _ _ => none
  | .getWrapkey _ _ => none
  | .jobCreate _ _ _ _ _ _ _ _ _ => none
  | .linkKey _ _ _ => none
  | .imageKey _ _ _ _ => none
  | .jobDissolve _ _ _ => none
  | .rollbackAdvance _ _ _ _ _ => none
  | .tdispLockInterface _ _ => none
  | .tdispStopInterface _ _ => none
  | .eyctlWrite _ => none
  | .eystopGo => none
  | .eystopRes => none
  | .eystopForce => none
  | .stopReached => none
  | .traceEnable _ => none
  | .traceDisable => none
  | .traceForceRelease => none
  | .traceRecordWrite => none
  | .traceSample => none
  | .throttleChange _ _ _ => none
  | .coreClockGate _ => none
  | .coreWake _ => none
  | .scrubLine _ _ => none
  | .pwrctlWrite _ => none
  | .deviceFatal _ => none
  | .illegalInstruction _ => none
  | .tdispStartInterface _ _ => none
  | .ideKmKeyProgramming _ _ _ _ => none
  | .engineStatusQuery _ => none

end Sys2Proof
end

