-- ==== Sys2Proof/Machine/Fetch.lean ====
section
/-! DEFINITION. Machine/Fetch.lean: fetching instruction words (R172, R173), the repeat sequencer (R174–R176), follow
(R177–R181), and the illegal words (R65). -/

namespace Sys2Proof.Machine

/-! ## Fetch (R172) -/

/-- The outcome of a fetch of one word. -/
inductive Fetched where
  | word (w : IWord)
  | trap (cause : Byte)
  | park (level : Nat)
  | own
  /-- the word is on its way from a peer chip -/
  | wait
  deriving DecidableEq, Repr

def icKey (c line : Nat) : Nat := c * 2 ^ 36 + line
def fetchKey (chip : BitVec 11) (pa : Nat) : Nat := chip.toNat * 2 ^ 52 + pa

/-- The word at an offset of some bytes. -/
def wordAt (bs : List Byte) (off : Nat) : IWord := BitVec.ofNat 32 (leNat ((bs.drop off).take 4))

/-- Lines of an instruction cache: 16 KiB (R1, R172). -/
def icLines : Nat := 256

/-- The instruction-cache copy of a line that serves a fetch; that a copy serves it is free, as it may have been
replaced (R173; log 4). -/
def State.icLine (s : State) (c pa : Nat) (tag : Owner) : Option CLine :=
  match Tab.get? s.mem.icache (icKey c (pa / 64)) with
  | some l => if l.owner = some tag && Config.freeBool s.clk.free 3 then some l else none
  | none => none

def State.fillIc (s : State) (c pa : Nat) (l : CLine) : State :=
  { s with mem := { s.mem with icache := putLine s.mem.icache (icKey c 0) (icKey (c + 1) 0) icLines s.clk.free (icKey c (pa / 64)) l } }

/-- A word of own memory at an address: from the instruction cache, else from the home, which fills the cache. -/
def State.fetchDev (s : State) (va : Word) (pa : Nat) : State × Fetched :=
  match s.icLine s.myCore pa (tagOf s.me.job) with
    | some l => (s.fresh, .word (wordAt l.bytes (pa % 64)))
    | none =>
      match s.devRead (tagOf s.me.job) pa 4 with
      | .err c => (s, .trap c)
      | .bytes bs => ((s.fillIc s.myCore pa { s.homeLine pa with page := some (fld va 26 31) }).fresh, .word (wordAt bs 0))

/-- The doubleword on its way to the fetch buffer. -/
def State.fetching (s : State) (key : Nat) : Bool :=
  s.net.any fun m => decide (m.who? = some s.me.taskId) &&
    match m with
    | .read _ _ _ _ (.code k) => decide (k = key)
    | .reply _ (.code k) _ _ _ => decide (k = key)
    | .remote _ (.code k) _ => decide (k = key)
    | _ => false

/-- A word of a peer's memory: read as a doubleword into the fetch buffer. -/
def State.fetchPeer (s : State) (chip : BitVec 11) (pa : Nat) : State × Fetched :=
  let base := pa / 8 * 8
  match Tab.get? s.me.fetched (fetchKey chip base) with
  | some (.ok w) => (s, .word (w.extractLsb' (8 * (pa % 8)) 32))
  | some (.err c) => (s.updMe fun f => { f with fetched := [] }, .trap (if c = Cause.REFUSED then Cause.REFUSED else Cause.PERM))
  | none =>
    if s.fetching (fetchKey chip base) then (s, .wait)
    else (s.send (.read s.me.taskId s.me.job (.peer chip base) 8 (.code (fetchKey chip base))), .wait)

/-- A word of host memory; a port that cannot answer and a host that does not complete the read refuse (R172, R440). -/
def State.fetchHost (s : State) (a : Nat) : State × Fetched :=
  if s.hostAnswers a then (s.fresh, .word (wordAt (s.hostBytes a 4) 0)) else (s.fresh, .trap Cause.PERM)

/-- Fetch the word at an address: never beyond the address range, never from the tile window (R196). -/
def State.fetchWord (s : State) (va : Word) : State × Fetched :=
  if beyond va || inWindow va then (s, .trap Cause.PERM)
  else match s.translate (coreLevels s.myCore) s.me.job s.me.svc .fetch va with
    | (s, .perm) => (s, .trap Cause.PERM)
    | (s, .noLeaf l) => (s, .park l)
    | (s, .own _) => (s, .own)
    | (s, .ok (.dev pa)) => s.fetchDev va pa
    | (s, .ok (.peer c pa)) => s.fetchPeer c pa
    | (s, .ok (.host a)) => s.fetchHost a
    | (s, .ok _) => (s, .trap Cause.PERM)

/-! ## The repeat sequencer (R174–R176) -/

/-- One field plus a step; a general field that holds g0 is not staggered (R175). None outside the range. -/
def stepField (v step k range : Nat) (g : Bool) : Option Nat :=
  if g ∧ v = 0 then some v else if v + k * step < range then some (v + k * step) else none

/-- Which of the three register fields of a word are staggered, and whether they are general (R175). -/
structure Stagger where
  general : Bool
  d : Bool
  a : Bool
  b : Bool
  deriving DecidableEq, Repr

/-- The staggered fields by major and function; none for a major that `rpt` may not capture. -/
def staggerOf (w : IWord) : Option Stagger :=
  let op := (opOf w).toNat
  let fn := fld w 0 4
  if op = 1 then some { general := true, d := true, a := true, b := decide (fld w 0 5 < 28) }
  else if 2 ≤ op ∧ op ≤ 4 then some { general := true, d := true, a := true, b := false }
  else if 5 ≤ op ∧ op ≤ 7 then some { general := true, d := true, a := false, b := false }
  else if op < 0x40 ∨ 0x58 < op then none
  else if op ≤ 0x43 then some { general := false, d := true, a := true, b := decide (fn ≠ 13) }
  else if op ≤ 0x47 then some { general := false, d := true, a := true, b := true }
  else if op ≤ 0x4B then some { general := false, d := false, a := true, b := true }
  else if op ≤ 0x4F then some { general := false, d := true, a := true, b := decide (fn ≠ 4 ∧ fn ≠ 11 ∧ fn ≠ 12) }
  else if op ≤ 0x53 then some { general := false, d := false, a := true, b := true }
  else if op = 0x55 then some { general := false, d := true, a := true, b := true }
  else if op = 0x56 then some { general := false, d := false, a := false, b := false }
  else some { general := false, d := true, a := true, b := false }

/-- The word of iteration k; none if it may not be captured or a field leaves its range (R175). -/
def staggered (w : IWord) (k sd sa sb : Nat) : Option IWord :=
  match staggerOf w with
  | none => none
  | some t =>
    let n := if t.general then 6 else 5
    let pos : Nat × Nat × Nat := if t.general then (19, 13, 7) else (20, 15, 10)
    let move (on : Bool) (lo step : Nat) (w : IWord) : Option IWord :=
      if on then (stepField (fld w lo n) step k (2 ^ n) t.general).map (putFld w lo n) else some w
    ((move t.d pos.1 sd w).bind (move t.a pos.2.1 sa)).bind (move t.b pos.2.2 sb)

/-- A captured word is legal in every iteration (R175). -/
def captureOk (w : IWord) (n sd sa sb : Nat) : Bool :=
  (List.range n).all fun k => match staggered w k sd sa sb with
    | some x => (decode x).toBool
    | none => false

/-- Capture the body words from an address on; the first word that cannot be fetched or fails its check decides. -/
def State.capture (s : State) (n sd sa sb : Nat) : Nat → Word → List IWord → State × Sum (List IWord) (Word × Fetched)
  | 0, _, ws => (s, .inl ws)
  | m + 1, va, ws =>
    match s.fetchWord va with
    | (s, .word w) => if captureOk w n sd sa sb then s.capture n sd sa sb m (va + 4) (ws ++ [w]) else (s, .inr (va, .word w))
    | (s, r) => (s, .inr (va, r))

/-- The word that issues next in an open repeat. -/
def Rpt.word (r : Rpt) : IWord :=
  let w := (r.body[r.j]?).getD 0
  (staggered w r.k r.sd r.sa r.sb).getD 0

/-! ## The word that a task issues next -/

/-- What a task meets at its turn: an instruction, an illegal word, or why there is none. -/
inductive Current where
  | instr (i : Instr)
  | illegal (w : IWord)
  | failed (r : Fetched)
  deriving DecidableEq, Repr

def currentOf (w : IWord) : Current :=
  match decode w with
  | .ok i => .instr i
  | .error _ => .illegal w

/-- Doublewords of peers serve the instruction they were fetched for; `rpt` also captures from them. -/
def Current.done (c : Current) (s : State) : State :=
  match c with
  | .instr (.rpt ..) => s
  | .failed _ => s
  | _ => s.updMe fun f => { f with fetched := [] }

/-- The next instruction that the current task fetches itself: the next body word of an open repeat, else the word at the
program counter. -/
def State.ownWord (s : State) : State × Current :=
  match s.me.rpt with
  | some r => (s, currentOf r.word)
  | none =>
    match s.fetchWord s.me.pc with
    | (s, .word w) => ((currentOf w).done s, currentOf w)
    | (s, r) => (s, .failed r)

/-- A `fol` word. -/
def isFol : Instr → Bool
  | .fol .. => true
  | _ => false

/-- The next instruction of the current task: in a follower the word received from its leader, whose own address it is at;
at another address, or at a `fol` word, the follower leaves and fetches for itself (R178, R179, R197). -/
def State.current (s : State) : State × Current :=
  match s.me.stream with
  | x :: _ =>
    if x.va = s.me.wordAddr ∧ isFol x.i = false then (s, .instr x.i)
    else (s.updMe fun f => { f with follow := none, stream := [] }).ownWord
  | [] => s.ownWord

/-- What a fetch that yields no word does to the task (R172). -/
def State.fetchFailed (s : State) (va : Word) (r : Fetched) : Host.Outcome State Fault Refusal :=
  match r with
  | .word _ => .next s
  | .trap c => .next (s.trapAt c va va false)
  | .park l => .next (s.taskParkXlate 2 va l)
  | .own => .next (s.taskParkOwn va)
  | .wait => .next s

/-- A joined follower has no word of its leader yet: its own fetch is gated off (R178). -/
def Frame.starved (f : Frame) : Bool :=
  f.stream.isEmpty && match f.follow with
    | some (_, _, joined) => joined
    | none => false

/-- A task may issue: resident, no slot transfer, its job not held (R466, R494), no device-fatal event (R510), with a word to
come, running or blocked on a condition that its instruction evaluates again (R169, R468, R494). -/
def State.mayIssue (s : State) (k : Nat) : Bool :=
  let f := s.frame k
  f.resident && f.transfer.isNone && !s.issueHeld f && !s.pwr.fatal && !f.starved &&
    match f.state, f.wait with
    | .running, _ => true
    | .ready, _ => true
    | .waiting, .presence _ => true
    | .waiting, .retry => true
    | .waiting, .array => true
    | _, _ => false

/-- A context that is eligible for issue but for its fetch and its interlocks (R169). -/
def State.competes (s : State) (k : Nat) : Bool :=
  s.mayIssue k && match (s.frame k).wait with
    | .presence srcs => decide ((s.frame k).check srcs ≠ .block)
    | .retry => false
    | .array => false
    | _ => true

/-- A major belongs to issue slot M; every other issues in slot S (R68, R69). -/
def slotM (op : BitVec 7) : Bool :=
  let n := op.toNat
  (decide (0x10 ≤ n) && decide (n ≤ 0x1C)) || (decide (0x20 ≤ n) && decide (n ≤ 0x22)) || (decide (0x30 ≤ n) && decide (n ≤ 0x32))
    || (decide (0x40 ≤ n) && decide (n ≤ 0x5E)) || (decide (0x60 ≤ n) && decide (n ≤ 0x6F))

/-- The issue slot of an instruction. -/
def instrSlotM (i : Instr) : Bool := ((encode i).map fun w => slotM (opOf w)).getD false

/-- The issue slot that the next word of a context belongs to; none where no word comes. -/
def State.slotOf (s : State) (k : Nat) : Option Bool :=
  match (s.asTask k).current.2 with
  | .instr i => some (instrSlotM i)
  | .illegal w => some (slotM (opOf w))
  | .failed _ => none

/-- When the context last issued in a slot. -/
def Frame.issuedIn (f : Frame) (m : Bool) : Nat := if m then f.issueM else f.issueS

/-- Another context goes first in its slot: of higher current priority, or of the same and not issued there since (R149, R169). -/
def State.before (s : State) (j k : Nat) : Bool :=
  let f := s.frame k
  let g := s.frame j
  let ahead (m : Bool) : Bool := decide (f.curPrio < g.curPrio) || (decide (g.curPrio = f.curPrio) && decide (g.issuedIn m < f.issuedIn m))
  (ahead true || ahead false) && match s.slotOf j with
    | some m => ahead m && decide (s.slotOf k = some m)
    | none => false

/-- The context yielded, and another ready context of its current priority has not issued since (R155). -/
def State.yieldsTo (s : State) (k j : Nat) : Bool :=
  let f := s.frame k
  let g := s.frame j
  f.yielded && decide (g.curPrio = f.curPrio) && decide (g.issueNo < f.issueNo)

/-- The core picks the context: no other one that is eligible in its issue slot goes first, and none that it yielded to has yet to issue.
Whether the word of another is there and has left the interlocks is time, and free (R155, R169, R170; log 11). -/
def State.chosen (s : State) (k : Nat) : Bool :=
  (s.residents ((s.frame k).coreAt k)).all fun j =>
    decide (j = k) || !(s.competes j && (s.yieldsTo k j || (s.before j k && Config.wordThere s.clk.stepNo j)))

/-- An asynchronous trap is due: pending, no handler running, the task running, ready, waiting or parked and not
halted, and not in a move or slot transfer (R425, R432). -/
def State.asyncDue (s : State) (k : Nat) : Bool :=
  let f := s.frame k
  !f.pend.isEmpty && !f.handling && f.transfer.isNone && !s.issueHeld f && !s.pwr.fatal && decide (f.wait ≠ .halted) &&
    match f.state with
    | .running => true
    | .ready => f.resident
    | .waiting => true
    | .parked => true
    | _ => false

/-! ## Follow (R177–R181) -/

/-- The status of `fol` (R177). -/
def State.folStatus (s : State) (A B : Word) : Nat :=
  let c := s.myTile * 32 + fld A 0 5
  let k := c * 256 + fld B 0 8
  let f := s.frame k
  if decide (30 < fld A 0 5) || decide (c = s.myCore) || decide (coreNo s.myCore = 31) || f.gone
      || decide (f.gen ≠ B.extractLsb' 8 8) || decide (f.job ≠ s.me.job) then 1
  else match (s.core c).stream with
    | some h => if h = (k, f.gen) then 0 else 2
    | none => 0

/-- `fol`: refused with a status, or the leader's channel is taken and the task waits to join at the next word. -/
def State.fol (s : State) (d a b : GReg) (ka kb : Bool) : State :=
  s.issue [.g a ka, .g b kb] fun s =>
    let A := s.me.rdG a
    let B := s.me.rdG b
    let st := s.folStatus A B
    let s := s.retG d (BitVec.ofNat 64 st)
    if st ≠ 0 then s.updMe fun f => { f with follow := none }
    else
      let c := s.myTile * 32 + fld A 0 5
      let k := c * 256 + fld B 0 8
      let s := s.setCore c { s.core c with stream := some (k, (s.frame k).gen) }
      s.updMe fun f => { f with follow := some (k, (s.frame k).gen, false), state := .waiting, wait := .join, since := s.clk.cycle }

/-- A leader issues a word: tasks that wait to join at its address join; every follower receives the word, but one with 64 words
not issued yet falls behind and leaves (R178, R179). -/
def State.streamWord (s : State) (leader : Nat) (x : StreamWord) : State :=
  let gen := (s.frame leader).gen
  let one (f : Frame) : Frame :=
    if f.follow = some (leader, gen, true) then
      if f.stream.length < 64 then { f with stream := f.stream ++ [x] } else { f with follow := none }
    else if f.follow = some (leader, gen, false) ∧ f.wait = .join ∧ f.pc = x.va ∧ f.resident = true ∧ s.clk.cycle - f.since < 65536 then
      s.released { f with follow := some (leader, gen, true), stream := [x] }
    else f
  { s with frames := s.frames.map fun p => (p.1, one p.2) }

/-- The task carries its words to followers: it holds its core's stream channel (R177). -/
def State.leads (s : State) (k : Nat) : Bool := decide ((s.core (coreOfFrame k)).stream = some (k, (s.frame k).gen))

/-- The leader that a frame awaits is gone: retired, of another generation, or off the tile's core (R178). -/
def State.leaderGone (s : State) (k : Nat) (gen : BitVec 8) : Bool :=
  let f := s.frame k
  f.gone || decide (f.gen ≠ gen) || f.atSvc || decide (f.state = .migrating)

/-! ## The meanings -/

abbrev FeOut := Host.Outcome State Fault Refusal

/-- `rpt`: the body is captured and checked, then the repeat is open (R174, R175); a follower takes the body that its leader
captured (R178). -/
def execRpt (sd sa sb : BitVec 3) (n : BitVec 8) (len : BitVec 4) (s : State) : FeOut :=
  let s := s.issue [] id
  let A := s.me.pc
  let got : State × Sum (List IWord) (Word × Fetched) := match s.me.stream with
    | x :: _ => (s, .inl x.body)
    | [] => s.capture n.toNat sd.toNat sa.toNat sb.toNat (len.toNat + 1) (A + 4) []
  match got with
  | (s, .inl ws) =>
    .next (s.updMe fun f => { f with
      fetched := [],
      rpt := some { base := A, body := ws, k := 0, j := 0, n := n.toNat, sd := sd.toNat, sa := sa.toNat, sb := sb.toNat } })
  | (s, .inr (va, .word w)) => .next (s.trapAt Cause.ILLEGAL (w.setWidth 64) va false)
  | (s, .inr (va, r)) => s.fetchFailed va r

/-- `fol` (R177). -/
def execFol (d a b : GReg) (ka kb : Bool) (s : State) : FeOut := .next (s.fol d a b ka kb)

/-- `unfol` ends the task's following, or releases its channel, as its followers receive the word (R180). -/
def execUnfol (s : State) : FeOut := .next (s.issue [] fun s => (s.unfollow s.run.cur).next)

/-- ICACHE_LINE_ARRIVAL: a line of own memory reaches a core's instruction cache (R172). -/
def execIcacheLineArrival (core line : Nat) (s : State) : FeOut :=
  .next (if (s.lineOwner (64 * line)).isSome ∧ !s.mem.bad.contains line
    then s.fillIc core (64 * line) (s.homeLine (64 * line)) else s)

/-- FOLLOW_JOIN_TIMEOUT: a join is cancelled after 65,536 cycles, when its leader is gone, or when the follower is
evicted (R178). -/
def execFollowJoinTimeout (task : Nat) (s : State) : FeOut :=
  let f := s.frame task
  .next (match f.follow with
    | some (k, gen, false) =>
      if f.wait = .join ∧ (65536 ≤ s.clk.cycle - f.since ∨ s.leaderGone k gen ∨ f.resident = false) then
        s.setFrame task (s.released { f with follow := none })
      else s
    | _ => s)

/-- ILLEGAL_INSTRUCTION: the exact trap of a word that names no instruction, with the word in tval (R65). -/
def execIllegalInstruction (w : IWord) (s : State) : FeOut := .next (s.trap Cause.ILLEGAL (w.setWidth 64))

end Sys2Proof.Machine
end

