-- ==== Sys2Proof/Machine/Vector.lean ====
section
/-! DEFINITION. Machine/Vector.lean: lanes, masks and write units (R233–R235), integer vector instructions
(R244–R246), permutation, mask logic, integer reductions, vector–scalar transfer and vfx access (R253–R258). -/

namespace Sys2Proof.Machine

/-! ## Lanes (R233, R234) -/

/-- Width in bits of a width code: 0 .i8, 1 .i16, 2 .i32, 3 .i64. -/
def laneBits (w : BitVec 2) : Nat := 8 * 2 ^ w.toNat

/-- Lane i of w bits. -/
def lane (x : BitVec 512) (w i : Nat) : Nat := (x.extractLsb' (w * i) w).toNat

/-- A vector from its lanes, each taken modulo 2^w. -/
def ofLanes (w n : Nat) (l : Nat → Nat) : BitVec 512 :=
  (List.range n).foldr (fun i x => x ||| (BitVec.ofNat 512 (l i % 2 ^ w) <<< (w * i))) 0

/-- A 64-bit element is written when one of its lanes is unmasked (R234). -/
def unitWritten (w : Nat) (on : Nat → Bool) (e : Nat) : Bool := (List.range (64 / w)).any fun j => on (e * (64 / w) + j)

/-- Write lanes under a predicate; masked-off lanes of a written element keep the values read at issue. -/
def Frame.wrLanes (f : Frame) (w : Nat) (d : VReg) (on : Nat → Bool) (l : Nat → Nat) : Frame :=
  let old := f.rdV d
  f.wrEs d (unitWritten w on) (ofLanes w (512 / w) fun i => if on i then l i else lane old w i)

/-- The sources of a V-format word: ka covers va, vd where read, and m; kb covers vb (R59). vd comes first, in
format order. -/
def vSrcs (rd : Bool) (d a : VReg) (m : MReg) (ka : Bool) (b : List Src) : List Src :=
  (if rd then [.v d ka] else []) ++ [.v a ka] ++ b ++ [.m m ka]

/-- A masked form reads vd (R74). -/
def masked (m : MReg) : Bool := decide (m ≠ 0)

/-! ## Integer lanes (R244, R245) -/

/-- A lane as a signed integer. -/
def sg (w x : Nat) : Int := if 2 ^ (w - 1) ≤ x then (x : Int) - 2 ^ w else x
/-- An integer as a lane, modulo 2^w. -/
def un (w : Nat) (x : Int) : Nat := (x % 2 ^ w).toNat
/-- Clamp to the signed range. -/
def clampS (w : Nat) (x : Int) : Int := max (-(2 ^ (w - 1))) (min x (2 ^ (w - 1) - 1))
/-- Clamp to the unsigned range. -/
def clampU (w : Nat) (x : Int) : Int := max 0 (min x (2 ^ w - 1))

def Lane.add (w a b : Nat) : Nat := (a + b) % 2 ^ w
def Lane.sub (w a b : Nat) : Nat := un w ((a : Int) - b)
def Lane.mul (w a b : Nat) : Nat := a * b % 2 ^ w
def Lane.mulh (w a b : Nat) : Nat := un w (sg w a * sg w b / 2 ^ w)
def Lane.mulhu (w a b : Nat) : Nat := a * b / 2 ^ w
def Lane.min (w a b : Nat) : Nat := if sg w a < sg w b then a else b
def Lane.max (w a b : Nat) : Nat := if sg w a < sg w b then b else a
def Lane.minu (_ a b : Nat) : Nat := if a < b then a else b
def Lane.maxu (_ a b : Nat) : Nat := if a < b then b else a
def Lane.adds (w a b : Nat) : Nat := un w (clampS w (sg w a + sg w b))
def Lane.addsu (w a b : Nat) : Nat := un w (clampU w ((a : Int) + b))
def Lane.subs (w a b : Nat) : Nat := un w (clampS w (sg w a - sg w b))
def Lane.subsu (w a b : Nat) : Nat := un w (clampU w ((a : Int) - b))
def Lane.abs (w a : Nat) : Nat := un w (sg w a).natAbs
def Lane.and (_ a b : Nat) : Nat := a &&& b
def Lane.or (_ a b : Nat) : Nat := a ||| b
def Lane.xor (_ a b : Nat) : Nat := a ^^^ b
def Lane.andn (w a b : Nat) : Nat := a &&& (2 ^ w - 1 - b)
def Lane.shl (w a b : Nat) : Nat := a * 2 ^ (b % w) % 2 ^ w
def Lane.shr (w a b : Nat) : Nat := a / 2 ^ (b % w)
def Lane.sar (w a b : Nat) : Nat := un w (sg w a / 2 ^ (b % w))

def Lane.eq (_ a b : Nat) : Bool := decide (a = b)
def Lane.ne (_ a b : Nat) : Bool := decide (a ≠ b)
def Lane.lt (w a b : Nat) : Bool := decide (sg w a < sg w b)
def Lane.ltu (_ a b : Nat) : Bool := decide (a < b)
def Lane.le (w a b : Nat) : Bool := decide (sg w a ≤ sg w b)
def Lane.leu (_ a b : Nat) : Bool := decide (a ≤ b)

/-- Two-source integer form. -/
def State.vec2 (s : State) (op : Nat → Nat → Nat → Nat) (w : BitVec 2) (d a b : VReg) (m : MReg) (ka kb : Bool) : State :=
  s.issue (vSrcs (masked m) d a m ka [.v b kb]) fun s => s.updMe fun f =>
    let n := laneBits w
    (f.wrLanes n d (fun i => (f.rdM m).getLsbD i) fun i => op n (lane (f.rdV a) n i) (lane (f.rdV b) n i)).advance

/-- One-source integer form. -/
def State.vec1 (s : State) (op : Nat → Nat → Nat) (w : BitVec 2) (d a : VReg) (m : MReg) (ka : Bool) : State :=
  s.issue (vSrcs (masked m) d a m ka []) fun s => s.updMe fun f =>
    let n := laneBits w
    (f.wrLanes n d (fun i => (f.rdM m).getLsbD i) fun i => op n (lane (f.rdV a) n i)).advance

/-- A mask from a condition on lanes below n, other bits 0 (R246). -/
def maskOf (n : Nat) (c : Nat → Bool) : Word :=
  (List.range n).foldl (fun x i => if c i then setBit x i true else x) 0

/-- Integer compare into a mask (R246). -/
def State.vcmp (s : State) (op : Nat → Nat → Nat → Bool) (w : BitVec 2) (d : MReg) (a b : VReg) (m : MReg) (ka kb : Bool) : State :=
  s.issue (vSrcs false 0 a m ka [.v b kb]) fun s => s.updMe fun f =>
    let n := laneBits w
    (f.wrM d (maskOf (512 / n) fun i => (f.rdM m).getLsbD i && op n (lane (f.rdV a) n i) (lane (f.rdV b) n i))).advance

/-! ## Permutation (R253) -/

/-- `vperm`: the index is the lane of vb, out of range gives 0. -/
def State.vperm (s : State) (w : BitVec 2) (d a b : VReg) (m : MReg) (ka kb : Bool) : State :=
  s.issue (vSrcs (masked m) d a m ka [.v b kb]) fun s => s.updMe fun f =>
    let n := laneBits w
    (f.wrLanes n d (fun i => (f.rdM m).getLsbD i) fun i =>
      let k := lane (f.rdV b) n i
      if k < 512 / n then lane (f.rdV a) n k else 0).advance

/-- `vslide`: by element 0 of vb as a signed 64-bit count. -/
def State.vslide (s : State) (w : BitVec 2) (d a b : VReg) (m : MReg) (ka kb : Bool) : State :=
  s.issue (vSrcs (masked m) d a m ka [.v b kb]) fun s => s.updMe fun f =>
    let n := laneBits w
    (f.wrLanes n d (fun i => (f.rdM m).getLsbD i) fun i =>
      let k : Int := i + (f.rdE b 0).toInt
      if 0 ≤ k ∧ k < (512 / n : Nat) then lane (f.rdV a) n k.toNat else 0).advance

/-- `vmerge`: m selects bytes; every byte of vd is written and vd is not read. -/
def State.vmerge (s : State) (d a b : VReg) (m : MReg) (ka kb : Bool) : State :=
  s.issue (vSrcs false d a m ka [.v b kb]) fun s => s.updMe fun f =>
    (f.wrV d (ofLanes 8 64 fun i => if (f.rdM m).getLsbD i then lane (f.rdV b) 8 i else lane (f.rdV a) 8 i)).advance

/-! ## Mask logic (R254) -/

def State.mop2 (s : State) (op : Word → Word → Word) (d a b : MReg) (ka kb : Bool) : State :=
  s.issue [.m a ka, .m b kb] fun s => s.updMe fun f => (f.wrM d (op (f.rdM a) (f.rdM b))).advance
def State.mop1 (s : State) (op : Word → Word) (d a : MReg) (ka : Bool) : State :=
  s.issue [.m a ka] fun s => s.updMe fun f => (f.wrM d (op (f.rdM a))).advance

/-! ## Reductions (R255, R256) -/

/-- One level of the tree: t[i] with t[i + h]; absent with x gives x without flags. -/
def treeLevel (combine : Nat → Nat → Nat × Flags) : List (Option Nat) → List (Option Nat) → List (Option Nat × Flags)
  | x :: xs, y :: ys =>
    (match x, y with
      | some a, some b => (some (combine a b).1, (combine a b).2)
      | some a, none => (some a, 0)
      | none, y => (y, 0)) :: treeLevel combine xs ys
  | _, _ => []

/-- The fixed pairwise tree over 2^levels lanes: the result and the flags with the index of t they belong to. -/
def tree (combine : Nat → Nat → Nat × Flags) : Nat → List (Option Nat) → Option Nat × List (Nat × Flags)
  | 0, ts => (ts.headD none, [])
  | k + 1, ts =>
    let l := treeLevel combine (ts.take (2 ^ k)) (ts.drop (2 ^ k))
    let r := tree combine k (l.map (·.1))
    (r.1, (l.map (·.2)).zipIdx.map (fun p => (p.2, p.1)) ++ r.2)

/-- A reduction: lanes of va selected by m, the result in element 0 of the form's width, every other bit 0. -/
def State.reduce (s : State) (w levels : Nat) (combine : Rc → Nat → Nat → Nat × Flags) (empty : Nat)
    (d a : VReg) (m : MReg) (q ka : Bool) : State :=
  s.issue (vSrcs false d a m ka []) fun s => s.updMe fun f =>
    let ts := (List.range (2 ^ levels)).map fun i =>
      if (f.rdM m).getLsbD i then some (lane (f.rdV a) w i) else none
    let r := tree (combine f.rc) levels ts
    ((f.wrV d (BitVec.ofNat 512 (r.1.getD empty % 2 ^ w))).raise q (r.2.map fun p => (flagLane w p.1, p.2))).advance

def noFlags (op : Nat → Nat → Nat) : Rc → Nat → Nat → Nat × Flags := fun _ a b => (op a b, 0)

/-! ## Vector–scalar transfer (R257) -/

/-- A 6-bit field that names a vector or mask register, in range once well-formed. -/
def asV (r : BitVec 6) : VReg := r.setWidth 5
def asM (r : BitVec 6) : MReg := r.setWidth 3

/-- Width of `vsplat`: fn 0 .i64, 1 .i32, 2 .i16, 3 .i8. -/
def splatBits (w : BitVec 2) : Nat := 64 / 2 ^ w.toNat

/-! ## vfx (R258) -/

/-- Lanes of vfx as 32-bit lanes. -/
def vfxLane (x : BitVec 128) (i : Nat) : Nat := (x.extractLsb' (8 * i) 8).toNat

/-- vfx with the bytes of selected lanes replaced. -/
def vfxSet (x : BitVec 128) (on : Nat → Bool) (v : Nat → Nat) : BitVec 128 :=
  (List.range 16).foldr (fun i y =>
    y ||| (BitVec.ofNat 128 (if on i then v i % 256 else vfxLane x i) <<< (8 * i))) 0

/-! ## The meanings -/

abbrev VOut := Host.Outcome State Fault Refusal

/-- `vadd` (R244). -/
def execVadd (w : BitVec 2) (d a b : VReg) (m : MReg) (ka kb : Bool) (s : State) : VOut := .next (s.vec2 Lane.add w d a b m ka kb)
/-- `vsub` (R244). -/
def execVsub (w : BitVec 2) (d a b : VReg) (m : MReg) (ka kb : Bool) (s : State) : VOut := .next (s.vec2 Lane.sub w d a b m ka kb)
/-- `vmul` (R244). -/
def execVmul (w : BitVec 2) (d a b : VReg) (m : MReg) (ka kb : Bool) (s : State) : VOut := .next (s.vec2 Lane.mul w d a b m ka kb)
/-- `vmulh` (R244). -/
def execVmulh (w : BitVec 2) (d a b : VReg) (m : MReg) (ka kb : Bool) (s : State) : VOut := .next (s.vec2 Lane.mulh w d a b m ka kb)
/-- `vmulhu` (R244). -/
def execVmulhu (w : BitVec 2) (d a b : VReg) (m : MReg) (ka kb : Bool) (s : State) : VOut := .next (s.vec2 Lane.mulhu w d a b m ka kb)
/-- `vmin` (R244). -/
def execVmin (w : BitVec 2) (d a b : VReg) (m : MReg) (ka kb : Bool) (s : State) : VOut := .next (s.vec2 Lane.min w d a b m ka kb)
/-- `vmax` (R244). -/
def execVmax (w : BitVec 2) (d a b : VReg) (m : MReg) (ka kb : Bool) (s : State) : VOut := .next (s.vec2 Lane.max w d a b m ka kb)
/-- `vminu` (R244). -/
def execVminu (w : BitVec 2) (d a b : VReg) (m : MReg) (ka kb : Bool) (s : State) : VOut := .next (s.vec2 Lane.minu w d a b m ka kb)
/-- `vmaxu` (R244). -/
def execVmaxu (w : BitVec 2) (d a b : VReg) (m : MReg) (ka kb : Bool) (s : State) : VOut := .next (s.vec2 Lane.maxu w d a b m ka kb)
/-- `vadds` (R244). -/
def execVadds (w : BitVec 2) (d a b : VReg) (m : MReg) (ka kb : Bool) (s : State) : VOut := .next (s.vec2 Lane.adds w d a b m ka kb)
/-- `vaddsu` (R244). -/
def execVaddsu (w : BitVec 2) (d a b : VReg) (m : MReg) (ka kb : Bool) (s : State) : VOut := .next (s.vec2 Lane.addsu w d a b m ka kb)
/-- `vsubs` (R244). -/
def execVsubs (w : BitVec 2) (d a b : VReg) (m : MReg) (ka kb : Bool) (s : State) : VOut := .next (s.vec2 Lane.subs w d a b m ka kb)
/-- `vsubsu` (R244). -/
def execVsubsu (w : BitVec 2) (d a b : VReg) (m : MReg) (ka kb : Bool) (s : State) : VOut := .next (s.vec2 Lane.subsu w d a b m ka kb)
/-- `vabs` (R244). -/
def execVabs (w : BitVec 2) (d a : VReg) (m : MReg) (ka : Bool) (s : State) : VOut := .next (s.vec1 Lane.abs w d a m ka)
/-- `vand` (R245). -/
def execVand (w : BitVec 2) (d a b : VReg) (m : MReg) (ka kb : Bool) (s : State) : VOut := .next (s.vec2 Lane.and w d a b m ka kb)
/-- `vor` (R245). -/
def execVor (w : BitVec 2) (d a b : VReg) (m : MReg) (ka kb : Bool) (s : State) : VOut := .next (s.vec2 Lane.or w d a b m ka kb)
/-- `vxor` (R245). -/
def execVxor (w : BitVec 2) (d a b : VReg) (m : MReg) (ka kb : Bool) (s : State) : VOut := .next (s.vec2 Lane.xor w d a b m ka kb)
/-- `vandn` (R245). -/
def execVandn (w : BitVec 2) (d a b : VReg) (m : MReg) (ka kb : Bool) (s : State) : VOut := .next (s.vec2 Lane.andn w d a b m ka kb)
/-- `vshl` (R245). -/
def execVshl (w : BitVec 2) (d a b : VReg) (m : MReg) (ka kb : Bool) (s : State) : VOut := .next (s.vec2 Lane.shl w d a b m ka kb)
/-- `vshr` (R245). -/
def execVshr (w : BitVec 2) (d a b : VReg) (m : MReg) (ka kb : Bool) (s : State) : VOut := .next (s.vec2 Lane.shr w d a b m ka kb)
/-- `vsar` (R245). -/
def execVsar (w : BitVec 2) (d a b : VReg) (m : MReg) (ka kb : Bool) (s : State) : VOut := .next (s.vec2 Lane.sar w d a b m ka kb)
/-- `veq` (R246). -/
def execVeq (w : BitVec 2) (d : MReg) (a b : VReg) (m : MReg) (ka kb : Bool) (s : State) : VOut := .next (s.vcmp Lane.eq w d a b m ka kb)
/-- `vne` (R246). -/
def execVne (w : BitVec 2) (d : MReg) (a b : VReg) (m : MReg) (ka kb : Bool) (s : State) : VOut := .next (s.vcmp Lane.ne w d a b m ka kb)
/-- `vlt` (R246). -/
def execVlt (w : BitVec 2) (d : MReg) (a b : VReg) (m : MReg) (ka kb : Bool) (s : State) : VOut := .next (s.vcmp Lane.lt w d a b m ka kb)
/-- `vltu` (R246). -/
def execVltu (w : BitVec 2) (d : MReg) (a b : VReg) (m : MReg) (ka kb : Bool) (s : State) : VOut := .next (s.vcmp Lane.ltu w d a b m ka kb)
/-- `vle` (R246). -/
def execVle (w : BitVec 2) (d : MReg) (a b : VReg) (m : MReg) (ka kb : Bool) (s : State) : VOut := .next (s.vcmp Lane.le w d a b m ka kb)
/-- `vleu` (R246). -/
def execVleu (w : BitVec 2) (d : MReg) (a b : VReg) (m : MReg) (ka kb : Bool) (s : State) : VOut := .next (s.vcmp Lane.leu w d a b m ka kb)
/-- `vperm` (R253). -/
def execVperm (d a b : VReg) (m : MReg) (ka kb : Bool) (w : BitVec 2) (s : State) : VOut := .next (s.vperm w d a b m ka kb)
/-- `vslide` (R253). -/
def execVslide (d a b : VReg) (m : MReg) (ka kb : Bool) (w : BitVec 2) (s : State) : VOut := .next (s.vslide w d a b m ka kb)
/-- `vmerge` (R253). -/
def execVmerge (d a b : VReg) (m : MReg) (ka kb : Bool) (s : State) : VOut := .next (s.vmerge d a b m ka kb)
/-- `mand` (R254). -/
def execMand (d a b : MReg) (ka kb : Bool) (s : State) : VOut := .next (s.mop2 Alu.and d a b ka kb)
/-- `mor` (R254). -/
def execMor (d a b : MReg) (ka kb : Bool) (s : State) : VOut := .next (s.mop2 Alu.or d a b ka kb)
/-- `mxor` (R254). -/
def execMxor (d a b : MReg) (ka kb : Bool) (s : State) : VOut := .next (s.mop2 Alu.xor d a b ka kb)
/-- `mandn` (R254). -/
def execMandn (d a b : MReg) (ka kb : Bool) (s : State) : VOut := .next (s.mop2 Alu.andn d a b ka kb)
/-- `mnot` (R254). -/
def execMnot (d a : MReg) (ka : Bool) (s : State) : VOut := .next (s.mop1 (fun x => ~~~x) d a ka)
/-- `vrsum`: fn 0 .i32, 1 .i64, 2 .f32, 3 .f64; q is reserved in the integer forms (R255). -/
def execVrsum (d a : VReg) (m : MReg) (q ka : Bool) (t : BitVec 2) (s : State) : VOut :=
  .next (if t = 0 then s.reduce 32 4 (noFlags (Lane.add 32)) 0 d a m true ka
    else if t = 1 then s.reduce 64 3 (noFlags (Lane.add 64)) 0 d a m true ka
    else if t = 2 then s.reduce 32 4 Fmt.f32.addOp 0 d a m q ka
    else s.reduce 64 3 Fmt.f64.addOp 0 d a m q ka)
/-- `vrmin.f32`: +∞ when no lane takes part (R255). -/
def execVrminF32 (d a : VReg) (m : MReg) (q ka : Bool) (s : State) : VOut :=
  .next (s.reduce 32 4 (Fmt.f32.minmax false) 0x7F800000 d a m q ka)
/-- `vrmax.f32`: −∞ when no lane takes part (R255). -/
def execVrmaxF32 (d a : VReg) (m : MReg) (q ka : Bool) (s : State) : VOut :=
  .next (s.reduce 32 4 (Fmt.f32.minmax true) 0xFF800000 d a m q ka)
/-- `vrmin.i32` (R255). -/
def execVrminI32 (d a : VReg) (m : MReg) (ka : Bool) (s : State) : VOut :=
  .next (s.reduce 32 4 (noFlags (Lane.min 32)) 0x7FFFFFFF d a m true ka)
/-- `vrmax.i32` (R255). -/
def execVrmaxI32 (d a : VReg) (m : MReg) (ka : Bool) (s : State) : VOut :=
  .next (s.reduce 32 4 (noFlags (Lane.max 32)) 0x80000000 d a m true ka)
/-- `vsplat`: every lane of vd (R257). -/
def execVsplat (d a : BitVec 6) (ka : Bool) (w : BitVec 2) (s : State) : VOut :=
  .next (s.issue [.g a ka] fun s => s.updMe fun f =>
    (f.wrV (asV d) (ofLanes (splatBits w) (512 / splatBits w) fun _ => (f.rdG a).toNat)).advance)
/-- `vget.i64` reads va as a whole source (R257). -/
def execVget (d a b : BitVec 6) (ka kb : Bool) (s : State) : VOut :=
  .next (s.issue [.v (asV a) ka, .g b kb] fun s => s.retG d (s.me.rdE (asV a) (fld (s.me.rdG b) 0 3)))
/-- `vput.i64` writes one element (R257). -/
def execVput (d a b : BitVec 6) (ka kb : Bool) (s : State) : VOut :=
  .next (s.issue [.v (asV d) ka, .g a ka, .g b kb] fun s => s.updMe fun f =>
    (f.wrE (asV d) (fld (f.rdG b) 0 3) (f.rdG a)).advance)
/-- `mget` (R257). -/
def execMget (d a : BitVec 6) (ka : Bool) (s : State) : VOut :=
  .next (s.issue [.m (asM a) ka] fun s => s.retG d (s.me.rdM (asM a)))
/-- `mput`: discarded for m0 (R257). -/
def execMput (d a : BitVec 6) (ka : Bool) (s : State) : VOut :=
  .next (s.issue [.g a ka] fun s => s.updMe fun f => (f.wrM (asM d) (f.rdG a)).advance)
/-- `vfxrd`: each unmasked 32-bit lane of vd (R258). -/
def execVfxrd (d : VReg) (m : MReg) (ka : Bool) (s : State) : VOut :=
  .next (s.issue ((if masked m then [.v d ka] else []) ++ [.m m ka]) fun s => s.updMe fun f =>
    (f.wrLanes 32 d (fun i => (f.rdM m).getLsbD i) fun i => vfxLane f.vfx i).advance)
/-- `vfxwr`: bits [4:0] of each unmasked lane (R258). -/
def execVfxwr (a : VReg) (m : MReg) (ka : Bool) (s : State) : VOut :=
  .next (s.issue [.v a ka, .m m ka] fun s => s.updMe fun f =>
    ({ f with vfx := vfxSet f.vfx (fun i => (f.rdM m).getLsbD i) fun i => lane (f.rdV a) 32 i % 32 }).advance)
/-- `vfxclr` (R258). -/
def execVfxclr (m : MReg) (ka : Bool) (s : State) : VOut :=
  .next (s.issue [.m m ka] fun s => s.updMe fun f =>
    ({ f with vfx := vfxSet f.vfx (fun i => (f.rdM m).getLsbD i) fun _ => 0 }).advance)

end Sys2Proof.Machine
end

