-- ==== Sys2Proof/Machine/Engines.lean ====
section
/-! DEFINITION. Machine/Engines.lean: the copy engines: commands at issue (R311–R316), segments (R317–R325), the
side band (R326–R328), failures (R329–R331), queries and cancels (R332–R334), the end of a job (R336). A segment is
performed at its home as one event; its parts for peer chips and its side-band halves travel first (log 32). -/

namespace Sys2Proof.Machine

/-! ## Parts of a command -/

/-- The handle of R312. -/
def engHandle (tile : Nat) (core num : Nat) : Word :=
  at64 (dieOfTile tile) 40 + at64 (tileNo tile) 32 + at64 core 27 + at64 num 0

def handleTile (h : Word) : Nat := tileKey (fld h 40 1) (fld h 32 8)

/-- Element size of `xgath` and `xscat` (R315). -/
def ECmd.elem (c : ECmd) : Nat := 8 * 2 ^ fld c.w2 52 4
/-- Bytes of a command (R315). -/
def ECmd.len (c : ECmd) : Nat := if c.form = 2 ∨ c.form = 3 then fld c.w2 0 40 * c.elem else fld c.w2 0 40
/-- Blocks of the side band: 0, 16 or 32 bytes. -/
def ECmd.block (c : ECmd) : Nat := if fld c.w2 56 2 = 1 then 16 else if fld c.w2 56 2 = 2 then 32 else 0

/-- Segments of one copy (R318). -/
def ECmd.nseg (c : ECmd) : Nat := (c.len + 4095) / 4096
/-- Bytes of a segment. -/
def ECmd.segLen (c : ECmd) (seg : Nat) : Nat := min 4096 (c.len - 4096 * (seg % 2 ^ 24))
/-- Copies of the command: one, or one for each listed member of `xcopyg`. -/
def ECmd.copies (c : ECmd) : Nat := if c.form = 1 then c.members.length else 1
def ECmd.member (c : ECmd) (seg : Nat) : Nat := (c.members[seg / 2 ^ 24]?).getD 0

def ECmd.hasSeg (c : ECmd) (seg : Nat) : Bool := decide (seg / 2 ^ 24 < c.copies) && decide (seg % 2 ^ 24 < c.nseg)

/-- The segments of all member tiles of the chip of a segment that receive the same bytes: one packet serves them all (R161, R398). -/
def ECmd.siblings (c : ECmd) (seg : Nat) : List Nat :=
  if c.member seg < 2 ^ 20 then [seg]
  else (idxs c.members.length fun i => decide ((c.members[i]?).getD 0 / 2 ^ 20 = c.member seg / 2 ^ 20)).map fun i => i * 2 ^ 24 + seg % 2 ^ 24

/-- The segment that the packets for the chip of a segment name: that of the first member tile. -/
def ECmd.lead (c : ECmd) (seg : Nat) : Nat := ((c.siblings seg).head?).getD seg

/-- All segments of the command, in order. -/
def ECmd.allSegs (c : ECmd) : List Nat :=
  (List.range c.copies).flatMap fun m => (List.range c.nseg).map fun k => m * 2 ^ 24 + k

def Engine.find (e : Engine) (h : Word) : Option ECmd :=
  match e.cmds.find? fun c => decide (c.handle = h) with
  | some c => some c
  | none => e.recent.find? fun c => decide (c.handle = h)

def Engine.upd (e : Engine) (h : Word) (u : ECmd → ECmd) : Engine :=
  { e with cmds := e.cmds.map (fun c => if c.handle = h then u c else c),
           recent := e.recent.map (fun c => if c.handle = h then u c else c) }

def State.updCmd (s : State) (h : Word) (u : ECmd → ECmd) : State :=
  s.setEngine (handleTile h) ((s.engine (handleTile h)).upd h u)

/-- The job is being removed: no further segment begins and nothing is counted (R336). -/
def State.removing (s : State) (j : BitVec 12) : Bool := decide ((s.job j).state = 4)

/-! ## The checks at issue (R314–R316) -/

/-- A word in the tile window with tile 0xFF. -/
def perMember (w : Word) : Bool := inWindow w && decide (fld w 32 8 = 0xFF)

/-- Die and tile that a window word names from an issuing tile (R201). -/
def windowTile (tile : Nat) (w : Word) : Nat := if fld w 32 8 = 0xFF then tile else tileKey (fld w 40 1) (fld w 32 8)

/-- A word in the tile window that names a tile (R201). -/
def tileWord (w : Word) : Bool := inWindow w && decide (fld w 41 7 = 0) && (decide (fld w 32 8 = 0xFF) || decide (fld w 32 8 ≤ 175))

/-- The checks of R316 in order: cause and tval of the first failure. `a` is the number of the first descriptor
register. -/
def descCheck (form : BitVec 3) (a tile : Nat) (w0 w1 w2 w3 w4 : Word) : Option (Byte × Word) :=
  let copy := decide (form = 0) || decide (form = 1)
  let idx := decide (form = 2) || decide (form = 3)
  let sb := fld w2 56 2
  let e := fld w2 52 4
  let op := fld w2 48 4
  let n := fld w2 0 40
  let reg (i : Nat) : Word := BitVec.ofNat 64 (a + i)
  let side := copy && decide (sb ≠ 0)
  let addrs := [w0, w1] ++ (if side then [w3, w4] else if idx then [w3] else [])
  let each := if form = 1 then (if side then [w1, w4] else [w1]) else if form = 4 then [w0] else []
  if fld w2 58 5 ≠ 0 ∨ (!copy ∧ sb ≠ 0) ∨ (!idx ∧ e ≠ 0) ∨ (form ≠ 4 ∧ op ≠ 0) ∨ (form ≠ 1 ∧ form ≠ 4 ∧ fld w2 40 8 ≠ 0) then
    some (Cause.PERM, reg 2)
  else if !side ∧ !idx ∧ w3 ≠ 0 then some (Cause.PERM, reg 3)
  else if !side ∧ w4 ≠ 0 then some (Cause.PERM, reg 4)
  else if sb = 3 ∨ 9 < e ∨ 7 < op then some (Cause.PERM, reg 2)
  else if (copy ∧ (n < 8 ∨ 2 ^ 32 < n ∨ n % 8 ≠ 0)) ∨ (form = 4 ∧ (n < 64 ∨ 2 ^ 20 < n ∨ n % 64 ≠ 0))
      ∨ (idx ∧ (n < 1 ∨ 2 ^ 24 < n ∨ 2 ^ 32 < n * (8 * 2 ^ e))) then some (Cause.PERM, reg 2)
  else match addrs.find? beyond with
    | some x => some (Cause.PERM, x)
    | none =>
      if w0.toNat % 8 ≠ 0 then some (Cause.ALIGN, w0)
      else if w1.toNat % 8 ≠ 0 then some (Cause.ALIGN, w1)
      else if idx ∧ w3.toNat % 4 ≠ 0 then some (Cause.ALIGN, w3)
      else match each.find? fun x => !perMember x with
        | some x => some (Cause.PERM, x)
        | none =>
          if !side then none
          else if n % (if sb = 1 then 16 else 32) ≠ 0 then some (Cause.SCALESEQ, BitVec.ofNat 64 n)
          else if !tileWord w1 then some (Cause.PERM, w1)
          else if !tileWord w4 then some (Cause.PERM, w4)
          else if windowTile tile w1 ≠ windowTile tile w4 then some (Cause.PERM, w4)
          else none

/-- Member tiles of a version, as ECmd lists them: those of this chip rising, then those of peer chips, (chip + 1) × 2^20 + tile
(R322, R325). -/
def State.engMembers (s : State) (ms : List (BitVec 11 × Nat)) : List Nat :=
  let tiles : Table (BitVec 11 × Nat) := ms.foldl (fun t m => Tab.put t (m.1.toNat * 2 ^ 20 + tileOfCore m.2) (m.1, tileOfCore m.2)) []
  let here := (tiles.filter fun p => decide (p.2.1 = s.chip.chipNo)).map fun p => p.2.2
  here ++ (tiles.filter fun p => decide (p.2.1 ≠ s.chip.chipNo)).map fun p => 2 ^ 20 * (p.2.1.toNat + 1) + p.2.2

/-- The group of the command holds a committed version with a member tile (R313); none traps. -/
def State.engGroup (s : State) (form : BitVec 3) (w2 : Word) : Option (BitVec 16 × List Nat) :=
  if form = 1 ∨ form = 4 then
    let g := s.group (fld w2 40 8)
    if !g.cv ∨ (s.engMembers g.curM).isEmpty then none else some (g.cur, s.engMembers g.curM)
  else some (0, [s.myTile])

/-- The engine's inbox has room: queued and active commands below 32 (R308). -/
def State.enterCmd (s : State) (d : GReg) (form : BitVec 3) (w0 w1 w2 w3 w4 ctr : Word) (p : Option Place) (ver : BitVec 16)
    (members : List Nat) : State :=
  let t := s.myTile
  let e := s.engine t
  if 32 ≤ e.cmds.length then s.block .retry
  else
    let c := s.myCore
    let x := s.core c
    let h := engHandle t (coreNo c) x.engNum.toNat
    let each := decide (form = 1) && perMember ctr
    let cmd : ECmd := { handle := h, job := s.me.job, task := s.me.taskId, svc := s.me.svc, form := form, w0 := w0, w1 := w1,
                        w2 := w2, w3 := w3, w4 := w4, ctr := p, each := each, ver := ver, members := members, state := .queued,
                        cause := 0, counted := 0, segs := [], begun := [], parked := [], sent := [], got := [], asked := [], knows := s.me.knows }
    ((s.setCore c { x with engNum := x.engNum + 1 }).setEngine t { e with cmds := e.cmds ++ [cmd] }).retG d h

/-- A command form (R313). -/
def State.engineCmd (s : State) (form : BitVec 3) (d a b : GReg) (ka kb : Bool) : State :=
  s.issue ((List.range 5).map (fun i => Src.g (a + BitVec.ofNat 6 i) ka) ++ [.g b kb]) fun s => s.afterAcquire fun s =>
    let f := s.me
    let w (i : Nat) : Word := f.rdG (a + BitVec.ofNat 6 i)
    let ctr := f.rdG b
    let rest : State → Option Place → State := fun s p =>
      match s.engGroup form (w 2) with
      | none => s.trap Cause.PERM (w 2)
      | some (ver, ms) => s.releaseAdd 3 fun s => s.enterCmd d form (w 0) (w 1) (w 2) (w 3) (w 4) ctr p ver ms
    match descCheck form a.toNat s.myTile (w 0) (w 1) (w 2) (w 3) (w 4) with
    | some (c, t) => s.trap c t
    | none => if ctr = 0 then rest s none else s.withCounter ctr .add fun s p => rest s (some p)

/-! ## Counting, failing, ending (R319, R320, R330–R332) -/

/-- No segment of the command is left. -/
def ECmd.ended (c : ECmd) : Bool :=
  c.begun.isEmpty && (match c.state with
    | .active => decide (c.copies * c.nseg ≤ c.segs.length)
    | .queued => false
    | _ => true)

/-- A command that has ended leaves the inbox; the status of the last 128 is kept (R332). -/
def Engine.settle (e : Engine) (h : Word) : Engine :=
  match e.cmds.find? fun c => decide (c.handle = h) with
  | none => e
  | some c =>
    if c.ended then
      let c := { c with state := if c.state = .active then .done else c.state, got := [], asked := [] }
      { e with cmds := e.cmds.filter fun x => decide (x.handle ≠ h), recent := (c :: e.recent).take 128 }
    else e

/-- The number of the writes of a segment of a command: the engines' numbers lie above those of the tasks. -/
def segWriteNo (chip : BitVec 11) (h : Word) (seg : Nat) : Nat := 2 ^ 200 + chip.toNat * 2 ^ 128 + h.toNat * 2 ^ 64 + seg

/-- Bytes are added to the completion counter, or at one member's own instance of it (R319, R320, R322). Without a
counter they only show in the status (log 33). The add releases, at domain scope, the writes of the segments counted; undelivered
bytes release nothing (R319, R334). -/
def State.engCount (s : State) (c : ECmd) (member n : Nat) (segs : List Nat) : State :=
  if n = 0 ∨ s.removing c.job then s
  else
    let v := BitVec.ofNat 64 n
    let rel : Option Rel := if segs.isEmpty then none else
      some { scope := .domain, chip := s.chip.chipNo, tile := some (handleTile c.handle), knows := segs.map fun k => segWriteNo s.chip.chipNo c.handle (c.lead k) }
    match c.ctr with
    | none => s.updCmd c.handle fun c => { c with counted := c.counted + n }
    | some p =>
      if c.each then
        let off := match p with
          | .bank _ off => off
          | _ => 0
        let add : Msg := .add (.engine s.chip.chipNo c.handle) none c.job (.bank (member % 2 ^ 20) off) v rel
        if member < 2 ^ 20 then s.send add else s.toPeer (BitVec.ofNat 11 (member / 2 ^ 20 - 1)) c.job false 4 (.msg add)
      else s.send (.add (.engine s.chip.chipNo c.handle) none c.job p v rel)

/-- The bytes of the segments that will not begin are counted as undelivered (R330, R334). -/
def State.undelivered (s : State) (c : ECmd) : State :=
  let left := c.allSegs.filter fun k => !c.segs.contains k && !c.begun.contains k
  (List.range c.copies).foldl (fun s m =>
    s.engCount c ((c.members[m]?).getD 0) (((left.filter fun k => decide (k / 2 ^ 24 = m)).map c.segLen).sum) []) s

/-- The asynchronous trap of a failed command on its issuer (R331). -/
def State.engTrap (s : State) (c : ECmd) (cause : Byte) : State :=
  let k := s.homeOf c.task.key
  let f := s.frame k
  if c.w2.getLsbD 63 ∧ c.task.gen = (s.frame c.task.key).gen ∧ !f.gone then
    let tval := at64 (fld c.handle 0 41) 20 + at64 8 16 + at64 cause.toNat 8
    s.setFrame k { f with pend := f.pend ++ [{ cause := Cause.REFUSED, tval := tval, entry := none }] }
  else s

/-- The first failure decides (R330). The refusal of a peer may come after the last segment was counted. -/
def State.engFail (s : State) (h : Word) (cause : Byte) : State :=
  match (s.engine (handleTile h)).find h with
  | none => s
  | some c =>
    if c.state = .active ∨ c.state = .done then
      let s := (s.updCmd h fun c => { c with state := .failed, cause := cause }).undelivered c
      if s.removing c.job then s else s.engTrap c cause
    else s

/-- A failure fails the command. -/
def State.engFails (s : State) (h : Word) (cause : Option Byte) : State :=
  match cause with
  | some x => s.engFail h x
  | none => s

/-! ## Moves of a segment (R321–R325) -/

/-- Words to move: their source addresses, one for each member of a reduction, and the destination. -/
structure Move where
  src : List Word
  dst : Word
  deriving DecidableEq, Repr

/-- A tile-window word with tile 0xFF, as each member reads it (R317). -/
def memberVa (m : Nat) (w : Word) : Word :=
  if perMember w then putFld w 32 9 (dieOfTile m * 256 + tileNo m) else w

def ECmd.tile (c : ECmd) : Nat := handleTile c.handle

/-- The data words of a segment; `idx` are the indices of its elements. -/
def ECmd.moves (c : ECmd) (seg : Nat) (idx : List Nat) : List Move :=
  let off := 4096 * (seg % 2 ^ 24)
  let at_ (w : Word) (n : Nat) : Word := w + BitVec.ofNat 64 n
  (List.range (c.segLen seg / 8)).map fun j =>
    let o := off + 8 * j
    let el (w : Word) : Word := at_ w (c.elem * ((idx[8 * j / c.elem]?).getD 0) + o % c.elem)
    if c.form = 1 then { src := [at_ c.w0 o], dst := at_ (memberVa (c.member seg) c.w1) o }
    else if c.form = 2 then { src := [el c.w0], dst := at_ c.w1 o }
    else if c.form = 3 then { src := [at_ c.w0 o], dst := el c.w1 }
    else if c.form = 4 then { src := c.members.map fun m => at_ (memberVa m c.w0) o, dst := at_ c.w1 o }
    else { src := [at_ c.w0 o], dst := at_ c.w1 o }

/-- The scale bytes of a segment (R326). -/
def ECmd.scaleMoves (c : ECmd) (seg : Nat) : List (Word × Word) :=
  if c.block = 0 then []
  else
    let off := 4096 * (seg % 2 ^ 24) / c.block
    let w4 := if c.form = 1 then memberVa (c.member seg) c.w4 else c.w4
    (List.range (c.segLen seg / c.block)).map fun j => (c.w3 + BitVec.ofNat 64 (off + j), w4 + BitVec.ofNat 64 (off + j))

/-- Addresses of the index entries of a segment's elements (R323). -/
def ECmd.idxVas (c : ECmd) (seg : Nat) : List Word :=
  if c.form = 2 ∨ c.form = 3 then
    let first := 4096 * (seg % 2 ^ 24) / c.elem
    (List.range (c.segLen seg / c.elem)).map fun i => c.w3 + BitVec.ofNat 64 (4 * (first + i))
  else []

/-- One combine of a reduction (R324), on lanes of 32 or 64 bits. -/
def redCombine (op : Nat) (a b : Nat) : Nat :=
  let rc : Rc := { rm := 0, fz := false }
  let lt (x y : Nat) : Bool := (BitVec.ofNat 32 x).slt (BitVec.ofNat 32 y)
  match op with
  | 0 => (a + b) % 2 ^ 32
  | 1 => (a + b) % 2 ^ 64
  | 2 => (Fmt.f32.addOp rc a b).1
  | 3 => (Fmt.f64.addOp rc a b).1
  | 4 => (Fmt.f32.minmax false rc a b).1
  | 5 => (Fmt.f32.minmax true rc a b).1
  | 6 => if lt b a then b else a
  | _ => if lt a b then b else a

/-- The pairwise tree over the members, absent above the last (R325, R256). -/
def redTree (op : Nat) (xs : List Nat) : Nat :=
  let l := Nat.clog 2 xs.length
  ((tree (fun a b => (redCombine op a b, 0)) l (xs.map some ++ List.replicate (2 ^ l - xs.length) none)).1).getD 0

/-- A doubleword of a reduction: one lane of 64 bits or two of 32. -/
def redWord (op : Nat) (ws : List Word) : Word :=
  if op = 1 ∨ op = 3 then BitVec.ofNat 64 (redTree op (ws.map BitVec.toNat))
  else at64 (redTree op (ws.map fun w => fld w 0 32)) 0 + at64 (redTree op (ws.map fun w => fld w 32 32)) 32

/-! ## Access by the engine (R317, R329, R330) -/

/-- Why a segment does not go on now. -/
inductive EngStop where
  | fail (cause : Byte)
  | xlate (va : Word) (level : Nat) (write : Bool)
  | own (va : Word)
  /-- a gated bank wakes, or a bank is under change -/
  | wait
  /-- source data of a peer chip -/
  | far (chip : BitVec 11) (pa : Nat)
  deriving DecidableEq, Repr

/-- A step of a segment. -/
abbrev Eng (α : Type) := State × Except EngStop α

/-- What a read yields, as a step of a segment. -/
def Got.eng (g : Got) : Except EngStop (List Byte) :=
  match g.value with
  | .ok bs => .ok bs
  | .error c => .error (.fail c)

def State.engPlace (s : State) (c : ECmd) (write : Bool) (va : Word) : Eng Place :=
  let acc := if write then AccKind.write else AccKind.read
  if beyond va then (s, .error (.fail Cause.PERM))
  else if inWindow va then
    match s.window c.tile c.svc va { acc := acc, plain := false, size := 8 } with
    | some p => (s, .ok p)
    | none => (s, .error (.fail Cause.PERM))
  else match s.translate (tileLevels c.tile) c.job c.svc acc va with
    | (s, .ok p) => (s, .ok p)
    | (s, .perm) => (s, .error (.fail Cause.PERM))
    | (s, .noLeaf l) => (s, .error (.xlate va l write))
    | (s, .own _) => (s, .error (.own va))

/-- The place answers an engine: its bank is open and awake, its scratchpad part exists, the host is there. -/
def State.engOpen (s : State) (p : Place) : Eng Unit :=
  match p with
  | .dev _ => (s, .ok ())
  | .bank t off =>
    if !(s.tile t).bankOpen (off / 0x20000) then (s, .error (.fail Cause.PERM))
    else match s.touch p with
      | (s, true) => (s, .ok ())
      | (s, false) => (s, .error .wait)
  | .sram c off => if off < (s.core c).split.toNat * 0x4000 then (s, .ok ()) else (s, .error (.fail Cause.PERM))
  | .host _ => if s.hostUp then (s, .ok ()) else (s, .error (.fail Cause.PERM))
  | .peer .. => (s, .ok ())
  | .image .. => (s, .ok ())
  | _ => (s, .error (.fail Cause.PERM))

/-- Up to eight bytes of one doubleword, read at their home. -/
def State.engRead (s : State) (c : ECmd) (seg : Nat) (p : Place) (n : Nat) : Eng (List Byte) :=
  match s.engOpen p with
  | (s, .error e) => (s, .error e)
  | (s, .ok ()) =>
    match p with
    | .dev pa => (s, (s.devRead (tagOf c.job) pa n).eng)
    | .peer chip pa => match Tab.get? c.got (seg * 2 ^ 64 + fetchKey chip (pa / 8 * 8)) with
      | some (.ok w) => (s, .ok (((leBytes w.toNat 8).drop (pa % 8)).take n))
      | some (.err x) => (s, .error (.fail x))
      | none => (s, .error (.far chip (pa / 8 * 8)))
    | .host a => (s, if s.hostAnswers a then .ok (s.hostBytes a n) else .error (.fail Cause.PERM))
    | .image k off => (s, (s.imageGot k off n).eng)
    | p => (s, (s.localGot p n).eng)

/-- A tile-window address with tile 0xFF replaced. -/
def plainVa (tile : Nat) (w : Word) : Nat := (memberVa tile w).toNat

/-- The doublewords that a program touched hold undefined values (R313). -/
def ECmd.spoilt (c : ECmd) (va : Word) (n : Nat) : Bool :=
  c.touched.any fun x => decide (x < plainVa c.tile va + n) && decide (plainVa c.tile va < x + 8)

/-- Read the bytes at an address of a command. -/
def State.engGet (s : State) (c : ECmd) (seg : Nat) (va : Word) (n : Nat) : Eng (List Byte) :=
  match s.engPlace c false va with
  | (s, .error e) => (s, .error e)
  | (s, .ok p) => match s.engRead c seg p n with
    | (s, .ok bs) => if c.spoilt va n then (s.fresh, .ok (freeBytes s.clk.free va.toNat n)) else (s.fresh, .ok (s.view none c.knows p bs).1)
    | r => r

def State.engGets (s : State) (c : ECmd) (seg n : Nat) : List Word → Eng (List (List Byte))
  | [] => (s, .ok [])
  | va :: vas =>
    match s.engGet c seg va n with
    | (s, .error e) => (s, .error e)
    | (s, .ok bs) => match s.engGets c seg n vas with
      | (s, .error e) => (s, .error e)
      | (s, .ok r) => (s, .ok (bs :: r))

/-! ## Source and destination of a command (R313) -/

/-- The entries of the index array, as far as they can be read now. -/
def State.indices (s : State) (c : ECmd) : List Nat :=
  (List.range (fld c.w2 0 40)).filterMap fun i => match (s.engGet c 0 (c.w3 + BitVec.ofNat 64 (4 * i)) 4).2 with
    | .ok bs => some (leNat bs)
    | .error _ => none

/-- Bytes from `va` on lie among the bytes from a base on. -/
def within (tile : Nat) (va : Word) (n : Nat) (base : Word) (len : Nat) : Bool :=
  let x := plainVa tile va
  let b := plainVa tile base
  decide (x < b + len) && decide (b < x + n)

/-- The elements at the indexed side of `xgath` or `xscat`. -/
def State.amongElems (s : State) (c : ECmd) (va : Word) (n : Nat) (base : Word) : Bool :=
  (s.indices c).any fun i => within c.tile va n (base + BitVec.ofNat 64 (c.elem * i)) c.elem

/-- The bytes are of the source of the command: its data, its scales or its index array. -/
def State.inSource (s : State) (c : ECmd) (va : Word) (n : Nat) : Bool :=
  let at_ (base : Word) (len : Nat) : Bool := within c.tile va n base len
  (match c.form with
    | 2 => s.amongElems c va n c.w0 || at_ c.w3 (4 * fld c.w2 0 40)
    | 3 => at_ c.w0 c.len || at_ c.w3 (4 * fld c.w2 0 40)
    | 4 => c.members.any fun m => at_ (memberVa m c.w0) c.len
    | _ => at_ c.w0 c.len)
  || (decide (c.block ≠ 0) && at_ c.w3 (c.len / c.block))

/-- The bytes are of its destination: its data or its scales. -/
def State.inDest (s : State) (c : ECmd) (va : Word) (n : Nat) : Bool :=
  let at_ (base : Word) (len : Nat) : Bool := within c.tile va n base len
  (match c.form with
    | 1 => c.members.any fun m => decide (m < 2 ^ 20) && at_ (memberVa m c.w1) c.len
    | 3 => s.amongElems c va n c.w1
    | _ => at_ c.w1 c.len)
  || (decide (c.block ≠ 0) && (if c.form = 1 then c.members.any fun m => decide (m < 2 ^ 20) && at_ (memberVa m c.w4) (c.len / c.block)
      else at_ c.w4 (c.len / c.block)))

/-- The program touches bytes of a command that is not ended: it writes its source, or reads or writes its destination. -/
def State.touching (s : State) (c : ECmd) (va : Word) (n : Nat) (wr : Bool) : Bool :=
  (wr && s.inSource c va n) || s.inDest c va n

/-- The value at a place becomes undefined; of device memory only in a line of the job, as the effect stays within its own state (R14,
R489). -/
def State.soil (s : State) (job : BitVec 12) (p : Place) : State :=
  let bs := leBytes (Config.freeWord s.clk.free 31).toNat 8
  match p with
  | .sram c off => (s.sramPut c off bs).fresh
  | .host a => (s.hostPut a bs).fresh
  | .image k off => if (s.frame k).job = job then (s.imagePut k off bs).fresh else s
  | .dev pa => if s.lineOwner pa = some (tagOf job) then s.spoilOne p else s
  | p => s.spoilOne p

/-- Make the doubleword at an address of a command undefined. -/
def State.soilVa (s : State) (c : ECmd) (va : Word) : State :=
  match (s.engPlace c true va).2, (s.engPlace c false va).2 with
  | .ok p, _ => s.soil c.job p
  | _, .ok p => s.soil c.job p
  | _, _ => s

/-- The doublewords that the program touched are undefined again when the command ends (R313). -/
def State.soilTouched (s : State) (c : ECmd) : State := c.touched.foldl (fun s x => s.soilVa c (BitVec.ofNat 64 x)) s

/-- An access of a task of a job to a doubleword, before it is made (R313). A doubleword of a peer chip keeps its value until the
command moves it (log 32). -/
def State.touch1 (s : State) (job : BitVec 12) (tile : Nat) (va : Word) (wr : Bool) : State :=
  let hit (c : ECmd) : Bool := decide (c.job = job) && s.touching c (memberVa tile va) 8 wr
  s.engines.foldl (fun s e => match e.2.cmds.find? hit with
    | none => s
    | some c =>
      let s := s.soilVa c (memberVa tile va)
      s.setEngine e.1 { e.2 with cmds := e.2.cmds.map fun c => if hit c then { c with touched := plainVa tile va :: c.touched } else c }) s

/-- A command without further segments leaves the inbox. -/
def State.settleCmd (s : State) (h : Word) : State :=
  match (s.engine (handleTile h)).cmds.find? fun c => decide (c.handle = h) with
  | none => s
  | some c =>
    let s := if c.ended then s.soilTouched c else s
    s.setEngine (handleTile h) ((s.engine (handleTile h)).settle h)

/-- A segment ends: performed, or failed with a cause; either way its bytes are counted once (R320). -/
def State.segEnd (s : State) (h : Word) (seg : Nat) (cause : Option Byte) : State :=
  match (s.engine (handleTile h)).cmds.find? fun c => decide (c.handle = h) with
  | none => s.engFails h cause
  | some c =>
    if c.segs.contains seg then (s.engFails h cause).settleCmd h
    else
      let s := s.updCmd h fun c => { c with
        segs := c.segs ++ [seg], begun := c.begun.filter fun k => decide (k ≠ seg), parked := c.parked.filter fun k => decide (k ≠ seg),
        sent := c.sent.filter fun k => decide (k ≠ seg), got := Tab.clear c.got (seg * 2 ^ 64) ((seg + 1) * 2 ^ 64),
        asked := c.asked.filter fun k => decide (k / 2 ^ 64 ≠ seg) }
      let s := (s.engCount c (c.member seg) (c.segLen seg) (if cause.isNone then [seg] else [])).engFails h cause
      s.settleCmd h

/-! ## Moving data (R321–R326) -/

/-- The value of one move; where source and destination of the command overlap it is undefined (R313). -/
def State.moveWord (s : State) (c : ECmd) (seg : Nat) (m : Move) : Eng Word :=
  match s.engGets c seg 8 m.src with
  | (s, .error e) => (s, .error e)
  | (s, .ok bs) =>
    if m.src.any (fun w => s.inDest c w 8) || s.inSource c m.dst 8 || c.spoilt m.dst 8 then (s.fresh, .ok (Config.freeWord s.clk.free 1))
    else
      let ws := bs.map leWord
      (s, .ok (if c.form = 4 then redWord (fld c.w2 48 4) ws else ws.headD 0))

/-- Values and destinations of the moves. -/
def State.moveWords (s : State) (c : ECmd) (seg : Nat) : List Move → Eng (List (Place × List Byte))
  | [] => (s, .ok [])
  | m :: ms =>
    match s.moveWord c seg m with
    | (s, .error e) => (s, .error e)
    | (s, .ok w) => match s.engPlace c true m.dst with
      | (s, .error e) => (s, .error e)
      | (s, .ok p) => match s.moveWords c seg ms with
        | (s, .error e) => (s, .error e)
        | (s, .ok r) => (s, .ok ((p, leBytes w.toNat 8) :: r))

/-- The same for scale bytes. -/
def State.moveBytes (s : State) (c : ECmd) (seg : Nat) : List (Word × Word) → Eng (List (Place × List Byte))
  | [] => (s, .ok [])
  | (a, b) :: ms =>
    match s.engGet c seg a 1 with
    | (s, .error e) => (s, .error e)
    | (s, .ok bs) => match s.engPlace c true b with
      | (s, .error e) => (s, .error e)
      | (s, .ok p) => match s.moveBytes c seg ms with
        | (s, .error e) => (s, .error e)
        | (s, .ok r) =>
          let torn := s.inDest c a 1 || s.inSource c b 1 || c.spoilt b 1
          (s, .ok ((p, if torn then freeBytes s.clk.free b.toNat 1 else bs) :: r))

/-- Where two elements of `xscat` name the same doubleword, which of them it holds has no stated choice (R323). -/
def anyRival (seed : Nat) (ws : List (Place × List Byte)) : List (Place × List Byte) :=
  ws.map fun w =>
    let rivals := ws.zipIdx.filter fun x => decide (x.1.1 = w.1)
    match rivals[Config.freeNat seed ((rivals.head?.map (·.2)).getD 0) % rivals.length]? with
    | some x => x.1
    | none => w

/-- A place and the one that follows it in the same line. -/
def Place.follows (p q : Place) (n : Nat) : Bool :=
  decide (p.plus n = q) && match p, q with
    | .dev a, .dev b => decide (a / 64 = b / 64)
    | .peer _ a, .peer _ b => decide (a / 64 = b / 64)
    | .host a, .host b => decide (a / 64 = b / 64)
    | .bank _ a, .bank _ b => decide (a / 64 = b / 64)
    | .sram _ a, .sram _ b => decide (a / 64 = b / 64)
    | .image _ a, .image _ b => decide (a / 64 = b / 64)
    | _, _ => false

/-- Consecutive writes to one line go as one (R392). -/
def runsOf : List (Place × List Byte) → List (Place × List Byte)
  | [] => []
  | (p, bs) :: ws =>
    match runsOf ws with
    | (q, cs) :: rs => if p.follows q bs.length then (p, bs ++ cs) :: rs else (p, bs) :: (q, cs) :: rs
    | [] => [(p, bs)]

/-- One write at its home on this chip, but for what R340 says of counters; of a removed job it is refused (R469). -/
def State.engSet (s : State) (job : BitVec 12) (p : Place) (bs : List Byte) : Eng Unit :=
  if (s.job job).removed then (s, .error (.fail Cause.PERM))
  else match s.engOpen p with
  | (s, .error e) => (s, .error e)
  | (s, .ok ()) =>
    match p with
    | .dev pa => match s.devWrites (tagOf job) 2 pa bs with
      | (s, true) => (s, .ok ())
      | (s, false) => (s, .error (.fail Cause.PERM))
    | .host a => (s.hostPut a bs, .ok ())
    | .image k off => (s.imagePut k off bs, .ok ())
    | p => (s.localPut p bs, .ok ())

/-- One write at its home on this chip: counters among its bytes become undefined (R340). -/
def State.engPut (s : State) (job : BitVec 12) (p : Place) (bs : List Byte) : Eng Unit :=
  match s.engSet job p bs with
  | (s, .ok ()) => (s.spoil p bs.length, .ok ())
  | r => r

/-- The same with the number of its segment, on the record of its locations (R365). -/
def State.engWrite (s : State) (w : WNo) (job : BitVec 12) (p : Place) (bs : List Byte) : Eng Unit :=
  match s.engPut job p bs with
  | (t, .ok ()) => (s.recorded t w false p bs, .ok ())
  | r => r

/-- Perform writes; those performed stand, and the first failure is told (R330). -/
def State.engPuts (s : State) (w : WNo) (job : BitVec 12) : List (Place × List Byte) → Eng Unit
  | [] => (s, .ok ())
  | (p, bs) :: ws =>
    match s.engWrite w job p bs with
    | (s, .ok ()) => s.engPuts w job ws
    | (s, .error e) => ((s.engPuts w job ws).1, .error e)

/-- The engine's writes show in its own tile's way copies: its count releases them to the tasks of its tile (R319,
R355). -/
def State.showWrites (s : State) (t : Nat) (ws : List (Place × List Byte)) : State :=
  ws.foldl (fun s w => match w.1 with
    | .dev pa => s.patchWay t pa w.2
    | _ => s) s

/-- No write of the list must wait for its bank. -/
def State.engAwake (s : State) : List (Place × List Byte) → State × Bool
  | [] => (s, true)
  | (p, _) :: ws =>
    match s.engOpen p with
    | (s, .error .wait) => (s, false)
    | (s, _) => s.engAwake ws

/-! ## Performing a segment (R319, R326, R329) -/

def Place.isPeer : Place → Bool
  | .peer .. => true
  | _ => false

def State.beginSeg (s : State) (h : Word) (seg : Nat) : State :=
  s.updCmd h fun c => { c with begun := if c.begun.contains seg then c.begun else c.begun ++ [seg] }

/-- A segment that stops: it fails, parks, waits or asks a peer for its data. -/
def State.segStop (s : State) (c : ECmd) (seg : Nat) (e : EngStop) : Host.Outcome State Fault Refusal :=
  let h := c.handle
  match e with
  | .fail x => .next ((s.beginSeg h seg).segEnd h seg (some x))
  | .xlate va l w =>
    .next (((s.beginSeg h seg).updCmd h fun c => { c with parked := c.parked ++ [seg] }).parkXlate
      (.segment h seg) (if w then 5 else 4) c.tile 0 c.job va l)
  | .own va =>
    .next (((s.beginSeg h seg).updCmd h fun c => { c with parked := c.parked ++ [seg] }).parkOwn (.segment h seg) c.tile c.job va)
  | .wait => .next s
  | .far chip pa =>
    let key := seg * 2 ^ 64 + fetchKey chip pa
    if c.asked.contains key then .next s
    else .next (((s.beginSeg h seg).updCmd h fun c => { c with asked := c.asked ++ [key] }).toPeer chip c.job false 1
      (.msg (.read c.task c.job (.peer chip pa) 8 (.engine h key) c.knows)))

/-- Link packets of a segment that are not yet acknowledged (R420). -/
def State.segOut (s : State) (h : Word) (seg : Nat) : Bool :=
  let seg := match (s.engine (handleTile h)).find h with
    | some c => c.lead seg
    | none => seg
  let mine (p : Packet) : Bool := match p.body with
    | .bulk x k .. => decide (x = h) && decide (k = seg)
    | .multi c => decide (c.handle = h) && decide (c.seg = seg)
    | _ => false
  s.fab.streams.any fun x => x.2.unsent.any mine || x.2.resend.any mine || x.2.out.any mine

/-- The writes of a segment: those here are performed, those for peers leave as bulk packets, and a segment with none
for peers ends. -/
def State.segWrite (s : State) (c : ECmd) (seg : Nat) (ws : List (Place × List Byte)) : Host.Outcome State Fault Refusal :=
  let h := c.handle
  let runs := runsOf ws
  let far := runs.filter fun w => w.1.isPeer
  match s.engAwake runs with
  | (s, false) => .next s
  | (s, true) =>
    match (s.beginSeg h seg).engPuts { id := segWriteNo s.chip.chipNo h seg, knows := c.knows } c.job (runs.filter fun w => !w.1.isPeer) with
    | (s, .error (.fail x)) => .next (s.segEnd h seg (some x))
    | (s, .error _) => .next s
    | (s, .ok ()) =>
      let s := s.showWrites c.tile runs
      if far.isEmpty then .next (s.fresh.segEnd h seg none)
      else
        let s := far.foldl (fun s w => match w.1 with
          | .peer chip pa => s.toPeer chip c.job true 7 (.bulk h seg pa w.2 c.knows)
          | _ => s) s
        .next (s.fresh.updCmd h fun c => { c with sent := c.sent ++ [seg] })

/-- Bytes cut at the lines of their destination, with the offset of each part (R392). -/
def cutLines (off : Nat) (bs : List Byte) : List (Nat × List Byte) :=
  (List.range ((off % 64 + bs.length + 63) / 64)).map fun i =>
    let lo := 64 * i - off % 64
    (off + lo, (bs.drop lo).take (if i = 0 then 64 - off % 64 else 64))

/-- The packets of an `xcopyg` segment for a peer chip; with a side band those of its two labelled halves (R322, R326, R398). -/
def ECmd.packets (c : ECmd) (seg : Nat) (bs sc : List Byte) : List Copy :=
  let part (off : Nat) (bs : List Byte) (part : Option (Bool × Nat)) : List Copy := (cutLines off bs).map fun x =>
    { handle := c.handle, seg := c.lead seg, g := fld c.w2 40 8, ver := c.ver, svc := c.svc, off := x.1, bytes := x.2, part := part,
      cmd := (c.len, c.block), knows := c.knows }
  let soff := fld c.w4 0 32 + (if c.block = 0 then 0 else 4096 * (seg % 2 ^ 24) / c.block)
  part (fld c.w1 0 32 + 4096 * (seg % 2 ^ 24)) bs (if c.block = 0 then none else some (false, bs.length)) ++ part soff sc (some (true, sc.length))

/-- An `xcopyg` segment leaves for a peer chip, once for all its member tiles there (R322, R398). -/
def State.segFar (s : State) (c : ECmd) (seg : Nat) (bs sc : List Byte) : State :=
  let chip := BitVec.ofNat 11 (c.member seg / 2 ^ 20 - 1)
  let s := (c.siblings seg).foldl (fun s k => s.beginSeg c.handle k) s
  let s := (c.packets seg bs sc).foldl (fun s x => s.toPeer chip c.job true 7 (.multi x)) s
  s.fresh.updCmd c.handle fun c => { c with sent := c.sent ++ c.siblings seg }

/-- The two halves of a side-band segment leave for the destination tile (R326). -/
def State.segHalves (s : State) (c : ECmd) (seg : Nat) (ws sc : List (Place × List Byte)) : State :=
  let h := c.handle
  let dest := match ws.head? with
    | some (.bank t _, _) => t
    | some (.sram k _, _) => tileOfCore k
    | some (.image k _, _) => tileOfCore (coreOfFrame k)
    | _ => c.tile
  let half (scale : Bool) (n : Nat) (w : List (Place × List Byte)) : Msg :=
    .half { dest := dest, handle := h, seg := seg, scale := scale, len := n, since := 0, writes := runsOf w, knows := c.knows }
  (((s.beginSeg h seg).updCmd h fun c => { c with sent := c.sent ++ [seg] }).sendAll
    [half false (c.segLen seg) ws, half true sc.length sc]).fresh

/-- Source bytes only, for members on a peer chip. -/
def State.segBytes (s : State) (c : ECmd) (seg : Nat) : Eng (List Byte × List Byte) :=
  match s.engGets c seg 8 ((c.moves seg []).flatMap Move.src) with
  | (s, .error e) => (s, .error e)
  | (s, .ok bs) => match s.engGets c seg 1 ((c.scaleMoves seg).map (·.1)) with
    | (s, .error e) => (s, .error e)
    | (s, .ok sc) => (s, .ok (bs.flatten, sc.flatten))

/-- Perform one segment of a command. -/
def State.segRun (s : State) (c : ECmd) (seg : Nat) : Host.Outcome State Fault Refusal :=
  if c.form = 4 ∧ c.members.any (fun m => decide (2 ^ 20 ≤ m)) then .next ((s.beginSeg c.handle seg).segEnd c.handle seg (some Cause.PERM))
  else if c.form = 1 ∧ 2 ^ 20 ≤ c.member seg then
    match s.segBytes c seg with
    | (s, .error e) => s.segStop c seg e
    | (s, .ok (bs, sc)) => .next (s.segFar c seg bs sc)
  else match s.engGets c seg 4 (c.idxVas seg) with
    | (s, .error e) => s.segStop c seg e
    | (s, .ok idx) =>
      let ms := c.moves seg (idx.map leNat)
      match s.moveWords c seg ms with
      | (s, .error e) => s.segStop c seg e
      | (s, .ok ws) =>
        let ws := if c.form = 3 then anyRival s.clk.free ws else ws
        match s.moveBytes c seg (c.scaleMoves seg) with
        | (s, .error e) => s.segStop c seg e
        | (s, .ok sc) => if c.block = 0 then s.segWrite c seg ws else .next (s.segHalves c seg ws sc)

/-- ENGINE_SEGMENT_COMPLETE: an active command's segment is performed, or one on its way has been acknowledged. A
failed, cancelled or removed command begins none (R330, R334, R336). -/
def State.segment (s : State) (tile : Nat) (h : Word) (seg : Nat) : Host.Outcome State Fault Refusal :=
  match (s.engine tile).cmds.find? fun c => decide (c.handle = h) with
  | none => .next s
  | some c =>
    if !c.hasSeg seg || c.segs.contains seg || c.parked.contains seg || decide (c.state = .queued) then .next s
    else if c.sent.contains seg then
      .next (if c.block ≠ 0 ∧ c.member seg < 2 ^ 20 ∨ s.segOut h seg then s else s.segEnd h seg none)
    else if c.begun.contains seg || (decide (c.state = .active) && !s.removing c.job) then s.segRun c seg
    else .next s

/-! ## Bulk streams at their destination (R408, R420) -/

/-- A bulk seq is marked accepted; the base passes every marked seq. -/
def advanceMap : Nat → BitVec 48 → BitVec 1024 → BitVec 48 × BitVec 1024
  | 0, b, m => (b, m)
  | n + 1, b, m => if m.getLsbD 0 then advanceMap n (b + 1) (m >>> 1) else (b, m)

def PairStream.markBulk (x : PairStream) (seq : BitVec 48) : PairStream :=
  let m := setBit x.rxMap (seq - x.rxBase).toNat true
  let r := advanceMap 1024 x.rxBase m
  { x with rxBase := r.1, rxMap := r.2, ackDue := true }

def State.markBulk (s : State) (src : BitVec 11) (seq : BitVec 48) : State := s.setStream src ((s.stream src).markBulk seq)

/-- A refusal is not acknowledged yet by the chip that it was told. -/
def PairStream.telling (x : PairStream) (m : Msg) : Bool := (x.unsent ++ x.resend ++ x.out).any fun q => decide (q.body = .msg m)

/-- Bulk packets that are over at every member tile, and whose refusals have been heard, are acknowledged (R420). -/
def PairStream.settled (x : PairStream) : PairStream :=
  let ended (t : BulkTodo) : Bool := t.tiles.isEmpty && !t.told.any x.telling
  { ((x.todo.filter ended).foldl (fun x t => x.markBulk t.seq) x) with todo := x.todo.filter fun t => !ended t }

def State.settleBulk (s : State) (src : BitVec 11) : State := s.setStream src (s.stream src).settled

/-- A bulk packet waits: for its write at some tiles, and until its chip has heard some refusals. -/
def State.awaitBulk (s : State) (src : BitVec 11) (seq : BitVec 48) (tiles : List Nat) (told : List Msg) : State :=
  let x := s.stream src
  let todo := if x.todo.any (fun t => decide (t.seq = seq)) then
      x.todo.map fun t => if t.seq = seq then { t with tiles := t.tiles ++ tiles, told := t.told ++ told } else t
    else x.todo ++ [{ seq := seq, tiles := tiles, told := told }]
  s.setStream src { x with todo := todo }

/-- A bulk packet's write is over at a tile. -/
def State.tileDone (s : State) (src : BitVec 11) (tile : Nat) (seq : BitVec 48) : State :=
  let x := s.stream src
  (s.setStream src { x with todo := x.todo.map fun t => if t.seq = seq then { t with tiles := t.tiles.filter fun u => decide (u ≠ tile) } else t }).settleBulk src

/-- A refusal of bulk packets is told to the chip that sent them; they are acknowledged only after it (R330, R420). -/
def State.tellBulk (s : State) (src : BitVec 11) (job : BitVec 12) (seqs : List (BitVec 48)) (m : Msg) : State :=
  seqs.foldl (fun s q => s.awaitBulk src q [] [m]) (s.toPeer src job false 8 (.msg m))

/-- Bytes of a command were refused at a chip: the segments of its member tiles there end (R330). -/
def State.copyRefused (s : State) (h : Word) (seg : Nat) (chip : BitVec 11) (tile : Option Nat) (cause : Byte) : State :=
  match (s.engine (handleTile h)).find h with
  | none => s
  | some c => ((c.siblings seg).filter fun k => decide (c.member k / 2 ^ 20 = chip.toNat + 1) && (match tile with
      | some t => decide (c.member k % 2 ^ 20 = t)
      | none => true)).foldl (fun s k => s.segEnd h k (some cause)) s

/-! ## The pairing unit (R326–R328) -/

def Half.partner (h g : Half) : Bool :=
  decide (h.handle = g.handle) && decide (h.seg = g.seg) && decide (h.scale ≠ g.scale)
    && decide (h.origin.map (fun o => o.1) = g.origin.map fun o => o.1)

/-- A half is over: performed, or failed with a cause. Of one from a peer chip the seqs are acknowledged, and a failure told
(R420). -/
def State.halfEnd (s : State) (h : Half) (cause : Option Byte) : State :=
  match h.origin with
  | none => s.segEnd h.handle h.seg cause
  | some (chip, job, seqs) =>
    let s := match cause with
      | some x => s.tellBulk chip job seqs (.copyRefused h.handle h.seg s.chip.chipNo (some h.dest) x)
      | none => s
    seqs.foldl (fun s q => s.tileDone chip h.dest q) s

/-- The label of a half is wrong (R328): k beyond the last segment of a command of some bytes and block, another length than k requires. -/
def Half.misfit (h : Half) (len block : Nat) : Bool :=
  let k := h.seg % 2 ^ 24
  let n := min 4096 (len - 4096 * k)
  decide (len ≤ 4096 * k) || decide (h.len ≠ if h.scale then n / block else n)

/-- What a half meets before the pairing unit: its job, and the cause that fails it; none for a command that is not held. -/
def State.halfCheck (s : State) (h : Half) : Option (BitVec 12 × Option Byte) :=
  match h.origin with
  | some (chip, job, _) =>
    some (job, if (s.engine h.dest).paired.contains (chip, h.handle, h.seg) || h.misfit h.cmd.1 h.cmd.2 then some Cause.SCALESEQ else none)
  | none => match (s.engine (handleTile h.handle)).cmds.find? fun c => decide (c.handle = h.handle) with
    | none => none
    | some c => some (c.job, if c.segs.contains h.seg || !c.hasSeg h.seg || h.misfit c.len c.block then some Cause.SCALESEQ else none)

/-- The pair is performed together, or fails. -/
def State.pairEnd (s : State) (h g : Half) (cause : Option Byte) : State :=
  let s := s.halfEnd h cause
  if g.origin.isSome then s.halfEnd g none else s

/-- The chip of the engine that sent a half. -/
def State.halfChip (s : State) (h : Half) : BitVec 11 := (h.origin.map fun o => o.1).getD s.chip.chipNo

/-- Both halves are here: they are performed together (R326). -/
def State.performPair (s : State) (n : Nat) (job : BitVec 12) (h g : Half) : State :=
  match s.engAwake (h.writes ++ g.writes) with
  | (s, false) => s
  | (s, true) =>
    let x := s.engine h.dest
    let s := (s.dropMsg n).setEngine h.dest { x with
      pairing := x.pairing.filter (fun x => !h.partner x), paired := if h.origin.isSome then (s.halfChip h, h.handle, h.seg) :: x.paired else x.paired }
    match s.engPuts { id := segWriteNo (s.halfChip h) h.handle h.seg, knows := h.knows } job (h.writes ++ g.writes) with
    | (s, .ok ()) => (if h.origin.isNone then s.showWrites (handleTile h.handle) (h.writes ++ g.writes) else s).pairEnd h g none
    | (s, .error (.fail x)) => s.pairEnd h g (some x)
    | (s, .error _) => s.pairEnd h g (some Cause.PERM)

/-- A half that found no room is returned to its engine, which on a peer chip still holds its packets (R327). -/
def State.returnHalf (s : State) (h : Half) : State :=
  match h.origin with
  | some (chip, job, _) => s.toPeer chip job false 8 (.msg (.halfBack h.handle h.seg s.chip.chipNo job h.scale))
  | none =>
    let t := handleTile h.handle
    s.setEngine t { s.engine t with resend := (s.engine t).resend ++ [h] }

/-- A half comes back from a peer chip. -/
def State.halfBack (s : State) (h : Word) (seg : Nat) (chip : BitVec 11) (job : BitVec 12) (scale : Bool) : State :=
  let t := handleTile h
  let x : Half := { dest := t, handle := h, seg := seg, scale := scale, len := 0, since := s.clk.cycle, writes := [], origin := some (chip, job, []) }
  s.setEngine t { s.engine t with resend := (s.engine t).resend ++ [x] }

/-- A returned half goes again; the packets of one for a peer chip are those that the stream still holds. -/
def State.sendHalf (s : State) (h : Half) : State :=
  match h.origin with
  | none => s.send (.half h)
  | some (chip, _, _) =>
    let x := s.stream chip
    let mine (q : Packet) : Bool := (match q.body with
      | .multi c => decide (c.handle = h.handle) && decide (c.seg = h.seg) && decide (c.part.map (·.1) = some h.scale)
      | _ => false) && !x.resend.any fun r => decide (r.seq = q.seq) && r.bulk
    s.setStream chip { x with resend := x.resend ++ (x.out.filter mine).map fun q => { q with back := true } }

/-- A half arrives. One that finds no room goes back to its engine (R327). -/
def State.halfArrives (s : State) (n : Nat) : State :=
  match s.net[n]? with
  | some (.half h) =>
    match s.halfCheck h with
    | none => s.dropMsg n
    | some (job, bad) =>
      if s.removing job then (s.dropMsg n).halfEnd h none
      else match bad with
        | some x => (s.dropMsg n).halfEnd h (some x)
        | none =>
          let e := s.engine h.dest
          match e.pairing.find? h.partner with
          | some g => s.performPair n job h g
          | none =>
            let h := { h with since := s.clk.cycle }
            let s := s.dropMsg n
            if e.pairing.length < 16 then s.setEngine h.dest { e with pairing := e.pairing ++ [h] } else s.returnHalf h
  | _ => s

/-! ## Copies for this chip from an engine of another (R322, R326, R398) -/

/-- Where bytes for an offset of a member tile go (R201). -/
def State.copyPlace (s : State) (t : Nat) (c : Copy) : Option Place :=
  s.windowRow false t c.off c.svc { acc := .write, plain := false, size := 8 }

def Copy.sameHalf (c d : Copy) : Bool :=
  decide (c.handle = d.handle) && decide (c.seg = d.seg) && decide (c.tile = d.tile) && decide (c.part = d.part)

/-- The parts of a half are all here: the half goes to the pairing unit of its tile. -/
def State.gather (s : State) (src : BitVec 11) (job : BitVec 12) (t : Nat) (c : Copy) (scale : Bool) (len : Nat) : State :=
  let mine (m : Msg) : Bool := match m with
    | .copies x _ _ d => decide (x = src) && c.sameHalf d
    | _ => false
  let parts := (s.net.filter mine).filterMap fun m => match m with
    | .copies _ q _ d => some (q, d)
    | _ => none
  if (parts.map fun x => x.2.bytes.length).sum < len then s
  else
    let writes := parts.filterMap fun x => (s.copyPlace t x.2).map fun p => (p, x.2.bytes)
    let seqs := parts.map (·.1)
    let s := { s with net := s.net.filter fun m => !mine m }
    let h : Half := { dest := t, handle := c.handle, seg := c.seg, scale := scale, len := len, since := 0, writes := writes,
                      origin := some (src, job, seqs), cmd := c.cmd, knows := c.knows }
    if writes.length < parts.length then s.halfEnd h (some Cause.PERM) else s.send (.half h)

/-- The bytes of a bulk packet for a member tile are held here: on their way, or in a half (R420). -/
def State.heldFor (s : State) (src : BitVec 11) (seq : BitVec 48) (t : Nat) : Bool :=
  let inHalf (h : Half) : Bool := decide (h.dest = t) && (match h.origin with
    | some (c, _, qs) => decide (c = src) && qs.contains seq
    | none => false)
  (s.engine t).pairing.any inHalf || s.net.any fun m => match m with
    | .copies c q _ d => decide (c = src) && decide (q = seq) && decide (d.tile = some t)
    | .half h => inHalf h
    | _ => false

/-- The receiving chip replicates a packet for the member tiles at which its write is still to be performed (R161, R398). -/
def State.spread (s : State) (src : BitVec 11) (seq : BitVec 48) (job : BitVec 12) (c : Copy) : State :=
  let left := ((s.stream src).todo.filter fun t => decide (t.seq = seq)).flatMap BulkTodo.tiles
  s.sendAll ((left.filter fun t => !s.heldFor src seq t).map fun t => .copies src seq job { c with tile := some t })

/-- A packet with bytes of a multicast segment: it waits until this chip holds the version, a stale one is refused; else it is
replicated, and its bytes are written at each member tile when the bank is awake, or refused (R161, R208, R330); the seq is
acknowledged only when all are over (R420). -/
def State.copyStep (s : State) (n : Nat) : State :=
  match s.net[n]? with
  | some (.copies src seq job c) =>
    match c.tile with
    | none => (match s.classify c.g c.ver with
      | .later => s
      | .stale =>
        let x := s.group c.g
        ((s.dropMsg n).setGroup c.g { x with err := x.err ||| 8 }).tellBulk src job [seq] (.copyRefused c.handle c.seg s.chip.chipNo none Cause.REFUSED)
      | .members ms => (((s.dropMsg n).awaitBulk src seq (ms.map tileOfCore).dedup []).settleBulk src).spread src seq job c)
    | some t =>
      let fail (s : State) (x : Byte) : State :=
        ((s.dropMsg n).tellBulk src job [seq] (.copyRefused c.handle c.seg s.chip.chipNo (some t) x)).tileDone src t seq
      match c.part with
      | some (scale, len) => s.gather src job t c scale len
      | none => match s.copyPlace t c with
        | none => fail s Cause.PERM
        | some p => match s.engWrite { id := segWriteNo src c.handle c.seg, knows := c.knows } job p c.bytes with
          | (s, .ok ()) => (s.dropMsg n).tileDone src t seq
          | (s, .error .wait) => s
          | (s, .error _) => fail s Cause.PERM
  | _ => s

/-! ## Query and cancel (R332–R334) -/

/-- The status word of R332; 0 for a command that is not held or of another job. -/
def State.engStatus (s : State) (job : BitVec 12) (h : Word) : Word :=
  match (s.engine (handleTile h)).find h with
  | none => 0
  | some c =>
    if c.job ≠ job then 0
    else
      let st := match c.state with
        | .queued => 1
        | .active => if c.parked.isEmpty then 2 else 3
        | .done => 4
        | .failed => 5
        | .cancelled => 6
      at64 st 61 + at64 (if c.state = .failed then c.cause.toNat % 32 else 0) 56 + at64 (c.counted % 2 ^ 40) 0

/-- Cancel (R334). -/
def State.engCancel (s : State) (job : BitVec 12) (h : Word) : State :=
  match (s.engine (handleTile h)).cmds.find? fun c => decide (c.handle = h) with
  | none => s
  | some c =>
    if c.job = job ∧ (c.state = .queued ∨ c.state = .active) then
      ((s.updCmd h fun c => { c with state := .cancelled }).undelivered c).settleCmd h
    else s

/-- `xstat` and `xcancel`: a query on its way to the engine (R332, R333). -/
def State.engQuery (s : State) (cancel : Bool) (d a : GReg) (ka : Bool) : State :=
  s.issue [.g a ka] fun s => s.afterAcquire fun s =>
    let h := s.me.rdG a
    if cancel ∧ 175 < fld h 32 8 then s.trap Cause.PERM h
    else
      let id := s.me.taskId
      let job := s.me.job
      ((s.updMe fun f => f.emptyG d).send (.engQuery id job h cancel (.g d))).next

/-! ## The meanings -/

abbrev EgOut := Host.Outcome State Fault Refusal

/-- `xcopy` (R313, R321). -/
def execXcopy (d a b : GReg) (ka kb : Bool) (s : State) : EgOut := .next (s.engineCmd 0 d a b ka kb)
/-- `xcopyg` (R313, R322). -/
def execXcopyg (d a b : GReg) (ka kb : Bool) (s : State) : EgOut := .next (s.engineCmd 1 d a b ka kb)
/-- `xgath` (R313, R323). -/
def execXgath (d a b : GReg) (ka kb : Bool) (s : State) : EgOut := .next (s.engineCmd 2 d a b ka kb)
/-- `xscat` (R313, R323). -/
def execXscat (d a b : GReg) (ka kb : Bool) (s : State) : EgOut := .next (s.engineCmd 3 d a b ka kb)
/-- `xred` (R313, R324). -/
def execXred (d a b : GReg) (ka kb : Bool) (s : State) : EgOut := .next (s.engineCmd 4 d a b ka kb)
/-- `xstat` (R332). -/
def execXstat (d a : GReg) (ka : Bool) (s : State) : EgOut := .next (s.engQuery false d a ka)
/-- `xcancel` (R333). -/
def execXcancel (d a : GReg) (ka : Bool) (s : State) : EgOut := .next (s.engQuery true d a ka)

/-- ENGINE_COMMAND_ACTIVATE: the earliest waiting command takes a free active place (R308). -/
def execEngineCommandActivate (tile : Nat) (s : State) : EgOut :=
  let e := s.engine tile
  .next (match e.cmds.find? fun c => decide (c.state = .queued) with
    | some c =>
      if (e.cmds.filter fun c => decide (c.state ≠ .queued)).length < 8 ∧ !s.removing c.job then
        s.updCmd c.handle fun c => { c with state := .active }
      else s
    | none => s)
/-- ENGINE_SEGMENT_COMPLETE (R319). -/
def execEngineSegmentComplete (tile : Nat) (num : BitVec 27) (core : BitVec 5) (seg : Nat) (s : State) : EgOut :=
  s.segment tile (engHandle tile core.toNat num.toNat) seg
/-- SIDEBAND_HALF_ARRIVAL: a half, or a part of one or of a plain copy that came from another chip (R322, R326–R328). -/
def execSidebandHalfArrival (n : Nat) (s : State) : EgOut :=
  .next (match s.net[n]? with
    | some (.copies ..) => s.copyStep n
    | _ => s.halfArrives n)
/-- SIDEBAND_HALF_RESEND: a half that was not accepted goes again after 256 cycles (R327). -/
def execSidebandHalfResend (tile idx : Nat) (s : State) : EgOut :=
  let e := s.engine tile
  .next (match e.resend[idx]? with
    | some h =>
      if 256 ≤ s.clk.cycle - h.since then (s.setEngine tile { e with resend := dropAt e.resend idx }).sendHalf h else s
    | none => s)
/-- SIDEBAND_PAIR_TIMEOUT: a half has waited 65,536 cycles for its partner (R328). -/
def execSidebandPairTimeout (tile idx : Nat) (s : State) : EgOut :=
  let e := s.engine tile
  .next (match e.pairing[idx]? with
    | some h =>
      if 65536 ≤ s.clk.cycle - h.since then
        (s.setEngine tile { e with pairing := dropAt e.pairing idx }).halfEnd h (some Cause.SCALESEQ)
      else s
    | none => s)
/-- ENGINE_STATUS_QUERY: the engine answers with the status as it stood, then cancels (R332, R333). -/
def execEngineStatusQuery (n : Nat) (s : State) : EgOut :=
  .next (match s.deliverable n with
    | some (.engQuery who job h cancel dst) =>
      let w := if 175 < fld h 32 8 then 0 else s.engStatus job h
      let s := s.swapMsg n (.reply who dst (.ok w) none none)
      if cancel ∧ fld h 32 8 ≤ 175 then s.engCancel job h else s
    | _ => s)

end Sys2Proof.Machine
end

