-- ==== Sys2Proof/Machine/System.lean ====
section
/-! DEFINITION. Machine/System.lean: control registers (R79, R437), `svc` and `tret` (R434–R436), local-SRAM split,
bank roles and power (R203–R208), translation control (R448–R451), fault records and pager notification (R446,
R447), asynchronous traps (R425, R432). -/

namespace Sys2Proof.Machine

/-! ## Local SRAM (R203, R204) -/

/-- Lines that a change of cache ways leaves: which ways they were in is free. -/
def keepSome (t : Table CLine) (lo hi seed : Nat) : Table CLine :=
  t.filter fun p => !(decide (lo ≤ p.1) && decide (p.1 < hi)) || Config.freeBool seed p.1

/-- A write to `lsplit` of a core. -/
def State.lsplitWrite (s : State) (c : Nat) (v : Word) : State :=
  let x := s.core c
  let new := fld v 0 3
  let old := x.split.toNat
  if 4 < new ∨ new = old then s
  else
    let lo := sramKey c (0x4000 * min new old)
    let hi := sramKey c (min 0x10000 (0x4000 * max new old))
    let sram := Tab.clear s.mem.sram lo hi
    let bad := s.mem.badSram.filter fun l => !(decide (lo ≤ 64 * l) && decide (64 * l < hi))
    let l1 :=
      if new = 4 then Tab.clear s.mem.l1 (l1Key c 0) (l1Key (c + 1) 0)
      else if new ≤ old then s.mem.l1
      else keepSome s.mem.l1 (l1Key c 0) (l1Key (c + 1) 0) s.clk.free
    let past := s.mem.past.filter fun x => match x.at_ with
      | .sram k _ => decide (k ≠ c)
      | _ => true
    ({ s with mem := { s.mem with sram := sram, badSram := bad, l1 := l1, past := past } }.setCore c { x with split := BitVec.ofNat 3 new }).fresh

/-! ## Victim grouping (R207) -/

/-- A write to `vgrp` keeps the fields en, val and t0–t2. -/
def State.vgrpWrite (s : State) (t : Nat) (v : Word) : State :=
  s.setTile t { s.tile t with vgrp := v &&& 0x87FFFFFF00000000#64 }

/-- The tiles that a tile's `vgrp` names, itself among them. -/
def State.vgrpSet (s : State) (t : Nat) : List Nat :=
  let v := (s.tile t).vgrp
  let d := dieOfTile t
  t :: (idxs 3 fun i => v.getLsbD (56 + i)).map fun i => tileKey d (fld v (32 + 8 * i) 8)

/-- The job of every worker core of a tile. -/
def State.tileJob (s : State) (t : Nat) : Option (BitVec 12) :=
  match (s.core (t * 32)).job with
  | some j => if (List.range 31).all fun n => decide ((s.core (t * 32 + n)).job = some j) then some j else none
  | none => none

/-- Pooling is in effect. -/
def State.vgrpAct (s : State) (t : Nat) : Bool :=
  let ms := s.vgrpSet t
  ms.all fun m => (s.tile m).vgrp.getLsbD 63 && decide (dieOfTile m = dieOfTile t)
    && (s.vgrpSet m).all (fun x => ms.contains x) && ms.all (fun x => (s.vgrpSet m).contains x)
    && (s.tileJob m).isSome && decide (s.tileJob m = s.tileJob t)

/-! ## Banks (R205, R206, R208) -/

def bankOf (off : Nat) : Nat := off / 0x20000

/-- A waiter or an uncompleted `pst` depends on a word of the bank (R206). -/
def State.bankBusy (s : State) (t n : Nat) : Bool :=
  let at_ (p : Place) : Bool := match p with
    | .bank u off => decide (u = t) && decide (bankOf off = n)
    | _ => false
  (s.tile t).waiters.any (fun w => at_ w.p)
    || s.cores.any fun c => c.2.journal.any fun e => decide (e.2.state ≠ 3) && match e.2.ctr with
      | some p => at_ p
      | none => false

/-- A bank's bytes are gone, with their marks and counters: it reads zero as scratchpad. -/
def State.bankClear (s : State) (t n : Nat) : State :=
  let lo := bankKey t (0x20000 * n)
  let hi := bankKey t (0x20000 * (n + 1))
  { s with mem := { s.mem with
      bank := Tab.clear s.mem.bank lo hi, badBank := s.mem.badBank.filter fun l => !(decide (lo ≤ 64 * l) && decide (64 * l < hi)),
      past := s.mem.past.filter (fun x => match x.at_ with
        | .bank u off => !(decide (u = t) && decide (bankOf off = n))
        | _ => true),
      counters := s.mem.counters.filter fun p => match p with
        | .bank u off => !(decide (u = t) && decide (bankOf off = n))
        | _ => true } }

/-- A bank's way comes up invalid; which lines it held is free. -/
def State.wayLost (s : State) (t : Nat) : State :=
  if s.hasWay t then { s with mem := { s.mem with way := keepSome s.mem.way (wayKey t 0) (wayKey (t + 1) 0) s.clk.free } }.fresh
  else s.flushWay t

/-- One bank of a TSCTL write. -/
def State.bankWrite (s : State) (t : Nat) (v : Word) (n : Nat) : State :=
  let x := s.tile t
  let mode := v.getLsbD n
  let gate := v.getLsbD (24 + n)
  let modeCh := decide (mode ≠ x.mode.getLsbD n)
  let gating := gate && !x.gate.getLsbD n
  let waking := !gate && x.gate.getLsbD n
  if !modeCh && !gating && !waking then s
  else if s.bankBusy t n then s.setTile t { x with err := true }
  else
    let y := { x with
      mode := setBit x.mode n mode,
      gate := setBit x.gate n gate,
      changing := if modeCh || gating then x.changing ++ [n] else x.changing,
      waking := if gating then x.waking.filter (fun w => decide (w.1 ≠ n)) else if waking then x.waking ++ [(n, s.clk.cycle)] else x.waking }
    let s := s.setTile t y
    if modeCh || gating then (s.bankClear t n).wayLost t else s

/-- A write to TSCTL. -/
def State.tsctlWrite (s : State) (t : Nat) (v : Word) : State :=
  let x := s.tile t
  let s := s.setTile t { x with wlock := v.getLsbD 61, err := x.err && !v.getLsbD 62 }
  (List.range 24).foldl (fun s n => s.bankWrite t v n) s

def State.tsctlRead (s : State) (t : Nat) : Word :=
  let x := s.tile t
  at64 (b2n (!x.changing.isEmpty || !x.waking.isEmpty)) 63 + at64 (b2n x.err) 62 + at64 (b2n x.wlock) 61
    + at64 x.gate.toNat 24 + at64 x.mode.toNat 0

/-! ## Control registers (R79, R437) -/

/-- Not readable or writable outside service mode. -/
def csrRS (c : BitVec 12) : Bool := (0x010 ≤ c && c ≤ 0x011) || (0x020 ≤ c && c ≤ 0x023)

/-- The first capability record (R511). -/
def capBase : Word := 0x01FF00FFFB000000#64

/-- The value of a listed register. -/
def State.csrValue (s : State) (c : BitVec 12) : Word :=
  let f := s.me
  match c.toNat with
  | 0x000 => f.fcsr
  | 0x001 => f.vfx.extractLsb' 0 64
  | 0x002 => f.vfx.extractLsb' 64 64
  | 0x010 => (s.core s.myCore).split.setWidth 64
  | 0x011 => setBit (s.tile s.myTile).vgrp 62 (s.vgrpAct s.myTile)
  | 0x020 => f.cause
  | 0x021 => f.epc
  | 0x022 => f.tval
  | 0x023 => f.tstat
  | 0x030 => capBase
  | 0x040 => BitVec.ofNat 64 s.clk.cycle
  | 0x041 => s.clk.dtime
  | n => Tab.get (s.core s.myCore).see (n - 0x100) 0

/-- A write of a listed register, each field by its access rule. -/
def State.csrWrite (s : State) (c : BitVec 12) (v : Word) : State :=
  match c.toNat with
  | 0x000 => s.updMe fun f => { f with fcsr := fcsrWritten f.fcsr v }
  | 0x001 => s.updMe fun f => { f with vfx := putFld f.vfx 0 64 (vfxKept v).toNat }
  | 0x002 => s.updMe fun f => { f with vfx := putFld f.vfx 64 64 (vfxKept v).toNat }
  | 0x010 => s.lsplitWrite s.myCore v
  | 0x011 => s.vgrpWrite s.myTile v
  | 0x020 => s.updMe fun f => { f with cause := v &&& 0x1FF#64 }
  | 0x021 => s.updMe fun f => { f with epc := v &&& ~~~3#64 }
  | 0x022 => s.updMe fun f => { f with tval := v }
  | 0x023 => s
  | 0x030 => s
  | 0x040 => s
  | 0x041 => s
  | n =>
    let x := s.core s.myCore
    s.setCore s.myCore { x with see := Tab.put x.see (n - 0x100) v }

/-- `csrr`: outside service mode an RS register reads 0. -/
def State.csrRead (s : State) (d : GReg) (c : BitVec 12) : State :=
  s.issue [] fun s => s.retG d (if csrRS c && !s.me.svc then 0 else s.csrValue c)

/-- `csrw`, `csrset`, `csrclr`: the register before the write goes to g d. They are no privileged forms (R68), so the PERM of an
RS register outside service mode comes after the source (R66). -/
def State.csrOp (s : State) (op : Word → Word → Word) (d a : GReg) (ka : Bool) (c : BitVec 12) : State :=
  s.issue [.g a ka] fun s =>
    let old := s.csrValue c
    if csrRS c && !s.me.svc then s.trap Cause.PERM s.me.wordAddr else (s.csrWrite c (op old (s.me.rdG a))).retG d old

/-! ## Fault records (R446, R447) -/

/-- PFSTAT of a die. -/
def Die.pfstat (d : Die) : Word :=
  at64 (b2n d.dropped) 63 + at64 d.dropcount 32 + at64 (min d.pft.length 256) 16
    + at64 ((List.range 8).foldl (fun m e => if (Tab.get? d.fb e).isSome then m + 2 ^ e else m) 0) 0

/-- A write of FBCLR: entries are invalidated, and the notification is no longer outstanding. -/
def State.fbclr (s : State) (d : Nat) (v : Word) : State :=
  let x := s.die d
  s.setDie d { x with fb := x.fb.filter (fun p => !v.getLsbD p.1), notif := false }

/-- The pager notification. -/
def State.pagerNotify (s : State) (d : Nat) : State :=
  let x := s.die d
  if x.pgEn && !x.notif && (!x.fb.isEmpty || x.dropped) then
    let t := tileKey d x.pgTile.toNat
    let e : Env := { hdr := coreHdr s.chip.chipNo (svcOfTile t) + at64 x.pgClass.toNat 35 + at64 3 32, w1 := 0,
                     pl := [x.pfstat, 0, 0, 0, 0, 0], sender := .die d, task := none, job := 0, rel := none, svc := true,
                     stamp := none, row := none, stolen := none }
    (s.setDie d { x with notif := true }).send (.env e)
  else s

/-! ## Translation control (R448–R451) -/

/-- The entries that an invalidation covers: of one page of a job, of a job, or all. -/
inductive Inv where
  | page (va : Word) (job : BitVec 12)
  | job (job : BitVec 12)
  | all
  deriving DecidableEq, Repr

def Inv.covers (i : Inv) (e : Tlb) : Bool :=
  match i with
  | .page va j => decide (e.job = j) && decide (e.base = va.toNat % 2 ^ 57 / 2 ^ e.lg)
  | .job j => decide (e.job = j)
  | .all => true

def Inv.job? : Inv → Option (BitVec 12)
  | .page _ j => some j
  | .job j => some j
  | .all => none

def Inv.ofJob (i : Inv) (j : BitVec 12) : Bool :=
  match i.job? with
  | some k => decide (j = k)
  | none => true

/-- A pinned page of the trace buffer is covered: the page that maps it, of any size, contains the address (R442, R499). -/
def State.pinned (s : State) (i : Inv) : Bool :=
  s.dbg.on && i.ofJob s.dbg.job && !s.dbg.pins.isEmpty && match i with
    | .page va _ => s.dbg.pins.any fun p => decide (p.1 * 0x10000 / 2 ^ p.2.2 = fld va 0 57 / 2 ^ p.2.2)
    | _ => true

/-- The instruction-cache line was fetched for the page that an invalidation names, as far as its record tells. -/
def CLine.ofPage (l : CLine) (va : Word) : Bool :=
  match l.page with
  | some p => decide (p = fld va 26 31)
  | none => true

/-- Remove entries from every TLB, and the instruction-cache lines of the same pages and jobs; the lines of job 0 carry the device's tag
(R483). -/
def State.invalidate (s : State) (i : Inv) : State :=
  let gone := s.chip.tlb.filter i.covers
  let inPage (key : Nat) (l : CLine) : Bool := (match l.owner with
    | some (.job j) => i.ofJob j
    | some .device => i.ofJob 0
    | none => decide (i = .all)) && match i with
      | .page va _ => l.ofPage va || gone.any fun e => decide (fld e.leaf 60 2 ≠ 2) &&
          decide (leafPa e.leaf e.lg 0 / 2 ^ e.lg = 64 * (key % 2 ^ 36) / 2 ^ e.lg)
      | _ => true
  let dbg := if s.pinned i then { s.dbg with refused := satAdd s.dbg.refused 1 0xFFFF } else s.dbg
  let chip := { s.chip with tlb := s.chip.tlb.filter fun e => !i.covers e }
  { s with chip := chip, mem := { s.mem with icache := s.mem.icache.filter fun p => !inPage p.1 p.2 }, dbg := dbg }

/-- The messages in flight when the marker was set. -/
def beforeMarker (id : TaskId) : List Msg → List Msg
  | [] => []
  | m :: ms => if m = .marker id then [] else m :: beforeMarker id ms

/-- Accesses that were translated before the marker was set and are not performed yet: in flight, on their way to
a peer, queued fills, segments on their way (R449; log 34). -/
def State.unperformed (s : State) (i : Inv) : Bool :=
  let job (m : Msg) : Bool := m.place?.isSome && match m.job? with
    | some j => i.ofJob j
    | none => false
  let pk (p : Packet) : Bool := match p.body with
    | .msg m => job m
    | .bulk .. => i.ofJob p.job
    | _ => false
  (beforeMarker s.me.taskId s.net).any job
    || s.fab.streams.any (fun x => x.2.unsent.any pk || x.2.resend.any pk || x.2.out.any pk)
    || s.arrays.any (fun a => a.2.queue.any fun c => i.ofJob c.job && match c.op with
        | .fill .. => true
        | _ => false)
    || s.engines.any fun e => e.2.cmds.any fun c => i.ofJob c.job && !c.sent.isEmpty

/-- `tlbinv` and `tlbinv.all`: release, remove, then wait for the users of the removed entries (R449). -/
def State.tlbinv (s : State) (i : Inv) : State :=
  let id := s.me.taskId
  let finish : State → State := fun s =>
    if s.unperformed i then s.block .retry else { s with net := s.net.filter fun m => decide (m ≠ Msg.marker id) }.next
  if s.net.contains (.marker id) then finish s
  else s.release fun s => finish ((s.invalidate i).send (.marker id))

/-- `tlbprobe` (R450). -/
def State.probe (s : State) (job : BitVec 12) (va : Word) : Word :=
  let word (leaf : Word) (level : Nat) (hit : Bool) : Word := setBit (putFld leaf 14 2 level) 13 hit
  let walked : Word := match s.walk job va with
    | .leaf w level _ => word w level false
    | .invalid l => at64 (if l = 4 then 0 else l) 14
  match s.tlbHit (coreLevels s.myCore) job va with
  | some e => word e.leaf (if e.lg = 26 then 2 else 3) true
  | none => walked

/-- A parked posted store goes again as a whole: its address is translated and checked anew (R124, R202, R449). -/
def State.replayStore (s : State) (p : Park) (m : Msg) : State :=
  match m with
  | .store x who job _ bs pst c w =>
    let k := s.homeOf who.key
    let core := (s.frame k).coreAt k
    match s.translate (coreLevels core) job p.svc .write p.va with
    | (s, .ok q) => s.send (.store x who job q bs pst c w)
    | (s, .own q) => s.parkOwn (.store (.store x who job q bs pst c w)) (tileOfCore core) job p.va p.svc
    | (s, .noLeaf l) => s.parkXlate (.store m) 1 (tileOfCore core) (BitVec.ofNat 5 (coreNo core)) job p.va l p.svc
    | (s, .perm) => s.answer (x.chip s.chip.chipNo) job 8 (.refusal x Cause.REFUSED Cause.PERM)
  | m => s.send m

/-- `tlbreplay.all`: the accesses of the die parked under XLATE go again, and its pending-fault entries are freed. -/
def State.replay (s : State) (d : Nat) : State :=
  let mine := s.parks.filter fun p => !p.own && decide (p.die = d)
  let s := { s with parks := s.parks.filter fun p => p.own || decide (p.die ≠ d) }
  let s := s.setDie d { s.die d with pft := [] }
  mine.foldl (fun s p => match p.who with
    | .task k =>
      let f := s.frame k
      if f.wait = .xlate then s.setFrame k (s.released f) else s
    | .store m => s.replayStore p m
    | .segment h seg => s.updCmd h fun c => { c with parked := c.parked.filter fun k => decide (k ≠ seg) }) s

/-! ## The meanings -/

abbrev SyOut := Host.Outcome State Fault Refusal

/-- `csrr` (R437). -/
def execCsrr (d : GReg) (c : BitVec 12) (s : State) : SyOut := .next (s.csrRead d c)
/-- `csrw` (R437). -/
def execCsrw (d a : GReg) (ka : Bool) (c : BitVec 12) (s : State) : SyOut := .next (s.csrOp (fun _ v => v) d a ka c)
/-- `csrset` (R437). -/
def execCsrset (d a : GReg) (ka : Bool) (c : BitVec 12) (s : State) : SyOut := .next (s.csrOp (fun o v => o ||| v) d a ka c)
/-- `csrclr` (R437). -/
def execCsrclr (d a : GReg) (ka : Bool) (c : BitVec 12) (s : State) : SyOut := .next (s.csrOp (fun o v => o &&& ~~~v) d a ka c)
/-- `svc`: epc is the next instruction (R435). -/
def execSvc (a : GReg) (ka : Bool) (s : State) : SyOut :=
  .next (s.issue [.g a ka] fun s => s.trapAt Cause.SVC (s.me.rdG a) (s.me.wordAddr + 4) false)
/-- `tret` (R436). -/
def execTret (s : State) : SyOut :=
  .next (s.privileged fun s => s.issue [] fun s => if s.me.handling then s.tret else s.trap Cause.ILLEGAL 0xE8000001)
/-- `tlbinv` (R449). -/
def execTlbinv (a b : GReg) (ka kb : Bool) (s : State) : SyOut :=
  .next (s.privileged fun s => s.issue [.g a ka, .g b kb] fun s =>
    s.tlbinv (.page (s.me.rdG a) ((s.me.rdG b).setWidth 12)))
/-- `tlbinv.all` (R449). -/
def execTlbinvAll (a : GReg) (ka : Bool) (s : State) : SyOut :=
  .next (s.privileged fun s => s.issue [.g a ka] fun s =>
    s.tlbinv (if (s.me.rdG a).getLsbD 63 then .all else .job ((s.me.rdG a).setWidth 12)))
/-- `tlbprobe` (R450). -/
def execTlbprobe (d a b : GReg) (ka kb : Bool) (s : State) : SyOut :=
  .next (s.privileged fun s => s.issue [.g a ka, .g b kb] fun s =>
    let w := s.probe ((s.me.rdG b).setWidth 12) (s.me.rdG a)
    let id := s.me.taskId
    (((s.updMe fun f => f.emptyG d).send (.reply id (.g d) (.ok w) none none)).fresh).next)
/-- `tlbreplay.all` (R451). -/
def execTlbreplayAll (s : State) : SyOut :=
  .next (s.privileged fun s => s.issue [] fun s => s.release fun s => (s.replay s.myDie).next)

/-- ASYNCHRONOUS_TRAP: the oldest pending trap of the current task; its wait or parked access is withdrawn, and its
journal entry stays until `tret` (R425, R432, R215). -/
def execAsynchronousTrap (s : State) : SyOut :=
  .next (if s.asyncDue s.run.cur then
      match s.me.pend with
      | p :: ps => (s.updMe fun f => { f with pend := ps, trapEntry := p.entry }).trapAt p.cause p.tval s.me.wordAddr true
      | [] => s
    else s)

/-- LSPLIT_WRITE (R204). -/
def execLsplitWrite (core : Nat) (v : Word) (s : State) : SyOut := .next (s.lsplitWrite core v)
/-- VGRP_WRITE (R207). -/
def execVgrpWrite (tile : Nat) (v : Word) (s : State) : SyOut := .next (s.vgrpWrite tile v)
/-- FCSR_WRITE: the current task's `fcsr` (R237). -/
def execFcsrWrite (v : Word) (s : State) : SyOut := .next (s.csrWrite 0 v)
/-- TSCTL_WRITE (R206). -/
def execTsctlWrite (tile : Nat) (v : Word) (s : State) : SyOut := .next (s.tsctlWrite tile v)
/-- TSCTL_CHANGE_DONE (R206). -/
def execTsctlChangeDone (tile : Nat) (s : State) : SyOut := .next (s.setTile tile { s.tile tile with changing := [] })
/-- BANK_WAKE_DONE: 1,500 cycles after the wake began (R208). -/
def execBankWakeDone (tile bank : Nat) (s : State) : SyOut :=
  let x := s.tile tile
  .next (match x.waking.find? fun w => decide (w.1 = bank) with
    | some w =>
      if 1500 ≤ s.clk.cycle - w.2 then
        s.setTile tile { x with waking := x.waking.filter fun y => decide (y.1 ≠ bank) }
      else s
    | none => s)
/-- PAGER_NOTIFY (R447). -/
def execPagerNotify (die : Nat) (s : State) : SyOut := .next (s.pagerNotify die)
/-- FBCLR_WRITE (R446, R447). -/
def execFbclrWrite (die : Nat) (v : Word) (s : State) : SyOut := .next (s.fbclr die v)

end Sys2Proof.Machine
end

