-- ==== Sys2Proof/Machine/Debug.lean ====
section
/-! DEFINITION. Machine/Debug.lean: Eyepiece (R492–R496), trace (R497–R500), Chronograph (R501) and the debug
instructions (R503). -/

namespace Sys2Proof.Machine

/-- A counter of 64 bits that saturates (R492). -/
def satWord (w : Word) : Word := if w = BitVec.allOnes 64 then w else w + 1

def State.setDbg (s : State) (d : Debug) : State := { s with dbg := d }

/-! ## Trace (R497–R500) -/

/-- Size code of the buffer, bytes of the buffer, records it holds. -/
def Debug.lgSize (d : Debug) : Nat := min d.lg.toNat 10
def Debug.bytes (d : Debug) : Nat := 0x10000 * 2 ^ d.lgSize
def Debug.capacity (d : Debug) : Nat := d.bytes / 32
def Debug.baseVa (d : Debug) : Word := at64 d.base.toNat 16

/-- Write one record at its slot, with the open job's tag; a full buffer without wrap loses it (R499). -/
def State.writeRec (s : State) (r : Rec) : State :=
  let d := s.dbg
  let lose (s : State) : State := s.setDbg { s.dbg with lostcnt := satAdd s.dbg.lostcnt 1 0xFFFFFFFF }
  if !d.wrap && decide (d.capacity ≤ d.head.toNat) then lose (s.setDbg { d with lost := true })
  else
    let off := 32 * (d.head.toNat % d.capacity)
    match Tab.get? d.pins (d.base.toNat + off / 0x10000) with
    | none => lose s
    | some pa =>
      let bs := leBytes r.w0.toNat 8 ++ leBytes r.w1.toNat 8 ++ leBytes r.w2.toNat 8 ++ leBytes r.w3.toNat 8
      match s.devWrite (tagOf d.job) (pa.1 + off % 0x10000) bs with
      | some s => s.setDbg { s.dbg with head := satWord s.dbg.head }
      | none => lose s

/-- Write the record at the head of the queue. -/
def State.writeNext (s : State) : State :=
  match s.dbg.queue with
  | [] => s
  | r :: rs => (s.setDbg { s.dbg with queue := rs }).writeRec r

/-- An ordinary disable: every queued record is written and the pins are dropped (R500). -/
def State.traceOff (s : State) : State :=
  if s.dbg.on then
    let s := s.dbg.queue.foldl (fun s _ => s.writeNext) s
    s.setDbg { s.dbg with on := false, pins := [] }
  else s

/-- A forced release: no further record is written (R500). -/
def State.traceForce (s : State) : State :=
  if s.dbg.on then
    s.setDbg { s.dbg with on := false, pins := [], queue := [], lost := true, forced := true,
                          lostcnt := satAdd s.dbg.lostcnt s.dbg.queue.length 0xFFFFFFFF }
  else s

/-- Physical address of one page of the buffer, and log2 of the size of the page that maps it, if it may be pinned (R499). -/
def State.pinPage (s : State) (page : Nat) : Option (Nat × Nat) :=
  let va := at64 page 16
  match s.walk s.dbg.job va with
  | .leaf w _ lg => match s.leafPlace w lg va with
    | .dev pa => if w.getLsbD 58 ∧ fld w 60 2 ≠ 3 ∧ pa + 0x10000 ≤ Config.devBytes then some (pa, lg) else none
    | _ => none
  | .invalid _ => none

/-- Enable: pin every page, else pinerr; records that were lost before are told by a record of kind 8 (R499, R500). -/
def State.traceOn (s : State) : State :=
  let d := s.dbg
  if !d.open_ || d.on then s
  else
    let pages := (List.range (2 ^ d.lgSize)).map fun i => (d.base.toNat + i, s.pinPage (d.base.toNat + i))
    if d.base.toNat % 2 ^ d.lgSize ≠ 0 ∨ pages.any (fun p => p.2.isNone) then s.setDbg { d with pinerr := true }
    else
      let first : List Rec :=
        if d.lostcnt = 0 then []
        else [{ w0 := at64 8 60 + at64 s.chip.chipNo.toNat 49 + at64 d.job.toNat 11, w1 := 0, w2 := s.clk.dtime, w3 := BitVec.ofNat 64 d.lostcnt }]
      (s.setDbg { d with on := true, head := 0, forced := false, queue := first,
                         pins := pages.filterMap fun p => p.2.map fun pa => (p.1, pa) }).fresh

/-- The sample period that a cycle lies in: 2^(10 + sper) cycles each, counted from reset (R492, R497; log 47). -/
def Debug.period (d : Debug) (cycle : Nat) : Nat := cycle / 2 ^ (10 + d.sper.toNat)

/-- A write of TRCTL; `on` is ignored while open is 0 (R493). Samples begin with the present period. -/
def State.trctlWrite (s : State) (v : Word) : State :=
  let s := s.setDbg { s.dbg with wrap := v.getLsbD 61, chrono := v.getLsbD 60, samp := v.getLsbD 59, sper := v.extractLsb' 55 4 }
  let s := s.setDbg { s.dbg with sampNext := s.dbg.period s.clk.cycle }
  if s.dbg.on && v.getLsbD 62 then s.traceForce
  else if v.getLsbD 63 then s.traceOn
  else if s.dbg.open_ then s.traceOff
  else s

/-- Samples are due: those that a forced release cut off only count as lost (R500). -/
def Debug.sampling (d : Debug) : Bool := d.open_ && (d.on || d.forced) && d.samp

/-- One kind-10 record for each core with a resident frame of the open job, about the context that issued last (R497). -/
def State.sample (s : State) : State :=
  let d := s.dbg
  let last : Table (Nat × Frame) := s.frames.foldl (fun t p =>
    if p.2.resident ∧ p.2.job = d.job then
      match Tab.get? t (p.2.coreAt p.1) with
      | some (_, f) => if f.issueNo < p.2.issueNo then Tab.put t (p.2.coreAt p.1) (p.1, p.2) else t
      | none => Tab.put t (p.2.coreAt p.1) (p.1, p.2)
    else t) []
  let s := last.foldl (fun s p => s.trace 10 p.1 p.2.2 0 (at64 p.2.2.state.code 56 + at64 (fld p.2.2.wordAddr 2 55) 0)) s
  s.setDbg { s.dbg with sampNext := s.dbg.sampNext + 1 }

/-- The sample of the present period, at some point in it (R497). -/
def State.traceSample (s : State) : State :=
  if s.dbg.sampling && decide (s.dbg.sampNext ≤ s.dbg.period s.clk.cycle) then s.sample else s

/-- The samples of the periods that end before a cycle, as far as they are not taken (R497). -/
def State.catchUp (s : State) (cycle : Nat) : State :=
  if s.dbg.sampling then (List.range (s.dbg.period cycle - s.dbg.sampNext)).foldl (fun s _ => s.sample) s else s

/-! ## Stops (R494, R495) -/

/-- Frames of the open job still running; a handler counts until its `tret`. -/
def State.stopRun (s : State) : Nat :=
  (s.frames.filter fun p => decide (p.2.job = s.dbg.job) && !p.2.gone && decide (p.2.wait ≠ .halted)
    && (decide (p.2.state = .running) || p.2.handling)).length

def State.eystop (s : State) : Word :=
  at64 s.dbg.state.toNat 59 + at64 s.dbg.reason.toNat 55 + at64 (if s.dbg.open_ then min s.stopRun 65535 else 0) 0

/-- The stop is reached: state 2 and a record of kind 9, whose fields that name an activation have no stated value. -/
def State.stopDone (s : State) (reason : BitVec 4) : State :=
  let s := s.setDbg { s.dbg with state := 2, reason := reason }
  let w := Config.freeWord s.clk.free 9
  (s.record { w0 := at64 9 60 + at64 s.chip.chipNo.toNat 49 + (w &&& 0x1FFFFFF800000#64) + at64 s.dbg.job.toNat 11,
              w1 := Config.freeWord s.clk.free 10 &&& ~~~(1#64 <<< 55), w2 := s.clk.dtime, w3 := s.eystop }).fresh

def State.stopGo (s : State) : State :=
  if s.dbg.open_ ∧ s.dbg.state = 0 then s.setDbg { s.dbg with state := 1, reason := 0 } else s

def State.stopRes (s : State) : State := if s.dbg.open_ then s.setDbg { s.dbg with state := 0 } else s

/-- Force: every frame still running is evicted between two instructions (R495). -/
def State.stopForce (s : State) : State :=
  if s.dbg.open_ ∧ s.dbg.state = 1 then
    let ks := (s.frames.filter fun p => p.2.resident && decide (p.2.job = s.dbg.job)
      && (decide (p.2.state = .running) || p.2.handling)).map (·.1)
    (ks.foldl (fun s k => s.evict k) s).stopDone 1
  else s

/-- A write of EYSTOP. -/
def State.eystopWrite (s : State) (v : Word) : State :=
  let s := if v.getLsbD 63 then s.stopGo else s
  let s := if v.getLsbD 61 then s.stopForce else s
  if v.getLsbD 62 then s.stopRes else s

/-! ## EYCTL (R493, R476, R477) -/

/-- Close: any stop ends and trace is disabled. -/
def State.eyClose (s : State) : State :=
  if s.dbg.open_ then
    let s := s.stopRes.traceOff
    s.setDbg { s.dbg with open_ := false }
  else s

/-- Open debug access: measurement slot 8 is extended and every SPDM session ends. What is hashed into the slot is the
model's choice (log 35). -/
def State.eyOpen (s : State) (j : BitVec 12) : State :=
  let old := Tab.get s.sec.slots 8 0
  let slot := Config.sha512 (leBytes old.toNat 64 ++ leBytes j.toNat 2)
  let s := s.setDbg { s.dbg with open_ := true, job := j, state := 0, reason := 0 }
  { s with sec := { s.sec with slots := Tab.put s.sec.slots 8 slot, sessions := [] } }

/-- A write of EYCTL. -/
def State.eyctlWrite (s : State) (v : Word) : State :=
  let j := v.extractLsb' 0 12
  let s := if v.getLsbD 62 then s.setDbg { s.dbg with err := false } else s
  if !v.getLsbD 63 then
    let s := s.eyClose
    s.setDbg { s.dbg with job := j }
  else if s.dbg.open_ ∧ s.dbg.job = j then s
  else
    let s := s.eyClose
    if (s.jpol j).getLsbD 60 then s.eyOpen j else s.setDbg { s.dbg with job := j, err := true }

/-! ## Chronograph (R501) -/

/-- The record of a change. -/
def State.chronoRec (s : State) (p : ThrottlePlace) (cause : BitVec 4) (new old : BitVec 24) : Rec :=
  { w0 := at64 7 60 + at64 s.chip.chipNo.toNat 49 + at64 p.die.toNat 48 + at64 p.tile.toNat 40, w1 := 0, w2 := s.clk.dtime,
    w3 := at64 p.qty.toNat 60 + at64 cause.toNat 56 + at64 new.toNat 24 + at64 old.toNat 0 }

/-- A change is recorded in the ring always, and with chrono in the buffer while trace is on; after a forced release it counts as lost
there (R500). -/
def State.chronograph (s : State) (r : Rec) : State :=
  let d := s.dbg
  let s := s.setDbg { d with chrhead := satWord d.chrhead, chr := Tab.put d.chr (d.chrhead.toNat % 16) r }
  if d.chrono then s.record r else s

/-- Record CHRHEAD − 16 + e. -/
def State.chrRec (s : State) (e : Nat) : Option Rec :=
  if s.dbg.chrhead.toNat + e < 16 then none else Tab.get? s.dbg.chr ((s.dbg.chrhead.toNat + e) % 16)

/-! ## The meanings -/

abbrev DbOut := Host.Outcome State Fault Refusal

/-- `brk` (R503). -/
def execBrk (c : BitVec 25) (s : State) : DbOut :=
  .next (s.issue [] fun s =>
    (s.trace 4 s.myCore s.me 0 (c.setWidth 64)).trap Cause.BRK (c.setWidth 64))
/-- `trc` (R503). -/
def execTrc (a b : GReg) (ka kb : Bool) (s : State) : DbOut :=
  .next (s.issue [.g a ka, .g b kb] fun s => (s.trace 3 s.myCore s.me (fld (s.me.rdG b) 0 11) (s.me.rdG a)).next)
/-- `seerd` (R503). -/
def execSeerd (d a : GReg) (ka : Bool) (s : State) : DbOut :=
  .next (s.issue [.g a ka] fun s => s.retG d (Tab.get (s.core s.myCore).see (fld (s.me.rdG a) 0 6) 0))
/-- `seerd.c` (R503). -/
def execSeerdC (d a : GReg) (ka : Bool) (s : State) : DbOut :=
  .next (s.issue [.g a ka] fun s =>
    let i := fld (s.me.rdG a) 0 6
    let c := s.myCore
    let x := s.core c
    (s.setCore c { x with see := Tab.put x.see i 0, seeFull := x.seeFull.filter fun n => decide (n ≠ i) }).retG d (Tab.get x.see i 0))
/-- `dbgsync` waits for the records of its frame and generation (R503). -/
def execDbgsync (d : GReg) (s : State) : DbOut :=
  .next (s.issue [] fun s =>
    let f := s.me
    if s.dbg.queue.any fun r => decide (fld r.w0 27 8 = f.origin.frame.toNat) && decide (fld r.w1 56 8 = f.origin.gen.toNat)
    then s.block .retry else s.retG d s.dbg.head)

/-- EYCTL_WRITE (R493). -/
def execEyctlWrite (v : Word) (s : State) : DbOut := .next (s.eyctlWrite v)
/-- EYSTOP_GO (R494). -/
def execEystopGo (s : State) : DbOut := .next s.stopGo
/-- EYSTOP_RES (R494). -/
def execEystopRes (s : State) : DbOut := .next s.stopRes
/-- EYSTOP_FORCE (R495). -/
def execEystopForce (s : State) : DbOut := .next s.stopForce
/-- STOP_REACHED (R494). -/
def execStopReached (s : State) : DbOut :=
  .next (if s.dbg.open_ ∧ s.dbg.state = 1 ∧ s.stopRun = 0 then s.stopDone s.dbg.reason else s)
/-- TRACE_ENABLE: a write of TRCTL that sets on (R499). -/
def execTraceEnable (v : Word) (s : State) : DbOut := .next (s.trctlWrite (setBit (setBit v 63 true) 62 false))
/-- TRACE_DISABLE: a write of 0 to on (R500). -/
def execTraceDisable (s : State) : DbOut := .next (if s.dbg.open_ then s.traceOff else s)
/-- TRACE_FORCE_RELEASE (R500). -/
def execTraceForceRelease (s : State) : DbOut := .next s.traceForce
/-- TRACE_RECORD_WRITE (R498). -/
def execTraceRecordWrite (s : State) : DbOut := .next (if s.dbg.on then s.writeNext.fresh else s)
/-- TRACE_SAMPLE (R497). -/
def execTraceSample (s : State) : DbOut := .next s.traceSample

end Sys2Proof.Machine
end

