-- ==== Sys2Proof/Machine/Power.lean ====
section
/-! DEFINITION. Machine/Power.lean: throttling (R501, R505), clock gating (R506), scrubbing (R507, R508), power-on
reset and measured boot (R476, R509), device-fatal events (R510), the capability region (R511, R512). -/

namespace Sys2Proof.Machine

/-! ## The capability region -/

def Power.devstat (p : Power) : Word := at64 (b2n p.fatal) 63 + at64 p.reason.toNat 56 + at64 p.stage.toNat 52

/-- PWRCTL: budgets below 1,000 are taken as 1,000, above 3,600 as 3,600. -/
def Power.write (p : Power) (v : Word) : Power := { p with budget := BitVec.ofNat 16 (max 1000 (min 3600 (fld v 0 16))) }

/-- A doubleword of the region. PWRSTAT holds what the sensors last gave; PWRCTL.budget reads zero outside service mode (R8), and
a word that no record defines reads zero (R4). -/
def State.capWord (s : State) (off : Nat) (svc : Bool) : Word :=
  match off / 8 with
  | 0 => 0x0000001002010001
  | 1 => s.pwr.devstat
  | 2 => 0x0000002803010002
  | 3 => if svc then s.pwr.budget.setWidth 64 else 0
  | 4 => s.pwr.stat
  | 5 => 0x0000003802010003
  | 6 => 0x01FF00FFFC000000
  | 7 => 0x0000000002010004
  | 8 => 0x01FF00FFFA000000
  | _ => 0

/-! ## Events of the device -/

/-- The current setting of a place, free before its first change. -/
def State.limit (s : State) (p : ThrottlePlace) : BitVec 24 :=
  match s.pwr.limits.find? fun l => decide (l.1 = p) with
  | some l => l.2
  | none => (Config.freeWord s.clk.free 24).setWidth 24

/-- What is restored at a place, after which: the throttles from the one that began at a setting on are over (R505). -/
def restored (p : ThrottlePlace) (new : BitVec 24) : List (ThrottlePlace × BitVec 24) → Option (List (ThrottlePlace × BitVec 24))
  | [] => none
  | b :: bs =>
    if b.1 = p then (if b.2 = new then some bs else restored p new bs)
    else (restored p new bs).map fun r => b :: r

/-- One change of a clock, a voltage or an issue limit (R501): a cause lowers the setting; a restoration gives back one from before a
throttle that is not over (R505). Any other change does not happen. -/
def State.throttle (s : State) (p : ThrottlePlace) (cause : BitVec 4) (new : BitVec 24) : State :=
  let old := s.limit p
  let before : Option (List (ThrottlePlace × BitVec 24)) :=
    if cause < 4 then (if new < old then some ((p, old) :: s.pwr.before) else none)
    else if cause = 4 then restored p new s.pwr.before else none
  match before with
  | none => s
  | some b =>
    if 2 < p.qty then s
    else
      let s := s.chronograph (s.chronoRec p cause new old)
      { s with pwr := { s.pwr with limits := (p, new) :: s.pwr.limits.filter (fun l => decide (l.1 ≠ p)), before := b } }.fresh

/-- The sensors give new readings (R507, R512). -/
def Power.sensed (p : Power) (power : BitVec 16) (tj inlet : Byte) : Power :=
  { p with stat := at64 power.toNat 48 + at64 tj.toNat 40 + at64 inlet.toNat 32 }

/-- A worker core has held no resident frame and no queued envelope for 65,536 cycles (R506). -/
def State.mayGate (s : State) (c : Nat) : Bool :=
  decide (coreNo c ≠ 31) && (s.residents c).isEmpty && (s.core c).queue.isEmpty && decide (65536 ≤ s.clk.cycle - (s.core c).idleAt)

/-- A device-fatal event (R510). -/
def State.deviceFatal (s : State) (reason : BitVec 7) : State :=
  if s.pwr.fatal then s
  else { s with pwr := { s.pwr with fatal := true, reason := reason },
                fe := { s.fe with msixSent := s.fe.msixSent ++ [(0, 0), (1, 0)] } }

/-- A stage may run: its key is the one whose hash is fused, its signature over the digest holds, and its security version is not below
the rollback counter (R476). -/
def State.stageOk (s : State) (slot : Nat) (x : BootStage) : Bool :=
  decide (Config.sha512 (keyBytes x.key) = Config.firmwareKeyHash) && Config.ecdsaOk x.key x.digest x.sig
    && decide (Tab.get s.sec.rollback slot 0 ≤ x.version)

/-- The slot of the first stage, of those of slots 2–6, that fails; one that is not there fails. -/
def State.bootFails (s : State) (stages : List BootStage) : Option Nat :=
  [2, 3, 4, 5, 6].find? fun n => match stages[n - 2]? with
    | some x => !s.stageOk n x
    | none => true

/-- Measurement slots after boot: slot 1 is fixed, slots 2–7 hold the digests up to the stage that failed (R476). -/
def bootSlots (digests : List (BitVec 512)) (failed : Option Nat) : Table (BitVec 512) :=
  let ran (n : Nat) : Bool := match failed with
    | some f => decide (n < f)
    | none => true
  (1, Config.romDigest) :: (((List.range 6).map fun i => (i + 2, (digests[i]?).getD 0)).filter fun p => ran p.1)

/-- Power-on or fundamental reset: every register at its reset value, no job, memories without contents; host memory and
the fused rollback counters stay (R475, R476, R509). -/
def State.powerOn (s : State) (stages : List BootStage) (fuses : BitVec 512) : State :=
  let r := State.reset
  let failed := s.bootFails stages
  let digests := (stages.take 5).map (·.digest) ++ [fuses]
  { r with
    clk := { r.clk with stepNo := s.clk.stepNo, free := s.clk.free, dtime := s.clk.dtime },
    mem := { r.mem with host := s.mem.host },
    sec := { r.sec with slots := bootSlots digests failed, failed := failed, rollback := s.sec.rollback, draws := s.sec.draws },
    pwr := { r.pwr with stage := if failed.isSome then 0 else 5 } }

abbrev PwOut := Host.Outcome State Fault Refusal

/-- THROTTLE_CHANGE (R501, R505). -/
def execThrottleChange (place : ThrottlePlace) (cause : BitVec 4) (new : BitVec 24) (s : State) : PwOut :=
  .next (s.throttle place cause new)
/-- CORE_CLOCK_GATE (R506). -/
def execCoreClockGate (core : Nat) (s : State) : PwOut :=
  .next (if s.mayGate core then s.setCore core { s.core core with gated := true } else s)
/-- CORE_WAKE (R506). -/
def execCoreWake (core : Nat) (s : State) : PwOut :=
  .next (s.setCore core { s.core core with gated := false, idleAt := if (s.core core).gated then s.clk.cycle else (s.core core).idleAt })
/-- A line is marked uncorrectable, once; no copy answers for it (R507, R514). One of the relay region is a device-fatal event (R491,
R512). -/
def State.markLine (s : State) (p : Place) : State :=
  let add (l : Nat) (bad : List Nat) : List Nat := if bad.contains l then bad else l :: bad
  match p with
  | .dev pa =>
    if Config.reserved pa && Config.inRelay pa then s.deviceFatal 2
    else if pa < Config.devBytes then { s with mem := { s.mem with bad := add (pa / 64) s.mem.bad } }.dropCopies (pa / 64) else s
  | .bank t off => { s with mem := { s.mem with badBank := add (bankKey t off / 64) s.mem.badBank } }
  | .sram c off => { s with mem := { s.mem with badSram := add (sramKey c off / 64) s.mem.badSram } }
  | .image k off => { s with mem := { s.mem with badArena := add ((k * 4096 + off) / 64) s.mem.badArena } }
  | .latch t sideB second scale i => s.updArray t fun a =>
    let l := a.latch second sideB
    a.setLatch second sideB (if scale then { l with badScale := add i l.badScale } else { l with bad := add i l.bad })
  | _ => s

/-- SCRUB_LINE: a correctable error leaves the line's value; an uncorrectable line is marked (R507, R508, R514). -/
def execScrubLine (line : Place) (bad : Bool) (s : State) : PwOut := .next (if bad then s.markLine line else s)
/-- PWRCTL_WRITE (R512). -/
def execPwrctlWrite (v : Word) (s : State) : PwOut := .next { s with pwr := s.pwr.write v }
/-- DEVICE_FATAL (R510). -/
def execDeviceFatal (reason : BitVec 7) (s : State) : PwOut := .next (s.deviceFatal reason)
/-- POWER_ON_RESET (R509). -/
def execPowerOnReset (stages : List BootStage) (fuses : BitVec 512) (s : State) : PwOut := .next (s.powerOn stages fuses)
/-- DOMAIN_TIME_RESYNC: domain time takes the synchronised value (R399). -/
def execDomainTimeResync (t : Word) (s : State) : PwOut := .next { s with clk := { s.clk with dtime := t } }

end Sys2Proof.Machine
end

