-- ==== Sys2Proof/Machine/Fabric.lean ====
section
/-! DEFINITION. Machine/Fabric.lean: the Orrery ports: guards and port words (R399–R404), link packets and circuits
(R405–R407), pair streams, paths and acknowledgements (R408–R413), keys and refusals (R414, R415), withdrawals (R513).
The torus and the bridge are only time and order (R391–R398). -/

namespace Sys2Proof.Machine

/-! ## Parts -/

def State.port (s : State) (p : Nat) : Port := Tab.get s.fab.ports p Port.reset
def State.setPort (s : State) (p : Nat) (x : Port) : State := { s with fab := { s.fab with ports := Tab.put s.fab.ports p x } }

/-- Transit index and position in the transit at a domain time (R399). -/
def State.transitAt (s : State) : Nat × Nat :=
  let n := (s.clk.dtime - s.fab.albase).toNat
  (n / 4000 % 24, n % 4000)

/-- Almanac entry of a transit and port (R400). -/
def State.almanac (s : State) (t p : Nat) : BitVec 32 := Tab.get s.fab.almanac (64 * t + p) 0
def entryValid (e : BitVec 32) : Bool := e.getLsbD 31
def entryLoop (e : BitVec 32) : Bool := e.getLsbD 30
def entryPort (e : BitVec 32) : Nat := fld e 11 6
def entryChip (e : BitVec 32) : BitVec 11 := e.extractLsb' 0 11

/-- Free relay space in units of 4 MiB (R402, R412): 16,288 chunks of 64 KiB, 682 packets of 96 bytes each. -/
def State.relayChunks (s : State) : Nat := (s.fab.relay.map fun p => (p.2.length + 681) / 682).sum
def State.relayFree (s : State) : Nat := min 255 ((16288 - s.relayChunks) / 64)

/-! ## Guards (R401–R404) -/

/-- The lane map of a port word is one of the legal ones for its width. -/
def lanesOk (lanes width : Nat) : Bool :=
  (decide (width = 0) && decide (lanes = 0xF)) || (decide (width = 1) && (decide (lanes = 0x3) || decide (lanes = 0xC)))

/-- Agreement on a received word for transit t at port p (R403). -/
def State.agrees (s : State) (p t : Nat) (w : Word) : Bool :=
  let e := s.almanac t p
  let x := s.port p
  let both := fld w 35 4 &&& x.lanes.toNat
  decide (fld w 61 3 = 1) && decide (fld w 31 2 = 0) && decide (fld w 19 12 = s.fab.epoch.toNat) && decide (fld w 39 5 = t)
    && decide (fld w 50 11 = (entryChip e).toNat) && decide (fld w 44 6 = entryPort e) && lanesOk (fld w 35 4) (fld w 33 2)
    && (decide (both = 0xF) || decide (both = 0x3) || decide (both = 0xC))

/-- The link key of a job; tag 0 is the domain link key. -/
def State.linkKey (s : State) (j : BitVec 12) : Option (BitVec 256) := Tab.get? s.sec.linkKeys j.toNat

/-- The withdrawal that takes a packet's place (R513). -/
def Packet.withdrawal (q : Packet) : Packet := { q with kind := 10, body := .withdrawn }

/-- A packet with its withdrawal under the domain link key. -/
def State.withdrawn (s : State) (q : Packet) : Packet := { q.withdrawal with key := (s.linkKey 0).getD 0 }

/-- A packet of a job whose key is gone, or whose packets a removal discards: it is withdrawn when a circuit gives it back (R416). -/
def State.unwanted (s : State) (q : Packet) : Bool :=
  decide (q.kind ≠ 8) && decide (q.kind ≠ 9) && decide (q.kind ≠ 10)
    && ((s.linkKey q.job).isNone || (decide ((s.job q.job).state = 4) && decide (5 ≤ (s.job q.job).step)))

/-- Two packets of one stream are the same one. -/
def Packet.same (p q : Packet) : Bool := decide (p.seq = q.seq) && decide (p.bulk = q.bulk) && (decide (p.kind = 9) == decide (q.kind = 9))

/-- Packets that were not acknowledged go back, in lseq order, ahead of those not yet sent, with their seq and ciphertext (R406):
acknowledgements and own packets still outstanding to their resend queue, relayed ones to their FIFO. -/
def State.returnPackets (s : State) (ps : List Packet) : State :=
  ps.reverse.foldl (fun (s : State) (q : Packet) =>
    let drop := s.unwanted q
    let q : Packet := { (if drop then s.withdrawn q else q) with back := true }
    if q.src = s.chip.chipNo then
      let x := s.stream q.dest
      if q.kind = 9 ∨ x.out.any q.same then
        s.setStream q.dest { x with resend := q :: x.resend, out := if drop then x.out.map fun o => if o.same q then q else o else x.out }
      else s
    else { s with fab := { s.fab with
      relay := Tab.put s.fab.relay q.dest.toNat (q :: Tab.get s.fab.relay q.dest.toNat []),
      relaydrop := if drop then satAdd s.fab.relaydrop 1 0xFFFFFFFF else s.fab.relaydrop } }) s

/-- A circuit ends (R406, R407); a port that lost a lane at half width is disabled with it. -/
def State.endCircuit (s : State) (p : Nat) (final : Bool) : State :=
  let x := s.port p
  let s := match x.circuit with
    | some c => s.returnPackets c.sent
    | none => s
  s.setPort p { x with circuit := none, state := if final && x.dying then 3 else x.state, dying := if final then false else x.dying }

/-- The port may take part in transit t, whose guard this is: enabled; and after a re-enable, trimmed in the first guard after a
loopback transit that began later. A transit ends with its own guard (R399), so that this guard is one transit later (R404). -/
def State.takesPart (s : State) (p t : Nat) : Bool :=
  let x := s.port p
  decide (x.state = 1) && match x.trim with
    | none => true
    | some at_ =>
      let loop := (t + 22) % 24
      let began := s.clk.dtime - BitVec.ofNat 64 (s.transitAt.2 + 4000)
      ((List.range 64).any fun q => entryLoop (s.almanac loop q) && entryValid (s.almanac loop q)) && decide (at_ ≤ began)

/-- The transit at a domain time, counted from transit 0 (R399). -/
def State.transitNo (s : State) : Nat := (s.clk.dtime - s.fab.albase).toNat / 4000

/-- The port word that a port sends in the guard before transit t (R402). -/
def State.portWord (s : State) (p t : Nat) : Word :=
  let x := s.port p
  at64 1 61 + at64 s.chip.chipNo.toNat 50 + at64 p 44 + at64 t 39 + at64 x.lanes.toNat 35 + at64 (b2n x.width) 33
    + at64 s.fab.epoch.toNat 19 + at64 s.relayFree 11

/-- The word received: the value that at least 9 of the 16 copies share whose CRC holds (R401). -/
def received (copies : List (Word × Bool)) : Option Word :=
  let valid := (copies.take 16).filter fun c => c.2
  (valid.find? fun c => decide (9 ≤ (valid.filter fun d => decide (d.1 = c.1)).length)).map (·.1)

/-- A mismatched transit (R404). -/
def State.mismatch (s : State) (p : Nat) : State :=
  let x := s.port p
  let y := { x with circuit := none, mism := satAdd x.mism 1 0xFFFFFF, trim := none }
  if x.mstreak = 2 then
    let free : BitVec 2 := BitVec.ofNat 2 (Config.freeNat s.clk.free 2 % 3)
    let s := s.setPort p { y with state := 2, mstreak := free }
    { s with fab := { s.fab with events := satAdd s.fab.events 1 0xFFFF } }.fresh
  else s.setPort p { y with mstreak := x.mstreak + 1 }

/-- The decision of a guard on the word received for transit t (R403). -/
def State.decide_ (s : State) (p t : Nat) (w : Option Word) : State :=
  match w with
  | none => s.mismatch p
  | some w =>
    let s := s.setPort p { s.port p with occ := w.extractLsb' 11 8 }
    if s.agrees p t w then
      let x := s.port p
      let c : Circuit := { peer := entryChip (s.almanac t p), lanes := x.lanes &&& w.extractLsb' 35 4, occ := w.extractLsb' 11 8, txNext := 0,
                           rxNext := 0, sent := [] }
      s.setPort p { x with mstreak := 0, occ := c.occ, pchip := c.peer, pport := BitVec.ofNat 6 (entryPort (s.almanac t p)),
                           transit := BitVec.ofNat 5 t, circuit := some c, trim := none }
    else s.mismatch p

/-- The guard of a port, once in each transit: it sends its port word, and decides on the one that it received at 3,980 ns (R401,
R403). The first guard ends the forming of the domain (log 21). -/
def State.guard (s : State) (p : Nat) (copies : List (Word × Bool)) : State :=
  let now := s.transitAt
  let s := { s with fab := { s.fab with forming := false } }
  if 63 < p ∨ now.2 < 3980 ∨ s.pwr.fatal ∨ (s.port p).guardAt = some s.transitNo then s
  else
    let s := s.endCircuit p true
    let t := (now.1 + 1) % 24
    let e := s.almanac t p
    let s := s.setPort p { s.port p with guardAt := some s.transitNo, marker := false }
    if !s.takesPart p t then s
    else
      let s := s.setPort p { s.port p with trim := none }
      if !entryValid e || entryLoop e then s
      else (s.setPort p { s.port p with word := some (s.portWord p t) }).decide_ p t (received copies)

/-! ## Keys (R414, R415) -/

/-- The key a packet is sent under. -/
def State.keyFor (s : State) (q : Packet) : Option (BitVec 256) :=
  if q.kind = 9 ∨ q.kind = 10 then s.linkKey 0
  else if q.kind = 8 then (match s.linkKey q.job with
    | some k => some k
    | none => s.linkKey 0)
  else s.linkKey q.job

/-- The tag of a received packet holds (R415). -/
def State.keyOk (s : State) (q : Packet) : Bool :=
  if q.kind = 9 ∨ q.kind = 10 then decide (s.linkKey 0 = some q.key)
  else if q.kind = 8 then decide (s.linkKey q.job = some q.key) || decide (s.linkKey 0 = some q.key)
  else decide (s.linkKey q.job = some q.key)

/-- What tells the sender of a message that it was refused: a PERM reply, which for an `lnd` lands as poison (R223, R415, R469). -/
def Msg.refusalOf (m : Msg) (cause : Byte) : Option Msg :=
  match m with
  | .read who _ _ _ dst _ => some (.reply who dst (.err cause) none none)
  | .observe who _ _ _ _ dst => some (.reply who dst (.err cause) none none)
  | .atomic none who _ _ _ _ _ _ dst _ => some (.reply who dst (.err cause) none none)
  | .atomic (some f) .. => some (.refusal f Cause.REFUSED cause)
  | .store f .. => some (.refusal f Cause.REFUSED cause)
  | .lndRead f who job _ size la _ => some (.landing f who job la (List.replicate (if size = 64 then 8 else 1) 0) (some cause))
  | .landing f .. => some (.refusal f Cause.REFUSED cause)
  | .add (.posted f) .. => some (.refusal f Cause.REFUSED cause)
  | .add (.pst f) .. => some (.refusal f Cause.REFUSED cause)
  | .add (.value who dst) .. => some (.reply who dst (.err cause) none none)
  | .add (.front chip cmd) .. => some (.wake (.front chip cmd) (.err cause))
  | .cwait w .. => some (.wake w (.err cause))
  | .env e => some (.refusal e.sender Cause.REFUSED cause)
  | .group e => some (.refusal e.sender Cause.REFUSED cause)
  | _ => none

/-- What a refused packet from a chip to a chip tells the chip that sent it. The chips of a load learn so that one of them has no key
(R24). -/
def Body.refusalOf (b : Body) (src dest : BitVec 11) : Option Msg :=
  match b with
  | .msg (.loadPart j lead (.step k ..)) => some (.loadPart j lead (.refused dest k))
  | .msg m => m.refusalOf Cause.PERM
  | .bulk h seg .. => some (.refusal (.engine src h seg) Cause.REFUSED Cause.PERM)
  | .multi c => some (.copyRefused c.handle c.seg dest none Cause.PERM)
  | _ => none

/-! ## Sending in a dwell (R410–R413) -/

/-- Transits from now until chips a and b meet: a chip's own meetings stand in its almanac, others in its meeting table (R400,
R410). -/
def State.meetsIn (s : State) (a b : BitVec 11) : Option Nat :=
  let cur := s.transitAt.1
  if a = s.chip.chipNo then
    (List.range 24).find? fun k => (List.range 64).any fun p =>
      let e := s.almanac ((cur + k) % 24) p
      entryValid e && !entryLoop e && decide (entryChip e = b)
  else (Tab.get? s.fab.meet (a.toNat * 2 ^ 11 + b.toNat)).map fun m => (m / 2 ^ 6 % 24 + 24 - cur) % 24

/-- A packet for a chip may go on a circuit: directly, or by the peer as a relay that meets the chip sooner (R410). -/
def State.pathOk (s : State) (c : Circuit) (d : BitVec 11) : Bool :=
  if d = c.peer then true
  else decide (c.occ ≠ 0) && match s.meetsIn c.peer d, s.meetsIn s.chip.chipNo d with
    | some r, some k => decide (r < k)
    | some _, none => true
    | none, _ => false

/-- The share entry of a job at a port: its number and weight (R413). -/
def Port.share (x : Port) (j : BitVec 12) : Option Nat :=
  (List.range 64).find? fun e =>
    let w := Tab.get x.shares e 0
    w.getLsbD 63 && decide (fld w 0 8 ≠ 0) && decide (j.toNat &&& fld w 32 12 = fld w 16 12)

def Port.weight (x : Port) (e : Nat) : Nat := fld (Tab.get x.shares e 0) 0 8

/-- Link packets of a dwell (R405). -/
def Circuit.slots (c : Circuit) : Nat := if c.lanes = 0xF then 6000 else 3000

/-- A waiting packet of a stream: from its resend queue, not sent yet, or from a relay FIFO. -/
inductive PickFrom where
  | again | fresh | relay
  deriving DecidableEq, Repr

structure Pick where
  dest  : BitVec 11
  from_ : PickFrom
  idx   : Nat
  q     : Packet
  deriving DecidableEq, Repr

/-- An ordered packet of a stream: no bulk one and no acknowledgement. -/
def Packet.ordered (q : Packet) : Bool := !q.bulk && decide (q.kind ≠ 9)

/-- The least seq of the ordered packets of a stream that have one and wait: returned ones, and those that a relay refused (R408). -/
def PairStream.nextOrd (x : PairStream) : Option (BitVec 48) :=
  ((x.resend ++ x.unsent.filter fun q => q.placed).filter Packet.ordered).foldl (fun b q => match b with
    | none => some q.seq
    | some a => some (if q.seq < a then q.seq else a)) none

/-- Packets of one stream that may be sent next on a circuit: returned ones first, ordered ones in their order, on one path until
all are acknowledged and not after a relay refused one on this circuit, at most 1,024 bulk ones outstanding (R406, R408, R411). -/
def State.picksOf (s : State) (c : Circuit) (d : BitVec 11) : List Pick :=
  let x := s.stream d
  if !s.pathOk c d then []
  else
    let ordOk := !c.refused.contains d && match x.path with
      | some v => decide (v = c.peer)
      | none => true
    let may (q : Packet) : Bool := (s.keyFor q).isSome && (!q.ordered || ordOk)
    let first (q : Packet) : Bool := decide (x.nextOrd = some q.seq)
    let again := (x.resend.zipIdx.filter fun p => may p.1 && (!p.1.ordered || first p.1)).map
      fun p => { dest := d, from_ := .again, idx := p.2, q := p.1 : Pick }
    let bulkLeft := x.resend.any fun q => q.bulk
    let full := decide (1024 ≤ (x.out.filter fun q => q.bulk).length)
    let fresh := (x.unsent.zipIdx.filter fun p => may p.1
        && (if p.1.bulk then !bulkLeft && !full else if p.1.placed then first p.1 else x.nextOrd.isNone)).map
      fun p => { dest := d, from_ := .fresh, idx := p.2, q := p.1 : Pick }
    again ++ fresh

/-- The packet that a relay forwards next to the peer of a circuit: the head of its FIFO (R412). -/
def State.relayPick (s : State) (c : Circuit) : List Pick :=
  match Tab.get s.fab.relay c.peer.toNat [] with
  | [] => []
  | q :: _ => [{ dest := c.peer, from_ := .relay, idx := 0, q := q }]

/-- Every packet that may be sent next on a circuit. -/
def State.picks (s : State) (c : Circuit) : List Pick :=
  (s.fab.streams.flatMap fun p => s.picksOf c (BitVec.ofNat 11 p.1)) ++ s.relayPick c

/-- The next packet with a property: a returned one, else the one that became ready first (R413, R421). -/
def State.pickOn (s : State) (c : Circuit) (f : Packet → Bool) : Option Pick :=
  let ps := (s.picks c).filter fun k => f k.q
  match ps.find? fun k => decide (k.from_ = .again) || k.q.back with
  | some k => some k
  | none => ps.foldl (fun b k => match b with
    | none => some k
    | some x => if k.q.made < x.q.made then some k else some x) none

/-- Transmit a packet on a circuit: it takes its place in the circuit, and at its first transmission its seq and key. -/
def State.transmitOn (s : State) (p : Nat) (c : Circuit) (k : Pick) : State :=
  let x := s.stream k.dest
  let q := k.q
  let new := decide (k.from_ = .fresh) && !q.placed
  let q := if new then { q with seq := if q.bulk then x.txBulk else x.txOrd, key := (s.keyFor q).getD 0 } else q
  let q := { q with lseq := c.txNext, lack := c.rxNext - 1, rly := decide (k.dest ≠ c.peer), crc := true, back := false, placed := false }
  let s := match k.from_ with
    | .relay =>
      let rest := (Tab.get s.fab.relay k.dest.toNat []).tail
      { s with fab := { s.fab with relay := Tab.put s.fab.relay k.dest.toNat rest } }
    | .again =>
      s.setStream k.dest { x with resend := dropAt x.resend k.idx, path := if q.ordered then some c.peer else x.path }
    | .fresh =>
      s.setStream k.dest { x with
        unsent := dropAt x.unsent k.idx, out := x.out ++ [q], txBulk := if new && q.bulk then x.txBulk + 1 else x.txBulk,
        txOrd := if new && !q.bulk then x.txOrd + 1 else x.txOrd, path := if q.ordered then some c.peer else x.path }
  let s := s.setPort p { s.port p with circuit := some { c with txNext := c.txNext + 1, used := c.used + 1, sent := c.sent ++ [q] } }
  if k.q.back then { s with fab := { s.fab with resent := s.fab.resent + 1 } } else s

/-- Send up to n packets with a property while slots are left. -/
def State.sendSome (s : State) (p : Nat) (f : Packet → Bool) : Nat → State
  | 0 => s
  | n + 1 =>
    match (s.port p).circuit with
    | none => s
    | some c =>
      if c.slots ≤ c.used then s
      else match s.pickOn c f with
        | some k => (s.transmitOn p c k).sendSome p f n
        | none => s

/-- Transits from now until a packet for a chip arrives that goes on this circuit, or on the earliest later one that serves it: direct,
or by a relay and the relay's own next meeting with the chip (R409, R410). -/
def State.arrival (s : State) (k : Nat) (via d : BitVec 11) : Option Nat :=
  if via = d then some k else (s.meetsIn via d).map fun m => if k ≤ m then m else m + 24

/-- No later circuit of this chip in the revolution brings a packet to a chip sooner than one on the present circuit (R409). -/
def State.soonest (s : State) (c : Circuit) (d : BitVec 11) : Bool :=
  match s.arrival 0 c.peer d with
  | none => false
  | some n => !(List.range (min n 24)).any fun k => decide (0 < k) && (List.range 64).any fun p =>
      let e := s.almanac ((s.transitAt.1 + k) % 24) p
      entryValid e && !entryLoop e && (match s.arrival k (entryChip e) d with
        | some m => decide (m < n)
        | none => false)

/-- Acknowledgement packets that are due, on the path that reaches the source soonest (R409). -/
def State.sendAcks (s : State) (p : Nat) : State :=
  s.fab.streams.foldl (fun s e =>
    let d := BitVec.ofNat 11 e.1
    let x := s.stream d
    match (s.port p).circuit, s.linkKey 0 with
    | some c, some key =>
      if x.ackDue && s.pathOk c d && s.soonest c d && decide (c.used < c.slots) then
        let q : Packet := { dest := d, src := s.chip.chipNo, job := 0, bulk := false, kind := 9, seq := x.ctl, rly := decide (d ≠ c.peer),
                            lack := c.rxNext - 1, lseq := c.txNext, crc := true, key := key, body := .acks x.rxNext x.rxBase x.rxMap }
        (s.setStream d { x with ctl := x.ctl + 1, ackDue := false }).setPort p
          { s.port p with circuit := some { c with txNext := c.txNext + 1, used := c.used + 1, sent := c.sent ++ [q] } }
      else s
    | _, _ => s) s

/-- One round of the weighted round-robin: each entry sends up to its weight (R413). -/
def State.round (s : State) (p : Nat) : State :=
  (List.range 64).foldl (fun s e => s.sendSome p (fun q => decide ((s.port p).share q.job = some e)) ((s.port p).weight e)) s

def State.rounds (s : State) (p : Nat) : Nat → State
  | 0 => s
  | n + 1 => (s.round p).rounds p n

/-- In a circuit the sender may go back to the number that the peer misses, and send what it sent since again, in slots of the dwell
(R405, R406); whether it does is free (log 36). -/
def State.goBack (s : State) (p : Nat) : State :=
  match (s.port p).circuit with
  | some c =>
    if !c.sent.isEmpty && decide (c.used + c.sent.length ≤ c.slots) && Config.freeBool s.clk.free 17 then
      ({ s with fab := { s.fab with resent := s.fab.resent + c.sent.length } }.setPort p
        { s.port p with circuit := some { c with used := c.used + c.sent.length } }).fresh
    else s
  | none => s

/-- The dwell of a port's circuit has not ended. -/
def State.inDwell (s : State) (p : Nat) : Bool :=
  decide (s.transitAt.2 < 3600) && decide (s.transitAt.1 = (s.port p).transit.toNat) && !s.pwr.fatal

/-- What a port sends in its dwell: acknowledgements and refusals, the entries by weight, then packets of no entry. -/
def State.dwell (s : State) (p : Nat) : State :=
  match (s.port p).circuit with
  | none => s
  | some c =>
    if s.inDwell p then
      let s := (s.goBack p).sendAcks p
      let s := s.sendSome p (fun q => decide (q.kind = 8) || decide (q.kind = 9)) c.slots
      let s := s.rounds p c.slots
      s.sendSome p (fun q => ((s.port p).share q.job).isNone) c.slots
    else s

/-- Forward the first relayed packet for the peer of a circuit when it is the next of its share entry, in a slot that no other waiting
packet wants (R412, R413, R421); DWELL_START forwards it under the arbitration of the port. -/
def State.forward (s : State) (p : Nat) : State :=
  match (s.port p).circuit with
  | none => s
  | some c =>
    match s.relayPick c with
    | k :: _ => if s.inDwell p ∧ (s.picks c).length ≤ c.slots - c.used
        ∧ s.pickOn c (fun q => decide ((s.port p).share q.job = (s.port p).share k.q.job)) = some k then s.transmitOn p c k else s
    | [] => s

/-- A refused packet joins the packets not sent, behind refused ones of its class with lower seqs. -/
def insertPlaced (q : Packet) : List Packet → List Packet
  | [] => [q]
  | x :: xs => if x.placed && (decide (x.bulk ≠ q.bulk) || decide (x.seq < q.seq)) then x :: insertPlaced q xs else q :: x :: xs

/-- A packet that a relay refused stays with its sender and counts as not sent (R412). -/
def PairStream.refused (x : PairStream) (q : Packet) : PairStream :=
  let out := x.out.filter fun o => !o.same q
  { x with out := out, unsent := insertPlaced { q with placed := true } x.unsent, path := if out.any Packet.ordered then x.path else none }

/-- The peer of a circuit refuses to relay a packet at link level, and no further ordered packet for its destination goes on this
circuit (R411, R412). An acknowledgement goes back to its queue. -/
def State.linkRefused (s : State) (p : Nat) (lseq : BitVec 15) : State :=
  match (s.port p).circuit with
  | none => s
  | some c => match c.sent.find? fun q => decide (q.lseq = lseq) with
    | none => s
    | some q =>
      let c := { c with sent := c.sent.filter (fun x => decide (x.lseq ≠ lseq)), refused := if q.ordered then q.dest :: c.refused else c.refused }
      let s := s.setPort p { s.port p with circuit := some c }
      if q.kind = 9 ∨ q.src ≠ s.chip.chipNo then s.returnPackets [q] else s.setStream q.dest ((s.stream q.dest).refused q)

/-! ## Receiving (R406, R408, R409, R415) -/

/-- A place as the destination chip sees it. -/
def Place.arrive (p : Place) (chip : BitVec 11) : Place :=
  match p with
  | .peer c pa => if c = chip then .dev pa else .peer c pa
  | p => p

def Msg.arrive (m : Msg) (chip : BitVec 11) : Msg :=
  match m with
  | .read who j p n d ks => .read who j (p.arrive chip) n d ks
  | .store f who j p bs pst ctr w => .store f who j (p.arrive chip) bs pst ctr w
  | .lndRead f who j p n la ks => .lndRead f who j (p.arrive chip) n la ks
  | .cwait w j p t c => .cwait w j (p.arrive chip) t c
  | .unwait who j p => .unwait who j (p.arrive chip)
  | .add b who j p v rel => .add b who j (p.arrive chip) v rel
  | .observe who j p k b d => .observe who j (p.arrive chip) k b d
  | .atomic f who j p dbl op v d r w => .atomic f who j (p.arrive chip) dbl op v d r w
  | m => m

/-- Drop the marker of an answered request. -/
def dropRemote (who : TaskId) (dst : Dst) : List Msg → List Msg
  | [] => []
  | m :: ms =>
    match m with
    | .remote w d _ => if w = who ∧ d = dst then ms else m :: dropRemote who dst ms
    | _ => m :: dropRemote who dst ms

/-- A landing from a peer takes the place of its `lnd` in the order of its issuer. -/
def replaceAway (from_ : Sender) (m : Msg) : List Msg → List Msg
  | [] => [m]
  | x :: xs =>
    match x with
    | .away f _ _ => if f = from_ then m :: xs else x :: replaceAway from_ m xs
    | _ => x :: replaceAway from_ m xs

/-- A message reaches this chip. -/
def State.deliver (s : State) (m : Msg) : State :=
  match m with
  | .reply who dst v acq see =>
    match dst with
    | .engine h key =>
      s.updCmd h fun c => if c.asked.contains key then { c with got := Tab.put c.got key v, asked := c.asked.filter fun k => decide (k ≠ key) } else c
    | _ => { s with net := dropRemote who dst s.net ++ [.reply who dst v acq see] }
  | .bounce dest e =>
    match dest with
    | .core _ c n => s.bouncedTo c n e
    | .front _ cmd _ => s.bouncedToFront cmd e
    | _ => s
  | .more dest job n => s.moreCopies dest job n
  | .tally h n => s.updCmd h fun c => { c with counted := c.counted + n }
  | .copyRefused h seg chip tile cause => s.copyRefused h seg chip tile cause
  | .halfBack h seg chip job scale => s.halfBack h seg chip job scale
  | .landing f who j la vs e => { s with net := replaceAway f (.landing f who j la vs e) s.net }
  | m => s.send (m.arrive s.chip.chipNo)

def PairStream.bulkNew (x : PairStream) (seq : BitVec 48) : Bool :=
  decide ((seq - x.rxBase).toNat < 1024) && !x.rxMap.getLsbD (seq - x.rxBase).toNat

/-- Apply a newer acknowledgement (R409, R411). Ordered packets that the destination still awaits may be sent again, as it discards
those that come too early (R408); whether they are is free (log 36). -/
def PairStream.acked (x : PairStream) (seq next base : BitVec 48) (map : BitVec 1024) (again : Bool) : PairStream :=
  let newer := match x.ackSeq with
    | none => true
    | some a => decide (a < seq)
  if !newer then x
  else
    let gone (q : Packet) : Bool :=
      if q.bulk then decide (q.seq < base) || (decide ((q.seq - base).toNat < 1024) && map.getLsbD (q.seq - base).toNat)
      else decide (q.seq < next)
    let out := x.out.filter fun q => !gone q
    let resend := x.resend.filter fun q => decide (q.kind = 9) || !gone q
    let late := out.filter fun q => q.ordered && !resend.any fun r => r.ordered && decide (r.seq = q.seq)
    { x with out := out, ackSeq := some seq,
             resend := if again && !resend.any Packet.ordered && !x.unsent.any (fun q => q.placed) then
                 late.map (fun q => { q with back := true }) ++ resend else resend,
             path := if out.any (fun q => !q.bulk) then x.path else none }

/-- Relayed packets of a job that wait here. -/
def State.relayed (s : State) (j : BitVec 12) : Nat := (s.fab.relay.map fun p => (p.2.filter fun q => decide (q.job = j)).length).sum

/-- A relay accepts a packet if its region has room and the job is within its quota, if one is set (R412; log 36). -/
def State.relayRoom (s : State) (q : Packet) : Bool :=
  (decide (s.relayChunks < 16288) || decide ((Tab.get s.fab.relay q.dest.toNat []).length % 682 ≠ 0)) && match Tab.get? s.fab.quota q.job.toNat with
    | some n => decide (s.relayed q.job < n)
    | none => true

/-- An accepted packet joins the FIFO of its destination (R412). -/
def State.relayTake (s : State) (q : Packet) : State :=
  let fifo := Tab.get s.fab.relay q.dest.toNat []
  { s with fab := { s.fab with relay := Tab.put s.fab.relay q.dest.toNat (fifo ++ [{ q with rly := false, made := s.fab.made }]),
                                      made := s.fab.made + 1 } }.fresh

/-- The effect of an accepted packet at its destination (R405, R415, R513); a refused engine write is acknowledged only after its
refusal (R420). -/
def State.effect (s : State) (q : Packet) (ok : Bool) : Host.Outcome State Fault Refusal :=
  let src := q.src
  if !ok then
    match q.body.refusalOf src q.dest with
    | some m => .next (if q.bulk then s.tellBulk src q.job [q.seq] m else s.toPeer src q.job false 8 (.msg m))
    | none => .next (if q.bulk then s.markBulk src q.seq else s)
  else match q.body with
    | .msg m => .next (s.deliver m)
    | .bulk h seg pa bs ks => match s.engWrite { id := segWriteNo src h seg, knows := ks } q.job (.dev pa) bs with
      | (s, .ok ()) => .next (s.markBulk src q.seq)
      | (s, .error _) => .next (s.tellBulk src q.job [q.seq] (.refusal (.engine src h seg) Cause.REFUSED Cause.PERM))
    | .multi c =>
      let s := s.send (.copies src q.seq q.job c)
      .next (s.copyStep (s.net.length - 1))
    | _ => .next (if q.bulk then s.markBulk src q.seq else s)

/-- A bulk packet that is not over: it waits for the version here, or for its write at a tile, or for its refusal to be heard
(R420). -/
def State.heldSeq (s : State) (src : BitVec 11) (seq : BitVec 48) : Bool :=
  ((s.stream src).todo.any fun t => decide (t.seq = seq)) || s.net.any fun m => match m with
    | .copies c q _ d => decide (c = src) && decide (q = seq) && d.tile.isNone
    | _ => false

/-- A packet at its destination chip: the stream's order and duplicates decide (R408). -/
def State.sequence (s : State) (q : Packet) (ok : Bool) : Host.Outcome State Fault Refusal :=
  let x := s.stream q.src
  if q.kind = 9 then
    match q.body with
    | .acks next base map =>
      .next (if ok then (s.setStream q.src (x.acked q.seq next base map (Config.freeBool s.clk.free 18)).settled).fresh else s)
    | _ => .next s
  else if q.bulk then
    if !x.bulkNew q.seq then .next s
    else if s.heldSeq q.src q.seq then match q.body with
      | .multi c => .next (if ok then s.spread q.src q.seq q.job c else s)
      | _ => .next s
    else s.effect q ok
  else if q.seq = x.rxNext then (s.setStream q.src { x with rxNext := x.rxNext + 1, ackDue := true }).effect q ok
  else .next s

/-- Drop the packets that a link acknowledgement covers. -/
def Circuit.lacked (c : Circuit) (lack : BitVec 15) : Circuit :=
  { c with sent := c.sent.filter fun q => decide (2 ^ 14 ≤ (lack - q.lseq).toNat) }

/-- A relay refuses a packet at link level: for want of room or quota, or after it refused an ordered one for the same destination
on this circuit (R411, R412). -/
def State.relayRefuses (s : State) (c : Circuit) (q : Packet) : Bool :=
  !s.relayRoom q || (q.ordered && c.rxRefused.contains (q.src, q.dest))

/-- A failed packet is counted at the port and for the job that it names (R415). -/
def State.keyFailed (s : State) (p : Nat) (j : BitVec 12) : State :=
  let x := s.port p
  let s := s.setPort p { x with keyfail := satAdd x.keyfail 1 0xFFFFFFFF }
  { s with fab := { s.fab with jobFails := Tab.put s.fab.jobFails j.toNat (Tab.get s.fab.jobFails j.toNat 0 + 1) } }

/-- A packet arrives at a port (R406, R412, R415). One that a relay refuses has no effect here; its sender hears of it. -/
def State.receive (s : State) (p : Nat) (q : Packet) : Host.Outcome State Fault Refusal :=
  match (s.port p).circuit with
  | none => .next s
  | some c =>
    if s.pwr.fatal ∨ !q.crc ∨ q.lseq ≠ c.rxNext then .next s
    else if q.dest ≠ s.chip.chipNo ∧ q.rly ∧ s.relayRefuses c q then
      let c' := { c.lacked q.lack with rxNext := c.rxNext + 1, rxRefused := if q.ordered then (q.src, q.dest) :: c.rxRefused else c.rxRefused }
      .next (s.setPort p { s.port p with circuit := some c' }).fresh
    else
      let s := s.setPort p { s.port p with circuit := some { (c.lacked q.lack) with rxNext := c.rxNext + 1 } }
      let ok := s.keyOk q
      let s := if ok then s else s.keyFailed p q.job
      if q.dest = s.chip.chipNo then s.sequence q ok
      else if !q.rly then .next s
      else if ok then .next (s.relayTake q)
      else
        let s := match q.body.refusalOf q.src q.dest with
          | some m => s.toPeer q.src q.job false 8 (.msg m)
          | none => s
        .next (s.relayTake (s.withdrawn q))

/-! ## Removal of a job's packets (R416, R513) -/

/-- A packet of a job that a removal discards. -/
def Packet.ofJob (q : Packet) (j : BitVec 12) : Bool := decide (q.job = j) && decide (q.kind ≠ 10) && decide (q.kind ≠ 9)

/-- Discard the job's packets: relayed ones are counted and withdrawn, own ones that have a seq are withdrawn. -/
def State.dropPackets (s : State) (j : BitVec 12) : State :=
  let swap (q : Packet) : Packet := if q.ofJob j then s.withdrawn q else q
  let n := (s.fab.relay.map fun p => (p.2.filter fun q => q.ofJob j).length).sum
  let fab := { s.fab with
    relaydrop := satAdd s.fab.relaydrop n 0xFFFFFFFF,
    relay := s.fab.relay.map fun p => (p.1, p.2.map swap),
    streams := s.fab.streams.map fun p =>
      (p.1, { p.2 with unsent := (p.2.unsent.filter fun q => q.placed || !q.ofJob j).map swap, resend := p.2.resend.map swap,
                       out := p.2.out.map fun q => if p.2.resend.any q.same then swap q else q }) }
  { s with fab := fab }

/-- The job's link packets at this chip that are not acknowledged: sent and outstanding, and in relay FIFOs. -/
def State.packetsOut (s : State) (j : BitVec 12) : Nat :=
  (s.fab.streams.map fun p => (p.2.out.filter fun q => q.ofJob j).length).sum + (s.fab.relay.map fun p => (p.2.filter fun q => q.ofJob j).length).sum

/-- The job's packets that wait to be sent. -/
def State.packetsLeft (s : State) (j : BitVec 12) : Bool :=
  s.fab.streams.any (fun p => p.2.unsent.any (fun q => q.ofJob j) || p.2.resend.any fun q => q.ofJob j)
    || s.fab.relay.any fun p => p.2.any fun q => q.ofJob j

/-! ## Lanes and re-enabling -/

/-- A lane's signal is lost (R407): in a dwell the circuit ends, the detecting end sends an end marker, and from the next transit
the port runs on the pair without the lane, or is disabled at the end of this one if it ran at half width; in a guard, before
agreement, it counts as a mismatch. -/
def State.laneLoss (s : State) (p : Nat) (lane : BitVec 2) : State :=
  let x := s.port p
  if s.transitAt.2 < 3600 then
    match x.circuit with
    | none => s
    | some c =>
      if c.lanes.getLsbD lane.toNat then
        let s := s.endCircuit p false
        let x := s.port p
        let x := { x with lost := satAdd x.lost 1 0xFF, marker := true }
        if x.width then s.setPort p { x with dying := true, lanes := setBit x.lanes lane.toNat false }
        else s.setPort p { x with width := true, lanes := if 2 ≤ lane.toNat then 0x3 else 0xC }
      else s
  else
    let t := (s.transitAt.1 + 1) % 24
    let e := s.almanac t p
    if 63 < p ∨ x.guardAt = some s.transitNo ∨ !s.takesPart p t ∨ !entryValid e ∨ entryLoop e ∨ !x.lanes.getLsbD lane.toNat then s
    else
      let s := s.endCircuit p true
      (s.setPort p { s.port p with guardAt := some s.transitNo, marker := false }).mismatch p

/-- PSTAT.en written with 1 (R404). -/
def State.reenable (s : State) (p : Nat) : State :=
  let x := s.port p
  if x.state = 1 then s else s.setPort p { x with state := 1, mstreak := 0, trim := some s.clk.dtime }

abbrev FbOut := Host.Outcome State Fault Refusal

/-- TRANSIT_GUARD (R401–R404). -/
def execTransitGuard (port : Nat) (copies : List (Word × Bool)) (s : State) : FbOut := .next (s.guard port copies)
/-- DWELL_START (R410–R413). -/
def execDwellStart (port : Nat) (s : State) : FbOut := .next (s.dwell port)
/-- DWELL_END (R406): the dwell of the port's circuit is over; a port that lost a lane at half width is disabled in the guard that ends
the transit (R399, R407). -/
def execDwellEnd (port : Nat) (s : State) : FbOut := .next (if port ≤ 63 ∧ !s.inDwell port then s.endCircuit port false else s)
/-- LINK_PACKET_RECEIVE (R406, R408). -/
def execLinkPacketReceive (port : Nat) (p : Packet) (s : State) : FbOut := s.receive port p
/-- ACK_RECEIVE: a kind-9 packet (R409). -/
def execAckReceive (port : Nat) (p : Packet) (s : State) : FbOut := if p.kind = 9 then s.receive port p else .next s
/-- LANE_LOSS (R407). -/
def execLaneLoss (port : Nat) (lane : BitVec 2) (s : State) : FbOut := .next (s.laneLoss port lane)
/-- END_MARKER_RECEIVE (R407). -/
def execEndMarkerReceive (port : Nat) (s : State) : FbOut := .next (if port ≤ 63 then s.endCircuit port false else s)
/-- RELAY_FORWARD (R412). -/
def execRelayForward (port : Nat) (s : State) : FbOut := .next (s.forward port)
/-- PORT_REENABLE (R404). -/
def execPortReenable (port : Nat) (s : State) : FbOut := .next (if port ≤ 63 then s.reenable port else s)

end Sys2Proof.Machine
end

