-- ==== Sys2Proof/Machine/Clely.lean ====
section
/-! DEFINITION. Machine/Clely.lean: a Clely file as its tables (R15–R49), the checks of its header, sections and records
(R50 steps 1 and 2), and a placement (R24). Where R52's table names no code for a failure, log 43 says which one the
model reports. -/

namespace Sys2Proof.Machine

/-! ## Bytes of a file -/

/-- An n-byte field at an offset; bytes beyond the file count as zero. -/
def u (bs : List Byte) (o n : Nat) : Nat := leNat ((bs.drop o).take n)

/-- A field as a signed number. -/
def i64 (bs : List Byte) (o : Nat) : Int := (BitVec.ofNat 64 (u bs o 8)).toInt

/-- The records of a section. -/
def chunks (n : Nat) (bs : List Byte) : List (List Byte) := (List.range (bs.length / n)).map fun i => (bs.drop (n * i)).take n

def zeroRange (bs : List Byte) (a n : Nat) : List Byte :=
  bs.take a ++ List.replicate (min n (bs.length - a)) 0 ++ bs.drop (a + n)

/-- A range lies inside n bytes. -/
def inside (o len n : Nat) : Bool := decide (o + len ≤ n)

/-- Two ranges share a byte. -/
def meet (a n b m : Nat) : Bool := decide (0 < n) && decide (0 < m) && decide (a < b + m) && decide (b < a + n)

/-- Some two members of a list, at different places, are related. -/
def somePair {α : Type} (r : α → α → Bool) : List α → Bool
  | [] => false
  | x :: xs => xs.any (r x) || somePair r xs

/-- The lowest code whose check failed, else 0 (R52). -/
def lowest (cs : List (Nat × Bool)) : Nat := cs.foldl (fun b c => if c.2 && (decide (b = 0) || decide (c.1 < b)) then c.1 else b) 0

/-! ## Sections (R18, R19) -/

structure Sec where
  (kind flags name foff fsize memsize link linksec align tail : Nat)
  deriving DecidableEq, Repr

def Sec.ofBytes (bs : List Byte) : Sec :=
  { kind := u bs 0 2, flags := u bs 2 2, name := u bs 4 4, foff := u bs 8 8, fsize := u bs 0x10 8, memsize := u bs 0x18 8,
    link := u bs 0x20 8, linksec := u bs 0x28 2, align := u bs 0x2A 1, tail := u bs 0x2B 5 }

def Sec.loadable (x : Sec) : Bool := decide (1 ≤ x.kind) && decide (x.kind ≤ 3)
def Sec.code (x : Sec) : Bool := decide (x.kind = 1)
def Sec.writable (x : Sec) : Bool := x.loadable && decide (x.flags % 2 = 1)
/-- Placed once, in the memory of the chip of logical tile 0 (R22). Of the 'writable DATA or ZERO' of R34 a ZERO section is one with the
writable flag or without (log 44). -/
def Sec.once (x : Sec) : Bool := decide (x.kind = 3) || x.writable

/-- A file with its section table. -/
structure Clely where
  file : List Byte
  secs : List Sec
  deriving DecidableEq, Repr

def Clely.of (file : List Byte) : Clely :=
  { file := file, secs := (chunks 48 ((file.drop (u file 0x10 8)).take (48 * u file 0x18 2))).map Sec.ofBytes }

def Clely.sec (x : Clely) (i : Nat) : Option Sec := x.secs[i]?
def Clely.contents (x : Clely) (s : Sec) : List Byte := (x.file.drop s.foff).take s.fsize
/-- The first section of a kind. -/
def Clely.one (x : Clely) (kind : Nat) : Option Sec := x.secs.find? fun s => decide (s.kind = kind)
def Clely.the (x : Clely) (kind : Nat) : List Byte := match x.one kind with
  | some s => x.contents s
  | none => []

def Clely.split (x : Clely) : Nat := u x.file 0x0A 1
def Clely.steal (x : Clely) : Nat := u x.file 0x0B 1
/-- Bytes from the image base to the end of the highest loadable section. -/
def Clely.span (x : Clely) : Nat := ((x.secs.filter Sec.loadable).map fun s => s.link + s.memsize).foldl max 0
/-- log2 of the alignment that the image base must have (R21). -/
def Clely.align (x : Clely) : Nat := ((x.secs.filter Sec.loadable).map fun s => s.align).foldl max 21

/-! ## Records (R25, R33, R36, R38, R41, R43, R44, R46) -/

structure HandlerRec where
  (cls prio tmpl group codesec entry : Nat)
  deriving DecidableEq, Repr
def Clely.handlers (x : Clely) : List HandlerRec := (chunks 16 (x.the 4)).map fun b =>
  { cls := u b 0 1, prio := u b 1 1, tmpl := u b 2 2, group := u b 4 2, codesec := u b 6 2, entry := u b 8 8 }

structure CounterRec where
  (home bank group sym init : Nat)
  deriving DecidableEq, Repr
def Clely.counters (x : Clely) : List CounterRec := (chunks 16 (x.the 6)).map fun b =>
  { home := u b 0 1, bank := u b 1 1, group := u b 2 2, sym := u b 4 4, init := u b 8 8 }

structure GroupRec where
  (want count sym moff resv : Nat)
  deriving DecidableEq, Repr
/-- The number of group records: they end where the first member list begins. -/
def Clely.groupCount (x : Clely) : Nat :=
  let b := x.the 7
  (List.range (b.length / 16)).foldl (fun n i => if i < n then min n (max (i + 1) (u b (16 * i + 8) 4 / 16)) else n) (b.length / 16)
def Clely.groups (x : Clely) : List GroupRec := ((chunks 16 (x.the 7)).take x.groupCount).map fun b =>
  { want := u b 0 2, count := u b 2 2, sym := u b 4 4, moff := u b 8 4, resv := u b 0xC 4 }
def Clely.members (x : Clely) (g : GroupRec) : List (BitVec 32) :=
  (chunks 4 (((x.the 7).drop g.moff).take (4 * g.count))).map fun b => BitVec.ofNat 32 (leNat b)

structure TileRec where
  (group bank mode boff len doff : Nat)
  deriving DecidableEq, Repr
def TileRec.ofBytes (b : List Byte) : TileRec :=
  { group := u b 0 2, bank := u b 2 1, mode := u b 3 1, boff := u b 4 4, len := u b 8 4, doff := u b 0xC 4 }
/-- The TILEINIT records: they end where the first data begin. -/
def Clely.tileRecs (x : Clely) : List TileRec :=
  let rs := (chunks 16 (x.the 8)).map TileRec.ofBytes
  let n := (List.range rs.length).foldl (fun n i => match rs[i]? with
    | some r => if i < n ∧ r.doff ≠ 0xFFFFFFFF ∧ 0 < r.len then min n (max (i + 1) (r.doff / 16)) else n
    | none => n) rs.length
  rs.take n

structure SymRec where
  (name sec type bind value size : Nat)
  deriving DecidableEq, Repr
def Clely.syms (x : Clely) : List SymRec := (chunks 24 (x.the 9)).map fun b =>
  { name := u b 0 4, sec := u b 4 2, type := u b 6 1, bind := u b 7 1, value := u b 8 8, size := u b 0x10 8 }

structure RelocRec where
  sec : Nat
  (off sym kind resv : Nat)
  add : Int
  deriving DecidableEq, Repr
def Clely.relocs (x : Clely) : List RelocRec :=
  (x.secs.filter fun s => decide (s.kind = 13)).flatMap fun s => (chunks 24 (x.contents s)).map fun b =>
    { sec := s.linksec, off := u b 0 8, sym := u b 8 4, kind := u b 0xC 2, resv := u b 0xE 2, add := i64 b 0x10 }

structure PlaceRec where
  (off sym kind psec ltile core resv low : Nat)
  deriving DecidableEq, Repr
def Clely.places (x : Clely) : List PlaceRec := (chunks 24 (x.the 14)).map fun b =>
  { off := u b 0 8, sym := u b 8 4, kind := u b 0xC 2, psec := u b 0xE 2, ltile := u b 0x10 4, core := u b 0x14 1,
    resv := u b 0x15 1, low := u b 0x16 2 }

/-! ## Templates (R27, R30) -/

/-- The number of templates: they end where the first preset list begins. -/
def Clely.templateCount (x : Clely) : Nat :=
  let b := x.the 5
  (List.range (b.length / 48)).foldl (fun n i =>
    if i < n ∧ 0 < u b (48 * i + 0x1A) 2 then min n (max (i + 1) (u b (48 * i + 0x1C) 4 / 48)) else n) (b.length / 48)

def Clely.template (x : Clely) (i : Nat) : Template := Template.ofBytes (((x.the 5).drop (48 * i)).take 48)
/-- The presets of a template, 16 bytes each. -/
def Clely.presets (x : Clely) (i : Nat) : List (List Byte) :=
  let t := x.template i
  chunks 16 (((x.the 5).drop t.preoff.toNat).take (16 * t.npre.toNat))

/-- A template's copy: the template with its preset list behind it, filled to a multiple of 64 bytes (R28). -/
def Clely.copy (x : Clely) (i : Nat) : List Byte :=
  let b := ((x.the 5).drop (48 * i)).take 48
  let bs := b.take 0x1C ++ leBytes 48 4 ++ b.drop 0x20 ++ (x.presets i).flatten
  bs ++ List.replicate ((64 - bs.length % 64) % 64) 0

/-- Offsets of the copies from the first. -/
def Clely.copyOff (x : Clely) (i : Nat) : Nat := ((List.range i).map fun k => (x.copy k).length).sum
def Clely.copies (x : Clely) : List Byte := (List.range x.templateCount).flatMap x.copy

/-! ## Step 1: header, digest, signature (R16, R49, R487) -/

def digestOf (x : Clely) : BitVec 512 :=
  let bs := zeroRange x.file 0x38 64
  Config.sha512 ((x.secs.filter fun s => decide (s.kind = 15)).foldl (fun bs s => zeroRange bs s.foff s.fsize) bs)

/-- The signature names a registered key and verifies under it. -/
def Clely.signed (x : Clely) (keys : List (BitVec 1064)) : Bool :=
  let b := x.the 15
  decide (b.length = 140) && keys.any fun k =>
    decide (beNat (b.take 8) = fld (Config.sha512 (keyBytes k)) 448 64) && Config.ecdsaOk k (BitVec.ofNat 512 (beNat ((x.file.drop 0x38).take 64))) (b.drop 8)

/-- A header whose split is above 4 or whose steal is above 2 counts as RESERVED (log 43). -/
def Clely.step1 (x : Clely) (keys : List (BitVec 1064)) (sig : Bool) : Nat :=
  let f := x.file
  let has := (x.one 15).isSome
  lowest
    [(0x0001, decide (u f 0 4 ≠ 0x594C4C43) || decide (u f 4 2 ≠ 1) || decide (u f 0xC 4 ≠ 128) || decide (u f 0x1A 2 ≠ 48)),
     (0x0002, decide (beNat ((f.drop 0x38).take 64) ≠ (digestOf x).toNat)),
     (0x0003, decide (u f 8 2 ≠ 2)),
     (0x0004, decide (f.length < 128) || decide (u f 0x18 2 = 0) || decide (1024 < u f 0x18 2)),
     (0x0006, decide (4 < x.split) || decide (2 < x.steal) || decide (u f 0x28 16 ≠ 0) || decide (u f 0x78 8 ≠ 0)),
     (0x0007, decide (u f 0x10 8 % 8 ≠ 0)),
     (0x0012, (sig && !has) || (has && !x.signed keys))]

/-! ## Step 2: sections and records -/

def Clely.nameOk (x : Clely) (o : Nat) : Bool :=
  let b := x.the 11
  decide (o < b.length) && (b.drop o).any fun c => decide (c = 0)
def Clely.nameAt (x : Clely) (o : Nat) : List Byte := ((x.the 11).drop o).takeWhile fun c => decide (c ≠ 0)

/-- A section outside the file, or two that share bytes of it (R18, R21). -/
def Clely.badBounds (x : Clely) : Bool :=
  let n := x.file.length
  let real := x.secs.drop 1
  !inside (u x.file 0x10 8) (48 * u x.file 0x18 2) n || real.any (fun s => !inside s.foff s.fsize n)
    || somePair (fun a b => meet a.foff a.fsize b.foff b.fsize) real

/-- Kinds, counts and flags (R19, R20). A kind 0 after entry 0 counts as a reserved kind, which the ignorable flag lets pass
(log 43). -/
def Clely.badKinds (x : Clely) : Bool :=
  let real := x.secs.drop 1
  let count (k : Nat) : Nat := (real.filter fun s => decide (s.kind = k)).length
  real.any (fun s => (decide (s.kind = 0) || decide (15 < s.kind)) && decide (s.flags / 2 ^ 15 = 0))
    || real.any (fun s => s.loadable && decide (s.flags / 2 ^ 15 = 1))
    || real.any (fun s => decide (s.flags / 2 % 2 = 1) != s.code && decide (s.kind ≤ 15))
    || real.any (fun s => decide (s.flags % 2 = 1) && decide (s.kind ≠ 2) && decide (s.kind ≠ 3) && decide (s.kind ≤ 15))
    || [4, 5, 6, 7, 8, 9, 10, 12, 14, 15].any (fun k => decide (1 < count k)) || decide (count 11 ≠ 1)
    || somePair (fun (a b : Sec) => decide (a.kind = 13) && decide (b.kind = 13) && decide (a.linksec = b.linksec)) real
    || (match x.sec (u x.file 0x1C 2) with
        | some s => decide (s.kind ≠ 11)
        | none => true)

/-- Reserved fields and values of sections and records. -/
def Clely.badReserved (x : Clely) : Bool :=
  let known := (x.secs.drop 1).filter fun s => decide (s.kind ≤ 15)
  (x.file.drop (u x.file 0x10 8)).take 48 != List.replicate 48 0
    || known.any (fun s => decide (s.flags % 2 ^ 15 / 4 ≠ 0) || decide (s.tail ≠ 0) || (!s.loadable && decide (s.link ≠ 0))
        || (decide (s.kind ≠ 13) && decide (s.linksec ≠ 0)))
    || x.handlers.any (fun h => decide (3 < h.prio))
    || (List.range x.templateCount).any (fun i => decide (fld (x.template i).pin 8 7 ≠ 0) || decide ((x.template i).rest ≠ 0)
        || (x.presets i).any fun p => decide (u p 1 7 ≠ 0))
    || x.counters.any (fun c => (decide (c.home ≠ 1) && decide (c.home ≠ 2)) || (decide (c.home = 2) && (decide (c.bank ≠ 0) || decide (c.group ≠ 0))))
    || x.groups.any (fun g => decide (g.resv ≠ 0) || (x.members g).any fun w => decide (fld w 0 5 ≠ 0) || (decide (fld w 30 2 ≠ 0) && decide (fld w 25 5 ≠ 0)))
    || x.tileRecs.any (fun t => decide (1 < t.mode))
    || x.syms.any (fun s => decide (6 < s.type) || decide (2 < s.bind))
    || (chunks 8 (x.the 12)).any (fun b => decide (1 < u b 3 1) || decide (u b 4 4 ≠ 0))
    || x.relocs.any (fun r => decide (r.resv ≠ 0))
    || x.places.any (fun p => decide (p.resv ≠ 0) || decide (p.low / 2 ^ 13 ≠ 0) || decide (p.ltile / 2 ^ 20 ≠ 0))

/-- Places of the loadable sections (R19, R21). A CODE size that is no multiple of 4, a ZERO section with bytes in the file and a
memsize below fsize count as LAYOUT; the align of a section that is not loadable is not checked, as R18 gives align for loadable
sections only (log 43). -/
def Clely.badLayout (x : Clely) : Bool :=
  let ls := x.secs.filter Sec.loadable
  somePair (fun (a b : Sec) => meet a.link a.memsize b.link b.memsize) ls
    || ls.any (fun s => decide (s.align < 2) || decide (26 < s.align) || decide (s.link % 2 ^ s.align ≠ 0) || decide (s.memsize < s.fsize)
        || (s.code && decide (s.fsize % 4 ≠ 0)) || (decide (s.kind = 3) && decide (s.fsize ≠ 0)))
    || decide (u x.file 0x20 8 ≠ x.span)

def Clely.groupNo (x : Clely) (g : Nat) : Bool := decide (g = 0xFFFF) || decide (g < x.groupCount)

def Clely.badHandler (x : Clely) (h : HandlerRec) : Bool :=
  decide (15 < h.cls) || decide (x.templateCount ≤ h.tmpl) || !x.groupNo h.group || decide (h.entry % 4 ≠ 0)
    || match x.sec h.codesec with
      | some s => !s.code || decide (s.fsize ≤ h.entry)
      | none => true

/-- A template that breaks R30. A preset list outside FRAMES and a preoff that is no multiple of 16 count as TEMPLATE (log 43). -/
def Clely.badTemplate (x : Clely) (i : Nat) : Bool :=
  let t := x.template i
  decide (t.preoff.toNat % 16 ≠ 0) || decide ((x.presets i).length ≠ t.npre.toNat)
    || !t.ok ((x.presets i).map fun p => u p 0 1)

def Clely.sym (x : Clely) (i : Nat) : Option SymRec := x.syms[i]?

/-- What a counter's symbol must be (R34). -/
def Clely.badCounterSym (x : Clely) (c : CounterRec) : Bool :=
  match x.sym c.sym with
  | none => true
  | some y => decide (y.type ≠ 4) || (if c.home = 1 then decide (y.sec ≠ 0xFFFF) else match x.sec y.sec with
      | some s => !s.once || decide (s.memsize < y.value + 8)
      | none => true)

def Clely.badSym (x : Clely) (y : SymRec) : Bool :=
  !x.nameOk y.name || (decide (y.sec ≠ 0xFFFF) && decide (x.secs.length ≤ y.sec)) || (decide (y.bind = 2) && decide (y.sec ≠ 0))
    || (decide (y.type = 4) && decide (y.sec ≠ 0xFFFF) && decide (y.sec ≠ 0) && !((x.sec y.sec).any fun s => s.once && decide (y.value < s.memsize)))
    || ((decide (y.type = 3) || decide (y.type = 5) || decide (y.type = 6)) && decide (y.sec ≠ 0xFFFF))
    || (decide (y.type = 3) && decide (x.templateCount ≤ y.value)) || (decide (y.type = 5) && decide (x.groupCount ≤ y.value))
    || (decide (y.type = 6) && decide (15 < y.value))

/-- A symbol that a relocation names is there and defined; symbol 0 stands for zero (R17, R44). -/
def Clely.defined (x : Clely) (i : Nat) : Bool :=
  decide (i = 0) || match x.sym i with
    | some y => decide (y.sec ≠ 0)
    | none => false

/-- Bytes that a relocation kind patches. -/
def patchWidth (kind : Nat) : Nat := if kind = 0 then 0 else if kind = 1 ∨ (0x40 ≤ kind ∧ kind ≤ 0x43) then 8 else if kind = 0x44 then 1 else 4

def Clely.patchInside (x : Clely) (sec off kind : Nat) : Bool :=
  match x.sec sec with
  | some s => s.loadable && inside off (patchWidth kind) s.memsize
  | none => false

/-- A counter record by its symbol. -/
def Clely.counterOf (x : Clely) (sym : Nat) : Option CounterRec := x.counters.find? fun c => decide (c.sym = sym)

def Clely.pinnedSym (x : Clely) (sym : Nat) : Bool :=
  match x.sym sym with
  | some y => decide (y.type = 3) && (x.template y.value).pinned
  | none => false

/-- The low field of a LAND64 (R47). -/
def badLow (low : Nat) : Bool :=
  let reg := low / 2 ^ 5 % 2 ^ 6
  let elem := low / 2 ^ 2 % 2 ^ 3
  let cls := low / 2 ^ 11 % 4
  decide (cls = 3) || (decide (cls = 1) && decide (31 < reg)) || (decide (cls = 2) && decide (3 < reg)) || (decide (cls ≠ 1) && decide (elem ≠ 0))

def Clely.badPlaceRec (x : Clely) (p : PlaceRec) : Bool :=
  if p.kind = 0x40 then !x.pinnedSym p.sym || badLow p.low
  else if p.kind = 0x41 then false
  else if p.kind = 0x42 then decide (p.sym ≠ 0) && (match x.counterOf p.sym with
      | some c => decide (c.home ≠ 1)
      | none => true)
  else if p.kind = 0x43 then (x.counterOf p.sym).isNone
  else if p.kind = 0x44 ∨ p.kind = 0x45 then match x.sym p.sym with
      | some y => decide (y.type ≠ 5)
      | none => true
  else true

def Clely.badReloc (x : Clely) (r : RelocRec) : Bool :=
  decide (11 < r.kind) || match x.counterOf r.sym with
    | some c => decide (c.home = 1) && decide (r.sym ≠ 0)
    | none => false

/-- The bytes are UTF-8, with n continuation bytes to come, the next between lo and hi. -/
def utf8 : Nat → Nat → Nat → List Byte → Bool
  | n, _, _, [] => decide (n = 0)
  | n + 1, lo, hi, b :: bs => decide (lo ≤ b.toNat) && decide (b.toNat ≤ hi) && utf8 n 0x80 0xBF bs
  | 0, _, _, b :: bs =>
    let c := b.toNat
    if c < 0x80 then utf8 0 0 0 bs
    else if c < 0xC2 then false
    else if c < 0xE0 then utf8 1 0x80 0xBF bs
    else if c = 0xE0 then utf8 2 0xA0 0xBF bs
    else if c = 0xED then utf8 2 0x80 0x9F bs
    else if c < 0xF0 then utf8 2 0x80 0xBF bs
    else if c = 0xF0 then utf8 3 0x90 0xBF bs
    else if c < 0xF4 then utf8 3 0x80 0xBF bs
    else if c = 0xF4 then utf8 3 0x80 0x8F bs
    else false

/-- STRINGS is no sequence of ended UTF-8 strings that begins with the empty one (R40). -/
def Clely.badStrings (x : Clely) : Bool :=
  let b := x.the 11
  decide (b.head? ≠ some 0) || decide (b.getLast? ≠ some 0) || !utf8 0 0 0 b

/-- Symbol 0 is not null (R41). -/
def Clely.badNull (x : Clely) : Bool := (((x.the 9).take 24).any fun b => decide (b ≠ 0))

/-- A record whose patch lies outside its section, and a section that is not whole records, count as BOUNDS; a string or a null symbol
that breaks R40 or R41 as SYMBOL; a group record whose want is 256 to 65,534, whose count is 0 or whose moff is no multiple of 4 as
GROUP. Of LINES only that it is whole records is checked (log 43). -/
def Clely.step2 (x : Clely) : Nat :=
  let ragged (k n : Nat) : Bool := decide ((x.the k).length % n ≠ 0)
  lowest
    [(0x0004, x.badBounds || ragged 4 16 || ragged 6 16 || ragged 9 24 || ragged 10 16 || ragged 12 8 || ragged 14 24
        || x.secs.any (fun s => decide (s.kind = 13) && decide (s.fsize % 24 ≠ 0))
        || x.groups.any (fun g => !inside g.moff (4 * g.count) (x.the 7).length)
        || x.tileRecs.any (fun t => decide (t.doff ≠ 0xFFFFFFFF) && !inside t.doff t.len (x.the 8).length)
        || x.relocs.any (fun r => !x.patchInside r.sec r.off r.kind) || x.places.any (fun p => !x.patchInside p.psec p.off p.kind)),
     (0x0005, x.badKinds), (0x0006, x.badReserved), (0x0007, x.badLayout), (0x0008, x.handlers.any x.badHandler),
     (0x0009, (List.range x.templateCount).any x.badTemplate),
     (0x000B, decide (256 < x.groupCount) || x.groups.any (fun g => decide (g.count = 0) || decide (g.moff % 4 ≠ 0) || (decide (255 < g.want) && decide (g.want ≠ 0xFFFF))
          || (x.members g).any fun w => decide (fld w 25 5 = 31))
        || somePair (fun (a b : GroupRec) => decide (a.want = b.want) && decide (a.want ≠ 0xFFFF)) x.groups),
     (0x000C, x.tileRecs.any fun t => decide (23 < t.bank) || !x.groupNo t.group || decide (t.boff % 8 ≠ 0) || decide (t.len % 8 ≠ 0)
        || decide (0x20000 < t.boff + t.len) || (decide (t.mode = 1) && decide (t.len ≠ 0))),
     (0x000D, x.counters.any fun c => x.badCounterSym c || (decide (c.home = 1) && (decide (23 < c.bank) || !x.groupNo c.group))),
     (0x000E, x.secs.any (fun s => decide (s.kind ≤ 15) && !x.nameOk s.name) || x.badStrings || x.badNull || (x.syms.drop 1).any x.badSym
        || somePair (fun (a b : SymRec) => decide (a.bind = 1) && decide (b.bind = 1) && decide (x.nameAt a.name = x.nameAt b.name)) (x.syms.drop 1)
        || x.relocs.any (fun r => !x.defined r.sym) || x.places.any (fun p => !x.defined p.sym)
        || x.groups.any (fun g => (x.sym g.sym).isNone)),
     (0x000F, x.relocs.any x.badReloc || x.places.any x.badPlaceRec)]

/-! ## Placement (R24) -/

structure PlcEntry where
  (ltile chip die tile : Nat)
  resv : Bool
  deriving DecidableEq, Repr

def plcEntries (bs : List Byte) : List PlcEntry := (chunks 16 bs).map fun b =>
  { ltile := u b 0 4 % 2 ^ 20, chip := u b 4 2 % 2 ^ 11, die := u b 6 1, tile := u b 7 1,
    resv := decide (u b 0 4 / 2 ^ 20 ≠ 0) || decide (u b 4 2 / 2 ^ 11 ≠ 0) || decide (u b 8 8 ≠ 0) }

/-- Logical tiles with their chips and tile keys. -/
def plcTiles (es : List PlcEntry) : Table (BitVec 11 × Nat) :=
  es.foldl (fun t e => Tab.put t e.ltile (BitVec.ofNat 11 e.chip, tileKey e.die e.tile)) []

/-- The chips of a placement. -/
def plcChips (tiles : Table (BitVec 11 × Nat)) : List (BitVec 11) := (tiles.map fun p => p.2.1).dedup

/-! ## Relocations (R45) -/

/-- A patch: bytes at an offset of a section, the bits it writes, and the value. -/
structure Patch where
  (sec off n mask val : Nat)
  deriving DecidableEq, Repr

def fitsSigned (v : Int) (n : Nat) : Bool := decide (-(2 ^ (n - 1) : Int) ≤ v) && decide (v < 2 ^ (n - 1))

/-- Width, mask and value of a link-time relocation; none where its check fails. -/
def relocValue (kind : Nat) (v p : Int) : Option (Nat × Nat × Nat) :=
  let scaled (d : Int) (x : Int) (bits : Nat) : Option (Nat × Nat × Nat) :=
    if x % d = 0 ∧ fitsSigned (x / d) bits then some (4, 2 ^ bits - 1, (x / d % (2 ^ bits : Int)).toNat) else none
  let part (lo : Nat) : Option (Nat × Nat × Nat) := some (4, 2 ^ 19 - 1, (v / (2 ^ lo : Int) % (2 ^ 19 : Int)).toNat)
  match kind with
  | 0 => some (0, 0, 0)
  | 1 => some (8, 2 ^ 64 - 1, (v % (2 ^ 64 : Int)).toNat)
  | 2 => if 0 ≤ v ∧ v < 2 ^ 32 then some (4, 2 ^ 32 - 1, v.toNat) else none
  | 3 => scaled 4 (v - p) 13
  | 4 => scaled 4 (v - p) 25
  | 5 => scaled 1 v 12
  | 6 => scaled 2 v 12
  | 7 => scaled 4 v 12
  | 8 => scaled 8 v 12
  | 9 => part 0
  | 10 => part 19
  | 11 => if 0 ≤ v ∧ v < 2 ^ 57 then part 38 else none
  | _ => none

/-- The address of a symbol: of its place in the image, or its absolute value (R44). -/
def Clely.symValue (x : Clely) (base : Nat) (i : Nat) : Int :=
  if i = 0 then 0 else match x.sym i with
    | some y => if y.sec = 0xFFFF then y.value else match x.sec y.sec with
      | some s => (base + s.link + y.value : Nat)
      | none => 0
    | none => 0

/-- The link-time patches for an image base, none where a check fails. -/
def Clely.linkPatches (x : Clely) (base : Nat) : List (Option Patch) := x.relocs.map fun r =>
  let p : Int := (base + (match x.sec r.sec with
    | some s => s.link
    | none => 0) + r.off : Nat)
  (relocValue r.kind (x.symValue base r.sym + r.add) p).map fun w => { sec := r.sec, off := r.off, n := w.1, mask := w.2.1, val := w.2.2 }

/-- Apply a patch to the contents of its section. -/
def Patch.apply (p : Patch) (bs : List Byte) : List Byte :=
  let old := u bs p.off p.n
  bs.take p.off ++ leBytes (old - old % (p.mask + 1) + p.val % (p.mask + 1)) p.n ++ bs.drop (p.off + p.n)

end Sys2Proof.Machine
end

