-- ==== Sys2Proof/Machine/Removal.lean ====
section
/-! DEFINITION. Machine/Removal.lean: suspending and resuming a job (R466, R467), and removing it in seven ordered steps
(R468–R471). The front end's commands that ask for them are in FrontEnd.lean. -/

namespace Sys2Proof.Machine

/-! ## Parts of a job on this chip -/

/-- Tiles of this chip in the job's placement. -/
def State.jobTiles (s : State) (j : BitVec 12) : List Nat :=
  ((s.job j).tiles.filter fun p => decide (p.2.1 = s.chip.chipNo)).map fun p => p.2.2

/-- Keys of the job's frame-table entries, guests among them. -/
def State.jobFrames (s : State) (j : BitVec 12) : List Nat :=
  (s.frames.filter fun p => decide (p.2.state ≠ .free) && decide (p.2.job = j)).map (·.1)

/-- Some frame of the job is resident or in a slot transfer. -/
def State.jobResident (s : State) (j : BitVec 12) : Bool :=
  s.frames.any fun p => decide (p.2.job = j) && decide (p.2.state ≠ .free) && (p.2.resident || p.2.transfer.isSome)

/-! ## Flips of a handle's pages (R123–R125) -/

/-- Physical address and value of the page-table leaf of an address. -/
def State.leafAt (s : State) (job : BitVec 12) (va : Word) : Option (Nat × Word) :=
  let root := Tab.get s.chip.troot job.toNat 0
  let down (t i : Nat) : Option (Nat × Word) := (s.pte (t + 8 * i)).bind fun e => if e.getLsbD 63 then some (t + 8 * i, e) else none
  if !root.getLsbD 63 then none
  else (down (fld root 14 38 * 2 ^ 14) (fld va 46 11)).bind fun e0 =>
    if e0.2.getLsbD 62 then none
    else (down (tableOf e0.2) (fld va 36 10)).bind fun e1 =>
      if e1.2.getLsbD 62 then none
      else (down (tableOf e1.2) (fld va 26 10)).bind fun e2 =>
        if e2.2.getLsbD 62 then some e2
        else (down (tableOf e2.2) (fld va 16 10)).bind fun e3 => if e3.2.getLsbD 62 then some e3 else none

/-- Addresses of the 64 KiB pages of a range. -/
def pagesOf (base len : Word) : List Word := (List.range (len.toNat / 0x10000)).map fun i => base + BitVec.ofNat 64 (0x10000 * i)

/-- Set or clear the ho bit of a range's pages, and invalidate their translations (R443). A range may cover a part of a 64 MiB page or of
a run only; R123 does not say how that flips, and the leaf as a whole changes, so that the rest of the page parks too (log 39). -/
def State.setHo (s : State) (job : BitVec 12) (base len : Word) (b : Bool) : State :=
  (pagesOf base len).foldl (fun s va =>
    let s := match s.leafAt job va with
      | some (pa, leaf) => (s.devWrite .device pa (leBytes (setBit leaf 55 b).toNat 8)).getD s
      | none => s
    s.invalidate (.page va job)) s

/-! ## Suspension (R466) -/

/-- Evict the job's resident frames and end its leases; the job is suspended when none is resident. -/
def State.suspendStep (s : State) (j : BitVec 12) : State :=
  if (s.job j).state = 1 ∨ (s.job j).state = 2 then
    let s := s.setJob j { s.job j with state := 2, heldAt := if (s.job j).state = 1 then s.clk.cycle else (s.job j).heldAt }
    let s := (s.jobFrames j).foldl (fun s k => s.endLease k true) s
    let s := (s.jobFrames j).foldl (fun s k =>
      if (s.frame k).resident ∧ (s.frame k).transfer.isNone then s.evict k else s) s
    if s.jobResident j then s else s.setJob j { s.job j with state := 3 }
  else s

/-- A cycle from which a wait is counted, when the cycles since `held` are not to count. -/
def afterHold (now held x : Nat) : Nat := if x ≤ held then now - (held - x) else now

/-- The aging clocks of the job's contexts and envelopes go on where they stopped (R149, R466). -/
def State.resumeAging (s : State) (j : BitVec 12) : State :=
  let move := afterHold s.clk.cycle (s.job j).heldAt
  { s with
    frames := s.frames.map fun p => (p.1, if p.2.job = j then { p.2 with lastIssue := move (max p.2.lastIssue p.2.since) } else p.2)
    cores := s.cores.map fun p => (p.1, { p.2 with
      queue := p.2.queue.map fun q => if q.env.job = j then { q with cycle := move q.cycle } else q }) }

/-- Resumption removes the effects of a suspension. -/
def State.resumeJob (s : State) (j : BitVec 12) : State :=
  if (s.job j).state = 2 ∨ (s.job j).state = 3 then (s.resumeAging j).setJob j { s.job j with state := 1 } else s

/-! ## Removal: what each step does (R468) -/

/-- Step 1: every fetched command of the job but a KILL ends with KILLED, with its waits and adds. -/
def State.removeCommands (s : State) (j : BitVec 12) : State :=
  let hit (c : Cmd) : Bool := decide (c.job = j) && decide (c.op ≠ 0x0D) && decide (c.phase ≠ .ended)
  let ids := (s.fe.cmds.filter hit).map (·.id)
  let mine : Waiter → Bool := fun w => match w with
    | .front chip cmd => decide (chip = s.chip.chipNo) && ids.contains cmd
    | .task .. => false
  let bounced := ((s.fe.cmds.filter hit).map fun c => c.bounced.length).sum
  let net := s.net.filter fun m => match m with
    | .cwait w .. => !mine w
    | .wake w .. => !mine w
    | .add (.front chip cmd) .. => !(decide (chip = s.chip.chipNo) && ids.contains cmd)
    | _ => true
  let cmds := s.fe.cmds.map fun c => if hit c then { c with phase := .ended, status := 0x0103, detail := 0, bounced := [] } else c
  let chip := { s.chip with waiters := s.chip.waiters.filter fun w => !mine w.w, spilled := s.chip.spilled.filter fun w => !mine w.w }
  let tiles := s.tiles.map fun p => (p.1, { p.2 with waiters := p.2.waiters.filter fun w => !mine w.w })
  { s with net := net, chip := chip, tiles := tiles, fe := { s.fe with cmds := cmds, out := s.fe.out - bounced } }

/-- An entry waits for n operations fewer, and is freed with the last. -/
def State.settleEntry (s : State) (c e n : Nat) : State :=
  match s.journal c e with
  | some x => s.setJournal c e (if x.copies ≤ n ∧ x.state ≠ 3 then none else some { x with copies := x.copies - n })
  | none => s

/-- The sender's entry, if it is one of this chip, loses an operation that was discarded. -/
def State.discarded (s : State) (x : Sender) : State :=
  match x with
  | .core chip c e => if chip = s.chip.chipNo then s.settleEntry c e 1 else s
  | .front chip .. => if chip = s.chip.chipNo then s.feFree 1 else s
  | _ => s

/-- Discard the envelopes of the job that are on their way, queued, held or bounced (R148). -/
def State.removeEnvelopes (s : State) (j : BitVec 12) : State :=
  let s := s.net.foldl (fun s m => match m with
    | .env e => if e.job = j ∧ e.stolen.isNone then s.discarded e.sender else s
    | .group e => if e.job = j then s.discarded e.sender else s
    | .bounce (.front c k i) e => if e.job = j then s.discarded (.front c k i) else s
    | _ => s) s
  let net := (s.net.filter fun m => match m with
    | .env e => decide (e.job ≠ j)
    | .group e => decide (e.job ≠ j)
    | .bounce _ e => decide (e.job ≠ j)
    | .late e _ => decide (e.job ≠ j)
    | _ => true).map fun m => match m with
    | .stealAns thief (some e) => if e.job = j then .stealAns thief none else m
    | .stealReq thief _ _ k => if k = j then .stealAns thief none else m
    | m => m
  let cores := s.cores.map fun p =>
    let queue := p.2.queue.filter fun q => decide (q.env.job ≠ j)
    (p.1, { p.2 with queue := queue, held := p.2.held.filter (fun q => decide (q.env.job ≠ j)),
                     idleAt := if queue.isEmpty && !p.2.queue.isEmpty then s.clk.cycle else p.2.idleAt })
  let s := s.cores.foldl (fun s p => s.refill p.1) { s with net := net, cores := cores }
  s.cores.foldl (fun s p => p.2.journal.foldl (fun s e =>
    if e.2.job = j ∧ !e.2.bounced.isEmpty then
      (s.setJournal p.1 e.1 (some { e.2 with bounced := [], state := 1 })).settleEntry p.1 e.1 e.2.bounced.length
    else s) s) s

/-- Withdraw the parked accesses of the job's tasks and stores, and its pending faults. -/
def State.removeParks (s : State) (j : BitVec 12) : State :=
  let s := s.parks.foldl (fun s p => if p.job = j then match p.who with
    | .store (.store x ..) => s.discarded x
    | _ => s
    else s) s
  let parks := s.parks.filter fun p => decide (p.job ≠ j) || (match p.who with
    | .segment .. => true
    | _ => false)
  let dies := s.dies.map fun p => (p.1, { p.2 with pft := p.2.pft.filter fun e => decide (e.job ≠ j) })
  { s with parks := parks, dies := dies }

/-- The refused entries of the job fail without traps, at every core that holds one. -/
def State.failEntries (s : State) (j : BitVec 12) : State :=
  { s with cores := s.cores.map fun p => (p.1, { p.2 with journal := p.2.journal.filter fun e => decide (e.2.job ≠ j) || decide (e.2.state ≠ 3) }) }

/-- Free every frame of the job, its forwarding entries, moves and held traffic, and fail its journal entries. -/
def State.removeFrames (s : State) (j : BitVec 12) : State :=
  let ks := s.jobFrames j
  let s := ks.foldl (fun s k => ((s.endFollow k).withdraw k).endLease k false) s
  let s := ks.foldl (fun s k =>
    let s := s.sendAll (s.frame k).heldMsgs
    let s := if (s.frame k).resident then s.leaves ((s.frame k).coreAt k) else s
    s.setFrame k (s.frame k).freed) s
  s.cores.foldl (fun s p =>
    if p.2.job = some j then
      let x := s.core p.1
      let s := s.sendAll x.traffic
      s.setCore p.1 { x with fwd := [], mig := none, traffic := [] }
    else s) (s.failEntries j)

/-- Step 2. -/
def State.removeTasks (s : State) (j : BitVec 12) : State := ((s.removeEnvelopes j).removeParks j).removeFrames j

/-- The job's worker cores belong to no job any more; no envelope is left at them (R134, R148). -/
def State.releaseCores (s : State) (j : BitVec 12) : State :=
  { s with cores := s.cores.map fun p => if p.2.job = some j then
      (p.1, { p.2 with job := none, handlers := [], mask := 0, pins := [], deadtrap := false, stealOut := false, queue := [], held := [] }) else p }

/-- The command in progress: the first of the queue, once it has begun. Of a drain all that is left is discarded (R302). -/
def ACmd.begun (c : ACmd) : Bool := !c.draining && !c.read.isEmpty

/-- Step 3: leases, requests and later commands of the job, at the tiles it is placed on; the command in progress completes (R302). -/
def State.removeArrays (s : State) (j : BitVec 12) : State :=
  (s.jobTiles j).foldl (fun s t => s.updArray t fun a =>
    { a with lease := a.lease.filter fun l => decide (l.core = 31), reqs := a.reqs.filter fun r => decide (r.core = 31),
             queue := (a.queue.take 1).filter (fun c => decide (c.job ≠ j) || c.begun) ++ (a.queue.drop 1).filter fun c => decide (c.job ≠ j) }) s

/-- The end of step 3: the accumulators of the job are zeroed and free. -/
def State.freeAccs (s : State) (j : BitVec 12) : State :=
  (s.jobTiles j).foldl (fun s t => s.updArray t fun a =>
    let free (x : Acc) : Acc := match x.owner with
      | some w => if w.job = j then Acc.reset else x
      | none => x
    { a with acc0 := free a.acc0, acc1 := free a.acc1, acc2 := free a.acc2, acc3 := free a.acc3 }) s

/-- Segments of the job's commands that have begun and not ended. -/
def State.segmentsOut (s : State) (j : BitVec 12) : Nat :=
  (s.engines.map fun p => ((p.2.cmds.filter fun c => decide (c.job = j)).map fun c => c.begun.length).sum).sum

/-- Bytes for member tiles here, held for the job, are discarded; their seqs are taken (R336, R408). -/
def State.dropHeldCopies (s : State) (j : BitVec 12) : State :=
  let mine (m : Msg) : Bool := match m with
    | .copies _ _ k _ => decide (k = j)
    | _ => false
  let t := (s.net.filter mine).foldl (fun s m => match m with
    | .copies src q _ c => (match c.tile with
      | some t => s.tileDone src t q
      | none => (s.awaitBulk src q [] []).settleBulk src)
    | _ => s) s
  { t with net := t.net.filter fun m => !mine m }

/-- Step 4: queued commands and held halves are discarded, parked segments end, active commands begin no more, which is what
cancels them (R336). -/
def State.removeEngines (s : State) (j : BitVec 12) : State :=
  let s := s.dropHeldCopies j
  let s := s.engines.foldl (fun s p => s.setEngine p.1 { s.engine p.1 with
    cmds := ((s.engine p.1).cmds.filter fun c => !(decide (c.job = j) && decide (c.state = .queued))).map fun c =>
      if c.job = j ∧ c.state = .active then { c with state := .cancelled } else c }) s
  let gone (s : State) (h : Half) : Bool := match s.halfCheck h with
    | some (k, _) => decide (k = j)
    | none => true
  let back (s : State) (h : Half) : Bool := gone s h || decide (h.origin.map (fun o => o.2.1) = some j)
  let halves := s.engines.flatMap fun p => p.2.pairing.filter (gone s) ++ p.2.resend.filter fun h => h.origin.isNone && gone s h
  let engines := s.engines.map fun p => (p.1, { p.2 with pairing := p.2.pairing.filter (fun h => !gone s h),
                                                         resend := p.2.resend.filter fun h => !back s h })
  let s := halves.foldl (fun s h => s.halfEnd h none) { s with engines := engines }
  let parked := s.parks.filter fun p => decide (p.job = j)
  let s := { s with parks := s.parks.filter fun p => decide (p.job ≠ j) }
  let s := parked.foldl (fun s p => match p.who with
    | .segment h seg => s.segEnd h seg none
    | _ => s) s
  s.engines.foldl (fun s p => p.2.cmds.foldl (fun s c =>
    if c.job = j ∧ c.begun.isEmpty then s.setEngine p.1 { s.engine p.1 with cmds := (s.engine p.1).cmds.filter fun x => decide (x.handle ≠ c.handle) }
    else s) s) s

/-- Step 6: waiters and spill records of the job. -/
def State.removeWaiters (s : State) (j : BitVec 12) : State :=
  let keep (w : CWaiter) : Bool := decide (w.job ≠ j)
  let s := s.setJob j { s.job j with removed := true }
  let chip := { s.chip with waiters := s.chip.waiters.filter keep, spilled := s.chip.spilled.filter keep }
  { s with chip := chip, tiles := s.tiles.map fun p => (p.1, { p.2 with waiters := p.2.waiters.filter keep }) }

/-- The lines of a job hold nothing that anyone can read: its key is gone (R485, R489). -/
def State.forgetLines (s : State) (j : BitVec 12) : State :=
  let mine (pa : Nat) : Bool := decide (s.lineOwner pa = some (.job j))
  let keep (c : Nat × CLine) : Bool := decide (c.2.owner ≠ some (.job j))
  { s with mem := { s.mem with
      dev := s.mem.dev.filter (fun c => !mine c.1), past := s.mem.past.filter (fun x => match x.at_ with
        | .dev pa => !mine pa
        | _ => true),
      counters := s.mem.counters.filter (fun p => match p with
        | .dev pa => !mine pa
        | _ => true),
      l1 := s.mem.l1.filter keep, way := s.mem.way.filter keep, icache := s.mem.icache.filter keep } }

/-- The pages of the job's image are free: unmapped, with no bytes, and no line owned (R28, R468). -/
def State.freeImage (s : State) (j : BitVec 12) : State :=
  let x := s.job j
  let s := x.maps.foldl (fun s va => match s.leafAt j va with
    | some (pa, _) => (s.devWrite .device pa (leBytes 0 8)).getD s
    | none => s) s
  let s := if x.maps.isEmpty then s else s.invalidate (.job j)
  x.pages.foldl (fun s p => { s with mem := { s.mem with
    dev := Tab.clear s.mem.dev (p * 0x10000) ((p + 1) * 0x10000), owner := Tab.clear s.mem.owner (p * 1024) ((p + 1) * 1024),
    past := s.mem.past.filter (fun x => !x.inDev (p * 0x10000) ((p + 1) * 0x10000)),
    counters := s.mem.counters.filter fun x => !x.inDev (p * 0x10000) ((p + 1) * 0x10000) } }) s

/-- After step 7 the job holds no image here; the KILLs that wait for it, and the reports of its faults, are done. Its
handle table stays; a flip that did not commit is undone (log 39). -/
def State.removalEnd (s : State) (j : BitVec 12) : State :=
  let s := s.freeImage j
  let hs := (s.job j).handles
  let s := hs.foldl (fun s h => if h.2.flipping then s.setHo j h.2.base h.2.len false else s) s
  let s := s.setJob j { Job.reset with removed := true, handles := hs.map fun h => (h.1, { h.2 with flipping := false }) }
  let cmds := s.fe.cmds.map fun c => if c.job = j ∧ c.op = 0x0D ∧ c.phase = .running then { c with phase := .ended, status := 0 } else c
  { s with fe := { s.fe with cmds := cmds }, net := s.net.filter fun m => match m with
    | .fatal k _ _ => decide (k ≠ j)
    | _ => true }

/-! ## Loads under way (R24, R51) -/

/-- A load that another chip leads, or this one, has taken the job. -/
def State.partOf (s : State) (j : BitVec 12) (lead : BitVec 11) : LoadIn := Tab.get s.fe.parts (j.toNat * 2 ^ 11 + lead.toNat) {}
def State.setPart (s : State) (j : BitVec 12) (lead : BitVec 11) (p : LoadIn) : State :=
  { s with fe := { s.fe with parts := Tab.put s.fe.parts (j.toNat * 2 ^ 11 + lead.toNat) p } }
def State.dropPart (s : State) (j : BitVec 12) (lead : BitVec 11) : State :=
  { s with fe := { s.fe with parts := Tab.del s.fe.parts (j.toNat * 2 ^ 11 + lead.toNat) } }

/-- Bytes of the placement, behind those of the file. -/
def LoadIn.plc (p : LoadIn) : List Byte := p.bytes.drop p.flen

/-- The other chips of a placement, as far as they are in the domain and can be asked: with no key of the job here, none can (R24,
R479). -/
def State.loadPeers (s : State) (j : BitVec 12) (p : LoadIn) : List (BitVec 11) :=
  if (s.linkKey j).isNone then []
  else (plcChips (plcTiles (plcEntries p.plc))).filter fun k => decide (k ≠ s.chip.chipNo) && decide (k.toNat < s.chip.nChips)

/-- Tell every other chip of the load. -/
def State.loadTell (s : State) (j : BitVec 12) (ks : List (BitVec 11)) (ms : List LoadMsg) : State :=
  ks.foldl (fun s k => ms.foldl (fun s m => s.toPeer k j false 0 (.msg (.loadPart j s.chip.chipNo m))) s) s

/-- A rejected load leaves nothing: its cores belong to no job again, and what it has put into memory is freed (R51, R134). -/
def State.loadUndo (s : State) (j : BitVec 12) (lead : BitVec 11) : State :=
  let s := if (s.partOf j lead).held.isEmpty then s else s.releaseCores j
  let s := if (s.job j).pages.isEmpty ∨ (s.job j).image then s
    else ((s.removeFrames j).freeImage j).setJob j { s.job j with pages := [], maps := [] }
  s.dropPart j lead

/-- A removal ends the loads of the job that are under way here; the other chips of one that this chip leads are told (R51, R468). -/
def State.removeLoads (s : State) (j : BitVec 12) : State :=
  (s.fe.parts.filter fun p => decide (p.1 / 2 ^ 11 = j.toNat)).foldl (fun (s : State) p =>
    let lead := BitVec.ofNat 11 p.1
    let s := if lead = s.chip.chipNo then s.loadTell j (s.loadPeers j p.2) [.undo] else s
    s.loadUndo j lead) s

/-! ## The in-flight counts (R468, R471) -/

/-- A task of the job's cores that is gone: its frame is free or of another generation. -/
def State.staleTask (s : State) (j : BitVec 12) (who : TaskId) : Bool :=
  decide (who.chip = s.chip.chipNo) && decide ((s.core (coreOfFrame who.key)).job = some j)
    && ((s.frame who.key).gone || decide ((s.frame who.key).gen ≠ who.gen))

/-- Transmitted journal entries and outstanding long-latency requests of the job's frames. -/
def State.tasksOut (s : State) (j : BitVec 12) : Nat :=
  (s.cores.map fun p => (p.2.journal.filter fun e => decide (e.2.job = j)).length).sum
    + (s.net.filter fun m => match m with
      | .read who .. => s.staleTask j who
      | .observe who .. => s.staleTask j who
      | .add (.value who _) .. => s.staleTask j who
      | .atomic none who .. => s.staleTask j who
      | .engQuery who .. => s.staleTask j who
      | .reply who .. => s.staleTask j who
      | .remote who .. => s.staleTask j who
      | _ => false).length

/-- Operations of the job on their way to a home of this chip. -/
def State.opsOut (s : State) (j : BitVec 12) : Nat :=
  (s.net.filter fun m => decide (m.job? = some j) && match m.place? with
    | some (.peer .., _) => false
    | some _ => true
    | none => false).length

/-- The current step's in-flight count. -/
def State.inflight (s : State) (j : BitVec 12) : Nat :=
  match (s.job j).step.toNat with
  | 2 => s.tasksOut j
  | 3 => (s.arrays.map fun p => (p.2.queue.filter fun c => decide (c.job = j)).length).sum
  | 4 => s.segmentsOut j
  | 5 => s.packetsOut j
  | 6 => s.opsOut j
  | 7 => s.opsOut j
  | _ => 0

/-! ## The order of the steps -/

/-- A removal begins with step 1. -/
def State.removalStart (s : State) (j : BitVec 12) (cause : Byte) : State :=
  let s := (s.removeCommands j).removeLoads j
  s.setJob j { s.job j with state := 4, step := 1, cause := cause }

/-- The action of a step. -/
def State.removalAction (s : State) (j : BitVec 12) (step : Nat) : State :=
  match step with
  | 2 => s.removeTasks j
  | 3 => (s.releaseCores j).removeArrays j
  | 4 => (s.freeAccs j).removeEngines j
  | 6 => s.removeWaiters j
  | _ => s

/-- When the count of the current step is zero the next step begins; after step 7 the removal ends. In step 2 refused entries fail as
they come back, and in step 5 the packets of the job are discarded. -/
def State.removalStep (s : State) (j : BitVec 12) : State :=
  let x := s.job j
  if x.state ≠ 4 then s
  else if x.step = 5 ∧ s.packetsLeft j then s.dropPackets j
  else if s.inflight j ≠ 0 then (if x.step = 2 then s.failEntries j else s)
  else if x.step = 7 then s.removalEnd j
  else (s.setJob j { x with step := x.step + 1 }).removalAction j (x.step.toNat + 1)

/-- A fatal fault of the job, reported by a die, starts its removal without a command (R433). -/
def State.fatalRemoval (s : State) (n : Nat) : State :=
  match s.net[n]? with
  | some (.fatal j cause _) =>
    if (s.job j).state = 0 then s.dropMsg n
    else if (s.job j).state = 4 then s.removalStep j
    else s.removalStart j cause
  | _ => s

/-- JSTATE (R471). -/
def State.jstate (s : State) (j : BitVec 12) : Word :=
  let x := s.job j
  at64 x.state.toNat 61 + at64 x.step.toNat 57 + at64 x.cause.toNat 49 + at64 (min (s.inflight j) 0xFFFFFFFF) 0

end Sys2Proof.Machine
end

