-- ==== Sys2Proof/Machine/Rows.lean ====
section
/-! DEFINITION. Machine/Rows.lean: the register rows of the tile window, read and written eight bytes at a time (R8,
R201): status blocks (R163), journal registers (R216), group table (R158), TSCTL (R205), TROOT (R439), fault records
(R446), TVEC (R429), JSTATE (R471), MIGCMD (R457), JPOL (R479), the Eyepiece block (R492) and the fabric block (R417,
R418). An offset inside a row that names no register is reserved: it reads zero and keeps nothing (R4). -/

namespace Sys2Proof.Machine

/-! ## Fields -/

/-- A W1C field of `len` bits: each bit written with 1 is cleared (R8). -/
def clr (v : Word) (lo len old : Nat) : Nat := old &&& (2 ^ len - 1 - fld v lo len)

/-! ## Status blocks and journal (R163, R216) -/

/-- Free frames of a core, without pinned reservations. -/
def State.framesFree (s : State) (c : Nat) : Nat :=
  (idxs 256 fun n => decide ((s.frame (c * 256 + n)).state = .free) && (Tab.get? (s.core c).pins n).isNone).length

def State.statusRead (s : State) (c reg : Nat) : Word :=
  let x := s.core c
  match reg with
  | 0 => at64 (s.framesFree c) 48 + at64 (x.stored .spill) 40 + at64 (x.stored .inbox) 32 + at64 x.heldPlaces 27 + at64 x.mask.toNat 0
  | 1 => at64 x.qdead 32 + at64 x.orphans 16 + at64 x.bounces 0
  | 2 => (BitVec.ofNat 16 ((List.range 16).foldl (fun m n => if (x.handler (BitVec.ofNat 4 n)).bound then m + 2 ^ n else m) 0)).setWidth 64
  | 3 => at64 (b2n x.deadtrap) 0
  | 4 => at64 x.jrefused 32 + at64 x.jdead 16 + at64 x.journal.length 0
  | _ => 0

def State.statusWrite (s : State) (c reg : Nat) (v : Word) : State :=
  let x := s.core c
  match reg with
  | 1 => s.setCore c { x with qdead := clr v 32 32 x.qdead, orphans := clr v 16 16 x.orphans, bounces := clr v 0 16 x.bounces }
  | 3 => s.setCore c { x with deadtrap := v.getLsbD 0 }
  | 4 => s.setCore c { x with jrefused := clr v 32 32 x.jrefused, jdead := clr v 16 16 x.jdead }
  | _ => s

/-- JENT0 and JENT1; the record of a free entry reads 0 (log 38). -/
def State.entryRead (s : State) (c e : Nat) (second : Bool) : Word :=
  match s.journal c e with
  | none => 0
  | some x =>
    if second then at64 x.task.gen.toNat 32 + at64 (frameNo x.task.key) 24 + at64 x.kind.toNat 16 + at64 x.reason.toNat 8 + at64 x.state.toNat 0
    else x.dest

/-! ## Group table (R158, R159) -/

def State.groupRead (s : State) (g reg : Nat) : Word :=
  let x := s.group g
  match reg with
  | 0 => at64 x.err.toNat 36 + at64 (b2n x.shv) 35 + at64 (b2n x.busy) 34 + at64 (b2n x.pv) 33 + at64 (b2n x.cv) 32
      + at64 x.prev.toNat 16 + at64 x.cur.toNat 0
  | 1 => at64 x.saddr.toNat 6
  | 2 => at64 x.nver.toNat 48 + at64 (b2n x.sv) 28 + at64 x.job.toNat 16 + at64 x.count.toNat 0
  | _ => 0

def State.groupWrite (s : State) (g reg : Nat) (v : Word) : State :=
  let x := s.group g
  match reg with
  | 0 => s.setGroup g { x with err := x.err &&& ~~~(v.extractLsb' 36 4) }
  | 1 => s.setGroup g { x with saddr := v.extractLsb' 6 51 }
  | 2 => s.setGroup g { x with nver := v.extractLsb' 48 16, sv := v.getLsbD 28, job := v.extractLsb' 16 12, count := v.setWidth 16 }
  | _ =>
    match fld v 0 2 with
    | 1 => s.groupLoad g
    | 2 => s.groupCommit g
    | 3 => s.setGroup g { x with shv := false, shadow := [] }
    | _ => s

/-! ## Fault records (R446) -/

def State.faultRead (s : State) (d off : Nat) : Word :=
  let x := s.die d
  if off = 0 then at64 (b2n x.pgEn) 63 + at64 x.pgTile.toNat 8 + at64 x.pgClass.toNat 0
  else if off = 8 then x.pfstat
  else if off = 0x10 then 0
  else if 0x100 ≤ off ∧ off < 0x180 then
    match Tab.get? x.fb ((off - 0x100) / 16) with
    | none => 0
    | some e =>
      if off % 16 = 0 then at64 1 63 + at64 e.kind.toNat 60 + at64 e.job.toNat 48 + at64 e.level.toNat 44 + at64 e.page.toNat 0
      else at64 e.count 48 + at64 e.core.toNat 43 + at64 e.tile.toNat 35 + at64 e.time.toNat 0
  else 0

def State.faultWrite (s : State) (d off : Nat) (v : Word) : State :=
  let x := s.die d
  if off = 0 then s.setDie d { x with pgEn := v.getLsbD 63, pgTile := v.extractLsb' 8 8, pgClass := v.setWidth 4 }
  else if off = 8 then s.setDie d { x with dropped := x.dropped && !v.getLsbD 63, dropcount := clr v 32 16 x.dropcount }
  else if off = 0x10 then s.fbclr d v
  else s

/-! ## Moves (R457) -/

def State.moveRead (s : State) (c : Nat) (second : Bool) : Word :=
  let x := s.core c
  if second then at64 (b2n x.mig.isSome) 63 + at64 x.migres.toNat 60 + at64 x.fwdUsed 16 + at64 x.miggf.toNat 8 + at64 x.migfr.toNat 0
  else 0

/-! ## Eyepiece (R492) -/

def State.eyeRead (s : State) (off : Nat) : Word :=
  let d := s.dbg
  if off = 0 then at64 (b2n d.open_) 63 + at64 (b2n d.err) 62 + at64 d.job.toNat 0
  else if off = 8 then s.eystop
  else if 0x40 ≤ off ∧ off < 0x80 then Tab.get d.bps ((off - 0x40) / 8) 0
  else if off = 0x80 then at64 (b2n d.on) 63 + at64 (b2n d.wrap) 61 + at64 (b2n d.chrono) 60 + at64 (b2n d.samp) 59 + at64 d.sper.toNat 55
  else if off = 0x88 then d.baseVa
  else if off = 0x90 then d.lg.setWidth 64
  else if off = 0x98 then d.head
  else if off = 0xA0 then at64 (b2n d.lost) 63 + at64 (b2n d.pinerr) 62 + at64 d.refused 32 + at64 d.lostcnt 0
  else if off = 0x1F8 then d.chrhead
  else if 0x200 ≤ off ∧ off < 0x400 then
    match s.chrRec ((off - 0x200) / 32) with
    | none => 0
    | some r => if off / 8 % 4 = 0 then r.w0 else if off / 8 % 4 = 1 then r.w1 else if off / 8 % 4 = 2 then r.w2 else r.w3
  else 0

def State.eyeWrite (s : State) (off : Nat) (v : Word) : State :=
  let d := s.dbg
  if off = 0 then s.eyctlWrite v
  else if off = 8 then s.eystopWrite v
  else if 0x40 ≤ off ∧ off < 0x80 then s.setDbg { d with bps := Tab.put d.bps ((off - 0x40) / 8) (v &&& ~~~3#64) }
  else if off = 0x80 then s.trctlWrite v
  else if off = 0x88 then s.setDbg { d with base := v.extractLsb' 16 41 }
  else if off = 0x90 then s.setDbg { d with lg := v.setWidth 4 }
  else if off = 0xA0 then
    s.setDbg { d with lost := d.lost && !v.getLsbD 63, pinerr := d.pinerr && !v.getLsbD 62, refused := clr v 32 16 d.refused,
                      lostcnt := clr v 0 32 d.lostcnt }
  else s

/-! ## Fabric block (R395, R400, R413, R417, R418) -/

/-- Route class r: planes 0xF at reset; class 0 is never masked. -/
def Fabric.classOf (f : Fabric) (r : Nat) : BitVec 32 := Tab.get f.rclass r 0xF
def Fabric.keepClass (r : Nat) (v : BitVec 32) : BitVec 32 := (v &&& 0x8000003F) &&& (if r = 0 then 0x7FFFFFFF else 0xFFFFFFFF)

def Port.pstat (x : Port) : Word :=
  at64 (b2n (decide (x.state = 1))) 63 + at64 x.state.toNat 61 + at64 (b2n x.width) 60 + at64 x.lanes.toNat 56 + at64 x.mstreak.toNat 54
    + at64 x.occ.toNat 46 + at64 x.pchip.toNat 35 + at64 x.pport.toNat 29 + at64 x.transit.toNat 24

def State.fabRead (s : State) (off : Nat) : Word :=
  let f := s.fab
  if off = 0 then at64 f.relaydrop 32 + at64 (min (f.resent / 1000) 0xFFFF) 16 + at64 f.events 0
  else if off = 8 then f.albase
  else if off = 0x10 then f.epoch.setWidth 64
  else if 0x100 ≤ off ∧ off < 0x500 then
    let x := s.port ((off - 0x100) / 16)
    if off % 16 = 0 then x.pstat else at64 x.mism 40 + at64 x.lost 32 + at64 x.keyfail 0
  else if 0x1000 ≤ off ∧ off < 0x1020 then
    let r := (off - 0x1000) / 4
    at64 (f.classOf (r + 1)).toNat 32 + at64 (f.classOf r).toNat 0
  else if 0x2000 ≤ off ∧ off < 0x4000 then
    let j := (off - 0x2000) / 2
    (List.range 4).foldl (fun w i => w + at64 (Tab.get f.rmap (j + i) 0).toNat (16 * i)) 0
  else if 0x10000 ≤ off ∧ off < 0x18000 then Tab.get (s.port ((off - 0x10000) / 0x200)).shares ((off - 0x10000) % 0x200 / 8) 0
  else if 0x20000 ≤ off ∧ off < 0x21800 then
    let n := (off - 0x20000) / 4
    at64 (Tab.get f.almanac (n + 1) 0).toNat 32 + at64 (Tab.get f.almanac n 0).toNat 0
  else 0

def State.fabWrite (s : State) (off : Nat) (v : Word) : State :=
  let f := s.fab
  let put (g : Fabric) : State := { s with fab := g }
  if off = 0 then
    put { f with relaydrop := clr v 32 32 f.relaydrop, resent := 1000 * clr v 16 16 (min (f.resent / 1000) 0xFFFF) + f.resent % 1000, events := clr v 0 16 f.events }
  else if 0x100 ≤ off ∧ off < 0x500 then
    let p := (off - 0x100) / 16
    if off % 16 = 0 then (if v.getLsbD 63 then s.reenable p else s)
    else
      let x := s.port p
      s.setPort p { x with mism := clr v 40 24 x.mism, lost := clr v 32 8 x.lost, keyfail := clr v 0 32 x.keyfail }
  else if !f.forming then s
  else if off = 8 then put { f with albase := v }
  else if off = 0x10 then put { f with epoch := v.setWidth 12 }
  else if 0x1000 ≤ off ∧ off < 0x1020 then
    let r := (off - 0x1000) / 4
    put { f with rclass := Tab.put (Tab.put f.rclass r (Fabric.keepClass r (v.setWidth 32))) (r + 1) (Fabric.keepClass (r + 1) (v.extractLsb' 32 32)) }
  else if 0x2000 ≤ off ∧ off < 0x4000 then
    let j := (off - 0x2000) / 2
    put { f with rmap := (List.range 4).foldl (fun t i => Tab.put t (j + i) (v.extractLsb' (16 * i) 16 &&& 0x7777)) f.rmap }
  else if 0x10000 ≤ off ∧ off < 0x18000 then
    let p := (off - 0x10000) / 0x200
    let x := s.port p
    s.setPort p { x with shares := Tab.put x.shares ((off - 0x10000) % 0x200 / 8) (v &&& 0x80000FFF0FFF00FF#64) }
  else if 0x20000 ≤ off ∧ off < 0x21800 then
    let n := (off - 0x20000) / 4
    let keep (w : BitVec 32) : BitVec 32 := w &&& 0xC001FFFF
    put { f with almanac := Tab.put (Tab.put f.almanac n (keep (v.setWidth 32))) (n + 1) (keep (v.extractLsb' 32 32)) }
  else s

/-! ## The rows -/

/-- Read eight bytes of a register row of a tile. -/
def State.rowRead (s : State) (t off : Nat) : Word :=
  if 0xF0000000 ≤ off ∧ off < 0xF0002000 then s.statusRead (t * 32 + (off - 0xF0000000) / 0x100) (off % 0x100 / 8)
  else if 0xF1000000 ≤ off ∧ off < 0xF1002000 then s.groupRead ((off - 0xF1000000) / 0x20) (off % 0x20 / 8)
  else if off = 0xF2000000 then s.tsctlRead t
  else if 0xF3000000 ≤ off ∧ off < 0xF3008000 then
    s.entryRead (t * 32 + (off - 0xF3000000) / 0x400) (off % 0x400 / 16) (decide (off % 16 = 8))
  else if 0xF4000000 ≤ off ∧ off < 0xF4008000 then Tab.get s.chip.troot ((off - 0xF4000000) / 8) 0
  else if 0xF5000000 ≤ off ∧ off < 0xF5000200 then s.faultRead (dieOfTile t) (off - 0xF5000000)
  else if off = 0xF6000000 then (s.tile t).tvec
  else if 0xF7000000 ≤ off ∧ off < 0xF7008000 then s.jstate (BitVec.ofNat 12 ((off - 0xF7000000) / 8))
  else if 0xF8000000 ≤ off ∧ off < 0xF8000200 then s.moveRead (t * 32 + (off - 0xF8000000) / 16) (decide (off % 16 = 8))
  else if 0xF9000000 ≤ off ∧ off < 0xF9008000 then s.jpol (BitVec.ofNat 12 ((off - 0xF9000000) / 8))
  else if 0xFA000000 ≤ off ∧ off < 0xFA000400 then s.eyeRead (off - 0xFA000000)
  else if 0xFC000000 ≤ off ∧ off < 0xFC021800 then s.fabRead (off - 0xFC000000)
  else 0

/-- Write eight bytes of a register row of a tile. -/
def State.rowWrite (s : State) (t off : Nat) (v : Word) : State :=
  if 0xF0000000 ≤ off ∧ off < 0xF0002000 then s.statusWrite (t * 32 + (off - 0xF0000000) / 0x100) (off % 0x100 / 8) v
  else if 0xF1000000 ≤ off ∧ off < 0xF1002000 then s.groupWrite ((off - 0xF1000000) / 0x20) (off % 0x20 / 8) v
  else if off = 0xF2000000 then s.tsctlWrite t v
  else if 0xF4000000 ≤ off ∧ off < 0xF4008000 then
    { s with chip := { s.chip with troot := Tab.put s.chip.troot ((off - 0xF4000000) / 8) (v &&& 0x800FFFFFFFFFC000#64) } }
  else if 0xF5000000 ≤ off ∧ off < 0xF5000200 then s.faultWrite (dieOfTile t) (off - 0xF5000000) v
  else if off = 0xF6000000 then s.setTile t { s.tile t with tvec := v &&& 0x81FFFFFFFFFFFFFC#64 }
  else if 0xF8000000 ≤ off ∧ off < 0xF8000200 then
    if off % 16 = 0 then s.migrateStart (t * 32 + (off - 0xF8000000) / 16) v else s
  else if 0xFA000000 ≤ off ∧ off < 0xFA000400 then s.eyeWrite (off - 0xFA000000) v
  else if 0xFC000000 ≤ off ∧ off < 0xFC021800 then s.fabWrite (off - 0xFC000000) v
  else s

abbrev RwOut := Host.Outcome State Fault Refusal

/-- GROUP_COMMIT (R159, R160). -/
def execGroupCommit (g : Nat) (s : State) : RwOut := .next (s.groupCommit g)

end Sys2Proof.Machine
end

