-- ==== Sys2Proof/Machine/Home.lean ====
section
/-! DEFINITION. Machine/Home.lean: what messages do where they arrive: reads, stores and `pst` at their homes (R211, R212,
R225), landings at their frames (R218–R224), acknowledgements and refusals at the journal (R214, R215), counters and
their waiters (R338, R344–R354), data atomics (R357–R361), replies at their tasks (R210), and the end of a slot
transfer (R167). -/

namespace Sys2Proof.Machine

/-! ## Parts -/

/-- The core at which a task of this chip runs. -/
def State.taskCore (s : State) (who : TaskId) : Nat :=
  let k := s.homeOf who.key
  (s.frame k).coreAt k

/-- Acknowledge an operation to its sender; nobody waits for what has no sender. -/
def State.acked (s : State) (x : Sender) (job : BitVec 12) (see : Option Nat) : State :=
  match x with
  | .nobody => s
  | .array .. => s
  | .die _ => s
  | x => s.answer (x.chip s.chip.chipNo) job 2 (.ack x see)

/-- Refuse an operation with a reason (R215). -/
def State.refused (s : State) (x : Sender) (job : BitVec 12) (reason : Byte) : State :=
  match x with
  | .nobody => s
  | .array .. => s
  | x => s.answer (x.chip s.chip.chipNo) job 8 (.refusal x Cause.REFUSED reason)

/-! ## Seeing (R502) -/

/-- Where a reply comes from: the tile of the home, if it is on this chip, and the column k. -/
def State.seenAt (s : State) (p : Place) (ctr amo : Bool) : Option (Option Nat × Nat) :=
  let coin := Config.freeBool s.clk.free 13
  match p with
  | .dev pa => some (some (Config.sliceOf (pa / 64) / 2), if amo then 6 else if ctr then (if coin then 4 else 5) else if coin then 2 else 3)
  | .bank t _ => some (some t, if amo then 6 else 0)
  | .host _ => some (none, if amo then 6 else 8)
  | .frameCtr la => some (some (tileOfCore la.core?), 7)
  | .sram c _ => if amo then some (some (tileOfCore c), 6) else none
  | _ => none

/-- The accumulator that counts it for a core of a chip. -/
def State.seeIdx (s : State) (chip : BitVec 11) (core : Nat) (w : Option (Option Nat × Nat)) : Option Nat :=
  w.map fun x => match x.1 with
    | some t => if chip = s.chip.chipNo then seeIndex core t x.2 else 48 + x.2
    | none => 48 + x.2

/-- The core that issued what a destination of a task of this chip awaits. -/
def State.issuer (s : State) (who : TaskId) (dst : Dst) : Nat := (s.frame (s.homeOf who.key)).issuerAt (s.homeOf who.key) dst

def State.seeTask (s : State) (who : TaskId) (dst : Dst) (w : Option (Option Nat × Nat)) : Option Nat := s.seeIdx who.chip (s.issuer who dst) w
def State.seeSender (s : State) (x : Sender) (w : Option (Option Nat × Nat)) : Option Nat :=
  match x with
  | .core chip c _ => s.seeIdx chip c w
  | _ => none

/-- One reply is added to an accumulator; none if it is full (R502). -/
def seeAdd (w : Word) (v : Nat) : Option Word :=
  let count := fld w 44 20
  let sum := fld w 0 44
  if count = 2 ^ 20 - 1 ∨ 2 ^ 44 - 1 < sum + v then none else some (at64 (count + 1) 44 + at64 (sum + v) 0)

/-- A reply counts in an accumulator of a core; one that missed an update stands until it is written (R502). -/
def State.seen (s : State) (c : Nat) (see : Option Nat) : State :=
  match see with
  | none => s
  | some i =>
    let x := s.core c
    if x.seeFull.contains i then s
    else match seeAdd (Tab.get x.see i 0) (Config.seeing s.clk.free).toNat with
      | some w => (s.setCore c { x with see := Tab.put x.see i w }).fresh
      | none => (s.setCore c { x with seeFull := i :: x.seeFull }).fresh

/-! ## Copies of own lines (R203, R205, R213) -/

/-- A write performed at its home shows in the issuing core's L1 copy and its tile's way copy. -/
def State.patchOwn (s : State) (who : TaskId) (p : Place) (bs : List Byte) : State :=
  match p with
  | .dev pa =>
    if who.chip = s.chip.chipNo then (s.patchL1 (s.taskCore who) pa bs).patchWay (tileOfCore (s.taskCore who)) pa bs else s
  | _ => s

/-- After a read was served from a line, an older L1 copy is replaced; without one, the fill is free (log 4). -/
def State.refreshL1 (s : State) (c pa : Nat) (l : CLine) : State :=
  if (Tab.get? s.mem.l1 (l1Key c (pa / 64))).isSome || Config.freeBool s.clk.free 14 then s.fillL1 c pa l else s

/-- The copies of a reader whose value was read at the home (R367). -/
def State.renewFor (s : State) (who : TaskId) (p : Place) : State :=
  match p with
  | .dev pa => if who.chip = s.chip.chipNo then s.renew (s.taskCore who) pa else s
  | _ => s

/-- A refused store leaves nothing behind: the L1 copy that it updated at issue is dropped (R212). -/
def State.unstore (s : State) (x : Sender) (p : Place) : State :=
  match x, p with
  | .core chip c _, .dev pa => if chip = s.chip.chipNo then s.dropL1 c pa else s
  | _, _ => s

def State.refreshWay (s : State) (t pa : Nat) (l : CLine) : State :=
  if (Tab.get? s.mem.way (wayKey t (pa / 64))).isSome || Config.freeBool s.clk.free 15 then s.fillWay t pa l else s

/-! ## Reads and writes at a home (R211, R212, R469) -/

/-- The home serves the job: it was not removed from this chip, and the place answers. -/
def State.homeOpen (s : State) (job : BitVec 12) (p : Place) : Eng Unit :=
  if (s.job job).removed then (s, .error (.fail Cause.PERM))
  else match p with
    | .win .. => (s, .ok ())
    | .cap .. => (s, .ok ())
    | p => s.engOpen p

/-- The queue whose publish counter lies at an address (R112). -/
def pubOf (pa : Nat) : Option Nat :=
  if pa < 2 ^ 39 then none
  else
    let q := (pa - Config.pubPa 0) / 64
    if Config.pubPa 0 ≤ pa ∧ q < 256 ∧ pa / 8 = Config.pubPa q / 8 then some q else none

def State.queueOf (s : State) (q : Nat) : Queue := Tab.get s.fe.queues q Queue.reset
def State.setQueue (s : State) (q : Nat) (x : Queue) : State := { s with fe := { s.fe with queues := Tab.put s.fe.queues q x } }

/-- Bytes of a publish counter's line; only the counter has a value. -/
def State.pubBytes (s : State) (q pa n : Nat) : List Byte :=
  ((leBytes (s.queueOf q).pub.toNat 8 ++ (List.range 56).map fun i => Config.freeByte s.clk.free i).drop (pa % 64)).take n

def State.homeGet (s : State) (job : BitVec 12) (p : Place) (n : Nat) : Eng (List Byte) :=
  match s.homeOpen job p with
  | (s, .error e) => (s, .error e)
  | (s, .ok ()) =>
    match p with
    | .dev pa => match pubOf pa with
      | some q => (s, if (s.queueOf q).job = job then .ok (s.pubBytes q pa n) else .error (.fail Cause.PERM))
      | none => match s.devRead (tagOf job) pa n with
        | .bytes bs => (s, .ok bs)
        | .err c => (s, .error (.fail c))
    | .host a => (s, if s.hostAnswers a then .ok (s.hostBytes a n) else .error (.fail Cause.PERM))
    | .image k off => (s, (s.imageGot k off n).eng)
    | .win t off => (s, .ok (leBytes (s.rowRead t off).toNat 8))
    | .cap off svc => (s, .ok (((leBytes (s.capWord off svc).toNat 8).drop (off % 8)).take n))
    | p => (s, (s.localGot p n).eng)

/-- A write at its home, but for what R340 says of counters. -/
def State.homeSet (s : State) (job : BitVec 12) (p : Place) (bs : List Byte) : Eng Unit :=
  match s.homeOpen job p with
  | (s, .error e) => (s, .error e)
  | (s, .ok ()) =>
    match p with
    | .dev pa => match pubOf pa with
      | some q =>
        if (s.queueOf q).job = job then (s.setQueue q { s.queueOf q with pub := leWord bs }, .ok ()) else (s, .error (.fail Cause.PERM))
      | none => match s.devWrite (tagOf job) pa bs with
        | some s => (s, .ok ())
        | none => (s, .error (.fail Cause.PERM))
    | .host a => (s.hostPut a bs, .ok ())
    | .image k off => (s.imagePut k off bs, .ok ())
    | .win t off => (s.rowWrite t off (leWord bs), .ok ())
    | .cap off _ => (if off = 0x18 then { s with pwr := s.pwr.write (leWord bs) } else s, .ok ())
    | p => (s.localPut p bs, .ok ())

/-- A write at its home: counters among its bytes become undefined (R340). -/
def State.homePut (s : State) (job : BitVec 12) (p : Place) (bs : List Byte) : Eng Unit :=
  match s.homeSet job p bs with
  | (s, .ok ()) => match p with
    | .dev pa => match pubOf pa with
      | some q => ((s.setQueue q { s.queueOf q with pub := Config.freeWord s.clk.free 30 }).fresh, .ok ())
      | none => (s.spoil p bs.length, .ok ())
    | p => (s.spoil p bs.length, .ok ())
  | r => r

/-- A write with its number at its home: it enters the record of its locations (R365). -/
def State.homeWrite (s : State) (w : WNo) (atom : Bool) (job : BitVec 12) (p : Place) (bs : List Byte) : Eng Unit :=
  match s.homePut job p bs with
  | (t, .ok ()) => (s.recorded t w atom p bs, .ok ())
  | r => r

abbrev HmOut := Host.Outcome State Fault Refusal

/-- What stops an operation at its home: it fails, or it waits for its bank. -/
def State.homeStop (s0 : State) (s : State) (e : EngStop) (fail : State → Byte → State) : HmOut :=
  match e with
  | .fail c => .next (fail s c).fresh
  | .wait => .next s
  | _ => .next s0

/-! ## Loads (R210, R211) -/

/-- A reply takes the place of its request, or leaves for its chip. -/
def State.replyAt (s : State) (n : Nat) (who : TaskId) (job : BitVec 12) (dst : Dst) (v : Res) (acq : Option (Scope × List Rel)) (see : Option Nat) : State :=
  if who.chip = s.chip.chipNo then s.swapMsg n (.reply who dst v acq see)
  else (s.dropMsg n).toPeer who.chip job false 2 (.msg (.reply who dst v acq see))

/-- A request leaves for a peer chip; the marker stays in its place. -/
def State.departs (s : State) (n : Nat) (chip : BitVec 11) (job : BitVec 12) (kind : BitVec 4) (m stay : Msg) : State :=
  (s.swapMsg n stay).toPeer chip job false kind (.msg m)

/-- The reader's own tile may serve the read from a cache way, with a value that the read may return (R205, R366). -/
def State.wayHit (s : State) (who : TaskId) (job : BitVec 12) (p : Place) (n : Nat) (ks : List Nat) : Option (Nat × CLine) :=
  match p with
  | .dev pa =>
    let t := tileOfCore (s.taskCore who)
    if who.chip = s.chip.chipNo ∧ s.hasWay t ∧ Config.freeBool s.clk.free 16 then
      match s.wayLine t pa (tagOf job) with
      | some l => if (s.look who ks p (s.homeBytes p n)).2 = (l.bytes.drop (pa % 64)).take n then some (pa, l) else none
      | none => none
    else none
  | _ => none

/-- The line copies after a read that its home served. -/
def State.refill2 (s : State) (who : TaskId) (job : BitVec 12) (p : Place) : State :=
  match p with
  | .dev pa =>
    if who.chip = s.chip.chipNo ∧ s.lineOwner pa = some (tagOf job) then
      let c := s.taskCore who
      let l := s.homeLine pa
      (s.refreshL1 c pa l).refreshWay (tileOfCore c) pa l
    else s
  | _ => s

/-- What a read at its home returns: of a location the value that its task may see, free among the candidates; a fetched
instruction word, or a word that is no location, has one value (R366). -/
def State.readView (s : State) (who : TaskId) (dst : Dst) (ks : List Nat) (p : Place) (bs : List Byte) : State × List Byte :=
  match dst with
  | .code _ => (s, bs)
  | .engine .. => (s, (s.view none ks p bs).1)
  | _ => s.look who ks p bs

/-- A read at its home. -/
def State.readAt (s : State) (n : Nat) : HmOut :=
  match s.deliverable n with
  | some (.read who job p size dst ks) =>
    match p with
    | .peer c _ => .next (s.departs n c job 1 (.read who job p size dst ks) (.remote who dst false))
    | _ =>
      match s.wayHit who job p size ks with
      | some (pa, l) =>
        let t := tileOfCore (s.taskCore who)
        let s := (s.look who ks p (s.homeBytes p size)).1
        let s := s.replyAt n who job dst (.ok (leWord ((l.bytes.drop (pa % 64)).take size))) none (some (seeIndex (s.issuer who dst) t 1))
        .next (s.refreshL1 (s.taskCore who) pa l).fresh
      | none =>
        match s.homeGet job p size with
        | (x, .error e) => s.homeStop x e fun s c => s.replyAt n who job dst (.err c) none (s.seeTask who dst (s.seenAt p false false))
        | (s, .ok bs) =>
          let r := s.readView who dst ks p bs
          let s := r.1.replyAt n who job dst (.ok (leWord r.2)) none (s.seeTask who dst (s.seenAt p false false))
          .next (s.refill2 who job p).fresh
  | _ => .next s

/-! ## Stores (R212, R225) -/

/-- A `pst` entry waits for its counter add. -/
def State.awaitAdd (s : State) (x : Sender) : State :=
  match x with
  | .core chip c e =>
    if chip = s.chip.chipNo then match s.journal c e with
      | some j => s.setJournal c e (some { j with state := 4 })
      | none => s
    else s
  | _ => s

/-- Where the issuer of a store lies, for what its count releases (R355). -/
def Sender.tile? (x : Sender) : Option Nat :=
  match x with
  | .core _ c _ => some (tileOfCore c)
  | _ => none

/-- After a store is performed: the acknowledgement, or the add that counts a `pst`, which releases this one store at domain scope
(R225). The add of a store from another chip goes by that chip, as its counter's place is named there. -/
def State.stored (s : State) (x : Sender) (who : TaskId) (job : BitVec 12) (p : Place) (size : Nat) (ctr : Option Place)
    (w : WNo) : State :=
  match ctr with
  | none => s.acked x job (s.seeSender x (s.seenAt p false false))
  | some q => (s.awaitAdd x).answer who.chip job 4 (.add (.pst x) (some who) job q (BitVec.ofNat 64 size)
      (some { scope := .domain, chip := who.chip, tile := x.tile?, knows := [w.id] }))

/-- A posted store, of the wanted kind, at its home. -/
def State.storeAt (s : State) (n : Nat) (wantPst : Bool) : HmOut :=
  match s.deliverable n with
  | some (.store x who job p bs pst ctr w) =>
    if pst ≠ wantPst then .next s
    else match p with
      | .peer c _ => .next ((s.dropMsg n).toPeer c job false 0 (.msg (.store x who job p bs pst ctr w)))
      | _ =>
        match s.homeWrite w false job p bs with
        | (y, .error e) => s.homeStop y e fun s c => ((s.dropMsg n).unstore x p).refused x job c
        | (s, .ok ()) => .next (((s.dropMsg n).patchOwn who p bs).stored x who job p bs.length ctr w).fresh
  | _ => .next s

/-! ## Landings (R218–R224) -/

/-- The read of an `lnd` at its home; an error lands as poison. -/
def State.lndReadAt (s : State) (n : Nat) : HmOut :=
  match s.deliverable n with
  | some (.lndRead x who job p size la ks) =>
    let land (s : State) (vs : List Word) (e : Option Byte) : State :=
      let m : Msg := .landing x who job la vs e
      if la.chip = s.chip.chipNo then s.swapMsg n m
      else if who.chip = s.chip.chipNo then s.departs n la.chip job 3 m (.away x who la)
      else (s.dropMsg n).toPeer la.chip job false 3 (.msg m)
    match p with
    | .peer c _ => .next (s.departs n c job 1 (.lndRead x who job p size la ks) (.away x who la))
    | _ =>
      match s.homeGet job p size with
      | (y, .error e) => s.homeStop y e fun s c => land s (List.replicate (if size = 64 then 8 else 1) 0) (some c)
      | (s, .ok bs) =>
        let bs := (s.look who ks p bs).2
        let s := (s.look who ks p bs).1
        let vs := if size = 64 then (List.range 8).map fun i => leWord ((bs.drop (8 * i)).take 8) else [leWord bs]
        .next (land (s.renewFor who p) vs none).fresh
  | _ => .next s

/-- The home slice of a waiter's word. -/
def CWaiter.slice (w : CWaiter) : Option Nat :=
  match w.p with
  | .dev pa => some (Config.sliceOf (pa / 64))
  | _ => none

/-- When a slice's table has room, its earliest spilled waiters move in (R344). -/
def State.unspill (s : State) (sl : Nat) : Nat → State
  | 0 => s
  | n + 1 =>
    match s.chip.spilled.find? fun w => decide (w.slice = some sl) with
    | none => s
    | some w =>
      if (s.chip.waiters.filter fun w => decide (w.slice = some sl)).length < 2048 then
        let chip := { s.chip with waiters := s.chip.waiters ++ [w], spilled := s.chip.spilled.erase w }
        ({ s with chip := chip }).unspill sl n
      else s

def State.tidy (s : State) (p : Place) : State :=
  match p with
  | .dev pa => s.unspill (Config.sliceOf (pa / 64)) 2048
  | _ => s

/-- The waiters of a counter that a value reaches are scheduled, table first, then spill queue (R346). -/
def State.wakeReached (s : State) (p : Place) (v : Word) : State :=
  let hit (w : CWaiter) : Bool := w.p.sameCounter p && reached v w.thr
  match p with
  | .bank t _ =>
    let x := s.tile t
    let ws : List CWaiter := x.waiters.filter hit
    if ws.isEmpty then s
    else (s.setTile t { x with waiters := x.waiters.filter fun w => !hit w }).send (.toWake (ws.map fun (w : CWaiter) => (w.w, w.job)) v (s.relsOf p))
  | _ =>
    let s := s.tidy p
    let ws : List CWaiter := s.chip.waiters.filter hit ++ s.chip.spilled.filter hit
    if ws.isEmpty then s
    else
      let chip := { s.chip with waiters := s.chip.waiters.filter (fun w => !hit w), spilled := s.chip.spilled.filter fun w => !hit w }
      (({ s with chip := chip }).tidy p).send (.toWake (ws.map fun (w : CWaiter) => (w.w, w.job)) v (s.relsOf p))

/-- Apply a landing at its frame: value or poison, full, live, and the count (R221). -/
def Frame.land (f : Frame) (la : LandAddr) (vs : List Word) (err : Option Byte) : Frame :=
  let g : GReg := la.reg
  let r : VReg := la.reg.setWidth 5
  let f := match err with
    | some c =>
      if la.cls = 0 then (f.poisonG g c).liveG g
      else if vs.length = 1 then (f.poisonE r la.elem.toNat c).liveV r
      else ((List.range 8).foldl (fun (f : Frame) e => f.poisonE r e c) f).liveV r
    | none =>
      if la.cls = 0 then (f.wrG g (vs.headD 0)).liveG g
      else if vs.length = 1 then (f.wrE r la.elem.toNat (vs.headD 0)).liveV r
      else ((List.range 8).foldl (fun (f : Frame) e => f.wrE r e ((vs[e]?).getD 0)) f).liveV r
  (f.wrC la.ctr.toNat (f.rdC la.ctr.toNat + 1))

/-- The counter a landing counts in, as a place. -/
def LandAddr.counter (la : LandAddr) : Place := .frameCtr { la with cls := 2, reg := la.ctr.setWidth 6, elem := 0, ctr := 0 }

/-- The core that counts dead traffic for a frame: its origin core, or the host a retired frame ended at (R224, R464). -/
def State.deadCore (s : State) (o : Nat) : Nat :=
  match s.fwdOf o with
  | some e =>
    if (s.frame o).state = .retired then match e.host with
      | .svc k => svcOfTile (tileOfCore (coreOfFrame k))
      | .guest k => coreOfFrame k
    else coreOfFrame o
  | none => coreOfFrame o

def State.countDead (s : State) (o : Nat) : State :=
  let c := s.deadCore o
  s.setCore c { s.core c with qdead := satAdd (s.core c).qdead 1 0xFFFFFFFF }

/-- Hold traffic at the origin core, or at the slot controller. -/
def State.holdAt (s : State) (o : Nat) (m : Msg) : State :=
  let c := coreOfFrame o
  s.setCore c { s.core c with traffic := (s.core c).traffic ++ [m] }
def State.holdIn (s : State) (k : Nat) (m : Msg) : State :=
  s.setFrame k { s.frame k with heldMsgs := (s.frame k).heldMsgs ++ [m] }

/-- A landing at its target core, by the table of R220. -/
def State.landAt (s : State) (x : Sender) (who : TaskId) (job : BitVec 12) (la : LandAddr) (vs : List Word) (err : Option Byte) : State :=
  let m : Msg := .landing x who job la vs err
  let s := s.rouse la.core?
  match s.fate la.key la.gen (some job) with
  | .refused => s.refused x job Cause.PERM
  | .dead => (s.countDead la.key).answer (x.chip s.chip.chipNo) job 2 (.deadRep x)
  | .held => s.holdAt la.key m
  | .transfer k => s.holdIn k m
  | .apply k =>
    let f := s.stir ((s.frame k).land la vs err)
    let s := (s.setFrame k f).wakeReached la.counter (f.rdC la.ctr.toNat)
    s.acked x job (s.seeSender x (some (some (tileOfCore la.core?), 7)))

def State.landingArrives (s : State) (n : Nat) : State :=
  match s.deliverable n with
  | some (.landing x who job la vs err) =>
    if la.chip ≠ s.chip.chipNo then
      if who.chip = s.chip.chipNo then s.departs n la.chip job 3 (.landing x who job la vs err) (.away x who la)
      else (s.dropMsg n).toPeer la.chip job false 3 (.msg (.landing x who job la vs err))
    else (s.dropMsg n).landAt x who job la vs err
  | _ => s

/-! ## Journal (R214, R215, R224) -/

/-- The order marker of an `lnd` ends with its entry. -/
def State.notAway (s : State) (x : Sender) : State :=
  { s with net := s.net.filter fun m => match m with
    | .away f _ _ => decide (f ≠ x)
    | _ => true }

/-- The wait of a command that ended is withdrawn. -/
def State.dropFront (s : State) (id : Nat) : State :=
  let mine (w : Waiter) : Bool := decide (w = .front s.chip.chipNo id)
  let keep (w : CWaiter) : Bool := !mine w.w
  let net := s.net.filter fun m => match m with
    | .cwait w .. => !mine w
    | .wake w .. => !mine w
    | _ => true
  let chip := { s.chip with waiters := s.chip.waiters.filter keep, spilled := s.chip.spilled.filter keep }
  { s with net := net, chip := chip, tiles := s.tiles.map fun p => (p.1, { p.2 with waiters := p.2.waiters.filter keep }) }

/-- A command's own condition holds, or it failed: it ends with a status (R115, R117, R515). -/
def State.endCmd (s : State) (id : Nat) (status : BitVec 16) (detail : Word) : State :=
  let mine (c : Cmd) : Bool := decide (c.id = id) && decide (c.phase = .running)
  let bounced := ((s.fe.cmds.filter mine).map fun c => c.bounced.length).sum
  let cmds := s.fe.cmds.map fun c => if mine c then { c with phase := .ended, status := status, detail := detail, bounced := [] } else c
  { s.dropFront id with fe := { s.fe with cmds := cmds, out := s.fe.out - bounced } }

/-- A LAUNCH ends when every envelope is accepted and its wait has observed the counter (R115). -/
def State.launchDone (s : State) (id : Nat) : State :=
  match s.fe.cmds.find? fun c => decide (c.id = id) with
  | some c =>
    if c.op = 0x02 ∧ c.out = 0 ∧ c.arg1.toNat ≤ c.sent then match c.seen with
      | some v => s.endCmd id 0 v
      | none => s
    else s
  | none => s

def State.updFe (s : State) (id : Nat) (u : Cmd → Cmd) : State :=
  { s with fe := { s.fe with cmds := s.fe.cmds.map fun c => if c.id = id then u c else c } }

/-- An acknowledgement frees its entry. -/
def State.ackArrives (s : State) (n : Nat) : State :=
  match s.net[n]? with
  | some (.ack x see) =>
    let s := (s.dropMsg n).notAway x
    match x with
    | .core _ c e => (s.seen c see).settleEntry c e 1
    | .front _ cmd _ =>
      ((s.updFe cmd fun c => { c with out := c.out - 1 }).feFree 1).launchDone cmd
    | _ => s
  | _ => s

/-- The issuing frame of an entry still runs the task. -/
def State.taskLive (s : State) (who : TaskId) : Bool := !(s.frame who.key).gone && decide ((s.frame who.key).gen = who.gen)

/-- Make an asynchronous trap pending on a task. -/
def State.pendTrap (s : State) (who : TaskId) (p : Pend) : State :=
  let k := s.homeOf who.key
  (s.setFrame k { s.frame k with pend := (s.frame k).pend ++ [p] }).rouse (coreOfFrame who.key)

/-- A refusal or ORPHAN at its journal entry. A `vst` is refused once, whatever its elements (R228). -/
def State.refuseEntry (s : State) (c e : Nat) (cause reason : Byte) : State :=
  match s.journal c e with
  | none => s
  | some j =>
    if j.kind = JKind.vst ∧ j.told = true then
      (if j.state = 3 then s.setJournal c e (some { j with copies := j.copies - 1 }) else s.settleEntry c e 1)
    else
    let s := if cause = Cause.REFUSED then s.setCore c { s.core c with jrefused := satAdd (s.core c).jrefused 1 0xFFFFFFFF } else s
    if !s.taskLive j.task || s.removing j.job then
      let s := s.settleEntry c e 1
      if j.kind = JKind.env then s.setCore c { s.core c with orphans := satAdd (s.core c).orphans 1 0xFFFF } else s
    else
      let tval := at64 j.kind.toNat 16 + at64 reason.toNat 8 + at64 e 0
      let s := s.setJournal c e (some { j with state := 3, reason := reason, copies := j.copies - 1, told := true })
      s.pendTrap j.task { cause := cause, tval := tval, entry := some (c, e) }

/-- An envelope fails after its acceptance, when its entry is free again: it takes an entry of its core's journal, its own if
that is still free, and raises the trap; of a task that is gone, or with no entry free, it is counted (R133, R138, R143). -/
def State.failEntry (s : State) (c e : Nat) (env : Env) (cause : Byte) : State :=
  let who := env.task.getD { chip := 0x7FF, key := 0, gen := 0 }
  let entry := if (s.journal c e).isNone then some e else (s.core c).freeEntries.head?
  let s := if cause = Cause.REFUSED then s.setCore c { s.core c with jrefused := satAdd (s.core c).jrefused 1 0xFFFFFFFF } else s
  match env.task.isSome && s.taskLive who && !s.removing env.job, entry with
  | true, some e =>
    let reason := if cause = Cause.REFUSED then Cause.PERM else 0
    let x : JEntry := { kind := JKind.env, state := 3, task := who, dest := env.hdr, reason := reason, bounces := 0, copies := 0,
                        bounced := [], write := false, ctr := none, job := env.job }
    (s.setJournal c e (some x)).pendTrap who { cause := cause, tval := at64 JKind.env.toNat 16 + at64 reason.toNat 8 + at64 e 0, entry := some (c, e) }
  | _, _ => s.setCore c { s.core c with orphans := satAdd (s.core c).orphans 1 0xFFFF }

def State.refusalArrives (s : State) (n : Nat) : State :=
  match s.net[n]? with
  | some (.late env cause) =>
    match env.sender with
    | .core _ c e => (s.dropMsg n).failEntry c e env cause
    | .front _ cmd idx =>
      (s.dropMsg n).endCmd cmd 0x0104 (at64 (if cause = Cause.ORPHAN then cause else Cause.PERM).toNat 32 + at64 idx 0)
    | _ => s.dropMsg n
  | some (.refusal x cause reason) =>
    let s := (s.dropMsg n).notAway x
    match x with
    | .core _ c e => s.refuseEntry c e cause reason
    | .front _ cmd idx =>
      (s.feFree 1).endCmd cmd 0x0104 (at64 (if cause = Cause.ORPHAN then cause else reason).toNat 32 + at64 idx 0)
    | .die d => s.setDie d { s.die d with notif := false }
    | .engine _ h seg => s.segEnd h seg (some reason)
    | _ => s
  | _ => s

/-- A report of a dead landing: the entry is freed and counted, and raises DEADLAND if the core asks for it (R224). -/
def State.deadReport (s : State) (n : Nat) : State :=
  match s.net[n]? with
  | some (.deadRep x) =>
    let s := (s.dropMsg n).notAway x
    match x with
    | .core _ c e =>
      match s.journal c e with
      | none => s
      | some j =>
        let y := s.core c
        let s := (s.setCore c { y with jdead := satAdd y.jdead 1 0xFFFF }).settleEntry c e 1
        if y.deadtrap && s.taskLive j.task && !s.removing j.job then
          s.pendTrap j.task { cause := Cause.DEADLAND, tval := at64 j.kind.toNat 16 + at64 e 0, entry := none }
        else s
    | _ => s
  | _ => s

/-! ## Counters at their homes (R353) -/

/-- The value of a counter word at its home, which is a counter from now on (R340). -/
def State.counterGet (s : State) (job : BitVec 12) (p : Place) : Eng Word :=
  match s.homeGet job p 8 with
  | (s, .ok bs) => (s.noteCounter p, .ok (leWord bs))
  | (s, .error e) => (s, .error e)

def State.counterPut (s : State) (job : BitVec 12) (p : Place) (v : Word) : State :=
  let bs := leBytes v.toNat 8
  match s.homeSet job p bs with
  | (s, _) => match p with
    | .dev pa => s.patchCopies pa bs
    | _ => s

/-- An add has been made: its maker learns the old value (R349). -/
def State.added (s : State) (b : Adder) (job : BitVec 12) (old v : Word) (w : Option (Option Nat × Nat)) : State :=
  match b with
  | .posted x => s.acked x job (s.seeSender x w)
  | .pst x => s.acked x job (s.seeSender x w)
  | .value who dst => s.answer who.chip job 2 (.reply who dst (.ok old) none (s.seeTask who dst w))
  | .engine chip h =>
    if chip = s.chip.chipNo then s.updCmd h fun c => { c with counted := c.counted + v.toNat } else s.toPeer chip job false 2 (.msg (.tally h v.toNat))
  | .front chip cmd => s.answer chip job 2 (.wake (.front chip cmd) (.ok old))

/-- An add is refused; of an engine's add nobody learns. -/
def State.addRefused (s : State) (b : Adder) (job : BitVec 12) (c : Byte) (w : Option (Option Nat × Nat)) : State :=
  match b with
  | .posted x => s.refused x job c
  | .pst x => s.refused x job c
  | .value who dst => s.answer who.chip job 2 (.reply who dst (.err c) none (s.seeTask who dst w))
  | .engine .. => s
  | .front chip cmd => s.answer chip job 2 (.wake (.front chip cmd) (.err c))

/-- A dead add (R343); of a SIGNAL the front end learns PERM, as for a counter that it may not reach (R515; log 69). -/
def State.addDead (s : State) (b : Adder) (job : BitVec 12) (w : Option (Option Nat × Nat)) : State :=
  match b with
  | .posted x => s.answer (x.chip s.chip.chipNo) job 2 (.deadRep x)
  | .pst x => s.answer (x.chip s.chip.chipNo) job 2 (.deadRep x)
  | .value who dst => s.answer who.chip job 2 (.reply who dst (.err Cause.DEADLAND) none (s.seeTask who dst w))
  | b => s.addRefused b job Cause.PERM w

/-- An add at a frame counter (R343). -/
def State.addFrame (s : State) (b : Adder) (who : Option TaskId) (job : BitVec 12) (la : LandAddr) (v : Word)
    (rel : Option Rel) : State :=
  let m : Msg := .add b who job (.frameCtr la) v rel
  let s := s.rouse la.core?
  let w : Option (Option Nat × Nat) := some (some (tileOfCore la.core?), 7)
  match s.fate la.key la.gen (some job) with
  | .refused => s.addRefused b job Cause.PERM w
  | .dead => (s.countDead la.key).addDead b job w
  | .held => s.holdAt la.key m
  | .transfer k => s.holdIn k m
  | .apply k =>
    let f := s.frame k
    let old := f.rdC la.reg.toNat
    let s := ((s.releases (.frameCtr la) rel).setFrame k (f.wrC la.reg.toNat (old + v))).wakeReached (.frameCtr la) (old + v)
    s.added b job old v w

/-- The job may no longer add: no add is made, and none leaves for another chip, after step 1 of its removal (R468). -/
def State.addsStopped (s : State) (job : BitVec 12) : Bool := s.removing job

/-- An add at its home. -/
def State.addAt (s : State) (n : Nat) : HmOut :=
  match s.deliverable n with
  | some (.add b who job p v rel) =>
    let stay : State → Msg → State := fun s m => match b with
      | .value w dst => s.swapMsg n (.remote w dst false)
      | _ => let _ := m; s.dropMsg n
    let m : Msg := .add b who job p v rel
    if s.addsStopped job then .next ((s.dropMsg n).addRefused b job Cause.PERM (s.seenAt p true false))
    else match p with
    | .peer c _ => .next ((stay s m).toPeer c job false 4 (.msg m))
    | .frameCtr la =>
      if la.chip ≠ s.chip.chipNo then .next ((stay s m).toPeer la.chip job false 4 (.msg m))
      else .next ((s.dropMsg n).addFrame b who job la v rel).fresh
    | _ =>
      match s.counterGet job p with
        | (x, .error e) => s.homeStop x e fun s c => (s.dropMsg n).addRefused b job c (s.seenAt p true false)
        | (s, .ok old) =>
          let s := ((s.dropMsg n).counterPut job p (old + v)).releases p rel
          .next ((s.wakeReached p (old + v)).added b job old v (s.seenAt p true false)).fresh
  | _ => .next s

/-! ## Waits (R344, R345, R350) -/

/-- The value of a frame counter for a job; none while the frame cannot be reached now (R343). -/
def State.frameCounter (s : State) (la : LandAddr) (job : Option (BitVec 12)) : Option (Sum Word Byte) :=
  match s.fate la.key la.gen job with
  | .apply k => some (.inl ((s.frame k).rdC la.reg.toNat))
  | .dead => some (.inr Cause.PERM)
  | .refused => some (.inr Cause.PERM)
  | _ => none

/-- A waiter that finds no room polls (R345): its frame, for a task of this chip; else its message, which the home reads again
every 512 cycles for the other chip or the front end (log 56). -/
def State.pollInstead (s : State) (n : Nat) (w : Waiter) (job : BitVec 12) (p : Place) (thr : Word) : State :=
  match w with
  | .task who scope dst ticket =>
    let k := s.homeOf who.key
    let f := s.frame k
    if who.chip = s.chip.chipNo then
      (if f.wait.isWake ticket then (s.dropMsg n).setFrame k { f with wait := .poll p thr scope dst s.clk.cycle } else s)
    else s.swapMsg n (.cwait w job p thr (some s.clk.cycle))
  | .front .. => s.swapMsg n (.cwait w job p thr (some s.clk.cycle))

/-- Register a waiter where its home keeps it. -/
def State.register (s : State) (n : Nat) (w : Waiter) (job : BitVec 12) (p : Place) (thr : Word) : State :=
  let x : CWaiter := { job := job, p := p, thr := thr, w := w }
  match p with
  | .bank t _ =>
    let y := s.tile t
    if y.waiters.length < 256 then (s.dropMsg n).setTile t { y with waiters := y.waiters ++ [x] } else s.pollInstead n w job p thr
  | .dev _ =>
    let s := s.tidy p
    let at_ (ws : List CWaiter) : Nat := (ws.filter fun w => decide (w.slice = x.slice)).length
    let put (chip : Chip) : State := { s.dropMsg n with chip := chip }
    if at_ s.chip.waiters < 2048 then put { s.chip with waiters := s.chip.waiters ++ [x] }
    else if at_ s.chip.spilled < 16384 then put { s.chip with spilled := s.chip.spilled ++ [x] }
    else s.pollInstead n w job p thr
  | _ =>
    let chip := { s.chip with waiters := s.chip.waiters ++ [x] }
    { s.dropMsg n with chip := chip }

/-- A wake leaves for its waiter, in the place of the message it answers. -/
def State.wakeFor (s : State) (n : Nat) (w : Waiter) (job : BitVec 12) (v : Res) (rels : List Rel := []) : State :=
  let chip := match w with
    | .task who .. => who.chip
    | .front c _ => c
  (s.dropMsg n).answer chip job 2 (.wake w v rels)

/-- A wait of a peer's task on a counter is withdrawn from the tables of this chip, or its polling here ends (R347). -/
def State.unwait (s : State) (who : TaskId) (p : Place) : State :=
  let keep (w : CWaiter) : Bool := match w.w with
    | .task x .. => decide (x ≠ who) || decide (w.p ≠ p)
    | .front .. => true
  let chip := { s.chip with waiters := s.chip.waiters.filter keep, spilled := s.chip.spilled.filter keep }
  { s with chip := chip, net := s.net.filter fun m => match m with
      | .cwait (.task x ..) _ q _ (some _) => decide (x ≠ who) || decide (q ≠ p)
      | _ => true }

/-- A wait that goes to its home on this chip: at once reached it wakes; else it registers, or reads again after 512 cycles if it
polls (R344, R345). -/
def State.waitHome (s : State) (n : Nat) (w : Waiter) (job : BitVec 12) (p : Place) (thr v : Word) (poll : Option Nat) : State :=
  if reached v thr then s.wakeFor n w job (.ok v) (s.relsOf p)
  else match poll with
    | none => s.register n w job p thr
    | some _ => s.swapMsg n (.cwait w job p thr (some s.clk.cycle))

/-- A `cwait` at its home: it observes at once, registers, or polls; or the withdrawal of one (R344, R345, R347). -/
def State.cwaitAt (s : State) (n : Nat) : HmOut :=
  match s.deliverable n with
  | some (.cwait w job p thr poll) =>
    let early : Bool := match poll with
      | some c => decide (s.clk.cycle - c < 512)
      | none => false
    match p with
    | .peer c _ => .next ((s.dropMsg n).toPeer c job false 4 (.msg (.cwait w job p thr none)))
    | .frameCtr la =>
      if la.chip ≠ s.chip.chipNo then .next ((s.dropMsg n).toPeer la.chip job false 4 (.msg (.cwait w job p thr none)))
      else match s.frameCounter la (some job) with
        | none => .next s
        | some (.inr c) => .next (s.wakeFor n w job (.err c))
        | some (.inl v) => .next (s.waitHome n w job p thr v poll)
    | _ =>
      if early then .next s
      else match s.counterGet job p with
        | (x, .error e) => s.homeStop x e fun s c => s.wakeFor n w job (.err c)
        | (s, .ok v) => .next (s.waitHome n w job p thr v poll).fresh
  | some (.unwait who job p) =>
    match p with
    | .peer c _ => .next ((s.dropMsg n).toPeer c job false 4 (.msg (.unwait who job p)))
    | _ => .next (((s.dropMsg n).unwait who p).tidy p)
  | _ => .next s

/-- One wake of those that are due leaves its home, as traffic of its job (R346, R414). -/
def State.wakeNext (s : State) (n : Nat) : State :=
  match s.net[n]? with
  | some (.toWake [] ..) => s.dropMsg n
  | some (.toWake (w :: ws) v rels) =>
    let s := if ws.isEmpty then s.dropMsg n else s.swapMsg n (.toWake ws v rels)
    match w.1 with
    | .task who .. => s.answer who.chip w.2 2 (.wake w.1 (.ok v) rels)
    | .front c _ => s.answer c w.2 2 (.wake w.1 (.ok v) rels)
  | _ => s

/-- The wait of a frame is over: it acquires, g d receives the value, and the task goes on at the next word; a refused or
unreadable counter poisons g d and acquires nothing (R350). -/
def State.waitOver (s : State) (k : Nat) (scope : Scope) (dst : Dst) (v : Res) (rels : List Rel) : State :=
  let f := s.frame k
  let g := match dst, v with
    | .g r, .ok w => f.wrG r w
    | .g r, .err c => f.poisonG r c
    | _, _ => f
  let s := match v with
    | .ok _ => s.acquireAt (f.coreAt k) scope
    | .err _ => s
  let g := match v with
    | .ok _ => g.acquires scope rels s.chip.chipNo (tileOfCore (f.coreAt k))
    | .err _ => g
  (s.setFrame k (s.released g.advance)).rouse (f.coreAt k)

/-- A wake at its frame or at the front end; one whose wait was withdrawn is discarded (R347). -/
def State.wakeAt (s : State) (w : Waiter) (v : Res) (rels : List Rel) : State :=
  match w with
  | .task who scope dst ticket =>
    match s.fate who.key who.gen none with
    | .apply k => if (s.frame k).wait.isWake ticket then s.waitOver k scope dst v rels else s
    | .held => s.holdAt who.key (.wake w v rels)
    | .transfer k => s.holdIn k (.wake w v rels)
    | _ => s
  | .front _ cmd =>
    match s.fe.cmds.find? fun c => decide (c.id = cmd) with
    | none => s
    | some c =>
      let s := { s with fe := { s.fe with knows := (acquired rels .domain s.chip.chipNo none ++ s.fe.knows).eraseDups } }
      match v with
      | .ok x => if c.op = 0x02 then (s.updFe cmd fun c => { c with seen := some x }).launchDone cmd else s.endCmd cmd 0 0
      | .err e => s.endCmd cmd 0x0105 (e.setWidth 64)

def State.wakeArrives (s : State) (n : Nat) : State :=
  match s.deliverable n with
  | some (.wake w v rels) => (s.dropMsg n).wakeAt w v rels
  | _ => s

/-- A polled waiter's core reads the counter, every 512 cycles (R345), but not while its frame moves, which withdraws the wait (R347), or is
in a slot transfer (R167). -/
def State.pollAt (s : State) (k : Nat) : HmOut :=
  let f := s.frame k
  match f.wait with
  | .poll p thr scope dst last =>
    if s.clk.cycle - last < 512 ∨ f.state ≠ .waiting ∨ f.transfer.isSome then .next s
    else match s.counterGet f.job p with
      | (x, .error e) => s.homeStop x e fun s c => s.waitOver k scope dst (.err c) []
      | (s, .ok v) =>
        .next (if reached v thr then s.waitOver k scope dst (.ok v) (s.relsOf p)
          else s.setFrame k { s.frame k with wait := .poll p thr scope dst s.clk.cycle }).fresh
  | _ => .next s

/-! ## Observations (R351, R352) -/

/-- Some waiter of the counter is registered, spilled or polling. -/
def State.hasWaiter (s : State) (p : Place) : Bool :=
  s.chip.waiters.any (fun w => w.p.sameCounter p) || s.chip.spilled.any (fun w => w.p.sameCounter p)
    || s.tiles.any (fun t => t.2.waiters.any fun w => w.p.sameCounter p)
    || (s.frames.any fun f => match f.2.wait with
      | .poll q .. => q.sameCounter p
      | _ => false)
    || s.net.any fun m => match m with
      | .cwait _ _ q _ (some _) => q.sameCounter p
      | _ => false

/-- The scope that an observation acquires at a value (R351). -/
def ObsKind.acquires (k : ObsKind) (v b : Word) : Option Scope :=
  match k with
  | .poll (some sc) => if reached v b then some sc else none
  | _ => none

def ObsKind.mayAcquire (k : ObsKind) : Bool :=
  match k with
  | .poll (some _) => true
  | _ => false

def State.observeAt (s : State) (n : Nat) : HmOut :=
  match s.deliverable n with
  | some (.observe who job p kind b dst) =>
    let away (s : State) (c : BitVec 11) : State := s.departs n c job 4 (.observe who job p kind b dst) (.remote who dst kind.mayAcquire)
    let set_ (s : State) (put : State → State) (v : Word) (see : Option Nat) : State :=
      match kind with
      | .set => if s.hasWaiter p then s.replyAt n who job dst (.ok 1) none see else ((put s).dropReleases p).replyAt n who job dst (.ok 0) none see
      | k => s.replyAt n who job dst (.ok v) ((k.acquires v b).map fun sc => (sc, s.relsOf p)) see
    match p with
    | .peer c _ => .next (away s c)
    | .frameCtr la =>
      match s.frameCounter la (some job) with
      | none => .next s
      | some (.inr c) => .next (s.replyAt n who job dst (.err c) none (s.seeTask who dst (some (some (tileOfCore la.core?), 7))))
      | some (.inl v) =>
        let k := s.homeOf la.key
        .next (set_ s (fun s => s.setFrame k ((s.frame k).wrC la.reg.toNat b)) v (s.seeTask who dst (some (some (tileOfCore la.core?), 7))))
    | _ =>
      match s.counterGet job p with
      | (x, .error e) => s.homeStop x e fun s c => s.replyAt n who job dst (.err c) none (s.seeTask who dst (s.seenAt p true false))
      | (s, .ok v) =>
        .next (set_ s (fun s => s.counterPut job p b) v (s.seeTask who dst (s.seenAt p true false))).fresh
  | _ => .next s

/-! ## Data atomics (R357–R361) -/

/-- The host performs only FetchAdd, Swap and CAS (R360). -/
def AmoOp.byHost : AmoOp → Bool
  | .add => true
  | .swap => true
  | .cas => true
  | _ => false

def State.atomicAt (s : State) (n : Nat) : HmOut :=
  match s.deliverable n with
  | some (.atomic x who job p dbl op v d dst w) =>
    let size := if dbl then 8 else 4
    let m : Msg := .atomic x who job p dbl op v d dst w
    let fail (s : State) (c : Byte) : State := match x with
      | some y => (s.dropMsg n).refused y job c
      | none => s.replyAt n who job dst (.err c) none (s.seeTask who dst (s.seenAt p true true))
    match p with
    | .peer c _ => .next (match x with
      | some _ => (s.dropMsg n).toPeer c job false 5 (.msg m)
      | none => s.departs n c job 5 m (.remote who dst false))
    | _ =>
      let onHost := match p with
        | .host _ => true
        | _ => false
      if onHost && !op.byHost then .next (fail s Cause.ATOMTYPE)
      else match s.homeGet job p size with
        | (y, .error e) => s.homeStop y e fail
        | (s, .ok bs) =>
          let old := leNat bs
          let s := if x.isNone then s.sawLast who p size else s
          let s := match amoNew op (8 * size) old (v.toNat % 2 ^ (8 * size)) (d.toNat % 2 ^ (8 * size)) with
            | some y => (s.homeWrite w true job p (leBytes y size)).1
            | none => s
          let s := s.renewFor who p
          let see := s.seenAt p true true
          .next (match x with
            | some y => (s.dropMsg n).acked y job (s.seeSender y see)
            | none => s.replyAt n who job dst (.ok (BitVec.ofNat 64 old)) none (s.seeTask who dst see)).fresh
  | _ => .next s

/-! ## Replies at their tasks (R210, R354) -/

def State.fillAt (s : State) (who : TaskId) (dst : Dst) (v : Res) (acq : Option (Scope × List Rel)) : State :=
  match s.fate who.key who.gen none with
  | .apply k =>
    let f := s.frame k
    let s := match acq with
      | some (sc, _) => s.acquireAt (f.coreAt k) sc
      | none => s
    let f := f.fill dst v
    let f := match acq with
      | some (sc, rels) => f.acquires sc rels s.chip.chipNo (tileOfCore (f.coreAt k))
      | none => f
    (s.setFrame k (s.stir f)).rouse (f.coreAt k)
  | .held => s.holdAt who.key (.reply who dst v acq none)
  | .transfer k => s.holdIn k (.reply who dst v acq none)
  | _ => s

def State.replyArrives (s : State) (n : Nat) : State :=
  match s.deliverable n with
  | some (.reply who dst v acq see) => ((s.dropMsg n).seen (s.issuer who dst) see).fillAt who dst v acq
  | _ => s

/-! ## The end of a slot transfer (R167) -/

/-- A held message is applied at its frame. -/
def State.applyHeld (s : State) (m : Msg) : State :=
  match m with
  | .landing x who job la vs err => s.landAt x who job la vs err
  | .add b who job (.frameCtr la) v rel => s.addFrame b who job la v rel
  | .wake w v rels => s.wakeAt w v rels
  | .reply who dst v acq _ => s.fillAt who dst v acq
  | m => s.send m

/-- Apply a frame's held traffic in arrival order. -/
def State.releaseTraffic (s : State) (k : Nat) : State :=
  let ms := (s.frame k).heldMsgs
  ms.foldl State.applyHeld (s.setFrame k { s.frame k with heldMsgs := [] })

/-- A load into a slot ends with the task running, unless its job is held; a save leaves it out of its slot. -/
def State.transferEnd (s : State) (k : Nat) : State :=
  let s := if (s.frame k).transfer = some true then s.loadMarked k else s
  let f := s.frame k
  match f.transfer with
  | none => s
  | some loads =>
    let f := { f with transfer := none, state := if loads ∧ f.state = .ready ∧ !s.issueHeld f then .running else f.state }
    (s.setFrame k f).releaseTraffic k

/-- A trap that waited for a forwarding entry is installed when one is free, with the traffic held meanwhile (R430); not while its job is
suspended (R466). -/
def State.installWaiting (s : State) : State :=
  let k := s.run.cur
  if s.me.wait = .fwdEntry ∧ (s.core (coreOfFrame k)).fwdUsed < 64 ∧ s.agingStopped s.me.job = false then s.trapInstall.releaseTraffic k else s

/-! ## The commit of a move (R459–R462) -/

/-- The state a moved frame is installed in: withdrawn waits and parks issue again, a blocked one stays blocked, a
halted one stays halted (R459). -/
def Frame.installed (f : Frame) (left : FState) : Frame :=
  match f.wait with
  | .halted => { f with state := .parked }
  | .presence srcs => if left = .waiting ∧ f.check srcs = .block then { f with state := .waiting } else { f with state := .ready, wait := .none }
  | .retry => if left = .waiting then { f with state := .waiting } else { f with state := .ready, wait := .none }
  | .array => if left = .waiting then { f with state := .waiting } else { f with state := .ready, wait := .none }
  | _ => { f with state := .ready, wait := .none }

/-- Reopen a recorded repeat at a new host (R459). -/
def Frame.reopened (f : Frame) : Frame :=
  if f.handling then f
  else { f with rpt := f.reopen f.epc, rptSaved := none, tstat := setBit (putFld (putFld f.tstat 51 8 0) 47 4 0) 59 false }

/-- The commit: the image is at the guest frame, the forwarding entry names it, the former guest frame becomes free, and the held
traffic, first what a slot transfer at the former host held, is applied in arrival order, ahead of all that arrives later (R459, R462).
The move wakes its core (R506). Copies in the caches of the new host are dropped, so that the task reads nothing older there (R367). -/
def State.migrateCommit (s : State) (c : Nat) : State :=
  match (s.core c).mig with
  | none => s
  | some m =>
    let f := s.frame m.src
    let g := s.frame m.guest
    let new := { ((f.leftCore (coreOfFrame m.src)).reopened).installed m.left with
      guest := true, gen := g.gen, atSvc := false, resident := false, since := s.clk.cycle }
    let s := s.setFrame m.guest new
    let s := if m.src = m.frame then s.setFrame m.frame { f with state := .migrating, wait := .none, pend := [] }
      else s.setFrame m.src (s.frame m.src).freed
    let s := s.setFwd m.frame f.origin.gen (.guest m.guest)
    let x := s.core c
    let s := s.setCore c { x with mig := none, traffic := [] }
    let dc := coreOfFrame m.guest
    let s := (s.acquireAt dc .chip).rouse dc
    x.traffic.foldl State.applyHeld <| s.trace 6 dc new 0 (at64 (dieOfTile (tileOfCore dc)) 40 + at64 (tileNo (tileOfCore dc)) 32 + at64 (coreNo dc) 27
      + at64 (frameNo m.frame) 0)

/-! ## The meanings -/

/-- HOME_READ_REQUEST (R211). -/
def execHomeReadRequest (n : Nat) (s : State) : HmOut := s.readAt n
/-- REPLY_ARRIVAL (R210). -/
def execReplyArrival (n : Nat) (s : State) : HmOut := .next (s.replyArrives n)
/-- POSTED_STORE_PERFORM (R212). -/
def execPostedStorePerform (n : Nat) (s : State) : HmOut := s.storeAt n false
/-- LND_HOME_READ (R218, R223). -/
def execLndHomeRead (n : Nat) (s : State) : HmOut := s.lndReadAt n
/-- PST_HOME (R225). -/
def execPstHome (n : Nat) (s : State) : HmOut := s.storeAt n true
/-- LANDING_ARRIVAL (R220). -/
def execLandingArrival (n : Nat) (s : State) : HmOut := .next (s.landingArrives n)
/-- JOURNAL_ACK (R214). -/
def execJournalAck (n : Nat) (s : State) : HmOut := .next (s.ackArrives n)
/-- REFUSAL_RETURN (R215). -/
def execRefusalReturn (n : Nat) (s : State) : HmOut := .next (s.refusalArrives n)
/-- DEADLAND_REPORT (R224). -/
def execDeadlandReport (n : Nat) (s : State) : HmOut := .next (s.deadReport n)
/-- CWAIT_REGISTER (R344). -/
def execCwaitRegister (n : Nat) (s : State) : HmOut := s.cwaitAt n
/-- COUNTER_ADD_HOME (R353). -/
def execCounterAddHome (n : Nat) (s : State) : HmOut := s.addAt n
/-- COUNTER_OBSERVE_HOME (R353). -/
def execCounterObserveHome (n : Nat) (s : State) : HmOut := s.observeAt n
/-- WAITER_WAKE (R346). -/
def execWaiterWake (n : Nat) (s : State) : HmOut := .next (s.wakeNext n)
/-- WAKE_ARRIVAL (R350). -/
def execWakeArrival (n : Nat) (s : State) : HmOut := .next (s.wakeArrives n)
/-- POLLED_WAITER_READ (R345). -/
def execPolledWaiterRead (task : Nat) (s : State) : HmOut := s.pollAt task
/-- ATOMIC_HOME (R357, R360). -/
def execAtomicHome (n : Nat) (s : State) : HmOut := s.atomicAt n
/-- MIGRATION_COMMIT (R459). -/
def execMigrationCommit (core : Nat) (s : State) : HmOut := .next (s.migrateCommit core)
/-- SLOT_TRANSFER_END (R167). -/
def execSlotTransferEnd (task : Nat) (s : State) : HmOut := .next (s.transferEnd task)

end Sys2Proof.Machine
end

