-- ==== Sys2Proof/Machine/FrontEnd.lean ====
section
/-! DEFINITION. Machine/FrontEnd.lean: the control window and the host lease (R108–R111, R120), queues and doorbells
(R112, R113), commands (R114–R119, R515), handles and their flips (R118, R122–R125), and the commands that suspend,
resume and remove a job (R466–R470). LOAD is in Loader.lean. -/

namespace Sys2Proof.Machine

/-! ## The control window (R108–R113, R120) -/

/-- A malformed access counts in FESTAT.bad. -/
def State.feBad (s : State) : State := { s with fe := { s.fe with bad := satAdd s.fe.bad 1 0xFFFF } }

/-- Queue blocks 0–127 belong to port 0, 128–255 to port 1. -/
def portOfQueue (q : Nat) : Bool := decide (128 ≤ q)
def queueAt (port : Bool) (q : Nat) : Bool := decide (q < 256) && decide (portOfQueue q = port)

def ifaceKey (port : Bool) (t : Nat) : Nat := 64 * b2n port + t

/-- An interface of a port whose queue blocks include q. -/
def State.ifaceOf (s : State) (q : Nat) (p : Iface → Bool) : Bool :=
  s.sec.ifaces.any fun e => decide (e.1 / 64 = b2n (portOfQueue q)) && decide (e.2.qlo ≤ q) && decide (q ≤ e.2.qhi) && p e.2

/-- The fields that LOCK froze (R490). -/
def State.frozen (s : State) (q : Nat) : Bool := s.ifaceOf q fun x => decide (x.st ≠ .unlocked)

/-- A running interface accepts a request only on its selective stream, with the T bit set (R490). -/
def Iface.accepts (x : Iface) (via : Via) : Bool := decide (x.st ≠ .run) || (decide (via.stream = some x.stream) && via.tbit)

/-- Every interface whose queue blocks include q accepts the request. -/
def State.trusted (s : State) (via : Via) (q : Nat) : Bool := !s.ifaceOf q fun x => !x.accepts via

/-- Writes reach the queue blocks of the port they arrive on. -/
def State.queueWrite (s : State) (via : Via) (q : Nat) (k : State → State) : State :=
  if s.sec.failed.isSome || !queueAt via.port q then s else if s.trusted via q then k s else s.feBad

/-- QCTL (R112). -/
def State.qctl (s : State) (q : Nat) (v : Word) : State :=
  let x := s.queueOf q
  let keep := x.en || s.frozen q
  let lent := if keep then x.lent else v.extractLsb' 0 5
  let en := v.getLsbD 63 && decide (4 ≤ lent.toNat) && decide (lent.toNat ≤ 16)
  let x := { x with en := en, job := if keep then x.job else v.extractLsb' 32 12, msix := v.extractLsb' 16 16, lent := lent }
  if en ∧ !(s.queueOf q).en then s.setQueue q { x with pub := 0, fetch := 0, done := 0, epoch := x.epoch + 1 } else s.setQueue q x

/-- A doorbell: an add to the publish counter, which waits may observe (R113, R379). -/
def State.doorbell (s : State) (q : Nat) (v : Word) : State :=
  if 2 ^ 63 ≤ v.toNat then s.feBad
  else
    let x := s.queueOf q
    (s.setQueue q { x with pub := x.pub + v }).wakeReached (.dev (Config.pubPa q)) (x.pub + v)

/-- A ring address, discarded while the queue is served or frozen; its low bits, which a multiple of 64 or 32 has not, are dropped
(log 42). -/
def State.ringWrite (s : State) (q : Nat) (u : Queue → Queue) : State :=
  let x := s.queueOf q
  if x.en || s.frozen q then s else s.setQueue q (u x)

/-- A write to the control window, of eight aligned bytes (R108). -/
def State.controlWrite (s : State) (via : Via) (off size : Nat) (v : Word) : State :=
  if s.sec.failed.isSome then s
  else if size ≠ 8 ∨ off % 8 ≠ 0 then s.feBad
  else if off = 0x10 then
    { s with fe := { s.fe with dropcpl := clr v 32 32 s.fe.dropcpl, bad := s.fe.bad &&& (0xFFFF - fld v 16 16) } }
  else if 0x10000 ≤ off ∧ off < 0x14000 then
    let q := (off - 0x10000) / 0x40
    s.queueWrite via q fun s =>
      match off % 0x40 with
      | 0x00 => s.qctl q v
      | 0x08 => s.ringWrite q fun x => { x with qbase := v &&& ~~~63#64 }
      | 0x10 => s.ringWrite q fun x => { x with cbase := v &&& ~~~31#64 }
      | 0x20 => s.doorbell q v
      | _ => s
  else s

/-- What a host's request is answered with; none is a Completer Abort or an Unsupported Request. -/
def State.answerHost (s : State) (v : Option Word) : State := { s with fe := { s.fe with answers := v :: s.fe.answers } }

/-- A register of a queue block (R112); write-only and reserved words read zero. -/
def Queue.reg (x : Queue) (q off : Nat) : Word :=
  match off with
  | 0x00 => at64 (b2n x.en) 63 + at64 x.job.toNat 32 + at64 x.msix.toNat 16 + at64 x.lent.toNat 0
  | 0x08 => x.qbase
  | 0x10 => x.cbase
  | 0x18 => BitVec.ofNat 64 (Config.pubPa q)
  | 0x28 => x.pub
  | 0x30 => BitVec.ofNat 64 x.fetch
  | 0x38 => BitVec.ofNat 64 x.done
  | _ => 0

/-- A register of the control window (R108, R120). -/
def State.controlReg (s : State) (off : Nat) : Word :=
  match off with
  | 0x00 => s.fe.hlease
  | 0x08 => s.clk.dtime
  | 0x10 => at64 s.fe.dropcpl 32 + at64 s.fe.bad 16
  | off => if 0x10000 ≤ off ∧ off < 0x14000 then (s.queueOf ((off - 0x10000) / 0x40)).reg ((off - 0x10000) / 0x40) (off % 0x40) else 0

/-- A host reads the control window: all ones after a failed boot (R476) and for a malformed access, Unsupported Request for a
running interface's queue blocks off its stream (R490). -/
def State.controlRead (s : State) (via : Via) (off size : Nat) : State :=
  if s.sec.failed.isSome then s.answerHost (some (BitVec.allOnes 64))
  else if size ≠ 8 ∨ off % 8 ≠ 0 then (s.answerHost (some (BitVec.allOnes 64))).feBad
  else if 0x10000 ≤ off ∧ off < 0x14000 ∧ s.trusted via ((off - 0x10000) / 0x40) = false then (s.answerHost none).feBad
  else s.answerHost (some (s.controlReg off))

/-- The CAS of R110; the host receives the old value. -/
def State.leaseCas (s : State) (port : Bool) (c sw : Word) : State :=
  let p := 1 + b2n port
  let old := s.fe.hlease
  let now := fld s.clk.dtime 0 62
  let held := decide (fld old 62 2 = 0) || decide (fld old 62 2 = p) || decide (fld old 0 62 ≤ now)
  let ok := decide (old = c) && held && (decide (fld sw 62 2 = 0) || decide (fld sw 62 2 = p)) && decide (fld sw 0 62 ≤ now + 10000000000)
  if s.sec.failed.isSome then s.answerHost (some (BitVec.allOnes 64))
  else
    let s := s.answerHost (some old)
    if ok then { s with fe := { s.fe with hlease := sw, expired := false } } else s

/-! ## Fetching (R111, R113, R114) -/

/-- The queue is served: enabled, its port owns an unexpired lease, and its job is not being removed (R468). -/
def State.served (s : State) (q : Nat) : Bool :=
  (s.queueOf q).en && decide (s.hostPort = some (portOfQueue q)) && decide (fld s.clk.dtime 0 62 < fld s.fe.hlease 0 62) && !s.fe.expired
    && !s.removing (s.queueOf q).job && !s.pwr.fatal && s.sec.failed.isNone

/-- The host of the port takes and answers the device's requests. -/
def State.portUp (s : State) (q : Nat) : Bool := if portOfQueue q then !s.fe.lost1 else !s.fe.lost0

/-- A command from its 64 bytes. -/
def Cmd.ofBytes (id q k : Nat) (x : Queue) (bs : List Byte) : Cmd :=
  let at_ (o n : Nat) : Nat := leNat ((bs.drop o).take n)
  let w (o : Nat) : Word := BitVec.ofNat 64 (at_ o 8)
  { id := id, q := q, k := k, op := BitVec.ofNat 8 (at_ 0 1), flags := BitVec.ofNat 8 (at_ 1 1), job := BitVec.ofNat 12 (at_ 2 2),
    resv := decide (at_ 2 2 / 2 ^ 12 ≠ 0) || decide (at_ 0x34 4 ≠ 0), tag := BitVec.ofNat 32 (at_ 4 4), arg0 := w 0x08, arg1 := w 0x10,
    arg2 := w 0x18, arg3 := w 0x20, uses := (List.range 6).map fun i => BitVec.ofNat 16 (at_ (0x28 + 2 * i) 2), hostctr := w 0x38,
    cbase := x.cbase, lent := x.lent, msix := x.msix, phase := .fetched, status := 0, detail := 0, sent := 0, out := 0, asked := false,
    ctr := none, seen := none, epoch := x.epoch, bounced := [] }

/-- Fetch the next command of a queue. -/
def State.fetchCmd (s : State) (q : Nat) : State :=
  let x := s.queueOf q
  let k := x.fetch
  let e := 2 ^ x.lent.toNat
  let open_ := s.fe.cmds.any fun c => decide (c.q = q) && decide (c.epoch = x.epoch) && decide (c.k + e = k)
  if !s.served q || !s.portUp q || !reached x.pub (BitVec.ofNat 64 (k + 1)) || open_ then s
  else
    let c := Cmd.ofBytes s.fe.nextId q k x (s.portBytes (portOfQueue q) (x.qbase.toNat + 64 * (k % e)) 64)
    let s := s.setQueue q { x with fetch := k + 1 }
    { s with fe := { s.fe with cmds := s.fe.cmds ++ [c], nextId := c.id + 1 } }.fresh

def State.cmd (s : State) (id : Nat) : Option Cmd := s.fe.cmds.find? fun c => decide (c.id = id)

/-- A running command of an operation. -/
def State.running (s : State) (id : Nat) (op : Byte) (k : Cmd → State) : State :=
  match s.cmd id with
  | some c => if c.phase = .running ∧ c.op = op ∧ s.pwr.fatal = false then k c else s
  | none => s

/-! ## Handles and conflicts (R114, R118) -/

/-- The handles that a command names, with whether it writes them. -/
def Cmd.touches (c : Cmd) : List (Nat × Bool) :=
  let named := (c.uses.filter fun u => decide (fld u 14 2 ≠ 0)).map fun u => (fld u 0 12, u.getLsbD 15)
  if c.op = 0x05 ∨ c.op = 0x06 then (fld c.arg2 0 12, true) :: named
  else if c.op = 0x09 ∨ c.op = 0x0A then (fld (c.uses.headD 0) 0 12, true) :: named
  else named

def Cmd.conflicts (c d : Cmd) : Bool :=
  decide (c.job = d.job) && c.touches.any fun x => d.touches.any fun y => decide (x.1 = y.1) && (x.2 || y.2)

/-- The handle that a command's flip or release is of. -/
def Cmd.flipped (c : Cmd) : Nat := fld (c.uses.headD 0) 0 12

/-- The command names a handle, with a mode that reads or writes. -/
def Cmd.names (c : Cmd) (h : Nat) (write : Bool) : Bool :=
  c.uses.any fun u => decide (fld u 0 12 = h) && (if write then u.getLsbD 15 else u.getLsbD 14)

/-- A device range lies inside a handle that the command names with the mode (R115); an empty one needs none. -/
def State.insideHandle (s : State) (c : Cmd) (va : Word) (n : Nat) (write : Bool) : Bool :=
  decide (n = 0) || (s.job c.job).handles.any fun h =>
    c.names h.1 write && decide (h.2.base.toNat ≤ va.toNat) && decide (va.toNat + n ≤ h.2.base.toNat + h.2.len.toNat)

/-! ## The checks before a command starts (R116, R486) -/

/-- The counter that a LAUNCH, WAIT or SIGNAL names. -/
def Cmd.ctrVa (c : Cmd) : Option Word :=
  if c.op = 0x02 then some c.arg2 else if c.op = 0x07 ∨ c.op = 0x08 then some c.arg0 else none

/-- The place of a counter address under the checks of a `cadd`, made for the front end (R116, R341). -/
def State.feCounter (s : State) (job : BitVec 12) (va : Word) : State × Option Place :=
  if fld va 62 2 = 2 then
    let la := s.landOf va
    (s, if la.cls ≠ 2 ∨ !s.landOk va ∨ 3 < la.reg.toNat ∨ la.elem ≠ 0 ∨ fld va 0 8 ≠ 0 then none else some (.frameCtr la))
  else if beyond va ∨ va.toNat % 8 ≠ 0 then (s, none)
  else if inWindow va then
    if perMember va then (s, none)
    else match s.window (tileKey (fld va 40 1) (fld va 32 8)) false va { acc := .write, plain := false, size := 8 } with
      | some (.bank t off) => (s, some (.bank t off))
      | _ => (s, none)
  else match s.translate [] job false .write va with
    | (s, .ok (.dev pa)) => (s, some (.dev pa))
    | (s, .ok (.peer c pa)) => (s, some (.peer c pa))
    | (s, _) => (s, none)

/-- An argument is outside its range. A SIGNAL of 2^63 or more, which no add may make (R339), is one (log 42). -/
def Cmd.badRange (c : Cmd) : Bool :=
  if c.op = 0x02 then decide (c.arg1 = 0) || decide (65536 < c.arg1.toNat)
  else if c.op = 0x05 ∨ c.op = 0x06 then decide (fld c.arg2 12 52 ≠ 0)
  else if c.op = 0x08 then decide (2 ^ 63 ≤ c.arg1.toNat)
  else if c.op = 0x09 ∨ c.op = 0x0A then decide (fld (c.uses.headD 0) 14 2 ≠ 2)
  else false

/-- A handle that the command names is free, or host-owned, or does not hold its range. -/
def State.badHandle (s : State) (c : Cmd) : Bool :=
  let hs := (s.job c.job).handles
  let named := c.touches.filter fun h => !(decide (c.op = 0x05) && decide (h.1 = fld c.arg2 0 12))
  (named.any fun h => match Tab.get? hs h.1 with
    | none => true
    | some x => x.hostOwned && decide (c.op ≠ 0x0A) && decide (c.op ≠ 0x06))
  || (decide (c.op = 0x03) && !s.insideHandle c c.arg1 c.arg2.toNat true)
  || (decide (c.op = 0x04) && !s.insideHandle c c.arg0 c.arg2.toNat false)

/-- The status of a command that fails without effect, else 0; and the counter it found. -/
def State.check116 (s : State) (c : Cmd) : State × BitVec 16 × Option Place :=
  let pol := s.jpol c.job
  let reserved := c.resv || decide (fld c.flags 2 6 ≠ 0) || c.uses.any (fun u => decide (fld u 12 2 ≠ 0))
    || (decide (0x0B ≤ c.op.toNat) && (decide (c.arg0 ≠ 0) || decide (c.arg1 ≠ 0) || decide (c.arg2 ≠ 0) || decide (c.arg3 ≠ 0)
        || c.uses.any fun u => decide (u ≠ 0)))
  if c.op = 0 ∨ 0x0D < c.op.toNat ∨ reserved then (s, 0x0100, none)
  else if c.job ≠ (s.queueOf c.q).job ∨ !pol.getLsbD 63 ∨ !pol.getLsbD 62 ∨ !pol.getLsbD (if portOfQueue c.q then 59 else 58) then (s, 0x0102, none)
  else if c.badRange then (s, 0x0100, none)
  else if s.badHandle c then (s, 0x0101, none)
  else match c.ctrVa with
    | none => (s, 0, none)
    | some va => match s.feCounter c.job va with
      | (s, none) => (s, 0x0100, none)
      | (s, some p) => (s, 0, some p)

/-- Drop the copies of a handle's range from every L1 and cache way (R119 step 1). -/
def State.dropRange (s : State) (job : BitVec 12) (base len : Word) : State :=
  let lines := (pagesOf base len).filterMap fun va => match s.walk job va with
    | .leaf w _ lg => some (leafPa w lg va / 64)
    | .invalid _ => none
  let keep (p : Nat × CLine) : Bool := !(lines.any fun l => decide (l ≤ p.1 % 2 ^ 36) && decide (p.1 % 2 ^ 36 < l + 1024))
  { s with mem := { s.mem with
      l1 := s.mem.l1.filter keep, way := s.mem.way.filter keep,
      past := s.mem.past.filter fun x => !lines.any fun l => x.inDev (64 * l) (64 * l + 0x10000) } }

/-- A fetched command may start: serial after its queue, and after every conflicting one (R114, R118). -/
def State.mayStart (s : State) (c : Cmd) : Bool :=
  let before := s.fe.cmds.filter fun d => decide (d.id < c.id)
  !(c.flags.getLsbD 1 && before.any fun d => decide (d.q = c.q)) && !(before.any fun d => d.conflicts c)

/-- Start a command: checks, then the invalidation of what the host side wrote last. -/
def State.startCmd (s : State) (id : Nat) : State :=
  match s.cmd id with
  | none => s
  | some c =>
    if c.phase ≠ .fetched ∨ !s.mayStart c ∨ s.pwr.fatal then s
    else match s.check116 c with
      | (s, st, p) =>
        if st ≠ 0 then s.updFe id fun c => { c with phase := .ended, status := st }
        else
          let s := c.touches.foldl (fun s h => match Tab.get? (s.job c.job).handles h.1 with
            | some x => if x.lastHost then s.dropRange c.job x.base x.len else s
            | none => s) s
          (s.updFe id fun c => { c with phase := .running, ctr := p, begun := true }).fresh

/-! ## LAUNCH, WAIT, SIGNAL (R115, R117, R515) -/

/-- The wait or the add of a command goes out, once. -/
def State.askCounter (s : State) (id : Nat) (m : Place → Msg) : State :=
  match s.cmd id with
  | some c => match c.asked, c.ctr with
    | false, some p => (s.updFe id fun c => { c with asked := true }).send (m p)
    | _, _ => s
  | none => s

/-- Send the next envelope of a LAUNCH, or one that bounced and whose wait is over (R117, R136). While the host's port does not
deliver its array the command waits: no rule names a status for it (log 42). -/
def State.launchSend (s : State) (c : Cmd) : State :=
  match c.bounced.find? fun b => decide (b.2 ≤ s.clk.cycle) with
  | some b => (s.updFe c.id fun c => { c with bounced := c.bounced.erase b }).send (.env b.1)
  | none =>
    if c.arg1.toNat ≤ c.sent ∨ 64 ≤ s.fe.out ∨ !s.portUp c.q then s
    else
      let bs := s.portBytes (portOfQueue c.q) (c.arg0.toNat + 64 * c.sent) 64
      let w (i : Nat) : Word := leWord ((bs.drop (8 * i)).take 8)
      let chip := s.physical ((w 0).extractLsb' 53 11)
      let s := s.fresh
      if 175 < fld (w 0) 44 8 ∨ s.chip.nChips ≤ chip.toNat then
        s.endCmd c.id 0x0104 (at64 Cause.PERM.toNat 32 + at64 c.sent 0)
      else
        let hdr := putFld (hdrFilled (w 0) 3 c.job) 53 11 chip.toNat
        let e : Env := { hdr := hdr, w1 := w 1, pl := (List.range 6).map fun i => w (2 + i), sender := .front s.chip.chipNo c.id c.sent,
                         task := none, job := c.job, rel := none, svc := false, stamp := none, row := none, stolen := none }
        let s := s.updFe c.id fun c => { c with sent := c.sent + 1, out := c.out + 1 }
        State.send { s with fe := { s.fe with out := s.fe.out + 1 } } (.env e)

/-! ## COPYIN and COPYOUT (R115, R515) -/

/-- The physical address of a device byte for a command, or the cause of its failure. -/
def State.fePlace (s : State) (job : BitVec 12) (acc : AccKind) (va : Word) : State × Sum Nat Byte :=
  match s.translate [] job false acc va with
  | (s, .ok (.dev pa)) => (s, .inl pa)
  | (s, .noLeaf _) => (s, .inr Cause.XLATE)
  | (s, _) => (s, .inr Cause.PERM)

/-- XFERFAIL: the cause and the offset of the line that failed. -/
def xferDetail (cause : Byte) (off : Nat) : Word := at64 cause.toNat 0 + at64 off 8

/-- Copy line by line into device memory; after a failure the destination's other bytes have no value. -/
def State.copyIn (s : State) (job : BitVec 12) (port : Bool) (src : Nat) (dst : Word) (up : Bool) (n : Nat) : Nat → Nat → State × Option (Byte × Nat)
  | 0, _ => (s, none)
  | fuel + 1, off =>
    if n ≤ off then (s, none)
    else
      let va := dst + BitVec.ofNat 64 off
      let m := min (n - off) (64 - va.toNat % 64)
      if !up || !Config.hostServes s.clk.free (src + off) then (s, some (Cause.PERM, off))
      else match s.fePlace job .write va with
        | (s, .inr c) => (s, some (c, off))
        | (s, .inl pa) =>
          match s.devWrite (tagOf job) pa (s.portBytes port (src + off) m) with
          | some s => (s.fresh).copyIn job port src dst up n fuel (off + m)
          | none => (s, some (Cause.PERM, off))

/-- Device bytes of the job that a failed COPYIN leaves with no value. -/
def State.blank (s : State) (job : BitVec 12) (dst : Word) (n : Nat) : Nat → Nat → State
  | 0, _ => s
  | fuel + 1, off =>
    if n ≤ off then s
    else
      let va := dst + BitVec.ofNat 64 off
      let m := min (n - off) (64 - va.toNat % 64)
      let s := match s.fePlace job .write va with
        | (s, .inl pa) =>
          if s.lineOwner pa = some (tagOf job) then { s with mem := { s.mem with dev := Tab.clear s.mem.dev pa (pa + m) } } else s
        | (s, .inr _) => s
      s.blank job dst n fuel (off + m)

/-- Copy line by line to host memory; after a failure the destination's other bytes have no value. -/
def State.copyOut (s : State) (job : BitVec 12) (port : Bool) (src : Word) (dst : Nat) (up : Bool) (n : Nat) : Nat → Nat → State × Option (Byte × Nat)
  | 0, _ => (s, none)
  | fuel + 1, off =>
    if n ≤ off then (s, none)
    else
      let va := src + BitVec.ofNat 64 off
      let m := min (n - off) (64 - va.toNat % 64)
      let fail (s : State) (c : Byte) : State × Option (Byte × Nat) :=
        ({ s with mem := { s.mem with host := Tab.clear s.mem.host (hostKey port (dst + off)) (hostKey port dst + n) } }, some (c, off))
      if !up || !Config.hostServes s.clk.free (dst + off) then fail s Cause.PERM
      else match s.fePlace job .read va with
        | (s, .inr c) => fail s c
        | (s, .inl pa) =>
          match s.devRead (tagOf job) pa m with
          | .bytes bs => ((s.portPut port (dst + off) bs).fresh).copyOut job port src dst up n fuel (off + m)
          | .err c => fail s c

def State.runCopyIn (s : State) (c : Cmd) : State :=
  let n := c.arg2.toNat
  match s.copyIn c.job (portOfQueue c.q) c.arg0.toNat c.arg1 (s.portUp c.q) n (n / 64 + 2) 0 with
  | (s, none) => s.endCmd c.id 0 0
  | (s, some (cause, off)) => (s.blank c.job c.arg1 n (n / 64 + 2) off).endCmd c.id 0x0106 (xferDetail cause off)

def State.runCopyOut (s : State) (c : Cmd) : State :=
  let n := c.arg2.toNat
  match s.copyOut c.job (portOfQueue c.q) c.arg0 c.arg1.toNat (s.portUp c.q) n (n / 64 + 2) 0 with
  | (s, none) => s.endCmd c.id 0 0
  | (s, some (cause, off)) => s.endCmd c.id 0x0106 (xferDetail cause off)

/-! ## HBIND, HREL, TOHOST, TODEVICE (R118, R123–R125) -/

def State.handle (s : State) (j : BitVec 12) (h : Nat) : Option Handle := Tab.get? (s.job j).handles h
def State.setHandle (s : State) (j : BitVec 12) (h : Nat) (x : Handle) : State :=
  s.setJob j { s.job j with handles := Tab.put (s.job j).handles h x }
def State.dropHandle (s : State) (j : BitVec 12) (h : Nat) : State :=
  s.setJob j { s.job j with handles := Tab.del (s.job j).handles h }

/-- The pages of a range all map device memory of this chip. -/
def State.allOwn (s : State) (j : BitVec 12) (base len : Word) : Bool :=
  (pagesOf base len).all fun va => !beyond va && !inWindow va && match s.walk j va with
    | .leaf w _ lg => match s.leafPlace w lg va with
      | .dev _ => true
      | _ => false
    | .invalid _ => false

/-- HBIND: the pages of a new handle are device-owned, and its last writer, before anything wrote it, counts as the device side: R118
does not say who it is (log 42). One that is refused has no effect. -/
def State.hbind (s : State) (c : Cmd) : State :=
  let h := fld c.arg2 0 12
  if c.arg0.toNat % 0x10000 ≠ 0 ∨ c.arg1.toNat % 0x10000 ≠ 0 ∨ (s.handle c.job h).isSome ∨ !s.allOwn c.job c.arg0 c.arg1 then
    (s.updFe c.id fun c => { c with begun := false }).endCmd c.id 0x0101 0
  else (s.setHandle c.job h { base := c.arg0, len := c.arg1, hostOwned := false, flipping := false, lastHost := false }).endCmd c.id 0 0

/-- Parks under OWN on a range of a job. -/
def State.ownParks (s : State) (j : BitVec 12) (base len : Word) : List Park :=
  s.parks.filter fun p => p.own && decide (p.job = j) && decide (base.toNat ≤ p.va.toNat) && decide (p.va.toNat < base.toNat + len.toNat)

/-- A parked task traps with OWN at its instruction; a frame of a held job leaves its slot again. -/
def State.trapOwn (s : State) (k : Nat) (va : Word) : State :=
  let cur := s.run.cur
  let s := State.trap (s.asTask k) Cause.OWN va
  let s := s.asTask cur
  if s.jobHeld (s.frame k).job ∧ (s.frame k).resident then s.evict k else s

/-- The parked accesses of a range fail (R125). -/
def State.failParks (s : State) (ps : List Park) : State :=
  let s := { s with parks := s.parks.filter fun p => !ps.contains p }
  ps.foldl (fun s p => match p.who with
    | .task k => if (s.frame k).wait = .own then s.trapOwn k p.va else s
    | .store (.store x _ job ..) => s.refused x job Cause.OWN
    | .store _ => s
    | .segment h seg => s.segEnd h seg (some Cause.OWN)) s

/-- The parked accesses of a range go again (R124). -/
def State.replayParks (s : State) (ps : List Park) : State :=
  let s := { s with parks := s.parks.filter fun p => !ps.contains p }
  ps.foldl (fun s p => match p.who with
    | .task k => if (s.frame k).wait = .own then s.setFrame k (s.released (s.frame k)) else s
    | .store m => s.replayStore p m
    | .segment h seg => s.updCmd h fun c => { c with parked := c.parked.filter fun k => decide (k ≠ seg) }) s

def State.hrel (s : State) (c : Cmd) : State :=
  let h := fld c.arg2 0 12
  match s.handle c.job h with
  | none => s.endCmd c.id 0x0101 0
  | some x =>
    let s := s.failParks (s.ownParks c.job x.base x.len)
    let s := if x.hostOwned then s.setHo c.job x.base x.len false else s
    (s.dropHandle c.job h).endCmd c.id 0 0

/-- TOHOST begins: new accesses of the range park (R123 step 1). -/
def State.toHost (s : State) (c : Cmd) : State :=
  match s.handle c.job c.flipped with
  | none => s.endCmd c.id 0x0101 0
  | some x =>
    if x.flipping then s
    else (s.setHo c.job x.base x.len true).setHandle c.job c.flipped { x with flipping := true }

/-- The access lies in a range of the job's pages. -/
def State.inRange (s : State) (j : BitVec 12) (base len : Word) (p : Place) : Bool :=
  (pagesOf base len).any fun va => match s.walk j va with
    | .leaf w _ lg => match p with
      | .dev pa => decide (leafPa w lg va / 0x10000 = pa / 0x10000)
      | _ => false
    | .invalid _ => false

/-- Accesses to a range that are in flight: on their way, queued fills, segments on their way (R123 step 2). -/
def State.accessesTo (s : State) (j : BitVec 12) (base len : Word) : Bool :=
  (s.net.any fun m => decide (m.job? = some j) && match m.place? with
    | some (p, _) => s.inRange j base len p
    | none => false)
  || (s.arrays.any fun a => a.2.queue.any fun c => decide (c.job = j) && match c.op with
    | .fill _ _ _ _ rows scales => (rows ++ scales).any fun q => s.inRange j base len q.2
    | _ => false)
  || (s.engines.any fun e => e.2.cmds.any fun c => decide (c.job = j) && !c.sent.isEmpty)
  || (s.fab.relay.any fun p => p.2.any fun q => decide (q.job = j))

/-- The flip commits when nothing is in flight (R123 steps 2–4); no copy is dirty (log 18). -/
def State.toHostCommit (s : State) (c : Cmd) : State :=
  match s.handle c.job c.flipped with
  | none => s
  | some x =>
    if !x.flipping || s.accessesTo c.job x.base x.len then s
    else ((s.dropRange c.job x.base x.len).setHandle c.job c.flipped { x with flipping := false, hostOwned := true }).endCmd c.id 0 0

/-- The return commits (R124). Of a handle that is device-owned already it changes the last writer alone: the spec does not say what
becomes of such a command (log 42). -/
def State.toDevice (s : State) (c : Cmd) : State :=
  match s.handle c.job c.flipped with
  | none => s.endCmd c.id 0x0101 0
  | some x =>
    let s := if x.hostOwned then s.setHo c.job x.base x.len false else s
    let s := s.setHandle c.job c.flipped { x with hostOwned := false, lastHost := true }
    (s.replayParks (s.ownParks c.job x.base x.len)).endCmd c.id 0 0

/-! ## The host window (R122) -/

/-- The job of an interface; an unlocked one may be bound anew at any time, so its job is free (log 41). -/
def State.ifaceJob (s : State) (port : Bool) (t : Nat) : BitVec 12 :=
  match Tab.get? s.sec.ifaces (ifaceKey port t) with
  | some x => if x.st = .unlocked then BitVec.ofNat 12 (Config.freeNat s.clk.free 20) else x.job
  | none => BitVec.ofNat 12 (Config.freeNat s.clk.free 20)

/-- The device address of a window offset, if the access lies in a host-owned handle. -/
def State.windowVa (s : State) (port : Bool) (t off size : Nat) : Option Word :=
  (s.job (s.ifaceJob port t)).handles.findSome? fun h =>
    let w := Config.windowOffset port t h.1
    if h.2.hostOwned ∧ w ≤ off ∧ off + size ≤ w + h.2.len.toNat then some (h.2.base + BitVec.ofNat 64 (off - w)) else none

/-- The physical addresses of the bytes of a range, each through its own page; none where a page has no leaf to own memory, as HBIND
takes it: a peer number that is the own chip's reaches own memory (log 19). -/
def State.ownBytes (s : State) (j : BitVec 12) (va : Word) (n : Nat) : Option (List Nat) :=
  (List.range n).mapM fun i => match s.walk j (va + BitVec.ofNat 64 i) with
    | .leaf w _ lg => match s.leafPlace w lg (va + BitVec.ofNat 64 i) with
      | .dev pa => some pa
      | _ => none
    | .invalid _ => none

/-- All ones on a read, nothing on a write, and the count. -/
def State.windowBad (s : State) (wr : HostWr) : State :=
  match wr with
  | .write _ => s.feBad
  | _ => (s.answerHost (some (BitVec.allOnes 64))).feBad

/-- Bytes read one after the other; the first error decides. -/
def State.gatherBytes (s : State) (tag : Owner) : List Nat → Got
  | [] => .bytes []
  | pa :: ps => match s.devRead tag pa 1, s.gatherBytes tag ps with
    | .bytes a, .bytes b => .bytes (a ++ b)
    | .err c, _ => .err c
    | _, .err c => .err c

def State.scatterBytes (s : State) (tag : Owner) : List (Nat × Byte) → State
  | [] => s
  | (pa, b) :: ps => ((s.devWrite tag pa [b]).getD s).scatterBytes tag ps

/-- A host's AtomicOp adds to a counter as any add does: waits observe it, and it carries nothing (R339, R379). -/
def State.hostAdd (s : State) (tag : Owner) (pas : List Nat) (new : Nat) : State :=
  let p : Place := .dev (pas.headD 0)
  let s := s.scatterBytes tag (pas.zip (leBytes new pas.length))
  if pas.length = 8 then (s.noteCounter p).wakeReached p (BitVec.ofNat 64 new) else s.spoil p pas.length

/-- A host access of up to eight bytes through the device-memory window, made with the tag of the job; beyond the windows of the 64
interfaces it reaches none. A request that a running interface does not accept completes with Unsupported Request (R490). A line that is
refused or uncorrectable reads all ones and counts nothing: no rule says what the host reads there (log 42). -/
def State.hostWindow (s : State) (via : Via) (off size : Nat) (wr : HostWr) : State :=
  let t := off / 2 ^ 34
  let j := s.ifaceJob via.port t
  let off_ := match Tab.get? s.sec.ifaces (ifaceKey via.port t) with
    | some x => !x.accepts via
    | none => false
  if 64 ≤ t then s.windowBad wr
  else if off_ then (match wr with
    | .write _ => s.feBad
    | _ => (s.answerHost none).feBad)
  else match (s.windowVa via.port t (off % 2 ^ 34) size).bind fun va => s.ownBytes j va size with
    | none => s.windowBad wr
    | some pas =>
      match wr with
      | .write v => (s.scatterBytes (tagOf j) (pas.zip (leBytes v.toNat size))).spoil (.dev (pas.headD 0)) size
      | .read => match s.gatherBytes (tagOf j) pas with
        | .bytes bs => s.answerHost (some (leWord bs))
        | .err _ => s.answerHost (some (BitVec.allOnes 64))
      | .fetchAdd v => match s.gatherBytes (tagOf j) pas with
        | .bytes bs => (s.answerHost (some (leWord bs))).hostAdd (tagOf j) pas ((leNat bs + v.toNat) % 2 ^ (8 * size))
        | .err _ => s.answerHost (some (BitVec.allOnes 64))

/-! ## Completion (R111, R119) -/

/-- The 32-byte completion record. -/
def Cmd.record (c : Cmd) (time : Word) : List Byte :=
  leBytes (c.k % 2 ^ 32) 4 ++ leBytes c.tag.toNat 4 ++ leBytes c.status.toNat 2 ++ [c.op] ++ List.replicate 5 0 ++ leBytes time.toNat 8
    ++ leBytes c.detail.toNat 8

/-- The last writer of a handle that the command writes; one that failed a check of R116, or was killed before it started, wrote
nothing. -/
def State.lastWriters (s : State) (c : Cmd) : State :=
  if !c.begun then s
  else c.touches.foldl (fun s h => match h.2, s.handle c.job h.1 with
    | true, some x => s.setHandle c.job h.1 { x with lastHost := decide (c.op = 0x03) || decide (c.op = 0x0A) }
    | _, _ => s) s

/-- Steps 4 to 6 of R119. Writes that the port cannot deliver are counted (R111). -/
def State.notices (s : State) (c : Cmd) : State :=
  if s.portUp c.q then
    let port := portOfQueue c.q
    let s := s.portPut port (c.cbase.toNat + 32 * (c.k % 2 ^ c.lent.toNat)) (c.record s.clk.dtime)
    let s := if c.hostctr = 0 then s
      else s.portPut port c.hostctr.toNat (leBytes (leNat (s.portBytes port c.hostctr.toNat 8) + 1) 8)
    if c.flags.getLsbD 0 then { s with fe := { s.fe with msixSent := s.fe.msixSent ++ [(b2n port, c.msix)] } } else s
  else
    { s with fe := { s.fe with dropcpl := satAdd s.fe.dropcpl (1 + b2n (decide (c.hostctr ≠ 0)) + b2n (c.flags.getLsbD 0)) 0xFFFFFFFF } }

/-- A command completes. -/
def State.completeCmd (s : State) (id : Nat) : State :=
  match s.cmd id with
  | none => s
  | some c =>
    if c.phase ≠ .ended ∨ s.pwr.fatal then s
    else
      let s := (s.lastWriters c).notices c
      let q := s.queueOf c.q
      let s := if q.epoch = c.epoch then s.setQueue c.q { q with done := q.done + 1 } else s
      { s with fe := { s.fe with cmds := s.fe.cmds.filter fun d => decide (d.id ≠ id) } }.fresh

/-! ## SUSPEND, RESUME, KILL (R466, R470) -/

/-- A SUSPEND completes when the job is suspended, or is not running here. -/
def State.suspendCmd (s : State) (c : Cmd) : State :=
  if !c.asked then
    let s := (s.updFe c.id fun c => { c with asked := true }).suspendStep c.job
    if (s.job c.job).state = 2 then s else s.endCmd c.id 0 0
  else
    let s := if (s.job c.job).state = 2 then s.suspendStep c.job else s
    if (s.job c.job).state = 2 then s else s.endCmd c.id 0 0

/-- A KILL starts the removal, goes on with it, or meets no image. -/
def State.killCmd (s : State) (c : Cmd) : State :=
  if (s.job c.job).state = 0 then s.endCmd c.id 0 0
  else if (s.job c.job).state = 4 then s.removalStep c.job
  else s.removalStart c.job 0

/-! ## The meanings -/

abbrev FdOut := Host.Outcome State Fault Refusal

/-- REGISTER_WRITE: a register row of a tile window, or the control window of a port (R8). -/
def execRegisterWrite (at_ : RegAt) (v : Word) (s : State) : FdOut :=
  .next (match at_ with
    | .window tile off => s.rowWrite tile off v
    | .control via off size => s.controlWrite via off size v)
/-- HLEASE_CAS (R110). -/
def execHleaseCas (port : Bool) (cmp swap : Word) (s : State) : FdOut := .next (s.leaseCas port cmp swap)
/-- HLEASE_OTHER_ATOMIC: Completer Abort, with no effect (R110). -/
def execHleaseOtherAtomic (_port : Bool) (_v : Word) (s : State) : FdOut := .next (s.answerHost none)
/-- HOST_LEASE_EXPIRY: fetching stops (R111). -/
def execHostLeaseExpiry (s : State) : FdOut :=
  .next (if fld s.fe.hlease 0 62 ≤ fld s.clk.dtime 0 62 then { s with fe := { s.fe with expired := true } } else s)
/-- QCTL_WRITE (R112). -/
def execQctlWrite (via : Via) (q : Nat) (v : Word) (s : State) : FdOut := .next (s.queueWrite via q fun s => s.qctl q v)
/-- QDBL (R113). -/
def execQdbl (via : Via) (q : Nat) (v : Word) (s : State) : FdOut := .next (s.queueWrite via q fun s => s.doorbell q v)
/-- COMMAND_FETCH (R113). -/
def execCommandFetch (q : Nat) (s : State) : FdOut := .next (if q < 256 then s.fetchCmd q else s)
/-- COMMAND_START (R116, R118, R119). -/
def execCommandStart (id : Nat) (s : State) : FdOut := .next (s.startCmd id)
/-- LAUNCH: its acquiring wait goes to the counter (R115). -/
def execLaunch (id : Nat) (s : State) : FdOut :=
  .next (s.running id 0x02 fun c => s.askCounter id fun p => .cwait (.front s.chip.chipNo id) c.job p c.arg3 none)
/-- LAUNCH_ENVELOPE_SEND (R117). -/
def execLaunchEnvelopeSend (id : Nat) (s : State) : FdOut := .next (s.running id 0x02 fun c => s.launchSend c)
/-- COPYIN (R115, R515). -/
def execCopyin (id : Nat) (s : State) : FdOut := .next (s.running id 0x03 fun c => s.runCopyIn c)
/-- COPYOUT (R115, R515). -/
def execCopyout (id : Nat) (s : State) : FdOut := .next (s.running id 0x04 fun c => s.runCopyOut c)
/-- HBIND (R118). -/
def execHbind (id : Nat) (s : State) : FdOut := .next (s.running id 0x05 fun c => s.hbind c)
/-- HREL (R125). -/
def execHrel (id : Nat) (s : State) : FdOut := .next (s.running id 0x06 fun c => s.hrel c)
/-- WAIT (R115). -/
def execWait (id : Nat) (s : State) : FdOut :=
  .next (s.running id 0x07 fun c => s.askCounter id fun p => .cwait (.front s.chip.chipNo id) c.job p c.arg1 none)
/-- SIGNAL (R115). -/
def execSignal (id : Nat) (s : State) : FdOut :=
  .next (s.running id 0x08 fun c => s.askCounter id fun p => .add (.front s.chip.chipNo id) none c.job p c.arg1
    (some { scope := .domain, chip := s.chip.chipNo, tile := none, knows := s.fe.knows }))
/-- TOHOST (R123 step 1). -/
def execTohost (id : Nat) (s : State) : FdOut := .next (s.running id 0x09 fun c => s.toHost c)
/-- TOHOST_COMMIT (R123 steps 2–4). -/
def execTohostCommit (id : Nat) (s : State) : FdOut := .next (s.running id 0x09 fun c => s.toHostCommit c)
/-- TODEVICE (R124). -/
def execTodevice (id : Nat) (s : State) : FdOut := .next (s.running id 0x0A fun c => s.toDevice c)
/-- SUSPEND (R466). -/
def execSuspend (id : Nat) (s : State) : FdOut := .next (s.running id 0x0B fun c => s.suspendCmd c)
/-- RESUME (R466). -/
def execResume (id : Nat) (s : State) : FdOut := .next (s.running id 0x0C fun c => (s.resumeJob c.job).endCmd id 0 0)
/-- KILL (R468, R470). -/
def execKill (id : Nat) (s : State) : FdOut := .next (s.running id 0x0D fun c => s.killCmd c)
/-- FATAL_FAULT_REMOVAL (R433, R468). -/
def execFatalFaultRemoval (n : Nat) (s : State) : FdOut := .next (s.fatalRemoval n)
/-- COMMAND_COMPLETE (R119). -/
def execCommandComplete (id : Nat) (s : State) : FdOut := .next (s.completeCmd id)
/-- HOST_WINDOW_ACCESS (R122). -/
def execHostWindowAccess (via : Via) (off size : Nat) (wr : HostWr) (s : State) : FdOut := .next (s.hostWindow via off size wr).fresh

end Sys2Proof.Machine
end

