-- ==== Sys2Proof/Machine/Loader.lean ====
section
/-! DEFINITION. Machine/Loader.lean: LOAD: the checks of R50 step 3 and its steps 4 to 10, in stages that the front ends of
all chips of the placement carry out together (R24, R50–R52; log 44). -/

namespace Sys2Proof.Machine

/-! ## Step 3: the placement and its limits -/

/-- Cores of this chip at the worker cores of the placement's tiles that a record's group selects. -/
def Clely.coresOf (x : Clely) (tiles : Table (BitVec 11 × Nat)) (g : Nat) : List (BitVec 11 × Nat) :=
  if g = 0xFFFF then tiles.flatMap fun p => (List.range 31).map fun n => (p.2.1, p.2.2 * 32 + n)
  else match x.groups[g]? with
    | some r => (expandMembers tiles (x.members r)).getD []
    | none => []

/-- Tiles that hold a member of a record's group. -/
def Clely.tilesOf (x : Clely) (tiles : Table (BitVec 11 × Nat)) (g : Nat) : List (BitVec 11 × Nat) :=
  ((x.coresOf tiles g).map fun c => (c.1, tileOfCore c.2)).dedup

/-- What a load works on: the job, the file, the tiles of the placement, the image base, and the group entries with the
versions that the load commits, and the generations of the pinned frames. -/
structure Load where
  job   : BitVec 12
  x     : Clely
  tiles : Table (BitVec 11 × Nat)
  base  : Nat
  idx   : List Nat
  vers  : List (BitVec 16)
  gens  : List ((BitVec 11 × Nat) × Nat × BitVec 8)
  deriving DecidableEq, Repr

/-- A placement breaks R24, as far as this chip can tell. -/
def State.badPlacement (s : State) (j : BitVec 12) (es : List PlcEntry) : Bool :=
  let tiles := plcTiles es
  let pol := s.jpol j
  let here := (tiles.filter fun p => decide (p.2.1 = s.chip.chipNo)).map fun p => p.2.2
  es.isEmpty || es.any (fun e => e.resv || decide (1 < e.die) || decide (175 < e.tile) || decide (s.chip.nChips ≤ e.chip))
    || decide (tiles.map (·.1) ≠ List.range es.length) || !decide (tiles.map (·.2)).Nodup || here.isEmpty
    || !pol.getLsbD 63 || !pol.getLsbD 62 || !pol.getLsbD 57
    || here.any fun t => match (s.core (t * 32)).job with
      | some k => decide (k ≠ j)
      | none => false

/-- The frames that a handler record's pinned template reserves, with the template (R31). -/
def Clely.pinned (x : Clely) (tiles : Table (BitVec 11 × Nat)) : List ((BitVec 11 × Nat) × Nat × Nat) :=
  x.handlers.flatMap fun h =>
    let t := x.template h.tmpl
    if t.pinned then (x.coresOf tiles h.group).map fun c => (c, t.pinFrame, h.tmpl) else []

/-- A group entry is reserved for a load of another job on this chip (R37; log 44). -/
def State.groupKept (s : State) (j : BitVec 12) (n : Nat) : Bool :=
  s.fe.parts.any fun p => decide (p.1 / 2 ^ 11 ≠ j.toNat) && p.2.kept && p.2.groups.any fun g => decide (g.1 = n)

/-- A group entry is free on this chip for a job (R37). -/
def State.groupFree (s : State) (j : BitVec 12) (n : Nat) : Bool :=
  let g := s.group n
  ((!g.cv && !g.shv && !g.busy) || !(s.job g.job).image) && !s.groupKept j n

/-- Group entries of the records, in record order, of those that are free on every chip (R37). -/
def groupIdx (free : Nat → Bool) (wants : List Nat) : List GroupRec → List Nat → Option (List Nat)
  | [], got => some got.reverse
  | r :: rs, got =>
    if r.want ≠ 0xFFFF then
      if free r.want then groupIdx free wants rs (r.want :: got) else none
    else match (idxs 256 fun n => free n && !wants.contains n && !got.contains n).head? with
      | some n => groupIdx free wants rs (n :: got)
      | none => none

/-- A version follows the one that an entry holds (R159). -/
def verAfter (v : BitVec 16) (cur : Option (BitVec 16)) : Bool :=
  match cur with
  | some c => decide (1 ≤ (v - c).toNat) && decide ((v - c).toNat ≤ 32767)
  | none => true

/-- A version number that an entry accepts on every chip, if there is one: a free one if that does, else the first after some
chip's (R37, R159). -/
def groupVer (v : BitVec 16) (held : List (Option (BitVec 16) × Bool)) : Option (BitVec 16) :=
  if held.any (fun h => h.2) then none
  else (v :: held.filterMap fun h => h.1.map fun c => c + 1).find? fun v => held.all fun h => verAfter v h.1

/-- A core would belong to more than four groups (R37, R160). -/
def State.manyGroups (s : State) (l : Load) : Bool :=
  let sets := l.x.groups.map fun r => (expandMembers l.tiles (l.x.members r)).getD []
  let others := (s.chip.groups.filter fun p => p.2.cv && !l.idx.contains p.1).map fun p => p.2.curM
  let all := sets ++ others
  (l.x.coresOf l.tiles 0xFFFF).any fun c =>
    decide (4 < (all.filter fun (m : List (BitVec 11 × Nat)) => m.contains c).length)

/-- A group or a record names a logical tile outside the placement, or core 31. A CNT64 of a slice counter uses neither its tile nor
its core, TILEWIN and CNT64 no core (R46, R47). -/
def Clely.outside (x : Clely) (tiles : Table (BitVec 11 × Nat)) : Bool :=
  let slice (p : PlaceRec) : Bool := decide (p.kind = 0x43) && (match x.counterOf p.sym with
    | some c => decide (c.home = 2)
    | none => false)
  x.groups.any (fun r => (expandMembers tiles (x.members r)).isNone)
    || x.places.any fun p => (!slice p && (Tab.get? tiles p.ltile).isNone) || (decide (p.kind ≠ 0x42) && decide (p.kind ≠ 0x43) && decide (30 < p.core))

/-- Tile counters (offset, bank) of a tile. -/
def Clely.tileCounters (x : Clely) (tiles : Table (BitVec 11 × Nat)) : List ((BitVec 11 × Nat) × Nat × Nat) :=
  (x.counters.filter fun c => decide (c.home = 1)).flatMap fun c =>
    let off := match x.sym c.sym with
      | some y => y.value
      | none => 0
    (x.tilesOf tiles c.group).map fun t => (t, c.bank, off)

/-- The records of TILEINIT as they apply to tiles. -/
def Clely.tileUses (x : Clely) (tiles : Table (BitVec 11 × Nat)) : List ((BitVec 11 × Nat) × TileRec) :=
  x.tileRecs.flatMap fun r => (x.tilesOf tiles r.group).map fun t => (t, r)

/-- Step 3's checks of the file against the placement, as far as this chip can tell. -/
def Load.step3 (l : Load) : Nat :=
  let x := l.x
  let binds := x.handlers.flatMap fun h => (x.coresOf l.tiles h.group).map fun c => (c, h.cls)
  let uses := x.tileUses l.tiles
  let ctrs := x.tileCounters l.tiles
  let pins := x.pinned l.tiles
  let slices := (x.counters.filter fun c => decide (c.home = 2)).filterMap fun c => x.sym c.sym
  lowest
    [(0x0008, somePair (fun a b => decide (a = b)) binds),
     (0x000A, somePair (fun (a b : (BitVec 11 × Nat) × Nat × Nat) => decide (a.1 = b.1) && decide (a.2.1 = b.2.1) && decide (a.2.2 ≠ b.2.2)) pins),
     (0x000C, somePair (fun (a b : (BitVec 11 × Nat) × TileRec) => decide (a.1 = b.1) && decide (a.2.bank = b.2.bank)
        && (decide (a.2.mode ≠ b.2.mode) || meet a.2.boff a.2.len b.2.boff b.2.len)) uses),
     (0x000D, ctrs.any (fun c => decide (c.2.2 % 8 ≠ 0) || decide (0x20000 ≤ c.2.2)
          || !(uses.any fun w => decide (w.1 = c.1) && decide (w.2.bank = c.2.1) && decide (w.2.mode = 0)))
        || somePair (fun a b => decide (a = b)) ctrs || slices.any (fun y => decide (y.value % 8 ≠ 0))
        || somePair (fun (a b : SymRec) => decide (a.sec = b.sec) && decide (a.value = b.value)) slices),
     (0x000F, x.places.any fun p => decide (p.kind = 0x40) && match Tab.get? l.tiles p.ltile, x.sym p.sym with
        | some t, some y => !(pins.any fun q => decide (q.1 = (t.1, t.2 * 32 + p.core)) && decide (q.2.2 = y.value))
        | _, _ => false),
     (0x0010, x.outside l.tiles || (decide (1 < (plcChips l.tiles).length) && x.places.any fun p =>
        decide (p.kind = 0x42) || (decide (p.kind = 0x43) && (match x.counterOf p.sym with
          | some c => decide (c.home = 1)
          | none => false)))),
     (0x0011, (chunks 8 (x.the 12)).any fun b => decide (u b 3 1 = 1) && !(decide (1 ≤ u b 0 2) && decide (u b 0 2 ≤ 4) && decide (u b 2 1 ≤ 1)))]

/-! ## Step 4: memory (R21, R22, R28) -/

/-- 64 KiB pages of the image. -/
def Load.pages (l : Load) : Nat := (l.x.span + 0xFFFF) / 0x10000
/-- Address of a template's copy. -/
def Load.copyAddr (l : Load) (i : Nat) : Nat := l.base + l.pages * 0x10000 + l.x.copyOff i
/-- Pages of the template copies. -/
def Load.copyPages (l : Load) : Nat := (l.x.copies.length + 0xFFFF) / 0x10000

/-- Sections that touch a page of the image. -/
def Load.secsAt (l : Load) (i : Nat) : List Sec :=
  (l.x.secs.filter Sec.loadable).filter fun s => meet s.link s.memsize (i * 0x10000) 0x10000
/-- The page is placed once, on the chip of logical tile 0, if some section on it is: R22 does not say what becomes of a page that such a
section shares with CODE or read-only DATA, and the model places it whole (log 44). -/
def Load.once (l : Load) (i : Nat) : Bool := (l.secsAt i).any Sec.once

def Load.chip0 (l : Load) : BitVec 11 := match Tab.get? l.tiles 0 with
  | some t => t.1
  | none => 0

/-- Pages of device memory are free: inside memory, not reserved, held for no load, and with no line that the device or a job owns
(R489). -/
def State.freePages (s : State) (p n : Nat) : Bool :=
  decide ((p + n) * 0x10000 ≤ Config.devBytes)
    && !(s.mem.owner.any fun o => decide (p ≤ o.1 / 1024) && decide (o.1 / 1024 < p + n) && (match o.2 with
      | .device => true
      | .job k => s.jobExists k))
    && !(s.chip.jobs.any fun e => e.2.pages.any fun q => decide (p ≤ q) && decide (q < p + n))
    && !((List.range n).any fun i => Config.reserved ((p + i) * 0x10000)) && !(s.fe.parts.any fun e => e.2.held.any fun h => meet p n h.1 h.2)

/-- The page comes to a new use: its lines were never written, and no cache holds one. A line marked uncorrectable stays so until a
write of all its bytes (R514). -/
def State.takePage (s : State) (p : Nat) : State :=
  let keep (c : Nat × CLine) : Bool := decide (c.1 % 2 ^ 36 / 1024 ≠ p)
  { s with mem := { s.mem with
      dev := Tab.clear s.mem.dev (p * 0x10000) ((p + 1) * 0x10000), owner := Tab.clear s.mem.owner (p * 1024) ((p + 1) * 1024),
      past := s.mem.past.filter (fun x => !x.inDev (p * 0x10000) ((p + 1) * 0x10000)),
      counters := s.mem.counters.filter (fun x => !x.inDev (p * 0x10000) ((p + 1) * 0x10000)),
      rels := s.mem.rels.filter (fun x => !x.1.inDev (p * 0x10000) ((p + 1) * 0x10000)),
      l1 := s.mem.l1.filter keep, way := s.mem.way.filter keep, icache := s.mem.icache.filter keep } }

/-- Write bytes of a page's new use. -/
def State.fillMem (s : State) (tag : Owner) (pa : Nat) (bs : List Byte) : State := (s.devWrites tag (bs.length / 64 + 2) pa bs).1

/-- The table below an entry, made in the next page if there is none: the table's address and the next page. -/
def State.subTable (s : State) (entry next : Nat) : State × Nat × Nat :=
  match s.pte entry with
  | some e =>
    if e.getLsbD 63 then (s, tableOf e, next)
    else (((s.takePage next).fillMem .device (next * 0x10000) (List.replicate 0x10000 0)).fillMem .device entry
      (leBytes (at64 1 63 + at64 next 16).toNat 8), next * 0x10000, next + 1)
  | none => (s, 0, next)

/-- Map a page: the tables above it are made where they are missing (R439, R440). -/
def State.mapPage (s : State) (j : BitVec 12) (next : Nat) (va : Nat) (leaf : Word) : State × Nat :=
  let root := Tab.get s.chip.troot j.toNat 0
  let r : State × Nat × Nat :=
    if root.getLsbD 63 then (s, fld root 14 38 * 2 ^ 14, next)
    else
      let s := (s.takePage next).fillMem .device (next * 0x10000) (List.replicate 0x10000 0)
      ({ s with chip := { s.chip with troot := Tab.put s.chip.troot j.toNat (at64 1 63 + at64 next 16) } }, next * 0x10000, next + 1)
  let r1 := r.1.subTable (r.2.1 + 8 * (va / 2 ^ 46 % 2 ^ 11)) r.2.2
  let r2 := r1.1.subTable (r1.2.1 + 8 * (va / 2 ^ 36 % 2 ^ 10)) r1.2.2
  let r3 := r2.1.subTable (r2.2.1 + 8 * (va / 2 ^ 26 % 2 ^ 10)) r2.2.2
  (r3.1.fillMem .device (r3.2.1 + 8 * (va / 2 ^ 16 % 2 ^ 10)) (leBytes leaf.toNat 8), r3.2.2)

/-- A leaf for a page of the image: readable, and writable or fetched from as its sections say. -/
def Load.leaf (l : Load) (own : BitVec 11) (i page : Nat) : Word :=
  let ss := l.secsAt i
  at64 3 62 + at64 1 59 + at64 (b2n (ss.any Sec.writable)) 58 + at64 (b2n (ss.any Sec.code)) 57 + at64 page 16
    + (if l.once i ∧ l.chip0 ≠ own then at64 1 60 + at64 l.chip0.toNat 0 else 0)

/-- Where the pages of an image lie: those placed once from `once` on, on the chip of logical tile 0; this chip's from
`own` on, with the template copies behind the image; page tables from `tables` on. -/
structure Where where
  (once own tables : Nat)
  deriving DecidableEq, Repr

def Where.page (w : Where) (l : Load) (i : Nat) : Nat := if l.once i then w.once + i else w.own + i

/-- The image's range is unmapped on this chip. -/
def State.vaFree (s : State) (l : Load) : Bool :=
  (List.range (l.pages + l.copyPages)).all fun i => match s.walk l.job (BitVec.ofNat 64 (l.base + 0x10000 * i)) with
    | .leaf .. => false
    | .invalid _ => true

/-- Most pages that the page tables of a range can take. -/
def Load.tablePages (l : Load) : Nat := 3 + 3 * ((l.pages + l.copyPages) / 1024 + 2)

/-- The device memory that a load needs here is free. -/
def State.roomFor (s : State) (l : Load) (w : Where) : Bool :=
  decide (l.base + (l.pages + l.copyPages) * 0x10000 ≤ 0x1FF * 2 ^ 48) && s.vaFree l
    && (decide (l.chip0 ≠ s.chip.chipNo) || s.freePages w.once l.pages)
    && s.freePages w.own (l.pages + l.copyPages) && s.freePages w.tables l.tablePages
    && !meet w.once l.pages w.own (l.pages + l.copyPages) && !meet w.once l.pages w.tables l.tablePages
    && !meet w.own (l.pages + l.copyPages) w.tables l.tablePages

/-- Contents of a section with its patches. -/
def Load.patched (l : Load) (ps : List Patch) (i : Nat) (sec : Sec) : List Byte :=
  let bs := l.x.contents sec ++ List.replicate (sec.memsize - sec.fsize) 0
  (ps.filter fun p => decide (p.sec = i)).foldl (fun bs p => p.apply bs) bs

/-- Write bytes at an offset of the image, page by page. -/
def State.putImage (s : State) (l : Load) (w : Where) (off : Nat) (bs : List Byte) : State :=
  (List.range (bs.length / 0x10000 + 2)).foldl (fun s k =>
    let i := off / 0x10000 + k
    let lo := max off (i * 0x10000)
    let part := (bs.drop (lo - off)).take ((i + 1) * 0x10000 - lo)
    if part.isEmpty ∨ (l.once i ∧ l.chip0 ≠ s.chip.chipNo) then s
    else s.fillMem (tagOf l.job) (w.page l i * 0x10000 + lo % 0x10000) part) s

/-- The pages that the load takes. -/
def Load.taken (l : Load) (own : BitVec 11) (w : Where) : List Nat :=
  (((List.range l.pages).filter fun i => !(l.secsAt i).isEmpty && !(l.once i && decide (l.chip0 ≠ own))).map (w.page l))
    ++ (List.range l.copyPages).map fun i => w.own + l.pages + i

/-- Step 4, with the patches of steps 5 and 6. -/
def State.loadMemory (s : State) (l : Load) (w : Where) (ps : List Patch) : State :=
  let own := s.chip.chipNo
  let s := (l.taken own w).foldl State.takePage s
  let s := l.x.secs.zipIdx.foldl (fun s e => if e.1.loadable then s.putImage l w e.1.link (l.patched ps e.2 e.1) else s) s
  let s := s.fillMem (tagOf l.job) ((w.own + l.pages) * 0x10000) l.x.copies
  let maps := (((List.range l.pages).filter fun i => !(l.secsAt i).isEmpty).map fun i => (l.base + 0x10000 * i, l.leaf own i (w.page l i)))
    ++ (List.range l.copyPages).map fun i =>
      (l.base + 0x10000 * (l.pages + i), at64 3 62 + at64 1 59 + at64 (w.own + l.pages + i) 16)
  (maps.foldl (fun (r : State × Nat) m => r.1.mapPage l.job r.2 m.1 m.2) (s, w.tables)).1

/-! ## Step 6: pinned frames and PLACEMENT (R31, R32, R47) -/

/-- The generation that the load gives a pinned frame (R32). -/
def Load.pinGen (l : Load) (c : BitVec 11 × Nat) (f : Nat) : BitVec 8 :=
  match l.gens.find? fun g => decide (g.1 = c) && decide (g.2.1 = f) with
  | some g => g.2.2
  | none => 0

def Load.placeValue (l : Load) (p : PlaceRec) : Nat × Nat × Nat :=
  let t := (Tab.get? l.tiles p.ltile).getD (0, 0)
  let grp := l.idx.getD ((l.x.sym p.sym).elim 0 fun y => y.value) 0
  let core := 2 ^ 63 + t.1.toNat * 2 ^ 51 + dieOfTile t.2 * 2 ^ 50 + tileNo t.2 * 2 ^ 42 + p.core * 2 ^ 37
  let win := 0x1FF * 2 ^ 48 + dieOfTile t.2 * 2 ^ 40 + tileNo t.2 * 2 ^ 32
  let full := 2 ^ 64 - 1
  let ctr (c : CounterRec) : Nat := win + c.bank * 0x20000 + (l.x.symValue l.base c.sym).toNat
  match p.kind with
  | 0x40 =>
    let f := (l.x.template ((l.x.sym p.sym).elim 0 fun y => y.value)).pinFrame
    (8, full, core + f * 2 ^ 29 + (l.pinGen (t.1, t.2 * 32 + p.core) f).toNat * 2 ^ 21 + p.low * 2 ^ 8)
  | 0x41 => (8, full, core)
  | 0x42 => match l.x.counterOf p.sym with
    | some c => (8, full, ctr c)
    | none => (8, full, win + p.low)
  | 0x43 => match l.x.counterOf p.sym with
    | some c => (8, full, if c.home = 2 then (l.x.symValue l.base p.sym).toNat else ctr c)
    | none => (0, 0, 0)
  | 0x44 => (1, 0xFF, grp)
  | _ => (4, 0xFFF, grp)

def Load.placePatches (l : Load) : List Patch := l.x.places.map fun p =>
  let v := l.placeValue p
  { sec := p.psec, off := p.off, n := v.1, mask := v.2.1, val := v.2.2 }

/-- Reserve the pinned frames of this chip. -/
def State.reservePins (s : State) (l : Load) : State :=
  ((l.x.pinned l.tiles).filter fun p => decide (p.1.1 = s.chip.chipNo)).foldl (fun s p =>
    let x := s.core p.1.2
    if (Tab.get? x.pins p.2.1).isSome then s
    else
      let k := p.1.2 * 256 + p.2.1
      let s := s.setCore p.1.2 { x with pins := Tab.put x.pins p.2.1 (BitVec.ofNat 64 (l.copyAddr p.2.2)) }
      s.setFrame k { s.frame k with gen := (s.frame k).gen + 1 }) s

/-! ## Steps 7 to 10 -/

/-- Bank modes and contents, `lsplit`, empty L1 caches and scratchpads of a tile (R39). -/
def State.initTile (s : State) (l : Load) (t : Nat) : State :=
  let uses := (l.x.tileUses l.tiles).filter fun w => decide (w.1 = (s.chip.chipNo, t))
  let scratch (n : Nat) : Bool := uses.any fun w => decide (w.2.bank = n) && decide (w.2.mode = 0)
  let mode := (List.range 24).foldl (fun (m : BitVec 24) n => setBit m n (!scratch n)) 0
  let s := s.flushWay t
  let s := s.setTile t { s.tile t with mode := mode, changing := [] }
  let stays (p : Place) : Bool := match p with
    | .bank u _ => decide (u ≠ t)
    | .sram k _ => decide (tileOfCore k ≠ t)
    | _ => true
  let s := { s with mem := { s.mem with
    bank := Tab.clear s.mem.bank (bankKey t 0) (bankKey (t + 1) 0), past := s.mem.past.filter (fun x => stays x.at_),
    counters := s.mem.counters.filter stays, rels := s.mem.rels.filter (fun x => stays x.1),
    badBank := s.mem.badBank.filter (fun l => decide (64 * l / 2 ^ 22 ≠ t)),
    badSram := s.mem.badSram.filter fun l => decide (tileOfCore (64 * l / 2 ^ 16) ≠ t) || decide (coreNo (64 * l / 2 ^ 16) = 31) } }
  let s := uses.foldl (fun s w =>
    if w.2.mode = 0 ∧ w.2.doff ≠ 0xFFFFFFFF then s.bankPut t (w.2.bank * 0x20000 + w.2.boff) (((l.x.the 8).drop w.2.doff).take w.2.len) else s) s
  (List.range 31).foldl (fun s n =>
    let c := t * 32 + n
    let s := s.flushL1 c
    let s := { s with mem := { s.mem with sram := Tab.clear s.mem.sram (sramKey c 0) (sramKey (c + 1) 0) } }
    s.setCore c { s.core c with split := BitVec.ofNat 3 l.x.split }) s

/-- Commit a group entry through its shadow; the list stands at a free address (R37). An entry that software wrote or committed since
step 3 is overwritten, and a commit that R159 then refuses leaves it as it is (log 44). -/
def State.loadGroup (s : State) (l : Load) (r : GroupRec) (n : Nat) (v : BitVec 16) : State :=
  let x := { s.group n with
    shadow := (expandMembers l.tiles (l.x.members r)).getD [], shv := true, nver := v, sv := true, job := l.job,
    count := BitVec.ofNat 16 r.count, saddr := BitVec.ofNat 51 (Config.freeNat s.clk.free (0x400 + n)) }
  (s.setGroup n x).groupCommit n

/-- Set the counters of this chip (R35). -/
def State.setCounters (s : State) (l : Load) (w : Where) : State :=
  l.x.counters.foldl (fun s c => match l.x.sym c.sym with
    | none => s
    | some y =>
      let bs := leBytes c.init 8
      if c.home = 1 then ((l.x.tilesOf l.tiles c.group).filter fun t => decide (t.1 = s.chip.chipNo)).foldl (fun s t =>
        (s.bankPut t.2 (c.bank * 0x20000 + y.value) bs).noteCounter (.bank t.2 (c.bank * 0x20000 + y.value))) s
      else match l.x.sec y.sec with
        | some sec =>
          let off := sec.link + y.value
          let s := s.putImage l w off bs
          if l.once (off / 0x10000) ∧ l.chip0 ≠ s.chip.chipNo then s
          else s.noteCounter (.dev (w.page l (off / 0x10000) * 0x10000 + off % 0x10000))
        | none => s) s

/-- Bind the handler classes of this chip, and release what was held for them (R26, R141). -/
def State.bindHandlers (s : State) (l : Load) : State :=
  l.x.handlers.foldl (fun s h => match l.x.sec h.codesec with
    | none => s
    | some sec =>
      ((l.x.coresOf l.tiles h.group).filter fun c => decide (c.1 = s.chip.chipNo)).foldl (fun s c =>
        let x := s.core c.2
        let hd : Handler := { bound := true, entry := BitVec.ofNat 64 (l.base + sec.link + h.entry), tmpl := Template.ofBytes (l.x.copy h.tmpl),
                              taddr := BitVec.ofNat 64 (l.copyAddr h.tmpl), prio := BitVec.ofNat 2 h.prio,
                              presets := (l.x.presets h.tmpl).map fun p => (u p 0 1, BitVec.ofNat 64 (u p 8 8)) }
        let x := { x with handlers := Tab.put x.handlers h.cls hd }
        (s.setCore c.2 x).releaseHeld c.2 (BitVec.ofNat 4 h.cls) h.prio x.held.length) s) s

/-- The worker cores of the placement's tiles come to belong to the job (R134). -/
def State.joinCores (s : State) (l : Load) : State :=
  ((l.x.coresOf l.tiles 0xFFFF).filter fun c => decide (c.1 = s.chip.chipNo)).foldl (fun s c =>
    s.setCore c.2 { s.core c.2 with job := some l.job, handlers := [], mask := 0, pins := [], see := [] }) s

/-- Tiles of the placement on a chip. -/
def Load.tilesHere (l : Load) (own : BitVec 11) : List Nat := (l.tiles.filter fun p => decide (p.2.1 = own)).map fun p => p.2.2

/-! ## The stages on one chip (R24, R50) -/

/-- The job holds an image, or a frame that is not free, or is being loaded (R51). -/
def State.imageBusy (s : State) (j : BitVec 12) : Bool :=
  (s.job j).image || decide ((s.job j).state ≠ 0) || !(s.jobFrames j).isEmpty
    || s.fe.parts.any fun p => decide (p.1 / 2 ^ 11 = j.toNat) && p.2.live

def LoadIn.load (p : LoadIn) (j : BitVec 12) : Load :=
  { job := j, x := Clely.of (p.bytes.take p.flen), tiles := plcTiles (plcEntries p.plc), base := p.base, idx := p.groups.map (·.1),
    vers := p.groups.map (·.2), gens := p.pins }

/-- Where the pages of a load lie: free choices, but for those that the leading chip made. -/
def State.chooseWhere (s : State) (once : Nat) : Where :=
  { once := once, own := Config.freeNat s.clk.free 0x202, tables := Config.freeNat s.clk.free 0x203 }

def LoadIn.where_ (p : LoadIn) : Where := { once := p.at_.1, own := p.at_.2.1, tables := p.at_.2.2 }

/-- The pages that a load will write here, held until it ends. -/
def Load.holds (l : Load) (w : Where) : List (Nat × Nat) := [(w.once, l.pages), (w.own, l.pages + l.copyPages), (w.tables, l.tablePages)]

/-- What this chip tells the leading one of its group entries and pinned frames (R32, R37). -/
def State.reports (s : State) (l : Load) : List LoadMsg :=
  let own := s.chip.chipNo
  let entries := (idxs 256 (s.groupFree l.job)).map fun n =>
    let g := s.group n
    LoadMsg.entry own n (if g.cv then some g.cur else none) g.busy
  let pins := ((l.x.pinned l.tiles).filter fun p => decide (p.1.1 = own)).map fun p =>
    LoadMsg.pin own p.1.2 p.2.1 ((s.frame (p.1.2 * 256 + p.2.1)).gen + 1)
  if l.x.groups.isEmpty then pins else entries ++ pins

/-- The steps 4 to 6 of R50 write memory: the sections with their patches, the template copies, the page tables (R50, R121). -/
def State.loadSections (s : State) (l : Load) (w : Where) : State :=
  let ps := (l.x.linkPatches l.base).filterMap id ++ l.placePatches
  let s := (s.loadMemory l w ps).invalidate (.job l.job)
  let maps := (((List.range l.pages).filter fun i => !(l.secsAt i).isEmpty) ++ (List.range l.copyPages).map fun i => l.pages + i).map fun i =>
    BitVec.ofNat 64 (l.base + 0x10000 * i)
  (s.setJob l.job { s.job l.job with pages := l.taken s.chip.chipNo w, maps := maps }).reservePins l

/-- The job holds its image and runs (R24, R50 step 10). -/
def State.loadEnds (s : State) (l : Load) : State :=
  let x := s.job l.job
  (s.setJob l.job { x with
    image := true, tiles := l.tiles, steal := BitVec.ofNat 2 l.x.steal, state := 1, step := 0, cause := 0, removed := false }).bindHandlers l

/-- A stage of a load on this chip, and the code of R52 with which it fails, or 0. Stages 0 to 5 are the checks: the job is free
(R51), steps 1 and 2, the placement, its limits, and the groups of step 3, whose entries are reserved; 6 finds memory and takes the
cores, which another load may have taken meanwhile (log 44), 7 makes the checks of step 5; 8 to 12 carry out steps 4 to 6, 7, 8, 9 and
10, of which none fails. A load that a removal of the job has ended here fails at its next stage (log 44). -/
def State.loadStage (s : State) (j : BitVec 12) (lead : BitVec 11) (k : Nat) : State × Nat :=
  let p := s.partOf j lead
  let l := p.load j
  if k ≠ 0 ∧ !p.live then (s, 0x0013)
  else match k with
  | 0 => if s.imageBusy j then (s, 0x0013) else (s.setPart j lead { p with live := true }, 0)
  | 1 => (s, l.x.step1 (Tab.get s.sec.imgKeys j.toNat []) ((s.jpol j).getLsbD 61))
  | 2 => (s, l.x.step2)
  | 3 => (s, if s.badPlacement j (plcEntries p.plc) then 0x0010 else 0)
  | 4 => (s, l.step3)
  | 5 =>
    if s.manyGroups l ∨ l.idx.any (fun n => !s.groupFree j n) then (s, 0x000B) else (s.setPart j lead { p with kept := true }, 0)
  | 6 =>
    let w := s.chooseWhere p.page0
    if s.badPlacement j (plcEntries p.plc) then (s, 0x0010)
    else if !s.roomFor l w then (s.fresh, 0x0014)
    else ((s.joinCores l).setPart j lead { p with at_ := (w.once, w.own, w.tables), held := l.holds w } |>.fresh, 0)
  | 7 => (s, if (l.x.linkPatches l.base).any Option.isNone then 0x000F else 0)
  | 8 => (s.loadSections l p.where_, 0)
  | 9 => ((l.tilesHere s.chip.chipNo).foldl (fun s t => s.initTile l t) s, 0)
  | 10 => (((l.x.groups.zip l.idx).zip l.vers).foldl (fun s e => s.loadGroup l e.1.1 e.1.2 e.2) s, 0)
  | 11 => (s.setCounters l p.where_, 0)
  | 12 => (((s.loadEnds l).dropPart j lead).fresh, 0)
  | _ => (s, 0)

/-! ## The leading chip (R24, R37, R43) -/

/-- A report about a chip's entries and frames reaches the load of a command. -/
def State.loadReport (s : State) (id : Nat) (j : BitVec 12) (m : LoadMsg) : State :=
  let own := s.chip.chipNo
  match m with
  | .entry chip n cur busy => s.updFe id fun c => { c with load := c.load.map fun r => { r with free := r.free ++ [(chip, n, cur, busy)] } }
  | .pin chip core f gen =>
    let p := s.partOf j own
    s.setPart j own { p with pins := p.pins ++ [((chip, core), f, gen)] }
  | _ => s

/-- A stage begins on every chip; this chip's own part of it is carried out. -/
def State.loadBegin (s : State) (c : Cmd) (k code : Nat) : State :=
  let own := s.chip.chipNo
  let p := s.partOf c.job own
  let lacking := (c.load.map LoadRun.lacking).getD []
  let peers := (s.loadPeers c.job p).filter fun x => !lacking.contains x
  let s := s.loadTell c.job peers [.step k p.flen p.base p.page0]
  let rs := if k = 4 then s.reports (p.load c.job) else []
  let r : State × Nat := s.loadStage c.job own k
  let s := r.1.updFe c.id fun c => { c with load := c.load.map fun x =>
    { x with step := k, wait := peers,
             code := lowest [(code, decide (code ≠ 0)), (r.2, decide (r.2 ≠ 0)), (0x0010, decide (3 ≤ k) && !lacking.isEmpty)] } }
  rs.foldl (fun s m => s.loadReport c.id c.job m) s

/-- The load is rejected on every chip (R51). -/
def State.loadReject (s : State) (c : Cmd) (code : Nat) : State :=
  let s := s.loadTell c.job (s.loadPeers c.job (s.partOf c.job s.chip.chipNo)) [.undo]
  (s.loadUndo c.job s.chip.chipNo).endCmd c.id (BitVec.ofNat 16 code) 0

/-- The group entries and versions of a load; none where the chips have none in common (R37). -/
def State.loadAssign (s : State) (l : Load) (chips : List (BitVec 11)) (free : List (BitVec 11 × Nat × Option (BitVec 16) × Bool)) :
    Option (List (Nat × BitVec 16)) :=
  let of (n : Nat) := free.filter fun e => decide (e.2.1 = n)
  let free? (n : Nat) : Bool := chips.all fun k => (of n).any fun e => decide (e.1 = k)
  let wants := (l.x.groups.filter fun g => decide (g.want ≠ 0xFFFF)).map fun g => g.want
  (groupIdx free? wants l.x.groups []).bind fun ns => ns.mapM fun n =>
    (groupVer (BitVec.ofNat 16 (Config.freeNat s.clk.free (0x300 + n))) ((of n).map fun e => e.2.2)).map fun v => (n, v)

/-- After the limits of step 3 the entries are chosen, and every chip learns them and the pinned frames. -/
def State.loadGroups (s : State) (c : Cmd) (r : LoadRun) : State :=
  let own := s.chip.chipNo
  let p := s.partOf c.job own
  let peers := s.loadPeers c.job p
  match s.loadAssign (p.load c.job) (own :: peers) r.free with
  | none => s.loadReject c (lowest [(r.code, decide (r.code ≠ 0)), (0x000B, true)])
  | some gs =>
    let s := s.setPart c.job own { p with groups := gs }
    let s := s.loadTell c.job peers (gs.map (fun g => LoadMsg.group g.1 g.2) ++ p.pins.map fun x => LoadMsg.pin x.1.1 x.1.2 x.2.1 x.2.2)
    s.fresh.loadBegin c 5 r.code

/-- An optional capability that the device has not, or only in a lower version, is reported to the caller (R43). -/
def Clely.optional (x : Clely) : List (Nat × Nat) :=
  ((chunks 8 (x.the 12)).filter fun b => decide (u b 3 1 % 2 = 0) && !(decide (1 ≤ u b 0 2) && decide (u b 0 2 ≤ 4) && decide (u b 2 1 ≤ 1))).map
    fun b => (u b 0 2, u b 2 1)

/-- The load goes on when every chip has ended its stage. -/
def State.loadNext (s : State) (c : Cmd) (r : LoadRun) : State :=
  if !r.wait.isEmpty then s
  else if r.step = 4 then s.loadGroups c r
  else if r.code ≠ 0 then s.loadReject c r.code
  else if r.step = 12 then s.endCmd c.id 0 0
  else s.loadBegin c (r.step + 1) 0

/-- A LOAD begins: the front end reads the file and the placement, and sends them to every chip that takes part. A job for which this
chip already has a load is refused (R51). -/
def State.loadStart (s : State) (c : Cmd) : State :=
  let own := s.chip.chipNo
  let port := portOfQueue c.q
  let file := s.portBytes port c.arg0.toNat c.arg1.toNat
  let bytes := file ++ s.portBytes port c.arg2.toNat (16 * c.arg3.toNat)
  let x := Clely.of file
  let p : LoadIn := { bytes := bytes, flen := file.length, base := Config.freeNat s.clk.free 0x200 / 2 ^ x.align * 2 ^ x.align,
                      page0 := Config.freeNat s.clk.free 0x201 }
  if s.imageBusy c.job then s.fresh.endCmd c.id 0x0013 0
  else
    let s := (s.setPart c.job own p).fresh
    let s := s.loadTell c.job (s.loadPeers c.job p) ((List.range ((bytes.length + 63) / 64)).map fun i => .bytes ((bytes.drop (64 * i)).take 64))
    let miss := x.optional.map fun m => (c.tag, m)
    let s := { s with fe := { s.fe with missing := s.fe.missing ++ miss } }
    let run : LoadRun := { step := 0, wait := [], code := 0, free := [] }
    (s.updFe c.id fun c => { c with load := some run }).loadBegin c 0 0

/-- One stage after the other, as long as no other chip is awaited. -/
def State.loadRuns (s : State) (id : Nat) : Nat → State
  | 0 => s
  | n + 1 => match s.cmd id with
    | some c => match c.load with
      | some r => if c.phase = .running ∧ r.wait.isEmpty then (s.loadNext c r).loadRuns id n else s
      | none => s
    | none => s

/-- LOAD of a running command: it begins, or goes on. -/
def State.loadCmd (s : State) (c : Cmd) : State :=
  match c.load with
  | some r => (s.loadNext c r).loadRuns c.id 13
  | none => if s.portUp c.q then (s.loadStart c).loadRuns c.id 13 else s

/-! ## Messages between the chips of a load -/

/-- What another chip asked, or answered, for a load that some chip leads. -/
def State.loadPart (s : State) (j : BitVec 12) (lead : BitVec 11) (m : LoadMsg) : State :=
  let own := s.chip.chipNo
  let p := s.partOf j lead
  let run := s.fe.cmds.find? fun c => decide (c.job = j) && c.load.isSome && decide (c.phase = .running)
  if lead = own then match run, m with
    | some c, .done chip k code => s.updFe c.id fun c => { c with load := c.load.map fun r =>
        if r.step = k then { r with wait := r.wait.filter (fun w => decide (w ≠ chip)),
                                    code := lowest [(r.code, decide (r.code ≠ 0)), (code, decide (code ≠ 0))] } else r }
    | some c, .refused chip k => s.updFe c.id fun c => { c with load := c.load.map fun r =>
        if r.step = k then { r with wait := r.wait.filter (fun w => decide (w ≠ chip)), lacking := chip :: r.lacking,
                                    code := lowest [(r.code, decide (r.code ≠ 0)), (0x0010, decide (3 ≤ k))] } else r }
    | some c, m => s.loadReport c.id j m
    | none, _ => s
  else match m with
    | .bytes bs => s.setPart j lead { p with bytes := p.bytes ++ bs }
    | .group n v => s.setPart j lead { p with groups := p.groups ++ [(n, v)] }
    | .pin chip core f gen => s.setPart j lead { p with pins := p.pins ++ [((chip, core), f, gen)] }
    | .step k flen base page0 =>
      let s := s.setPart j lead { p with flen := flen, base := base, page0 := page0 }
      let rs := if k = 4 then s.reports ((s.partOf j lead).load j) else []
      let r : State × Nat := s.loadStage j lead k
      (rs ++ [LoadMsg.done own k r.2]).foldl (fun s m => s.toPeer lead j false 0 (.msg (.loadPart j lead m))) r.1
    | .undo => s.loadUndo j lead
    | _ => s

/-- The first message of a load. -/
def State.servePart (s : State) : State :=
  match s.net.zipIdx.find? fun m => match m.1 with
    | .loadPart .. => true
    | _ => false with
  | some (.loadPart j lead m, n) => (s.dropMsg n).loadPart j lead m
  | _ => s

/-! ## The meaning -/

/-- LOAD of a command; for a number that names none, what the chips of a load tell each other (R24, R50). -/
def execLoad (id : Nat) (s : State) : FdOut :=
  .next (match s.cmd id with
    | some _ => s.running id 0x01 fun c => s.loadCmd c
    | none => s.servePart)

end Sys2Proof.Machine
end

