-- ==== Sys2Proof/Machine/Scalar.lean ====
section
/-! DEFINITION. Machine/Scalar.lean: majors 0x01–0x0F, the scalar integer, address and control instructions
(R182–R197). -/

namespace Sys2Proof.Machine

abbrev Out := Host.Outcome State Fault Refusal

/-! ## Register–register (R185–R189) -/

/-- `add` (R186). -/
def execAdd (d a b : GReg) (ka kb : Bool) (s : State) : Out := .next (s.alu Alu.add d a b ka kb)
/-- `sub` (R186). -/
def execSub (d a b : GReg) (ka kb : Bool) (s : State) : Out := .next (s.alu Alu.sub d a b ka kb)
/-- `mul` (R186). -/
def execMul (d a b : GReg) (ka kb : Bool) (s : State) : Out := .next (s.alu Alu.mul d a b ka kb)
/-- `mulh` (R186). -/
def execMulh (d a b : GReg) (ka kb : Bool) (s : State) : Out := .next (s.alu Alu.mulh d a b ka kb)
/-- `mulhu` (R186). -/
def execMulhu (d a b : GReg) (ka kb : Bool) (s : State) : Out := .next (s.alu Alu.mulhu d a b ka kb)
/-- `div` (R186). -/
def execDiv (d a b : GReg) (ka kb : Bool) (s : State) : Out := .next (s.alu Alu.div d a b ka kb)
/-- `divu` (R186). -/
def execDivu (d a b : GReg) (ka kb : Bool) (s : State) : Out := .next (s.alu Alu.divu d a b ka kb)
/-- `rem` (R186). -/
def execRem (d a b : GReg) (ka kb : Bool) (s : State) : Out := .next (s.alu Alu.rem d a b ka kb)
/-- `remu` (R186). -/
def execRemu (d a b : GReg) (ka kb : Bool) (s : State) : Out := .next (s.alu Alu.remu d a b ka kb)
/-- `and` (R186). -/
def execAnd (d a b : GReg) (ka kb : Bool) (s : State) : Out := .next (s.alu Alu.and d a b ka kb)
/-- `or` (R186). -/
def execOr (d a b : GReg) (ka kb : Bool) (s : State) : Out := .next (s.alu Alu.or d a b ka kb)
/-- `xor` (R186). -/
def execXor (d a b : GReg) (ka kb : Bool) (s : State) : Out := .next (s.alu Alu.xor d a b ka kb)
/-- `andn` (R186). -/
def execAndn (d a b : GReg) (ka kb : Bool) (s : State) : Out := .next (s.alu Alu.andn d a b ka kb)
/-- `shl` (R186). -/
def execShl (d a b : GReg) (ka kb : Bool) (s : State) : Out := .next (s.alu Alu.shl d a b ka kb)
/-- `shr` (R186). -/
def execShr (d a b : GReg) (ka kb : Bool) (s : State) : Out := .next (s.alu Alu.shr d a b ka kb)
/-- `sar` (R186). -/
def execSar (d a b : GReg) (ka kb : Bool) (s : State) : Out := .next (s.alu Alu.sar d a b ka kb)
/-- `min` (R186). -/
def execMin (d a b : GReg) (ka kb : Bool) (s : State) : Out := .next (s.alu Alu.min d a b ka kb)
/-- `max` (R186). -/
def execMax (d a b : GReg) (ka kb : Bool) (s : State) : Out := .next (s.alu Alu.max d a b ka kb)
/-- `minu` (R186). -/
def execMinu (d a b : GReg) (ka kb : Bool) (s : State) : Out := .next (s.alu Alu.minu d a b ka kb)
/-- `maxu` (R186). -/
def execMaxu (d a b : GReg) (ka kb : Bool) (s : State) : Out := .next (s.alu Alu.maxu d a b ka kb)
/-- `seq` (R186). -/
def execSeq (d a b : GReg) (ka kb : Bool) (s : State) : Out := .next (s.alu Alu.seq d a b ka kb)
/-- `sne` (R186). -/
def execSne (d a b : GReg) (ka kb : Bool) (s : State) : Out := .next (s.alu Alu.sne d a b ka kb)
/-- `slt` (R186). -/
def execSlt (d a b : GReg) (ka kb : Bool) (s : State) : Out := .next (s.alu Alu.slt d a b ka kb)
/-- `sltu` (R186). -/
def execSltu (d a b : GReg) (ka kb : Bool) (s : State) : Out := .next (s.alu Alu.sltu d a b ka kb)
/-- `movz`: writes only when B = 0 (R189). -/
def execMovz (d a b : GReg) (ka kb : Bool) (s : State) : Out := .next (s.movIf (fun B => decide (B = 0)) d a b ka kb)
/-- `movn`: writes only when B ≠ 0 (R189). -/
def execMovn (d a b : GReg) (ka kb : Bool) (s : State) : Out := .next (s.movIf (fun B => decide (B ≠ 0)) d a b ka kb)
/-- `bfx` (R188). -/
def execBfx (d a b : GReg) (ka kb : Bool) (s : State) : Out := .next (s.alu Alu.bfx d a b ka kb)
/-- `bfxs` (R188). -/
def execBfxs (d a b : GReg) (ka kb : Bool) (s : State) : Out := .next (s.alu Alu.bfxs d a b ka kb)
/-- `clz` (R186). -/
def execClz (d a : GReg) (ka : Bool) (s : State) : Out := .next (s.alu1 Alu.clz d a ka)
/-- `ctz` (R186). -/
def execCtz (d a : GReg) (ka : Bool) (s : State) : Out := .next (s.alu1 Alu.ctz d a ka)
/-- `popc` (R186). -/
def execPopc (d a : GReg) (ka : Bool) (s : State) : Out := .next (s.alu1 Alu.popc d a ka)
/-- `bswap` (R186). -/
def execBswap (d a : GReg) (ka : Bool) (s : State) : Out := .next (s.alu1 Alu.bswap d a ka)

/-! ## Immediates (R190–R192) -/

/-- `addi` (R190). -/
def execAddi (d a : GReg) (ka : Bool) (i : BitVec 12) (s : State) : Out := .next (s.alu1 (· + sext64 i) d a ka)
/-- `andi` (R190). -/
def execAndi (d a : GReg) (ka : Bool) (i : BitVec 12) (s : State) : Out := .next (s.alu1 (· &&& sext64 i) d a ka)
/-- `shli` (R191). -/
def execShli (d a : GReg) (ka : Bool) (c : BitVec 6) (s : State) : Out := .next (s.alu1 (· <<< c.toNat) d a ka)
/-- `shri` (R191). -/
def execShri (d a : GReg) (ka : Bool) (c : BitVec 6) (s : State) : Out := .next (s.alu1 (· >>> c.toNat) d a ka)
/-- `sari` (R191). -/
def execSari (d a : GReg) (ka : Bool) (c : BitVec 6) (s : State) : Out := .next (s.alu1 (·.sshiftRight c.toNat) d a ka)
/-- `roli` (R191). -/
def execRoli (d a : GReg) (ka : Bool) (c : BitVec 6) (s : State) : Out := .next (s.alu1 (Alu.rol · c) d a ka)
/-- `li` has no source (R192). -/
def execLi (d : GReg) (i : BitVec 19) (s : State) : Out := .next (s.issue [] fun s => s.retG d (sext64 i))
/-- `lim` reads D (R192). -/
def execLim (d : GReg) (i : BitVec 19) (s : State) : Out := .next (s.alu1 (Alu.lim i) d d false)
/-- `lih` reads D (R192). -/
def execLih (d : GReg) (i : BitVec 19) (s : State) : Out := .next (s.alu1 (Alu.lih i) d d false)

/-! ## Branches and jumps (R193–R196) -/

/-- `beq` (R193). -/
def execBeq (a b : GReg) (o : BitVec 13) (s : State) : Out := .next (s.branch (fun A B => A = B) a b o)
/-- `bne` (R193). -/
def execBne (a b : GReg) (o : BitVec 13) (s : State) : Out := .next (s.branch (fun A B => A ≠ B) a b o)
/-- `blt` (R193). -/
def execBlt (a b : GReg) (o : BitVec 13) (s : State) : Out := .next (s.branch (fun A B => A.slt B) a b o)
/-- `bge` (R193). -/
def execBge (a b : GReg) (o : BitVec 13) (s : State) : Out := .next (s.branch (fun A B => !A.slt B) a b o)
/-- `bltu` (R193). -/
def execBltu (a b : GReg) (o : BitVec 13) (s : State) : Out := .next (s.branch (fun A B => A.ult B) a b o)
/-- `bgeu` (R193). -/
def execBgeu (a b : GReg) (o : BitVec 13) (s : State) : Out := .next (s.branch (fun A B => !A.ult B) a b o)
/-- `jal` always writes lk (R194). -/
def execJal (o : BitVec 25) (s : State) : Out :=
  .next (s.issue [] fun s => s.updMe fun f => { (f.wrG 63 (f.wordAddr + 4)) with pc := f.wordAddr + sext64 o * 4 })
/-- `jalr`: a target that is no multiple of 4 traps with ALIGN, and nothing changes (R195). -/
def execJalr (d a : GReg) (ka : Bool) (i : BitVec 12) (s : State) : Out :=
  .next (s.issue [.g a ka] fun s =>
    let t := s.me.rdG a + sext64 i
    if t.toNat % 4 ≠ 0 then s.trap Cause.ALIGN t
    else s.updMe fun f => { (f.wrG d (f.wordAddr + 4)) with pc := t })

end Sys2Proof.Machine
end

