-- ==== Sys2Proof/Machine/Security.lean ====
section
/-! DEFINITION. Machine/Security.lean: the root of trust's requests: attestation and sessions (R475–R478), jobs and their
keys (R479–R485, R488), interfaces and link encryption of the host ports (R490). Each answer goes to the front of
`sec.replies`. Cryptography is uninterpreted (log 13). -/

namespace Sys2Proof.Machine

/-! ## Answers, sessions -/

def State.setSec (s : State) (x : Security) : State := { s with sec := x }

/-- Answer a request. -/
def State.reply (s : State) (r : Reply) : State := s.setSec { s.sec with replies := r :: s.sec.replies }

/-- Measurement slots 2–4, from which the alias and wrap keys derive (R475). -/
def State.firmware (s : State) : List (BitVec 512) := [2, 3, 4].map fun n => Tab.get s.sec.slots n 0

/-- The root of trust takes a request: after a boot that stopped, GET_MEASUREMENTS alone (R476), and while a dissolve is being served
none, since requests are handled one at a time (R480). -/
def State.booted (s : State) (k : State) : State := if s.sec.failed.isSome ∨ s.sec.dissolving.isSome then s else k

def portIx (port : Bool) : Nat := b2n port
def State.versioned (s : State) (port : Bool) : Bool := s.sec.versioned.getD (portIx port) false
def State.negotiated (s : State) (port : Bool) : Bool := s.sec.negotiated.getD (portIx port) false

/-- An open session of a port. -/
def State.session (s : State) (port : Bool) (id : Nat) : Option Session :=
  s.sec.sessions.find? fun x => decide (x.port = port) && decide (x.id = id) && x.open_

/-- A request inside an open session; any other is refused. -/
def State.inSession (s : State) (port : Bool) (id : Nat) (k : Session → State) : State :=
  s.booted (match s.session port id with
    | some x => k x
    | none => s.reply .refused)

/-- A request of R480 that names no existing job: its session was mutually authenticated; `k` gets the hash of the requester's key. -/
def State.authed (s : State) (port : Bool) (id : Nat) (k : BitVec 512 → State) : State :=
  s.inSession port id fun x => match x.peer with
    | some h => k h
    | none => s.reply .refused

/-! ## Attestation (R476–R478) -/

/-- A request after the negotiation succeeded. -/
def State.afterNegotiation (s : State) (port : Bool) (k : State) : State :=
  s.booted (if s.negotiated port then k else s.reply .refused)

/-- NEGOTIATE_ALGORITHMS: the proposals are numbered 0 for the one algorithm of R478; any other is refused. -/
def State.negotiate (s : State) (port : Bool) (asym hash dhe aead : Nat) : State :=
  let ok := decide (asym = 0) && decide (hash = 0) && decide (dhe = 0) && decide (aead = 0) && s.versioned port
  s.booted ((s.setSec { s.sec with negotiated := setAt s.sec.negotiated (portIx port) ok }).reply (if ok then .algorithms else .refused))

/-- The identity key, which Virow certified (R475). -/
def identityCert : Cert := { key := Config.identityPub Config.deviceSecret, sig := Config.virowSig }

def State.aliasKey (s : State) : BitVec 1064 := Config.aliasPub Config.deviceSecret s.firmware

/-- The alias key, which the identity key certifies at each boot (R475). -/
def State.aliasCert (s : State) : Cert := { key := s.aliasKey, sig := Config.identitySign Config.deviceSecret s.aliasKey }

/-- The wrap key, which the alias key certifies at each boot (R475). -/
def State.wrapCert (s : State) : Cert :=
  let pub := Config.wrapPub Config.deviceSecret s.firmware
  { key := pub, sig := Config.aliasSign Config.deviceSecret (Config.sha512 (keyBytes pub) :: s.firmware) 0 }

/-- The bytes of a certificate. -/
def Cert.bytes (c : Cert) : List Byte := keyBytes c.key ++ leBytes c.sig.toNat 132

/-- Signed measurement slots 1–8 (R476). -/
def State.measurements (s : State) (port : Bool) (nonce : BitVec 256) : State :=
  let slots := (List.range 8).map fun n => Tab.get s.sec.slots (n + 1) 0
  if s.sec.dissolving.isSome then s
  else if s.sec.failed.isSome ∨ s.negotiated port then s.reply (.signed slots (Config.aliasSign Config.deviceSecret slots nonce))
  else s.reply .refused

def State.keyExchange (s : State) (port : Bool) (exch : BitVec 1064) : State :=
  s.afterNegotiation port (if Config.onCurve exch then
    let id := s.sec.nextSess
    let n := s.sec.draws
    let th := Config.sha512 (keyBytes exch ++ keyBytes (Config.dheShare n))
    let x : Session := { port := port, id := id, open_ := false, th := th, draw := n, peer := none }
    let s := s.setSec { s.sec with sessions := s.sec.sessions ++ [x], nextSess := id + 1, draws := n + 1 }
    s.reply (.share id (Config.dheShare n))
  else s.reply .refused)

/-- The requester holds the session's secret, and the private half of the key it authenticates with, if it does (R478). -/
def Session.proven (x : Session) (peer : Option (BitVec 1064)) (p : Proof) : Bool :=
  decide (p.mac = Config.finishMac x.draw x.th) && match peer with
    | some k => Config.ecdsaOk k x.th p.sig
    | none => true

/-- A session whose handshake is not ended. -/
def State.opening (s : State) (port : Bool) (id : Nat) : Option Session :=
  s.sec.sessions.find? fun x => decide (x.port = port) && decide (x.id = id) && !x.open_

/-- FINISH ends the handshake; the requester's key, if it authenticated with one, is kept by its hash. -/
def State.finish (s : State) (port : Bool) (id : Nat) (peer : Option (BitVec 1064)) (proof : Proof) : State :=
  s.booted (match s.opening port id with
    | none => s.reply .refused
    | some x =>
      if x.proven peer proof then
        let y := { x with open_ := true, peer := peer.map fun k => Config.sha512 (keyBytes k) }
        (s.setSec { s.sec with sessions := s.sec.sessions.map fun z => if z = x then y else z }).reply .ok
      else (s.setSec { s.sec with sessions := s.sec.sessions.filter fun z => decide (z ≠ x) }).reply .refused)

def State.endSession (s : State) (port : Bool) (id : Nat) : State :=
  s.inSession port id fun x =>
    (s.setSec { s.sec with sessions := s.sec.sessions.filter fun y => decide (y ≠ x) }).reply .ok

/-! ## Jobs and keys (R479–R485, R488) -/

/-- Status codes of R480. -/
def St.OK : Byte := 0
def St.EXISTS : Byte := 1
def St.NOJOB : Byte := 2
def St.OWNER : Byte := 3
def St.UNWRAP : Byte := 4
def St.DONE : Byte := 5
def St.FULL : Byte := 6
def St.BADARG : Byte := 7

def State.setJpol (s : State) (j : BitVec 12) (v : Word) : State :=
  let chip := { s.chip with jpol := Tab.put s.chip.jpol j.toNat v }
  { s with chip := chip }

/-- A request for a job that exists, from its owner: a session that is not authenticated with the owner's key meets OWNER (R480). -/
def State.owned (s : State) (port : Bool) (id : Nat) (j : BitVec 12) (k : State) : State :=
  s.inSession port id fun x =>
    if !s.jobExists j then s.reply (.status St.NOJOB)
    else if x.peer = none ∨ Tab.get? s.sec.owners j.toNat ≠ x.peer then s.reply (.status St.OWNER)
    else k

def State.jobCreate (s : State) (port : Bool) (id : Nat) (j : BitVec 12) (run sig dbg p0 p1 resv : Bool) : State :=
  s.authed port id fun h =>
    if s.jobExists j then s.reply (.status St.EXISTS)
    else if j = 0 ∨ resv then s.reply (.status St.BADARG)
    else
      let n := s.sec.draws
      let nonce := (Config.drbg (n + 1)).extractLsb' 0 256
      let memKeys := if run then Tab.put s.sec.memKeys j.toNat (Config.drbg n) else s.sec.memKeys
      let s := s.setJpol j (at64 1 63 + at64 (b2n run) 62 + at64 (b2n sig) 61 + at64 (b2n dbg) 60 + at64 (b2n p1) 59 + at64 (b2n p0) 58)
      let s := s.setSec { s.sec with owners := Tab.put s.sec.owners j.toNat h, nonces := Tab.put s.sec.nonces j.toNat nonce, memKeys := memKeys, draws := n + 2 }
      s.reply (.nonce nonce)

/-- Fields of a wrapped-key record (R484). -/
def recJob (r : BitVec 1536) : BitVec 12 := r.extractLsb' 0 12
def recKind (r : BitVec 1536) : Nat := fld r 16 8
def recReserved (r : BitVec 1536) : Bool :=
  decide (fld r 12 4 ≠ 0) || decide (fld r 24 40 ≠ 0) || decide (fld r (8 * 0x8D) 24 ≠ 0) || decide (fld r (8 * 0xB8) 64 ≠ 0)

def recPoint (r : BitVec 1536) : BitVec 1064 := BitVec.ofNat 1064 (beNat (leBytes (r.toNat / 2 ^ 64) 133))
def recWrapped (r : BitVec 1536) : List Byte := leBytes (r.toNat / 2 ^ (8 * 0x90)) 40

/-- n bytes of a value, most significant first. -/
def beBytes (v n : Nat) : List Byte := (leBytes v n).reverse

/-- HMAC with SHA-512, for a key of at most one block of 128 bytes. -/
def hmac (key msg : List Byte) : List Byte :=
  let pad (b : Byte) : List Byte := (key ++ List.replicate (128 - key.length) 0).map fun x => x ^^^ b
  let hash (bs : List Byte) : List Byte := beBytes (Config.sha512 bs).toNat 64
  hash (pad 0x5C ++ hash (pad 0x36 ++ msg))

/-- The first 32 bytes of HKDF with SHA-512: the extract step, and the first block of the expand step. -/
def hkdf (ikm salt info : List Byte) : List Byte := (hmac (hmac salt ikm) (info ++ [1])).take 32

/-- The key unwrap of RFC 3394 for four blocks: the check value and the blocks. -/
def unwrapRounds (kek : List Byte) (a : BitVec 64) (rs : List (BitVec 64)) : BitVec 64 × List (BitVec 64) :=
  (List.range 24).foldl (fun (x : BitVec 64 × List (BitVec 64)) k =>
    let t := 24 - k
    let i := (t - 1) % 4
    let b := Config.aesDec kek ((x.1 ^^^ BitVec.ofNat 64 t) ++ x.2.getD i 0)
    (b.extractLsb' 64 64, x.2.set i (b.extractLsb' 0 64))) (a, rs)

/-- The key that a record wraps under a salt; none where the integrity check fails (R484). -/
def State.unwrapped (s : State) (r : BitVec 1536) (salt : BitVec 256) : Option (BitVec 256) :=
  let kek := hkdf (Config.ecdh Config.deviceSecret s.firmware (recPoint r)) (leBytes salt.toNat 32) (leBytes r.toNat 3)
  let block (i : Nat) : BitVec 64 := BitVec.ofNat 64 (beNat (((recWrapped r).drop (8 * i)).take 8))
  let x := unwrapRounds kek (block 0) [block 1, block 2, block 3, block 4]
  if x.1 = 0xA6A6A6A6A6A6A6A6 then some (BitVec.ofNat 256 (leNat (x.2.flatMap fun b => beBytes b.toNat 8))) else none

/-- Install the key that a record unwraps to (R484). -/
def State.install (s : State) (r : BitVec 1536) (salt : BitVec 256) (k : State → State) : State :=
  if recReserved r ∨ !Config.onCurve (recPoint r) then s.reply (.status St.UNWRAP)
  else match s.unwrapped r salt with
    | none => s.reply (.status St.UNWRAP)
    | some key =>
      (k (s.setSec { s.sec with linkKeys := Tab.put s.sec.linkKeys (recJob r).toNat key })).reply (.status St.OK)

def State.linkKeyReq (s : State) (port : Bool) (id : Nat) (r : BitVec 1536) : State :=
  let j := recJob r
  if recKind r = 2 then
    s.authed port id fun _ =>
      if j ≠ 0 then s.reply (.status St.UNWRAP)
      else if (s.linkKey 0).isSome then s.reply (.status St.DONE)
      else s.install r 0 fun s => s
  else
    s.owned port id j (if (s.jpol j).getLsbD 57 then s.reply (.status St.DONE)
      else if recKind r ≠ 1 then s.reply (.status St.UNWRAP)
      else s.install r (Tab.get s.sec.nonces j.toNat 0) fun s => s.setJpol j (setBit (s.jpol j) 57 true))

def State.imageKey (s : State) (port : Bool) (id : Nat) (j : BitVec 12) (key : BitVec 1064) : State :=
  let nik := fld (s.jpol j) 54 3
  s.owned port id j (if nik = 4 then s.reply (.status St.FULL)
    else if !Config.onCurve key then s.reply (.status St.BADARG)
    else
      let keys := Tab.get s.sec.imgKeys j.toNat []
      ((s.setSec { s.sec with imgKeys := Tab.put s.sec.imgKeys j.toNat (keys ++ [key]) }).setJpol j (putFld (s.jpol j) 54 3 (nik + 1))).reply (.status St.OK))

/-- Steps 2 to 4 of R485: the keys are gone, and with them what the job's lines held; its packets are discarded; the register is 0. -/
def State.zeroise (s : State) (j : BitVec 12) : State :=
  let s := (s.dropPackets j).forgetLines j
  let x := s.sec
  let n := j.toNat
  let s := s.setSec { x with linkKeys := Tab.del x.linkKeys n, memKeys := Tab.del x.memKeys n, imgKeys := Tab.del x.imgKeys n,
                             owners := Tab.del x.owners n, nonces := Tab.del x.nonces n }
  (s.setJpol j 0).setJob j { Job.reset with removed := true }

def State.setDissolving (s : State) (x : Option (Bool × Nat × BitVec 12)) : State := s.setSec { s.sec with dissolving := x }

/-- One step of a dissolve: of the removal, which may be in progress already, and after it the zeroisation (R485). -/
def State.dissolveStep (s : State) (j : BitVec 12) : State :=
  if (s.job j).state = 4 then s.removalStep j
  else if s.imageBusy j then s.removalStart j 0
  else ((s.zeroise j).setDissolving none).reply (.status St.OK)

/-- JOB_DISSOLVE: each occurrence of the event is a step of the one request, and till its last no other is served (R480, R485). -/
def State.dissolve (s : State) (port : Bool) (id : Nat) (j : BitVec 12) : State :=
  if s.sec.dissolving = some (port, id, j) then s.dissolveStep j
  else s.owned port id j ((s.setDissolving (some (port, id, j))).dissolveStep j)

/-- Virow signed the request to advance a counter (R476). The spec does not say with which key, nor the bytes it signs; the model takes
the root's, and the slot and the version (log 13). -/
def advanceSigned (slot version : Nat) (sig : List Byte) : Bool :=
  Config.ecdsaOk Config.virowRoot (Config.sha512 (leBytes slot 8 ++ leBytes version 8)) sig

/-- A rollback counter advances on a Virow-signed request (R476). -/
def State.rollback (s : State) (port : Bool) (id : Nat) (slot version : Nat) (sig : List Byte) : State :=
  s.inSession port id fun _ =>
    if advanceSigned slot version sig ∧ Tab.get s.sec.rollback slot 0 < version then
      (s.setSec { s.sec with rollback := Tab.put s.sec.rollback slot version }).reply .ok
    else s.reply .refused

/-! ## Interfaces (R490) -/

def State.setIface (s : State) (port : Bool) (t : Nat) (x : Iface) : State :=
  s.setSec { s.sec with ifaces := Tab.put s.sec.ifaces (ifaceKey port t) x }
def State.iface (s : State) (port : Bool) (t : Nat) : Iface := Tab.get s.sec.ifaces (ifaceKey port t) Iface.reset

/-- LOCK: the binding that system software made is frozen. The spec gives no register for it: job, queue blocks and IDE stream
are free (log 41). -/
def State.lockIface (s : State) (port : Bool) (t : Nat) : State :=
  if t < 64 ∧ (s.iface port t).st = .unlocked then
    let lo := 128 * b2n port + Config.freeNat s.clk.free 0x210 % 128
    let hi := lo + Config.freeNat s.clk.free 0x211 % (128 * b2n port + 128 - lo)
    let x : Iface := { st := .locked, job := BitVec.ofNat 12 (Config.freeNat s.clk.free 0x212), qlo := lo, qhi := hi,
                       stream := Config.freeNat s.clk.free 0x213 % 64 }
    (s.setIface port t x).fresh
  else s

def State.startIface (s : State) (port : Bool) (t : Nat) : State :=
  let x := s.iface port t
  if x.st = .locked then s.setIface port t { x with st := .run } else s

/-- STOP clears en in the interface's queue blocks. -/
def State.stopIface (s : State) (port : Bool) (t : Nat) : State :=
  let x := s.iface port t
  if x.st = .unlocked then s
  else
    let s := (List.range (x.qhi + 1 - x.qlo)).foldl (fun s n => s.setQueue (x.qlo + n) { s.queueOf (x.qlo + n) with en := false }) s
    s.setIface port t { x with st := .unlocked }

/-- IDE_KM: the key of the link stream (64) or of a selective stream; the stream of a locked or running interface is frozen. -/
def State.ideKey (s : State) (port : Bool) (id stream : Nat) (key : BitVec 256) : State :=
  let frozen := s.sec.ifaces.any fun e => decide (e.1 / 64 = b2n port) && decide (e.2.st ≠ .unlocked) && decide (e.2.stream = stream)
  s.inSession port id fun _ =>
    if 64 < stream ∨ frozen then s.reply .refused
    else (s.setSec { s.sec with ide := Tab.put s.sec.ide (65 * b2n port + stream) key }).reply .ok

/-! ## The meanings -/

abbrev ScOut := Host.Outcome State Fault Refusal

/-- GET_VERSION: 1.2 to 1.3 (R478). -/
def execGetVersion (port : Bool) (s : State) : ScOut :=
  .next (s.booted ((s.setSec { s.sec with versioned := setAt s.sec.versioned (portIx port) true }).reply (.version 0x12 0x13)))
/-- GET_CAPABILITIES (R478). -/
def execGetCapabilities (port : Bool) (s : State) : ScOut := .next (s.booted (s.reply (if s.versioned port then .capabilities else .refused)))
/-- NEGOTIATE_ALGORITHMS (R478). -/
def execNegotiateAlgorithms (port : Bool) (asym hash dhe aead : Nat) (s : State) : ScOut := .next (s.negotiate port asym hash dhe aead)
/-- GET_DIGESTS: of the chain in slot 0 (R478). -/
def execGetDigests (port : Bool) (s : State) : ScOut :=
  .next (s.afterNegotiation port (s.reply (.digests (Config.sha512 (keyBytes Config.virowRoot ++ identityCert.bytes ++ s.aliasCert.bytes)))))
/-- GET_CERTIFICATE: slot 0 alone holds a chain, Virow root → identity → alias (R478). -/
def execGetCertificate (port : Bool) (slot : Nat) (s : State) : ScOut :=
  .next (s.afterNegotiation port (s.reply (if slot = 0 then .certificate Config.virowRoot identityCert s.aliasCert else .refused)))
/-- CHALLENGE (R478). -/
def execChallenge (port : Bool) (nonce : BitVec 256) (s : State) : ScOut :=
  .next (s.afterNegotiation port (s.reply (.signed [] (Config.aliasSign Config.deviceSecret s.firmware nonce))))
/-- GET_MEASUREMENTS (R476, R478). -/
def execGetMeasurements (port : Bool) (nonce : BitVec 256) (s : State) : ScOut := .next (s.measurements port nonce)
/-- KEY_EXCHANGE (R478). -/
def execKeyExchange (port : Bool) (exch : BitVec 1064) (s : State) : ScOut := .next (s.keyExchange port exch)
/-- FINISH (R478). -/
def execFinish (port : Bool) (sess : Nat) (peer : Option (BitVec 1064)) (proof : Proof) (s : State) : ScOut := .next (s.finish port sess peer proof)
/-- HEARTBEAT (R478). -/
def execHeartbeat (port : Bool) (sess : Nat) (s : State) : ScOut := .next (s.inSession port sess fun _ => s.reply .ok)
/-- END_SESSION (R478). -/
def execEndSession (port : Bool) (sess : Nat) (s : State) : ScOut := .next (s.endSession port sess)
/-- GET_WRAPKEY: the wrap key, certified by the alias key (R475, R480). -/
def execGetWrapkey (port : Bool) (sess : Nat) (s : State) : ScOut :=
  .next (s.authed port sess fun _ => s.reply (.wrapKey s.wrapCert))
/-- JOB_CREATE (R480, R488). -/
def execJobCreate (port : Bool) (sess : Nat) (tag : BitVec 12) (run sig dbg p0 p1 resv : Bool) (s : State) : ScOut :=
  .next (s.jobCreate port sess tag run sig dbg p0 p1 resv)
/-- LINK_KEY (R481, R482, R484). -/
def execLinkKey (port : Bool) (sess : Nat) (record : BitVec 1536) (s : State) : ScOut := .next (s.linkKeyReq port sess record)
/-- IMAGE_KEY (R480). -/
def execImageKey (port : Bool) (sess : Nat) (tag : BitVec 12) (key : BitVec 1064) (s : State) : ScOut := .next (s.imageKey port sess tag key)
/-- JOB_DISSOLVE (R485). -/
def execJobDissolve (port : Bool) (sess : Nat) (tag : BitVec 12) (s : State) : ScOut := .next (s.dissolve port sess tag)
/-- ROLLBACK_ADVANCE (R476). -/
def execRollbackAdvance (port : Bool) (sess slot version : Nat) (sig : List Byte) (s : State) : ScOut := .next (s.rollback port sess slot version sig)
/-- TDISP_LOCK_INTERFACE (R490). -/
def execTdispLockInterface (port : Bool) (iface : Nat) (s : State) : ScOut := .next (s.lockIface port iface)
/-- TDISP_START_INTERFACE (R490). -/
def execTdispStartInterface (port : Bool) (iface : Nat) (s : State) : ScOut := .next (s.startIface port iface)
/-- TDISP_STOP_INTERFACE (R490). -/
def execTdispStopInterface (port : Bool) (iface : Nat) (s : State) : ScOut := .next (s.stopIface port iface)
/-- IDE_KM_KEY_PROGRAMMING (R490). -/
def execIdeKmKeyProgramming (port : Bool) (sess stream : Nat) (key : BitVec 256) (s : State) : ScOut := .next (s.ideKey port sess stream key)

end Sys2Proof.Machine
end

