-- ==== Sys2Proof/Machine/VecFp.lean ====
section
/-! DEFINITION. Machine/VecFp.lean: vector floating point, its compares and conversions (R247–R252), and the
quantise and dequantise forms (R267–R270). -/

namespace Sys2Proof.Machine

/-- Format of a float width code: 0 .f16, 1 .bf16, 2 .f32, 3 .f64. -/
def fmtOf (w : BitVec 2) : Fmt :=
  if w = 0 then .f16 else if w = 1 then .bf16 else if w = 2 then .f32 else .f64

/-- Write lanes with their flags (R242, R243). -/
def Frame.wrFp (f : Frame) (w : Nat) (d : VReg) (on : Nat → Bool) (q : Bool) (op : Nat → Nat × Flags) : Frame :=
  (f.wrLanes w d on fun i => (op i).1).raise q
    ((List.range (512 / w)).filterMap fun i => if on i then some (flagLane w i, (op i).2) else none)

/-- Two-source float form (R247). -/
def State.fp2 (s : State) (op : Fmt → Rc → Nat → Nat → Nat × Flags) (w : BitVec 2) (d a b : VReg) (m : MReg)
    (q ka kb : Bool) : State :=
  s.issue (vSrcs (masked m) d a m ka [.v b kb]) fun s => s.updMe fun f =>
    let t := fmtOf w
    (f.wrFp t.width d (fun i => (f.rdM m).getLsbD i) q fun i =>
      op t f.rc (lane (f.rdV a) t.width i) (lane (f.rdV b) t.width i)).advance

/-- One-source float form. -/
def State.fp1 (s : State) (op : Fmt → Rc → Nat → Nat × Flags) (w : BitVec 2) (d a : VReg) (m : MReg)
    (q ka : Bool) : State :=
  s.issue (vSrcs (masked m) d a m ka []) fun s => s.updMe fun f =>
    let t := fmtOf w
    (f.wrFp t.width d (fun i => (f.rdM m).getLsbD i) q fun i => op t f.rc (lane (f.rdV a) t.width i)).advance

/-- Fused form: vd is always a source (R74, R247). -/
def State.fp3 (s : State) (negP negC : Bool) (w : BitVec 2) (d a b : VReg) (m : MReg) (q ka kb : Bool) : State :=
  s.issue (vSrcs true d a m ka [.v b kb]) fun s => s.updMe fun f =>
    let t := fmtOf w
    (f.wrFp t.width d (fun i => (f.rdM m).getLsbD i) q fun i =>
      t.fmaOp negP negC f.rc (lane (f.rdV a) t.width i) (lane (f.rdV b) t.width i) (lane (f.rdV d) t.width i)).advance

/-- Float compare into a mask (R249). -/
def State.fpCmp (s : State) (k : FCmp) (w : BitVec 2) (d : MReg) (a b : VReg) (m : MReg) (q ka kb : Bool) : State :=
  s.issue (vSrcs false 0 a m ka [.v b kb]) fun s => s.updMe fun f =>
    let t := fmtOf w
    let n := 512 / t.width
    let r (i : Nat) : Bool × Flags := t.cmpOp k f.rc (lane (f.rdV a) t.width i) (lane (f.rdV b) t.width i)
    let on (i : Nat) : Bool := (f.rdM m).getLsbD i
    ((f.wrM d (maskOf n fun i => on i && (r i).1)).raise q
      ((List.range n).filterMap fun i => if on i then some (flagLane t.width i, (r i).2) else none)).advance

/-! ## Conversions (R250–R252) -/

/-- Source width, destination width and the conversion of each fn. -/
def cvtRow (fn : BitVec 4) : Nat × Nat × (Rc → Nat → Nat × Flags) :=
  match fn.toNat with
  | 0 => (16, 32, cvtFF .f16 .f32 false)
  | 1 => (16, 32, cvtFF .bf16 .f32 false)
  | 2 => (32, 16, cvtFF .f32 .f16 false)
  | 3 => (32, 16, cvtFF .f32 .bf16 false)
  | 4 => (32, 64, cvtFF .f32 .f64 false)
  | 5 => (64, 32, cvtFF .f64 .f32 false)
  | 6 => (32, 32, cvtIF 32 .f32)
  | 7 => (32, 32, cvtFI .f32 32)
  | 8 => (64, 64, cvtIF 64 .f64)
  | 9 => (64, 64, cvtFI .f64 64)
  | 10 => (32, 8, cvtFF .f32 .e4m3 true)
  | 11 => (32, 8, cvtFF .f32 .e5m2 true)
  | 12 => (8, 32, cvtFrom8 .e4m3)
  | 13 => (8, 32, cvtFrom8 .e5m2)
  | 14 => (32, 8, fun _ a => (un 8 (clampS 8 (sg 32 a)), 0))
  | _ => (8, 32, fun _ a => (un 32 (sg 8 a), 0))

/-- `vcvt`: placement by part p; a narrowing form always reads vd (R251). -/
def State.vcvt (s : State) (d a : VReg) (p : BitVec 2) (m : MReg) (q ka : Bool) (fn : BitVec 4) : State :=
  let r := cvtRow fn
  let n := 512 / max r.1 r.2.1
  s.issue (vSrcs (masked m || decide (r.2.1 < r.1)) d a m ka []) fun s => s.updMe fun f =>
    let on (i : Nat) : Bool := (f.rdM m).getLsbD i
    if r.2.1 < r.1 then
      (f.wrFp r.2.1 d (fun j => decide (p.toNat * n ≤ j) && decide (j < p.toNat * n + n) && on (j - p.toNat * n)) q
        fun j => r.2.2 f.rc (lane (f.rdV a) r.1 (j - p.toNat * n))).advance
    else
      (f.wrFp r.2.1 d on q fun i => r.2.2 f.rc (lane (f.rdV a) r.1 (p.toNat * n + i))).advance

/-! ## Quantise and dequantise (R267–R270) -/

/-- The kinds of R267, K4 with its type. -/
inductive QKind where
  | mxe4 | mxf4
  | k4 (type : Nat)
  deriving DecidableEq, Repr

/-- floor(log2) of the set's largest positive value (R268). -/
def QKind.emax : QKind → Int
  | .mxe4 => 8
  | .mxf4 => 2
  | .k4 t => if t < 2 then 2 else 3

/-- One element rounded to the kind's element set. -/
def QKind.code (k : QKind) (rc : Rc) (v : FV) : Nat × Flags :=
  match k, v with
  | .mxe4, v => Fmt.e4m3.round true rc.rm rc.fz v
  | .mxf4, .fin n m x => roundToSet 1 rc.rm n m x
  | .k4 t, .fin n m x => roundToSet t rc.rm n m x
  | _, _ => (0, 0)

/-- Scale byte and exponent s of a block of finite values (R268). -/
def QKind.scale (k : QKind) (src : List FV) : Nat × Int :=
  let amax := (src.filterMap FV.expo).max?
  match k with
  | .k4 t =>
    let x : Int := match amax with
      | none => 0
      | some e => max 0 (min (e - k.emax + 31) 62)
    (t * 64 + x.toNat, x - 31)
  | _ =>
    match amax with
    | none => (0, -127)
    | some e =>
      let X := max (-127) (min (e - k.emax) 127)
      ((X + 127).toNat, X)

/-- The 32 codes with their flags, and the scale byte. -/
def QKind.block (k : QKind) (rc : Rc) (src : List FV) : List (Nat × Flags) × Nat :=
  let special (v : FV) : Bool := match v with
    | .fin _ _ _ => false
    | _ => true
  if src.any special then
    (src.map fun v => (0, if (match v with | .inf _ => true | .nan s => s | _ => false) then Flags.NV else 0),
     match k with
     | .k4 t => t * 64 + 63
     | _ => 0xFF)
  else
    let sc := k.scale src
    (src.map fun v => k.code rc (v.scaled (some (-sc.2))), sc.1)

/-- The code of byte or nibble j of part p. -/
def QKind.bytes (k : QKind) : Nat := match k with
  | .mxe4 => 32
  | _ => 16

/-- Byte i of the stored part (R265). -/
def QKind.partByte (k : QKind) (codes : List (Nat × Flags)) (i : Nat) : Nat :=
  match k with
  | .mxe4 => (codes.getD i (0, 0)).1
  | _ => (codes.getD (2 * i) (0, 0)).1 % 16 + 16 * ((codes.getD (2 * i + 1) (0, 0)).1 % 16)

/-- `vqnt` (R268, R270). -/
def State.vqnt (s : State) (k : QKind) (d a : VReg) (p : Nat) (q ka : Bool) : State :=
  s.issue [.v (d + 1) ka, .v a ka, .v (a + 1) ka] fun s => s.updMe fun f =>
    let src := (List.range 32).map fun j =>
      Fmt.f32.operand f.rc.fz (lane (if j < 16 then f.rdV a else f.rdV (a + 1)) 32 (j % 16))
    let b := k.block f.rc src
    let n := k.bytes
    let g := f.wrLanes 8 d (fun j => decide (p * n ≤ j) && decide (j < p * n + n)) fun j => k.partByte b.1 (j - p * n)
    ((g.wrE (d + 1) 0 (putFld (f.rdE (d + 1) 0) (8 * p) 8 b.2)).raise q
      (b.1.zipIdx.map fun c => (c.2 % 16, c.1.2))).advance

/-- Value of element j of part p (R263, R264). -/
def QKind.value (kind : BitVec 2) (x : BitVec 512) (p j scale : Nat) : FV :=
  if kind = 0 then mxe4Value (lane x 8 (32 * p + j)) scale
  else
    let c := lane x 4 (32 * p + j)
    if kind = 1 then mxf4Value c scale else k4Value c scale

/-- `vdqnt` (R269, R270). -/
def State.vdqnt (s : State) (kind : BitVec 2) (d a : VReg) (p : Nat) (q ka : Bool) : State :=
  s.issue [.v a ka, .v (a + 1) ka] fun s => s.updMe fun f =>
    let scale := fld (f.rdE (a + 1) 0) (8 * p) 8
    let r (j : Nat) : Nat × Flags :=
      match QKind.value kind (f.rdV a) p j scale with
      | .nan _ => (0x7FC00000, 0)
      | v => Fmt.f32.round false f.rc.rm f.rc.fz v
    let g := (f.wrV d (ofLanes 32 16 fun i => (r i).1)).wrV (d + 1) (ofLanes 32 16 fun i => (r (16 + i)).1)
    (g.raise q ((List.range 32).map fun j => (j % 16, (r j).2))).advance

/-! ## The meanings -/

abbrev FOut := Host.Outcome State Fault Refusal

/-- `vfadd` (R247). -/
def execVfadd (w : BitVec 2) (d a b : VReg) (m : MReg) (q ka kb : Bool) (s : State) : FOut := .next (s.fp2 Fmt.addOp w d a b m q ka kb)
/-- `vfsub` (R247). -/
def execVfsub (w : BitVec 2) (d a b : VReg) (m : MReg) (q ka kb : Bool) (s : State) : FOut := .next (s.fp2 Fmt.subOp w d a b m q ka kb)
/-- `vfmul` (R247). -/
def execVfmul (w : BitVec 2) (d a b : VReg) (m : MReg) (q ka kb : Bool) (s : State) : FOut := .next (s.fp2 Fmt.mulOp w d a b m q ka kb)
/-- `vfdiv` (R247). -/
def execVfdiv (w : BitVec 2) (d a b : VReg) (m : MReg) (q ka kb : Bool) (s : State) : FOut := .next (s.fp2 Fmt.divOp w d a b m q ka kb)
/-- `vfmin` (R247, R248). -/
def execVfmin (w : BitVec 2) (d a b : VReg) (m : MReg) (q ka kb : Bool) (s : State) : FOut := .next (s.fp2 (fun t => t.minmax false) w d a b m q ka kb)
/-- `vfmax` (R247, R248). -/
def execVfmax (w : BitVec 2) (d a b : VReg) (m : MReg) (q ka kb : Bool) (s : State) : FOut := .next (s.fp2 (fun t => t.minmax true) w d a b m q ka kb)
/-- `vfma` (R247). -/
def execVfma (w : BitVec 2) (d a b : VReg) (m : MReg) (q ka kb : Bool) (s : State) : FOut := .next (s.fp3 false false w d a b m q ka kb)
/-- `vfms` (R247). -/
def execVfms (w : BitVec 2) (d a b : VReg) (m : MReg) (q ka kb : Bool) (s : State) : FOut := .next (s.fp3 false true w d a b m q ka kb)
/-- `vfnma` (R247). -/
def execVfnma (w : BitVec 2) (d a b : VReg) (m : MReg) (q ka kb : Bool) (s : State) : FOut := .next (s.fp3 true false w d a b m q ka kb)
/-- `vfnms` (R247). -/
def execVfnms (w : BitVec 2) (d a b : VReg) (m : MReg) (q ka kb : Bool) (s : State) : FOut := .next (s.fp3 true true w d a b m q ka kb)
/-- `vfsqrt` (R247). -/
def execVfsqrt (w : BitVec 2) (d a : VReg) (m : MReg) (q ka : Bool) (s : State) : FOut := .next (s.fp1 Fmt.sqrtOp w d a m q ka)
/-- `vfabs` (R247). -/
def execVfabs (w : BitVec 2) (d a : VReg) (m : MReg) (q ka : Bool) (s : State) : FOut := .next (s.fp1 (fun t _ x => (t.absOp x, 0)) w d a m q ka)
/-- `vfneg` (R247). -/
def execVfneg (w : BitVec 2) (d a : VReg) (m : MReg) (q ka : Bool) (s : State) : FOut := .next (s.fp1 (fun t _ x => (t.negOp x, 0)) w d a m q ka)
/-- `vfeq` (R249). -/
def execVfeq (w : BitVec 2) (d : MReg) (a b : VReg) (m : MReg) (q ka kb : Bool) (s : State) : FOut := .next (s.fpCmp .eq w d a b m q ka kb)
/-- `vflt` (R249). -/
def execVflt (w : BitVec 2) (d : MReg) (a b : VReg) (m : MReg) (q ka kb : Bool) (s : State) : FOut := .next (s.fpCmp .lt w d a b m q ka kb)
/-- `vfle` (R249). -/
def execVfle (w : BitVec 2) (d : MReg) (a b : VReg) (m : MReg) (q ka kb : Bool) (s : State) : FOut := .next (s.fpCmp .le w d a b m q ka kb)
/-- `vfun` (R249). -/
def execVfun (w : BitVec 2) (d : MReg) (a b : VReg) (m : MReg) (q ka kb : Bool) (s : State) : FOut := .next (s.fpCmp .un w d a b m q ka kb)
/-- `vcvt` (R250–R252). -/
def execVcvt (d a : VReg) (p : BitVec 2) (m : MReg) (q ka : Bool) (f : BitVec 4) (s : State) : FOut := .next (s.vcvt d a p m q ka f)
/-- `vqnt.mxe4` (R268). -/
def execVqntMxe4 (d a : VReg) (p : BitVec 2) (q ka : Bool) (s : State) : FOut := .next (s.vqnt .mxe4 d a p.toNat q ka)
/-- `vqnt.mxf4` (R268). -/
def execVqntMxf4 (d a : VReg) (p : BitVec 2) (q ka : Bool) (s : State) : FOut := .next (s.vqnt .mxf4 d a p.toNat q ka)
/-- `vqnt.k4` (R268). -/
def execVqntK4 (d a : VReg) (t p : BitVec 2) (q ka : Bool) (s : State) : FOut := .next (s.vqnt (.k4 t.toNat) d a p.toNat q ka)
/-- `vdqnt` (R269). -/
def execVdqnt (d a : VReg) (t p : BitVec 2) (q ka : Bool) (s : State) : FOut := .next (s.vdqnt t d a p.toNat q ka)

end Sys2Proof.Machine
end

