-- ==== Sys2Proof/Machine/Dispatch.lean ====
section
/-! DEFINITION. Machine/Dispatch.lean: which meaning each instruction and event has, one arm per row of the opcode table. -/

namespace Sys2Proof.Machine

def exec (i : Instr) (s : State) : Host.Outcome State Fault Refusal :=
  match i with
  | .add d a b ka kb => Sys2Proof.Machine.execAdd d a b ka kb s
  | .sub d a b ka kb => Sys2Proof.Machine.execSub d a b ka kb s
  | .mul d a b ka kb => Sys2Proof.Machine.execMul d a b ka kb s
  | .mulh d a b ka kb => Sys2Proof.Machine.execMulh d a b ka kb s
  | .mulhu d a b ka kb => Sys2Proof.Machine.execMulhu d a b ka kb s
  | .div d a b ka kb => Sys2Proof.Machine.execDiv d a b ka kb s
  | .divu d a b ka kb => Sys2Proof.Machine.execDivu d a b ka kb s
  | .rem d a b ka kb => Sys2Proof.Machine.execRem d a b ka kb s
  | .remu d a b ka kb => Sys2Proof.Machine.execRemu d a b ka kb s
  | .and d a b ka kb => Sys2Proof.Machine.execAnd d a b ka kb s
  | .or d a b ka kb => Sys2Proof.Machine.execOr d a b ka kb s
  | .xor d a b ka kb => Sys2Proof.Machine.execXor d a b ka kb s
  | .andn d a b ka kb => Sys2Proof.Machine.execAndn d a b ka kb s
  | .shl d a b ka kb => Sys2Proof.Machine.execShl d a b ka kb s
  | .shr d a b ka kb => Sys2Proof.Machine.execShr d a b ka kb s
  | .sar d a b ka kb => Sys2Proof.Machine.execSar d a b ka kb s
  | .min d a b ka kb => Sys2Proof.Machine.execMin d a b ka kb s
  | .max d a b ka kb => Sys2Proof.Machine.execMax d a b ka kb s
  | .minu d a b ka kb => Sys2Proof.Machine.execMinu d a b ka kb s
  | .maxu d a b ka kb => Sys2Proof.Machine.execMaxu d a b ka kb s
  | .seq d a b ka kb => Sys2Proof.Machine.execSeq d a b ka kb s
  | .sne d a b ka kb => Sys2Proof.Machine.execSne d a b ka kb s
  | .slt d a b ka kb => Sys2Proof.Machine.execSlt d a b ka kb s
  | .sltu d a b ka kb => Sys2Proof.Machine.execSltu d a b ka kb s
  | .movz d a b ka kb => Sys2Proof.Machine.execMovz d a b ka kb s
  | .movn d a b ka kb => Sys2Proof.Machine.execMovn d a b ka kb s
  | .bfx d a b ka kb => Sys2Proof.Machine.execBfx d a b ka kb s
  | .bfxs d a b ka kb => Sys2Proof.Machine.execBfxs d a b ka kb s
  | .clz d a ka => Sys2Proof.Machine.execClz d a ka s
  | .ctz d a ka => Sys2Proof.Machine.execCtz d a ka s
  | .popc d a ka => Sys2Proof.Machine.execPopc d a ka s
  | .bswap d a ka => Sys2Proof.Machine.execBswap d a ka s
  | .addi d a ka a3 => Sys2Proof.Machine.execAddi d a ka a3 s
  | .andi d a ka a3 => Sys2Proof.Machine.execAndi d a ka a3 s
  | .shli d a ka c => Sys2Proof.Machine.execShli d a ka c s
  | .shri d a ka c => Sys2Proof.Machine.execShri d a ka c s
  | .sari d a ka c => Sys2Proof.Machine.execSari d a ka c s
  | .roli d a ka c => Sys2Proof.Machine.execRoli d a ka c s
  | .li d a1 => Sys2Proof.Machine.execLi d a1 s
  | .lim d a1 => Sys2Proof.Machine.execLim d a1 s
  | .lih d a1 => Sys2Proof.Machine.execLih d a1 s
  | .beq a b o => Sys2Proof.Machine.execBeq a b o s
  | .bne a b o => Sys2Proof.Machine.execBne a b o s
  | .blt a b o => Sys2Proof.Machine.execBlt a b o s
  | .bge a b o => Sys2Proof.Machine.execBge a b o s
  | .bltu a b o => Sys2Proof.Machine.execBltu a b o s
  | .bgeu a b o => Sys2Proof.Machine.execBgeu a b o s
  | .jal o => Sys2Proof.Machine.execJal o s
  | .jalr d a ka a3 => Sys2Proof.Machine.execJalr d a ka a3 s
  | .ld8 d a ka a3 => Sys2Proof.Machine.execLd8 d a ka a3 s
  | .ld16 d a ka a3 => Sys2Proof.Machine.execLd16 d a ka a3 s
  | .ld32 d a ka a3 => Sys2Proof.Machine.execLd32 d a ka a3 s
  | .ld64 d a ka a3 => Sys2Proof.Machine.execLd64 d a ka a3 s
  | .st8 d a ka a3 => Sys2Proof.Machine.execSt8 d a ka a3 s
  | .st16 d a ka a3 => Sys2Proof.Machine.execSt16 d a ka a3 s
  | .st32 d a ka a3 => Sys2Proof.Machine.execSt32 d a ka a3 s
  | .st64 d a ka a3 => Sys2Proof.Machine.execSt64 d a ka a3 s
  | .lnd a b ka kb a4 => Sys2Proof.Machine.execLnd a b ka kb a4 s
  | .lndV a b ka kb => Sys2Proof.Machine.execLndV a b ka kb s
  | .rput a b ka kb => Sys2Proof.Machine.execRput a b ka kb s
  | .rputV a b ka kb => Sys2Proof.Machine.execRputV a b ka kb s
  | .pst d a b ka kb a5 => Sys2Proof.Machine.execPst d a b ka kb a5 s
  | .fenceP => Sys2Proof.Machine.execFenceP s
  | .fenceR a0 => Sys2Proof.Machine.execFenceR a0 s
  | .fenceA a0 => Sys2Proof.Machine.execFenceA a0 s
  | .pf d a ka a3 => Sys2Proof.Machine.execPf d a ka a3 s
  | .amoAlu w d a b ka kb o => Sys2Proof.Machine.execAmoAlu w d a b ka kb o s
  | .amoSwap w d a b ka kb => Sys2Proof.Machine.execAmoSwap w d a b ka kb s
  | .amoCas w d a b ka kb => Sys2Proof.Machine.execAmoCas w d a b ka kb s
  | .amoIncw w d a ka => Sys2Proof.Machine.execAmoIncw w d a ka s
  | .amoAddb w d a b ka kb => Sys2Proof.Machine.execAmoAddb w d a b ka kb s
  | .amoFadd d a b ka kb => Sys2Proof.Machine.execAmoFadd d a b ka kb s
  | .cadd a b ka kb a4 => Sys2Proof.Machine.execCadd a b ka kb a4 s
  | .cfadd d a b ka kb a5 => Sys2Proof.Machine.execCfadd d a b ka kb a5 s
  | .cwait d a b ka kb a5 => Sys2Proof.Machine.execCwait d a b ka kb a5 s
  | .cpoll d a b ka kb a5 => Sys2Proof.Machine.execCpoll d a b ka kb a5 s
  | .cread d a ka => Sys2Proof.Machine.execCread d a ka s
  | .cset d a b ka kb => Sys2Proof.Machine.execCset d a b ka kb s
  | .send d a b ka kb a5 => Sys2Proof.Machine.execSend d a b ka kb a5 s
  | .sendg d a b ka kb a5 => Sys2Proof.Machine.execSendg d a b ka kb a5 s
  | .spawn d a b ka kb => Sys2Proof.Machine.execSpawn d a b ka kb s
  | .bind d a b ka kb => Sys2Proof.Machine.execBind d a b ka kb s
  | .unbind d a ka => Sys2Proof.Machine.execUnbind d a ka s
  | .clsmask d a b ka kb => Sys2Proof.Machine.execClsmask d a b ka kb s
  | .armG a ka => Sys2Proof.Machine.execArmG a ka s
  | .armV a b ka kb => Sys2Proof.Machine.execArmV a b ka kb s
  | .armM a ka => Sys2Proof.Machine.execArmM a ka s
  | .live a ka t => Sys2Proof.Machine.execLive a ka t s
  | .myaddr d a c a3 e => Sys2Proof.Machine.execMyaddr d a c a3 e s
  | .yield => Sys2Proof.Machine.execYield s
  | .endTask => Sys2Proof.Machine.execEndTask s
  | .rpt sd sa sb n kb => Sys2Proof.Machine.execRpt sd sa sb n kb s
  | .fol d a b ka kb => Sys2Proof.Machine.execFol d a b ka kb s
  | .unfol => Sys2Proof.Machine.execUnfol s
  | .vadd w d a b m ka kb => Sys2Proof.Machine.execVadd w d a b m ka kb s
  | .vsub w d a b m ka kb => Sys2Proof.Machine.execVsub w d a b m ka kb s
  | .vmul w d a b m ka kb => Sys2Proof.Machine.execVmul w d a b m ka kb s
  | .vmulh w d a b m ka kb => Sys2Proof.Machine.execVmulh w d a b m ka kb s
  | .vmulhu w d a b m ka kb => Sys2Proof.Machine.execVmulhu w d a b m ka kb s
  | .vmin w d a b m ka kb => Sys2Proof.Machine.execVmin w d a b m ka kb s
  | .vmax w d a b m ka kb => Sys2Proof.Machine.execVmax w d a b m ka kb s
  | .vminu w d a b m ka kb => Sys2Proof.Machine.execVminu w d a b m ka kb s
  | .vmaxu w d a b m ka kb => Sys2Proof.Machine.execVmaxu w d a b m ka kb s
  | .vadds w d a b m ka kb => Sys2Proof.Machine.execVadds w d a b m ka kb s
  | .vaddsu w d a b m ka kb => Sys2Proof.Machine.execVaddsu w d a b m ka kb s
  | .vsubs w d a b m ka kb => Sys2Proof.Machine.execVsubs w d a b m ka kb s
  | .vsubsu w d a b m ka kb => Sys2Proof.Machine.execVsubsu w d a b m ka kb s
  | .vabs w d a m ka => Sys2Proof.Machine.execVabs w d a m ka s
  | .vand w d a b m ka kb => Sys2Proof.Machine.execVand w d a b m ka kb s
  | .vor w d a b m ka kb => Sys2Proof.Machine.execVor w d a b m ka kb s
  | .vxor w d a b m ka kb => Sys2Proof.Machine.execVxor w d a b m ka kb s
  | .vandn w d a b m ka kb => Sys2Proof.Machine.execVandn w d a b m ka kb s
  | .vshl w d a b m ka kb => Sys2Proof.Machine.execVshl w d a b m ka kb s
  | .vshr w d a b m ka kb => Sys2Proof.Machine.execVshr w d a b m ka kb s
  | .vsar w d a b m ka kb => Sys2Proof.Machine.execVsar w d a b m ka kb s
  | .veq w d a b m ka kb => Sys2Proof.Machine.execVeq w d a b m ka kb s
  | .vne w d a b m ka kb => Sys2Proof.Machine.execVne w d a b m ka kb s
  | .vlt w d a b m ka kb => Sys2Proof.Machine.execVlt w d a b m ka kb s
  | .vltu w d a b m ka kb => Sys2Proof.Machine.execVltu w d a b m ka kb s
  | .vle w d a b m ka kb => Sys2Proof.Machine.execVle w d a b m ka kb s
  | .vleu w d a b m ka kb => Sys2Proof.Machine.execVleu w d a b m ka kb s
  | .vfadd w d a b m q ka kb => Sys2Proof.Machine.execVfadd w d a b m q ka kb s
  | .vfsub w d a b m q ka kb => Sys2Proof.Machine.execVfsub w d a b m q ka kb s
  | .vfmul w d a b m q ka kb => Sys2Proof.Machine.execVfmul w d a b m q ka kb s
  | .vfdiv w d a b m q ka kb => Sys2Proof.Machine.execVfdiv w d a b m q ka kb s
  | .vfsqrt w d a m q ka => Sys2Proof.Machine.execVfsqrt w d a m q ka s
  | .vfmin w d a b m q ka kb => Sys2Proof.Machine.execVfmin w d a b m q ka kb s
  | .vfmax w d a b m q ka kb => Sys2Proof.Machine.execVfmax w d a b m q ka kb s
  | .vfma w d a b m q ka kb => Sys2Proof.Machine.execVfma w d a b m q ka kb s
  | .vfms w d a b m q ka kb => Sys2Proof.Machine.execVfms w d a b m q ka kb s
  | .vfnma w d a b m q ka kb => Sys2Proof.Machine.execVfnma w d a b m q ka kb s
  | .vfnms w d a b m q ka kb => Sys2Proof.Machine.execVfnms w d a b m q ka kb s
  | .vfabs w d a m q ka => Sys2Proof.Machine.execVfabs w d a m q ka s
  | .vfneg w d a m q ka => Sys2Proof.Machine.execVfneg w d a m q ka s
  | .vfeq w d a b m q ka kb => Sys2Proof.Machine.execVfeq w d a b m q ka kb s
  | .vflt w d a b m q ka kb => Sys2Proof.Machine.execVflt w d a b m q ka kb s
  | .vfle w d a b m q ka kb => Sys2Proof.Machine.execVfle w d a b m q ka kb s
  | .vfun w d a b m q ka kb => Sys2Proof.Machine.execVfun w d a b m q ka kb s
  | .vcvt d a p m q ka f => Sys2Proof.Machine.execVcvt d a p m q ka f s
  | .vperm d a b m ka kb w => Sys2Proof.Machine.execVperm d a b m ka kb w s
  | .vslide d a b m ka kb w => Sys2Proof.Machine.execVslide d a b m ka kb w s
  | .vmerge d a b m ka kb => Sys2Proof.Machine.execVmerge d a b m ka kb s
  | .mand d a b ka kb => Sys2Proof.Machine.execMand d a b ka kb s
  | .mor d a b ka kb => Sys2Proof.Machine.execMor d a b ka kb s
  | .mxor d a b ka kb => Sys2Proof.Machine.execMxor d a b ka kb s
  | .mandn d a b ka kb => Sys2Proof.Machine.execMandn d a b ka kb s
  | .mnot d a ka => Sys2Proof.Machine.execMnot d a ka s
  | .vrsum d a m q ka t => Sys2Proof.Machine.execVrsum d a m q ka t s
  | .vrminF32 d a m q ka => Sys2Proof.Machine.execVrminF32 d a m q ka s
  | .vrmaxF32 d a m q ka => Sys2Proof.Machine.execVrmaxF32 d a m q ka s
  | .vrminI32 d a m ka => Sys2Proof.Machine.execVrminI32 d a m ka s
  | .vrmaxI32 d a m ka => Sys2Proof.Machine.execVrmaxI32 d a m ka s
  | .vqntMxe4 d a p q ka => Sys2Proof.Machine.execVqntMxe4 d a p q ka s
  | .vqntMxf4 d a p q ka => Sys2Proof.Machine.execVqntMxf4 d a p q ka s
  | .vqntK4 d a t p q ka => Sys2Proof.Machine.execVqntK4 d a t p q ka s
  | .vdqnt d a t p q ka => Sys2Proof.Machine.execVdqnt d a t p q ka s
  | .vld d b m ka o => Sys2Proof.Machine.execVld d b m ka o s
  | .vst d b m ka o => Sys2Proof.Machine.execVst d b m ka o s
  | .vgath d b m ka o => Sys2Proof.Machine.execVgath d b m ka o s
  | .vscat d b m ka o => Sys2Proof.Machine.execVscat d b m ka o s
  | .vsplat d a ka w => Sys2Proof.Machine.execVsplat d a ka w s
  | .vget d a b ka kb => Sys2Proof.Machine.execVget d a b ka kb s
  | .vput d a b ka kb => Sys2Proof.Machine.execVput d a b ka kb s
  | .mget d a ka => Sys2Proof.Machine.execMget d a ka s
  | .mput d a ka => Sys2Proof.Machine.execMput d a ka s
  | .vfxrd d m ka => Sys2Proof.Machine.execVfxrd d m ka s
  | .vfxwr a m ka => Sys2Proof.Machine.execVfxwr a m ka s
  | .vfxclr m ka => Sys2Proof.Machine.execVfxclr m ka s
  | .mma p c l => Sys2Proof.Machine.execMma p c l s
  | .mlease d b => Sys2Proof.Machine.execMlease d b s
  | .mrel => Sys2Proof.Machine.execMrel s
  | .mzero c => Sys2Proof.Machine.execMzero c s
  | .mfree c => Sys2Proof.Machine.execMfree c s
  | .mldA l a b a3 => Sys2Proof.Machine.execMldA l a b a3 s
  | .mldB l a b a3 => Sys2Proof.Machine.execMldB l a b a3 s
  | .mdrain c a b => Sys2Proof.Machine.execMdrain c a b s
  | .merr d b => Sys2Proof.Machine.execMerr d b s
  | .xcopy d a b ka kb => Sys2Proof.Machine.execXcopy d a b ka kb s
  | .xcopyg d a b ka kb => Sys2Proof.Machine.execXcopyg d a b ka kb s
  | .xgath d a b ka kb => Sys2Proof.Machine.execXgath d a b ka kb s
  | .xscat d a b ka kb => Sys2Proof.Machine.execXscat d a b ka kb s
  | .xred d a b ka kb => Sys2Proof.Machine.execXred d a b ka kb s
  | .xstat d a ka => Sys2Proof.Machine.execXstat d a ka s
  | .xcancel d a ka => Sys2Proof.Machine.execXcancel d a ka s
  | .csrr d c => Sys2Proof.Machine.execCsrr d c s
  | .csrw d a ka c => Sys2Proof.Machine.execCsrw d a ka c s
  | .csrset d a ka c => Sys2Proof.Machine.execCsrset d a ka c s
  | .csrclr d a ka c => Sys2Proof.Machine.execCsrclr d a ka c s
  | .svc a ka => Sys2Proof.Machine.execSvc a ka s
  | .tret => Sys2Proof.Machine.execTret s
  | .tlbinv a b ka kb => Sys2Proof.Machine.execTlbinv a b ka kb s
  | .tlbinvAll a ka => Sys2Proof.Machine.execTlbinvAll a ka s
  | .tlbprobe d a b ka kb => Sys2Proof.Machine.execTlbprobe d a b ka kb s
  | .tlbreplayAll => Sys2Proof.Machine.execTlbreplayAll s
  | .brk c => Sys2Proof.Machine.execBrk c s
  | .trc a b ka kb => Sys2Proof.Machine.execTrc a b ka kb s
  | .seerd d a ka => Sys2Proof.Machine.execSeerd d a ka s
  | .seerdC d a ka => Sys2Proof.Machine.execSeerdC d a ka s
  | .dbgsync d => Sys2Proof.Machine.execDbgsync d s
  | .asynchronousTrap => Sys2Proof.Machine.execAsynchronousTrap s
  | .lsplitWrite core v => Sys2Proof.Machine.execLsplitWrite core v s
  | .vgrpWrite tile v => Sys2Proof.Machine.execVgrpWrite tile v s
  | .fcsrWrite v => Sys2Proof.Machine.execFcsrWrite v s
  | .tsctlWrite tile v => Sys2Proof.Machine.execTsctlWrite tile v s
  | .tsctlChangeDone tile => Sys2Proof.Machine.execTsctlChangeDone tile s
  | .bankWakeDone tile bank => Sys2Proof.Machine.execBankWakeDone tile bank s
  | .registerWrite a0 v => Sys2Proof.Machine.execRegisterWrite a0 v s
  | .hleaseCas port cmp swap => Sys2Proof.Machine.execHleaseCas port cmp swap s
  | .hleaseOtherAtomic port v => Sys2Proof.Machine.execHleaseOtherAtomic port v s
  | .hostLeaseExpiry => Sys2Proof.Machine.execHostLeaseExpiry s
  | .qctlWrite via q v => Sys2Proof.Machine.execQctlWrite via q v s
  | .qdbl via q v => Sys2Proof.Machine.execQdbl via q v s
  | .commandFetch q => Sys2Proof.Machine.execCommandFetch q s
  | .commandStart id => Sys2Proof.Machine.execCommandStart id s
  | .load id => Sys2Proof.Machine.execLoad id s
  | .launch id => Sys2Proof.Machine.execLaunch id s
  | .launchEnvelopeSend id => Sys2Proof.Machine.execLaunchEnvelopeSend id s
  | .copyin id => Sys2Proof.Machine.execCopyin id s
  | .copyout id => Sys2Proof.Machine.execCopyout id s
  | .hbind id => Sys2Proof.Machine.execHbind id s
  | .hrel id => Sys2Proof.Machine.execHrel id s
  | .wait id => Sys2Proof.Machine.execWait id s
  | .signal id => Sys2Proof.Machine.execSignal id s
  | .tohost id => Sys2Proof.Machine.execTohost id s
  | .tohostCommit id => Sys2Proof.Machine.execTohostCommit id s
  | .todevice id => Sys2Proof.Machine.execTodevice id s
  | .suspend id => Sys2Proof.Machine.execSuspend id s
  | .resume id => Sys2Proof.Machine.execResume id s
  | .kill id => Sys2Proof.Machine.execKill id s
  | .fatalFaultRemoval n => Sys2Proof.Machine.execFatalFaultRemoval n s
  | .commandComplete id => Sys2Proof.Machine.execCommandComplete id s
  | .hostWindowAccess via off size wr => Sys2Proof.Machine.execHostWindowAccess via off size wr s
  | .envelopeArrival n => Sys2Proof.Machine.execEnvelopeArrival n s
  | .bounceRetry core entry => Sys2Proof.Machine.execBounceRetry core entry s
  | .activation core => Sys2Proof.Machine.execActivation core s
  | .contextAging task => Sys2Proof.Machine.execContextAging task s
  | .envelopeAging core idx => Sys2Proof.Machine.execEnvelopeAging core idx s
  | .stealRequest core victim => Sys2Proof.Machine.execStealRequest core victim s
  | .stealAnswer n => Sys2Proof.Machine.execStealAnswer n s
  | .frameResidency core => Sys2Proof.Machine.execFrameResidency core s
  | .slotTransferEnd task => Sys2Proof.Machine.execSlotTransferEnd task s
  | .icacheLineArrival core line => Sys2Proof.Machine.execIcacheLineArrival core line s
  | .followJoinTimeout task => Sys2Proof.Machine.execFollowJoinTimeout task s
  | .groupLoadShadow g => Sys2Proof.Machine.execGroupLoadShadow g s
  | .groupCommit g => Sys2Proof.Machine.execGroupCommit g s
  | .groupDiscardShadow g => Sys2Proof.Machine.execGroupDiscardShadow g s
  | .groupPrevDrained g => Sys2Proof.Machine.execGroupPrevDrained g s
  | .homeReadRequest n => Sys2Proof.Machine.execHomeReadRequest n s
  | .replyArrival n => Sys2Proof.Machine.execReplyArrival n s
  | .postedStorePerform n => Sys2Proof.Machine.execPostedStorePerform n s
  | .lndHomeRead n => Sys2Proof.Machine.execLndHomeRead n s
  | .pstHome n => Sys2Proof.Machine.execPstHome n s
  | .landingArrival n => Sys2Proof.Machine.execLandingArrival n s
  | .journalAck n => Sys2Proof.Machine.execJournalAck n s
  | .refusalReturn n => Sys2Proof.Machine.execRefusalReturn n s
  | .deadlandReport n => Sys2Proof.Machine.execDeadlandReport n s
  | .cwaitRegister n => Sys2Proof.Machine.execCwaitRegister n s
  | .counterAddHome n => Sys2Proof.Machine.execCounterAddHome n s
  | .counterObserveHome n => Sys2Proof.Machine.execCounterObserveHome n s
  | .waiterWake n => Sys2Proof.Machine.execWaiterWake n s
  | .wakeArrival n => Sys2Proof.Machine.execWakeArrival n s
  | .polledWaiterRead task => Sys2Proof.Machine.execPolledWaiterRead task s
  | .atomicHome n => Sys2Proof.Machine.execAtomicHome n s
  | .engineCommandActivate tile => Sys2Proof.Machine.execEngineCommandActivate tile s
  | .engineSegmentComplete tile num core seg => Sys2Proof.Machine.execEngineSegmentComplete tile num core seg s
  | .sidebandHalfArrival n => Sys2Proof.Machine.execSidebandHalfArrival n s
  | .sidebandHalfResend tile idx => Sys2Proof.Machine.execSidebandHalfResend tile idx s
  | .sidebandPairTimeout tile idx => Sys2Proof.Machine.execSidebandPairTimeout tile idx s
  | .arrayLeaseGrant tile => Sys2Proof.Machine.execArrayLeaseGrant tile s
  | .arrayLeaseBoundEnd tile => Sys2Proof.Machine.execArrayLeaseBoundEnd tile s
  | .arrayLeaseRevoke tile => Sys2Proof.Machine.execArrayLeaseRevoke tile s
  | .arrayFill tile => Sys2Proof.Machine.execArrayFill tile s
  | .arrayMmaExecute tile => Sys2Proof.Machine.execArrayMmaExecute tile s
  | .arrayMzeroExecute tile => Sys2Proof.Machine.execArrayMzeroExecute tile s
  | .arrayDrainStart tile => Sys2Proof.Machine.execArrayDrainStart tile s
  | .arrayDrainComplete tile acc => Sys2Proof.Machine.execArrayDrainComplete tile acc s
  | .accumulatorFree tile acc => Sys2Proof.Machine.execAccumulatorFree tile acc s
  | .arraySoftError tile acc row col => Sys2Proof.Machine.execArraySoftError tile acc row col s
  | .pagerNotify die => Sys2Proof.Machine.execPagerNotify die s
  | .fbclrWrite die v => Sys2Proof.Machine.execFbclrWrite die v s
  | .migrateStart core v => Sys2Proof.Machine.execMigrateStart core v s
  | .migrationCommit core => Sys2Proof.Machine.execMigrationCommit core s
  | .retirementNotice n => Sys2Proof.Machine.execRetirementNotice n s
  | .transitGuard port copies => Sys2Proof.Machine.execTransitGuard port copies s
  | .dwellStart port => Sys2Proof.Machine.execDwellStart port s
  | .dwellEnd port => Sys2Proof.Machine.execDwellEnd port s
  | .linkPacketReceive port p => Sys2Proof.Machine.execLinkPacketReceive port p s
  | .ackReceive port p => Sys2Proof.Machine.execAckReceive port p s
  | .laneLoss port lane => Sys2Proof.Machine.execLaneLoss port lane s
  | .endMarkerReceive port => Sys2Proof.Machine.execEndMarkerReceive port s
  | .relayForward port => Sys2Proof.Machine.execRelayForward port s
  | .portReenable port => Sys2Proof.Machine.execPortReenable port s
  | .domainTimeResync t => Sys2Proof.Machine.execDomainTimeResync t s
  | .powerOnReset stages fuses => Sys2Proof.Machine.execPowerOnReset stages fuses s
  | .getVersion port => Sys2Proof.Machine.execGetVersion port s
  | .getCapabilities port => Sys2Proof.Machine.execGetCapabilities port s
  | .negotiateAlgorithms port asym hash dhe aead => Sys2Proof.Machine.execNegotiateAlgorithms port asym hash dhe aead s
  | .getDigests port => Sys2Proof.Machine.execGetDigests port s
  | .getCertificate port slot => Sys2Proof.Machine.execGetCertificate port slot s
  | .challenge port nonce => Sys2Proof.Machine.execChallenge port nonce s
  | .getMeasurements port nonce => Sys2Proof.Machine.execGetMeasurements port nonce s
  | .keyExchange port exch => Sys2Proof.Machine.execKeyExchange port exch s
  | .finish port sess peer proof => Sys2Proof.Machine.execFinish port sess peer proof s
  | .heartbeat port sess => Sys2Proof.Machine.execHeartbeat port sess s
  | .endSession port sess => Sys2Proof.Machine.execEndSession port sess s
  | .getWrapkey port sess => Sys2Proof.Machine.execGetWrapkey port sess s
  | .jobCreate port sess tag run sig dbg p0 p1 resv => Sys2Proof.Machine.execJobCreate port sess tag run sig dbg p0 p1 resv s
  | .linkKey port sess record => Sys2Proof.Machine.execLinkKey port sess record s
  | .imageKey port sess tag key => Sys2Proof.Machine.execImageKey port sess tag key s
  | .jobDissolve port sess tag => Sys2Proof.Machine.execJobDissolve port sess tag s
  | .rollbackAdvance port sess slot version sig => Sys2Proof.Machine.execRollbackAdvance port sess slot version sig s
  | .tdispLockInterface port iface => Sys2Proof.Machine.execTdispLockInterface port iface s
  | .tdispStopInterface port iface => Sys2Proof.Machine.execTdispStopInterface port iface s
  | .eyctlWrite v => Sys2Proof.Machine.execEyctlWrite v s
  | .eystopGo => Sys2Proof.Machine.execEystopGo s
  | .eystopRes => Sys2Proof.Machine.execEystopRes s
  | .eystopForce => Sys2Proof.Machine.execEystopForce s
  | .stopReached => Sys2Proof.Machine.execStopReached s
  | .traceEnable v => Sys2Proof.Machine.execTraceEnable v s
  | .traceDisable => Sys2Proof.Machine.execTraceDisable s
  | .traceForceRelease => Sys2Proof.Machine.execTraceForceRelease s
  | .traceRecordWrite => Sys2Proof.Machine.execTraceRecordWrite s
  | .traceSample => Sys2Proof.Machine.execTraceSample s
  | .throttleChange place cause new => Sys2Proof.Machine.execThrottleChange place cause new s
  | .coreClockGate core => Sys2Proof.Machine.execCoreClockGate core s
  | .coreWake core => Sys2Proof.Machine.execCoreWake core s
  | .scrubLine line bad => Sys2Proof.Machine.execScrubLine line bad s
  | .pwrctlWrite v => Sys2Proof.Machine.execPwrctlWrite v s
  | .deviceFatal reason => Sys2Proof.Machine.execDeviceFatal reason s
  | .illegalInstruction w => Sys2Proof.Machine.execIllegalInstruction w s
  | .tdispStartInterface port iface => Sys2Proof.Machine.execTdispStartInterface port iface s
  | .ideKmKeyProgramming port sess stream key => Sys2Proof.Machine.execIdeKmKeyProgramming port sess stream key s
  | .engineStatusQuery n => Sys2Proof.Machine.execEngineStatusQuery n s

end Sys2Proof.Machine
end

