-- ==== Sys2Proof/Machine/Turn.lean ====
section
/-! DEFINITION. Machine/Turn.lean: what happens at a turn of the schedule: a task issues its next instruction, or one
event of the opcode table happens (log 1). The passing of time (log 3). Placing an instruction where the next step
fetches it (log 7). -/

namespace Sys2Proof.Machine

/-- Time passes: at least one cycle, by free amounts (R438; log 3); the samples that are due are taken (R497), and the arrays see who
holds them (R279). -/
def State.tick (s : State) : State :=
  let n := s.clk.stepNo
  let c : Clock := { s.clk with
    stepNo := n + 1, cycle := s.clk.cycle + 1 + Config.stepCycles n, dtime := s.clk.dtime + BitVec.ofNat 64 (Config.stepNs n) }
  { s.catchUp c.cycle with clk := c }.watchLeases

/-- A row of the table that no word encodes. -/
def isEvent (i : Instr) : Bool := (encode i).isNone

/-- The instruction has had no effect: the task blocks or parks (R10, R147). -/
def Frame.held (f : Frame) : Bool :=
  match f.state, f.wait with
  | .waiting, .presence _ => true
  | .waiting, .retry => true
  | .waiting, .array => true
  | .parked, .xlate => true
  | .parked, .own => true
  | _, _ => false

/-- A repeat that cannot open yet, as a word of its body is on its way from a peer chip (R172, R174). -/
def State.stalls (t : State) (k : Nat) (f : Frame) (i : Instr) : Bool :=
  let g := t.frame k
  match i with
  | .rpt .. => g.rpt.isNone && decide (g.pc = f.pc) && decide (g.handling = f.handling) && decide (g.state = f.state)
  | _ => false

/-- A follower uses up its word, and leaves its leader where it goes on at another address (R178, R179). -/
def Frame.usedWord (g : Frame) : Frame :=
  match g.stream with
  | [] => g
  | x :: xs => if x.next = g.wordAddr then { g with stream := xs } else { g with stream := [], follow := none }

/-- After an instruction of a task that was in frame `f` before: one that issued is on record in its slot, returns the task to its own
priority and uses up its word of a stream (R149, R169, R178); one that blocked again has waited since before. -/
def State.wentOn (s : State) (k : Nat) (f : Frame) (i : Instr) : State :=
  let g := s.frame k
  if g.gen ≠ f.gen ∨ s.stalls k f i = true then s
  else if g.held then
    if f.state = .waiting ∧ f.wait = g.wait ∧ (g.wait = .retry ∨ g.wait = .array) then s.setFrame k { g with since := f.since } else s
  else s.setFrame k { g.usedWord with
    lastIssue := s.clk.cycle, issueNo := s.clk.stepNo, curPrio := g.prio.toNat,
    issueS := if instrSlotM i then g.issueS else s.clk.stepNo, issueM := if instrSlotM i then s.clk.stepNo else g.issueM }

/-- The word that a task issued enters its stream (R178): it neither blocked nor trapped. -/
def State.streams (s t : State) (k : Nat) (i : Instr) : Bool :=
  s.leads k && match i with
    | .endTask => true
    | .unfol => true
    | _ => t.leads k && !(t.frame k).held && !t.stalls k (s.frame k) i

/-! ## Memory that an engine command works on (R313) -/

/-- The memory that an instruction accesses: address, bytes, and whether it writes. -/
def State.accesses (s : State) (i : Instr) : List (Word × Nat × Bool) :=
  let f := s.me
  let scalar (a : GReg) (o : BitVec 12) (n : Nat) (wr : Bool) : List (Word × Nat × Bool) := [(f.rdG a + sext64 o * BitVec.ofNat 64 n, n, wr)]
  let line (b : GReg) (m : MReg) (o : BitVec 10) (wr : Bool) : List (Word × Nat × Bool) :=
    (vmElems f m fun e => vmBase f b o + BitVec.ofNat 64 (8 * e)).map fun e => (e.2, 8, wr)
  let elems (d : VReg) (b : GReg) (m : MReg) (o : BitVec 10) (wr : Bool) : List (Word × Nat × Bool) :=
    (vmElems f m fun e => vmBase f b o + f.rdE (d + 1) e).map fun e => (e.2, 8, wr)
  let fills (idx sc : List Nat) (a b c : GReg) : List (Word × Nat × Bool) :=
    let nb := if fld (f.rdG b) 46 2 = 0 then 0 else 2 * fld (f.rdG b) 46 2
    idx.map (fun r => (f.rdG a + BitVec.ofNat 64 (r * 64 * fld (f.rdG b) 48 16), 64, false))
      ++ if nb = 0 then [] else sc.map fun r => (f.rdG c + BitVec.ofNat 64 (r * fld (f.rdG b) 32 14), nb, false)
  match i with
  | .ld8 _ a _ o => scalar a o 1 false
  | .ld16 _ a _ o => scalar a o 2 false
  | .ld32 _ a _ o => scalar a o 4 false
  | .ld64 _ a _ o => scalar a o 8 false
  | .st8 _ a _ o => scalar a o 1 true
  | .st16 _ a _ o => scalar a o 2 true
  | .st32 _ a _ o => scalar a o 4 true
  | .st64 _ a _ o => scalar a o 8 true
  | .lnd a _ _ _ sz => [(f.rdG a, sizeOf2 sz, false)]
  | .lndV a _ _ _ => [(f.rdG a, 64, false)]
  | .pst _ a _ _ _ sz => [(f.rdG a, sizeOf2 sz, true)]
  | .vld _ b m _ o => line b m o false
  | .vst _ b m _ o => line b m o true
  | .vgath d b m _ o => elems d b m o false
  | .vscat d b m _ o => elems d b m o true
  | .amoAlu w _ a _ _ _ _ => [(f.rdG a, if w then 8 else 4, true)]
  | .amoSwap w _ a _ _ _ => [(f.rdG a, if w then 8 else 4, true)]
  | .amoCas w _ a _ _ _ => [(f.rdG a, if w then 8 else 4, true)]
  | .amoIncw w _ a _ => [(f.rdG a, if w then 8 else 4, true)]
  | .amoAddb w _ a _ _ _ => [(f.rdG a, if w then 8 else 4, true)]
  | .amoFadd _ a _ _ _ => [(f.rdG a, 4, true)]
  | .cadd a _ _ _ _ => [(f.rdG a, 8, true)]
  | .cfadd _ a _ _ _ _ => [(f.rdG a, 8, true)]
  | .cset _ a _ _ _ => [(f.rdG a, 8, true)]
  | .cwait _ a _ _ _ _ => [(f.rdG a, 8, false)]
  | .cpoll _ a _ _ _ _ => [(f.rdG a, 8, false)]
  | .cread _ a _ => [(f.rdG a, 8, false)]
  | .mldB _ a b c => fills (List.range 64) (List.range 64) a b c
  | .mldA _ a b c => match fld (f.rdG b) 0 32 with
    | 0xFFFFFFFF => fills (List.range 128) (List.range 128) a b c
    | x => match (s.indexVector x).2 with
      | .inl idx => (at64 0x1FF 48 + at64 0xFF 32 + at64 x 0, 256, false) :: fills idx idx a b c
      | .inr _ => []
  | _ => []

/-- No command is at any engine. -/
def State.enginesQuiet (s : State) : Bool := s.engines.all fun e => e.2.cmds.isEmpty

/-- The accesses of an instruction touch the commands of its job, one doubleword after the other, before they are made (R313). -/
def State.touchAllOf (s : State) (i : Instr) : State :=
  if s.enginesQuiet then s
  else (s.accesses i).foldl (fun t a =>
    (List.range ((a.1.toNat % 8 + a.2.1 + 7) / 8)).foldl (fun t n =>
      t.touch1 s.me.job s.myTile (BitVec.ofNat 64 (a.1.toNat / 8 * 8 + 8 * n)) a.2.2) t) s

/-- The instruction went through: it neither blocked, parked nor trapped. -/
def State.through (s : State) (k : Nat) (f : Frame) : Bool :=
  let g := s.frame k
  !g.held && decide (g.handling = f.handling) && decide (g.state ≠ .parked)

/-- What precedes the accesses of an instruction that goes through: its followers have the word, with the body of a repeat (R178), and
the engine commands whose memory it touches are marked (R313). -/
def State.before_ (s t : State) (i : Instr) : State :=
  let k := s.run.cur
  let f := s.me
  let s := if t.through k f then s.touchAllOf i else s
  if s.streams t k i then s.streamWord k { va := f.wordAddr, i := i, body := ((t.frame k).rpt.map Rpt.body).getD [], next := (t.frame k).wordAddr }
  else s

/-- The current task executes an instruction. -/
def State.perform (s : State) (i : Instr) : Host.Outcome State Fault Refusal :=
  let k := s.run.cur
  let f := s.me
  match exec i s with
  | .next t =>
    match exec i (s.before_ t i) with
    | .next t => .next (t.wentOn k f i)
    | r => r
  | r => r

/-! ## What the outside world does (log 1) -/

def State.input (s : State) (x : Input) : State :=
  match x with
  | .hostStore port a bs => s.portPut port a bs
  | .portState port up => { s with fe := if port then { s.fe with lost1 := !up } else { s.fe with lost0 := !up } }
  | .controlRead via off size => s.controlRead via off size
  | .meeting a b transit port =>
    if s.fab.forming then { s with fab := { s.fab with meet := Tab.put s.fab.meet (a.toNat * 2 ^ 11 + b.toNat) (transit % 24 * 2 ^ 6 + port % 64) } } else s
  | .linkRefusal port lseq => s.linkRefused port lseq
  | .relayQuota job n => { s with fab := { s.fab with quota := Tab.put s.fab.quota job.toNat n } }
  | .sensors power tj inlet => { s with pwr := s.pwr.sensed power tj inlet }

/-- A task that waits out of its slot for a condition that its instruction evaluates becomes ready when the instruction would
go on (R147, R168). -/
def State.reconsider (s : State) (k : Nat) : Host.Outcome State Fault Refusal :=
  let f := s.frame k
  let ready := s.setFrame k { f with state := .ready, wait := .none, since := s.clk.cycle }
  match (s.setFrame k { f with resident := true }).current with
  | (t, .instr i) => match exec i t with
    | .next u => .next (if (u.frame k).held then s else ready)
    | r => r
  | _ => .next ready

/-- A task waits out of its slot for a condition that its instruction evaluates. -/
def Frame.waitsOut (f : Frame) : Bool :=
  !f.resident && f.transfer.isNone && decide (f.state = .waiting) && (decide (f.wait = .retry) || decide (f.wait = .array))

/-- A turn of a task: a due asynchronous trap first (R432), a trap that waits for a forwarding entry (R430), a wait out of its
slot (R168), else its next instruction, if its core picks it (R169, R172). -/
def State.issueTurn (s : State) (k : Nat) : Host.Outcome State Fault Refusal :=
  let s := s.asTask k
  if s.asyncDue k then exec .asynchronousTrap s
  else if s.me.wait = .fwdEntry then .next s.installWaiting
  else if s.me.waitsOut then s.reconsider k
  else if s.mayIssue k && s.chosen k then
    let s := s.updMe Frame.rerun
    match s.current with
    | (t, .instr i) => t.perform i
    | (t, .illegal w) => exec (.illegalInstruction w) t
    | (t, .failed r) => t.fetchFailed s.me.wordAddr r
  else .next s

/-- A turn. An instruction that a word encodes is no event. -/
def State.turn (s : State) (t : Turn) : Host.Outcome State Fault Refusal :=
  match t with
  | .issue k => s.issueTurn k
  | .event i => if isEvent i then exec i s else .next s
  | .input x => .next (s.input x)

/-! ## The turn that comes when none is listed (log 1) -/

/-- The event at which a message is served. -/
def Msg.event (n : Nat) : Msg → Option Instr
  | .read .. => some (.homeReadRequest n)
  | .reply .. => some (.replyArrival n)
  | .store _ _ _ _ _ pst .. => some (if pst then .pstHome n else .postedStorePerform n)
  | .lndRead .. => some (.lndHomeRead n)
  | .landing .. => some (.landingArrival n)
  | .ack .. => some (.journalAck n)
  | .refusal .. => some (.refusalReturn n)
  | .deadRep .. => some (.deadlandReport n)
  | .cwait .. => some (.cwaitRegister n)
  | .add .. => some (.counterAddHome n)
  | .observe .. => some (.counterObserveHome n)
  | .toWake .. => some (.waiterWake n)
  | .wake .. => some (.wakeArrival n)
  | .atomic .. => some (.atomicHome n)
  | .env .. => some (.envelopeArrival n)
  | .group .. => some (.envelopeArrival n)
  | .engQuery .. => some (.engineStatusQuery n)
  | .stealReq .. => some (.stealAnswer n)
  | .stealAns .. => some (.stealAnswer n)
  | .notice .. => some (.retirementNotice n)
  | .half .. => some (.sidebandHalfArrival n)
  | .loadPart .. => some (.load (2 ^ 64))
  | .fatal .. => some (.fatalFaultRemoval n)
  | .unwait .. => some (.cwaitRegister n)
  | .late .. => some (.refusalReturn n)
  | .bounce .. => none
  | .more .. => none
  | .copies .. => some (.sidebandHalfArrival n)
  | .tally .. => none
  | .marker .. => none
  | .remote .. => none
  | .away .. => none
  | .copyRefused .. => none
  | .halfBack .. => none

/-- A bounced envelope that the device sends again later (R136), a write that waits for a version (R161), or a steal request of a job that
is suspended (R466). -/
def State.waitsToRetry (s : State) : Msg → Bool
  | .env e => decide (s.clk.cycle < e.due)
  | .copies _ _ _ c => c.tile.isNone && decide (s.classify c.g c.ver = .later)
  | .stealReq _ _ _ job => s.agingStopped job
  | _ => false

/-- The first message that may be served. -/
def State.netTurn (s : State) : Option Turn :=
  s.net.zipIdx.findSome? fun m => if (s.deliverable m.2).isSome && !s.waitsToRetry m.1 then (m.1.event m.2).map Turn.event else none

/-- A slot transfer that ends, a ready frame that a slot could take, or a queued envelope. -/
def State.coreTurn (s : State) : Option Turn :=
  match s.frames.find? fun p => p.2.transfer.isSome with
  | some p => some (.event (.slotTransferEnd p.1))
  | none =>
    match s.frames.find? fun p => decide (p.2.state = .ready) && !p.2.resident && !s.issueHeld p.2 with
    | some p => some (.event (.frameResidency (p.2.coreAt p.1)))
    | none =>
      (s.cores.find? fun p => !p.2.queue.isEmpty).map fun p => Turn.event (.activation p.1)

/-- The next command of an array or an engine. -/
def State.unitTurn (s : State) : Option Turn :=
  match s.arrays.find? fun p => !p.2.queue.isEmpty with
  | some p => p.2.queue.head?.map fun c => Turn.event (match c.op with
    | .mma .. => .arrayMmaExecute p.1
    | .fill .. => .arrayFill p.1
    | .mzero .. => .arrayMzeroExecute p.1
    | .mdrain .. => .arrayDrainStart p.1)
  | none => (s.engines.find? fun p => p.2.cmds.any fun c => decide (c.state = .queued)).map fun p => Turn.event (.engineCommandActivate p.1)

/-- Of the eligible contexts, one that its core picks and that issued least recently (R169). -/
def State.pick (s : State) : Option Nat :=
  (s.frames.filter fun p => s.competes p.1 && s.chosen p.1).foldl
    (fun b p => match b with
      | none => some p.1
      | some j => if p.2.issueNo < (s.frame j).issueNo then some p.1 else b) none

/-- Without a listed turn: the current task, while no other context of its core goes first; else a message, a core or a unit;
else another task that the cores pick; else, in turn, those that a trap awaits or whose wait may be over. -/
def State.autoTurn (s : State) : Turn :=
  let k := s.run.cur
  if s.asyncDue k || (s.competes k && s.chosen k) then .issue k
  else match s.netTurn with
    | some t => t
    | none => match s.coreTurn with
      | some t => t
      | none => match s.unitTurn with
        | some t => t
        | none => match s.pick with
          | some k => .issue k
          | none =>
            let ks := (s.frames.filter fun p => s.asyncDue p.1 || s.mayIssue p.1 || p.2.waitsOut || decide (p.2.wait = .fwdEntry)).map (·.1)
            .issue ((ks[s.clk.stepNo % ks.length]?).getD k)

/-! ## Placing an instruction (log 7) -/

/-- Bytes put into device memory with an owner, as an agent outside the machine would. -/
def State.plant (s : State) (tag : Owner) (pa : Nat) (bs : List Byte) : State :=
  let lines := (List.range ((pa % 64 + bs.length + 63) / 64)).map fun i => pa / 64 + i
  let m := { s.mem with
    dev := Mem.puts none s.mem.dev pa bs, owner := lines.foldl (fun t l => Tab.put t l tag) s.mem.owner,
    bad := s.mem.bad.filter fun l => !lines.contains l, icache := [] }
  { s with mem := m }

/-- Virtual address, and physical addresses of the page tables and the page, of a placed instruction. -/
def placedVa : Word := 0x10000
def placedPa : Nat := 0x100000

/-- The current task will issue the word at `placedVa` at the next step: its page is mapped, the frame runs in a slot
of a core that is not held, and the word is followed by words of zero. -/
def State.placeWord (s : State) (w : Nat) : State :=
  let k := s.run.cur
  let f := s.frame k
  let j := f.job
  let table (i : Nat) : List Byte := leBytes (at64 1 63 + at64 (placedPa / 0x10000 + i) 16).toNat 8
  let leaf : List Byte := leBytes (at64 3 62 + at64 1 59 + at64 1 57 + at64 (placedPa / 0x10000 + 4) 16).toNat 8
  let s := s.plant .device placedPa (table 1)
  let s := s.plant .device (placedPa + 0x10000) (table 2)
  let s := s.plant .device (placedPa + 0x20000) (table 3)
  let s := s.plant .device (placedPa + 0x30008) leaf
  let s := s.plant (tagOf j) (placedPa + 0x40000) (leBytes w 4 ++ List.replicate 124 0)
  let chip : Chip := { s.chip with troot := Tab.put s.chip.troot j.toNat (at64 1 63 + at64 (placedPa / 0x10000) 16), tlb := [] }
  let s : State := { s with chip := chip, run := { agenda := [.issue k], cur := k } }
  let s : State := { s with pwr := { s.pwr with fatal := false }, dbg := { s.dbg with state := 0 } }
  let s := if (s.job j).state.toNat < 2 then s else s.setJob j { s.job j with state := 1 }
  s.setFrame k { f with
    state := .running, resident := true, transfer := none, wait := .none, rpt := none, pend := [], pc := placedVa,
    follow := none, stream := [], curPrio := 3, issueNo := 0, issueS := 0, issueM := 0, yielded := false }

end Sys2Proof.Machine
end

