-- ==== Sys2Proof/Machine/Step.lean ====
section
/-! DEFINITION. Machine/Step.lean: one step of the machine: time passes, and the next turn of the schedule happens. -/

namespace Sys2Proof.Machine

/-- One step: the first listed turn, or the one that comes of itself (log 1). -/
def step (s : State) : Host.Outcome State Fault Refusal :=
  let s := s.tick
  match s.run.agenda with
  | t :: ts =>
    let r : Sched := { s.run with agenda := ts }
    State.turn { s with run := r } t
  | [] => s.turn s.autoTurn

/-- The state with an instruction where the next step fetches it (log 7). -/
def State.withFetchWord (s : State) (_nbits w : Nat) : State := s.placeWord w

end Sys2Proof.Machine
end

