-- ==== Sys2Proof/Safety.lean ====
section
/-! DEFINITION. Safety.lean: what a sound state is, what a safe run is, and the words in which statements about the
machine are made: an instruction that issues, the state it leaves, what a change leaves alone. -/

namespace Sys2Proof.Machine

/-! ## Sound states and safe runs -/

/-- Every byte memory is in its canonical form. -/
def Memories.wf (m : Memories) : Bool :=
  Mem.wf none m.dev && Mem.wf (some 0) m.bank && Mem.wf (some 0) m.sram && Mem.wf (some 0) m.arena && Mem.wf none m.host

/-- The state after `n` steps, if none of them stops. -/
def State.after (s : State) : Nat → Option State
  | 0 => some s
  | n + 1 => match step s with
    | .next t => t.after n
    | .fault _ => none
    | .refused _ => none

/-- A run is safe when none of its steps stops. -/
def State.safeFor (s : State) (n : Nat) : Prop := (s.after n).isSome = true

/-! ## Issue -/

/-- Every source is full and not poisoned (R60). -/
abbrev State.goes (s : State) (srcs : List Src) : Prop := s.me.check srcs = .go

/-- The state in which an instruction that issues has its effect: the task runs. -/
def State.issued (s : State) : State := s.updMe Frame.unblock

/-- The next state of an instruction that only changes its task's frame, and goes on to the next word. -/
def State.does (s : State) (u : Frame → Frame) : State := s.issued.updMe fun f => (u f).advance

/-- The next state of an instruction that writes one general register. -/
def State.gives (s : State) (d : GReg) (v : Word) : State := s.does fun f => f.wrG d v

/-! ## What a change leaves alone -/

/-- The byte listed at a place of one of the memories; scratchpads and frame images, within their sizes, read as zero
where none is. -/
def State.byteAt (s : State) : Place → Option Byte
  | .dev pa => Tab.get? s.mem.dev pa
  | .host a => Tab.get? s.mem.host a
  | .bank t off => if off < 0x300000 then some (s.bankByte t off) else none
  | .sram c off => if off < 0x10000 then some (s.sramByte c off) else none
  | .image k off => if off < 0x1000 then some (Tab.get s.mem.arena (k * 4096 + off) 0) else none
  | .peer _ _ => none
  | .win _ _ => none
  | .cap .. => none
  | .frameCtr _ => none
  | .latch .. => none

/-- General register r with its presence. -/
def Frame.genReg (f : Frame) (r : GReg) : Word × Bool × Bool × Bool :=
  (f.rdG r, f.gFull.getLsbD r.toNat, f.gPoison.getLsbD r.toNat, f.gLive.getLsbD r.toNat)
/-- Element e of vector register r with its presence. -/
def Frame.vecReg (f : Frame) (r : VReg) (e : Nat) : Word × Bool × Bool × Bool :=
  (f.rdE r e, f.vFull.getLsbD (8 * r.toNat + e), f.vPoison.getLsbD (8 * r.toNat + e), f.vLive.getLsbD r.toNat)
/-- Mask register r with its presence. -/
def Frame.maskReg (f : Frame) (r : MReg) : Word × Bool × Bool × Bool :=
  (f.rdM r, f.mFull.getLsbD r.toNat, f.mPoison.getLsbD r.toNat, f.mLive.getLsbD r.toNat)

/-- The special registers of a task but for its sticky flags: `fcsr`, `cause`, `epc`, `tval`, `tstat`, and its frame
counters. -/
def Frame.specials (f : Frame) : Word × Word × Word × Word × Word × Table Word :=
  (f.fcsr, f.cause, f.epc, f.tval, f.tstat, f.c)

/-- Every register of a task, with its presence, and its sticky flags are as before. -/
def Frame.sameRegs (f g : Frame) : Prop :=
  (∀ r, g.genReg r = f.genReg r) ∧ (∀ r e, g.vecReg r e = f.vecReg r e) ∧ (∀ r, g.maskReg r = f.maskReg r) ∧
  g.specials = f.specials ∧ g.vfx = f.vfx

/-- The same, but that general register d is empty, as a long-latency destination is from issue on (R62); g0 never is. -/
def Frame.sameRegsBut (f g : Frame) (d : GReg) : Prop :=
  (d ≠ 0 → g.gFull.getLsbD d.toNat = false) ∧ g.rdG d = f.rdG d ∧
  (∀ r, r ≠ d → g.genReg r = f.genReg r) ∧ g.genReg 0 = f.genReg 0 ∧ (∀ r e, g.vecReg r e = f.vecReg r e) ∧
  (∀ r, g.maskReg r = f.maskReg r) ∧ g.specials = f.specials ∧ g.vfx = f.vfx

/-- Everything outside the frame of the task that issues is as it was: every other frame, every memory, every other
register of the device. -/
def State.onlyMe (s t : State) : Prop := t = s.setMe t.me

/-- No byte of any memory differs. -/
def State.sameBytes (s t : State) : Prop := ∀ p, t.byteAt p = s.byteAt p

/-- No byte differs outside the `n` bytes from a place on. -/
def State.sameBytesBut (s t : State) (p : Place) (n : Nat) : Prop := ∀ q, p.overlaps n q 1 = false → t.byteAt q = s.byteAt q

/-- Outside a repeat the task goes on to the next word. -/
def Frame.wentOn (f g : Frame) : Prop := f.rpt = none → g.pc = f.pc + 4 ∧ g.rpt = none

end Sys2Proof.Machine
end

