-- ==== Sys2Proof/Certificates/Slice0/Obligations.lean ====
section
/-! DEFINITION. Certificates/Slice0/Obligations.lean: what is stated about the machine. Each statement's docstring says
which rule of the spec it formalises. `State.goes` and the other words come from Safety.lean. -/

open Sys2Proof Sys2Proof.Machine

/-! ## Encoding and steps -/

/-- Decoding what the encoder yields gives the instruction back, for every well-formed instruction that a word encodes
(R55–R76, R82). -/
def Obligations.DecodeEncode : Prop :=
  ∀ (i : Instr) (w : IWord), i.wf → encode i = some w → decode w = .ok i

/-- Words written out from the encodings of the spec decode to the instructions they stand for: the examples of R188,
R189, R191, R194, R195 and R246, and a word of major 0 is illegal (R65). -/
def Obligations.DecodeExamples : Prop :=
  decode 0x0239049A = .ok (.bfx 7 8 9 false false) ∧ decode 0x02188281 = .ok (.sub 3 4 5 false false) ∧
  decode 0x0828C083 = .ok (.sari 5 6 false 3) ∧ decode 0x1C000100 = .ok (.jal 0x100) ∧
  decode 0x1E012002 = .ok (.jalr 0 9 false 2) ∧ decode 0x94321482 = .ok (.vlt 2 3 4 5 1 false false) ∧
  ∀ i, decode 0 ≠ .ok i

/-- A step runs what the task's word decodes to. At a turn of a task k that may issue and that its core picks, with no trap
due, no word of a leader waiting and no repeat open, whose fetch yields the word w at its program counter, and w decodes to i, the
step is `exec i` at that state, with what surrounds it: time has passed, the turn is taken from the schedule, k is the
current task and runs, and doublewords fetched from peer chips are used up (`Current.done`); followers get the word of a
task that leads, and the commands of an engine are marked where the instruction touches their memory (`State.before_`, R178,
R313); the issue goes on record (`State.wentOn`, R149, R169). With no followers and no engine command, the step is `exec i` and
the record alone. -/
def Obligations.StepRunsDecoded : Prop :=
  ∀ (s u : State) (k : Nat) (ts : List Turn) (w : IWord) (i : Instr), s.run.agenda = .issue k :: ts →
    let r : Sched := { s.tick.run with agenda := ts }
    let s1 : State := { s.tick with run := r }
    let s2 := s1.asTask k
    s2.asyncDue k = false → s2.me.wait ≠ .fwdEntry → s2.me.waitsOut = false → s2.mayIssue k = true → s2.chosen k = true →
    let s3 := s2.updMe Frame.rerun
    s3.me.rpt = none → s3.me.stream = [] → s3.fetchWord s3.me.pc = (u, .word w) → decode w = .ok i →
    let v := (currentOf w).done u
    (step s = match exec i v with
      | .next t => (match exec i (v.before_ t i) with
        | .next t => .next (t.wentOn v.run.cur v.me i)
        | o => o)
      | o => o) ∧
    (∀ t, v.leads v.run.cur = false → v.enginesQuiet = true → exec i v = .next t → step s = .next (t.wentOn v.run.cur v.me i))

/-- The canonical form of every byte memory survives a turn of a task, whatever instruction the task runs and whatever
trap it takes (the model's form of memory, log 6). -/
def Obligations.IssueKeepsMemories : Prop :=
  ∀ (s t : State) (k : Nat) (ts : List Turn), s.run.agenda = .issue k :: ts → s.mem.wf = true → step s = .next t → t.mem.wf = true

/-! ## Presence and register writes -/

/-- The presence check of R60, by the bits of the sources: the first poisoned source in format order traps with the cause
stored in it; with no poison, an empty source with its strict bit set traps with EMPTY; with neither, an empty source
blocks; and only when every source is full and not poisoned does the instruction issue. Sources are general registers
here; g0 is always full (R64). -/
def Obligations.PresenceOrder : Prop :=
  ∀ (s : State) (d a b : GReg) (ka kb : Bool),
    let f := s.me
    let poison (r : GReg) : Bool := decide (r ≠ 0) && f.gPoison.getLsbD r.toNat
    let empty (r : GReg) : Bool := decide (r ≠ 0) && !f.gFull.getLsbD r.toNat
    let tval (r : GReg) : Word := BitVec.ofNat 64 r.toNat
    (poison a = true → exec (.add d a b ka kb) s = .next (s.trap ((f.rawG a.toNat).setWidth 8) (tval a))) ∧
    (poison a = false → poison b = true → exec (.add d a b ka kb) s = .next (s.trap ((f.rawG b.toNat).setWidth 8) (tval b))) ∧
    (poison a = false → poison b = false →
      (empty a = true → ka = true → exec (.add d a b ka kb) s = .next (s.trap Cause.EMPTY (tval a))) ∧
      ((empty a && ka) = false → empty b = true → kb = true → exec (.add d a b ka kb) s = .next (s.trap Cause.EMPTY (tval b))) ∧
      ((empty a && ka) = false → (empty b && kb) = false → (empty a || empty b) = true →
        ∃ t, exec (.add d a b ka kb) s = .next t ∧ s.onlyMe t ∧ t.me.state = .waiting ∧
          t.me.wait = .presence [.g a ka, .g b kb] ∧ t.me.pc = f.pc ∧ (∀ r, t.me.genReg r = f.genReg r)) ∧
      (empty a = false → empty b = false → exec (.add d a b ka kb) s = .next (s.gives d (f.rdG a + f.rdG b))))

/-- What a write of a general register leaves (R61, R64): the register reads as the value written, full and not
poisoned, but a write to g0 leaves g0 reading 0; every other register with its presence, the special registers, the
sticky flags, every other task and every byte of memory are as before; outside a repeat the task goes on to the next
word, and it runs. -/
def Obligations.RegisterWrite : Prop :=
  ∀ (s : State) (d : GReg) (v : Word),
    let t := s.gives d v
    (t.me.rdG d = if d = 0 then 0 else v) ∧
    (d ≠ 0 → t.me.gFull.getLsbD d.toNat = true ∧ t.me.gPoison.getLsbD d.toNat = false) ∧
    (∀ r, r ≠ d → t.me.genReg r = s.me.genReg r) ∧ t.me.genReg 0 = s.me.genReg 0 ∧
    (∀ r e, t.me.vecReg r e = s.me.vecReg r e) ∧ (∀ r, t.me.maskReg r = s.me.maskReg r) ∧
    t.me.specials = s.me.specials ∧ t.me.vfx = s.me.vfx ∧ s.onlyMe t ∧ s.sameBytes t ∧
    s.me.wentOn t.me ∧ t.me.state = .running

/-- Program order in a repeat of a body of L words, n times, at base address A (R174, R175): after body word j of iteration
k the next word is j + 1 of k; after the last word of an iteration, word 0 of the next; after the last of all, the repeat is
closed and the task is at the word after the body. Words other than transfers advance so (`gives` is the example). -/
def repeatOrderRule : Prop :=
  ∀ (s : State) (d : GReg) (v : Word) (r : Rpt), s.me.rpt = some r →
    let t := s.gives d v
    (r.j + 1 < r.body.length → t.me.rpt = some { r with j := r.j + 1 } ∧ t.me.pc = s.me.pc) ∧
    (r.j + 1 = r.body.length → r.k + 1 < r.n → t.me.rpt = some { r with k := r.k + 1, j := 0 } ∧ t.me.pc = s.me.pc) ∧
    (r.j + 1 = r.body.length → r.k + 1 = r.n →
      t.me.rpt = none ∧ t.me.pc = r.base + 4 + BitVec.ofNat 64 (4 * r.body.length))

/-! ## Scalar instructions -/

/-- The results of the register–register forms of R186 to R188, each with its sources full: A and B are read, the
result goes to g d. `movz` and `movn` have their own statement. -/
def scalarRegisterRule : Prop :=
  ∀ (s : State) (d a b : GReg) (ka kb : Bool), s.goes [.g a ka, .g b kb] →
    let A := s.me.rdG a
    let B := s.me.rdG b
    let n := B.toNat % 64
    let w := Nat.min (B.toNat / 256 % 128) (64 - n)
    let x := A.toNat / 2 ^ n % 2 ^ w
    exec (.add d a b ka kb) s = .next (s.gives d (A + B)) ∧
    exec (.sub d a b ka kb) s = .next (s.gives d (A - B)) ∧
    exec (.mul d a b ka kb) s = .next (s.gives d (BitVec.ofNat 64 (A.toNat * B.toNat))) ∧
    exec (.mulh d a b ka kb) s = .next (s.gives d (BitVec.ofInt 64 (A.toInt * B.toInt / 2 ^ 64))) ∧
    exec (.mulhu d a b ka kb) s = .next (s.gives d (BitVec.ofNat 64 (A.toNat * B.toNat / 2 ^ 64))) ∧
    exec (.and d a b ka kb) s = .next (s.gives d (A &&& B)) ∧
    exec (.or d a b ka kb) s = .next (s.gives d (A ||| B)) ∧
    exec (.xor d a b ka kb) s = .next (s.gives d (A ^^^ B)) ∧
    exec (.andn d a b ka kb) s = .next (s.gives d (A &&& ~~~B)) ∧
    exec (.shl d a b ka kb) s = .next (s.gives d (BitVec.ofNat 64 (A.toNat * 2 ^ n))) ∧
    exec (.shr d a b ka kb) s = .next (s.gives d (BitVec.ofNat 64 (A.toNat / 2 ^ n))) ∧
    exec (.sar d a b ka kb) s = .next (s.gives d (BitVec.ofInt 64 (A.toInt / 2 ^ n))) ∧
    exec (.min d a b ka kb) s = .next (s.gives d (BitVec.ofInt 64 (min A.toInt B.toInt))) ∧
    exec (.max d a b ka kb) s = .next (s.gives d (BitVec.ofInt 64 (max A.toInt B.toInt))) ∧
    exec (.minu d a b ka kb) s = .next (s.gives d (BitVec.ofNat 64 (min A.toNat B.toNat))) ∧
    exec (.maxu d a b ka kb) s = .next (s.gives d (BitVec.ofNat 64 (max A.toNat B.toNat))) ∧
    exec (.seq d a b ka kb) s = .next (s.gives d (if A = B then 1 else 0)) ∧
    exec (.sne d a b ka kb) s = .next (s.gives d (if A = B then 0 else 1)) ∧
    exec (.slt d a b ka kb) s = .next (s.gives d (if A.toInt < B.toInt then 1 else 0)) ∧
    exec (.sltu d a b ka kb) s = .next (s.gives d (if A.toNat < B.toNat then 1 else 0)) ∧
    exec (.bfx d a b ka kb) s = .next (s.gives d (BitVec.ofNat 64 x)) ∧
    exec (.bfxs d a b ka kb) s = .next (s.gives d (BitVec.ofInt 64 (if 2 * x < 2 ^ w then (x : Int) else x - 2 ^ w)))

/-- Division (R187): for a divisor other than 0, and but for −2^63 ÷ −1, `div` gives q and `rem` gives m with A = q × B + m,
|m| < |B|, and m of the sign of A or zero, as signed numbers; by 0, `div` gives −1 and `rem` gives A; −2^63 ÷ −1 gives −2^63
and 0. `divu` and `remu` are the same for unsigned numbers, and by 0 give 2^64 − 1 and A. -/
def divisionRule : Prop :=
  ∀ (s : State) (d a b : GReg) (ka kb : Bool), s.goes [.g a ka, .g b kb] →
    let A := s.me.rdG a
    let B := s.me.rdG b
    (∃ q m : Word, exec (.div d a b ka kb) s = .next (s.gives d q) ∧ exec (.rem d a b ka kb) s = .next (s.gives d m) ∧
      (B = 0 → q.toInt = -1 ∧ m = A) ∧
      (A.toInt = -2 ^ 63 → B.toInt = -1 → q = A ∧ m = 0) ∧
      (B ≠ 0 → ¬(A.toInt = -2 ^ 63 ∧ B.toInt = -1) → A.toInt = q.toInt * B.toInt + m.toInt ∧
        m.toInt.natAbs < B.toInt.natAbs ∧ (0 < m.toInt → 0 < A.toInt) ∧ (m.toInt < 0 → A.toInt < 0))) ∧
    (∃ q m : Word, exec (.divu d a b ka kb) s = .next (s.gives d q) ∧ exec (.remu d a b ka kb) s = .next (s.gives d m) ∧
      (B = 0 → q.toNat = 2 ^ 64 - 1 ∧ m = A) ∧
      (B ≠ 0 → A.toNat = q.toNat * B.toNat + m.toNat ∧ m.toNat < B.toNat))

/-- The scalar results of two registers (R186–R188): the register–register forms and the divisions, whose corners are stated. -/
def Obligations.ScalarArithmetic : Prop := scalarRegisterRule ∧ divisionRule

/-- The unary forms of R186: leading zeros, trailing zeros, one bits, byte reversal. -/
def scalarBitsRule : Prop :=
  ∀ (s : State) (d a : GReg) (ka : Bool), s.goes [.g a ka] →
    let A := s.me.rdG a
    (∃ n : Nat, exec (.clz d a ka) s = .next (s.gives d (BitVec.ofNat 64 n)) ∧ n ≤ 64 ∧ A.toNat < 2 ^ (64 - n) ∧
      (n < 64 → 2 ^ (63 - n) ≤ A.toNat)) ∧
    (∃ n : Nat, exec (.ctz d a ka) s = .next (s.gives d (BitVec.ofNat 64 n)) ∧ n ≤ 64 ∧ A.toNat % 2 ^ n = 0 ∧
      (n < 64 → A.getLsbD n = true)) ∧
    exec (.popc d a ka) s = .next (s.gives d (BitVec.ofNat 64 (Finset.univ.filter fun i : Fin 64 => A.getLsbD i = true).card)) ∧
    (∃ r : Word, exec (.bswap d a ka) s = .next (s.gives d r) ∧
      ∀ i, i < 8 → r.extractLsb' (8 * (7 - i)) 8 = A.extractLsb' (8 * i) 8)

/-- `movz` and `movn` (R189): the write happens when the condition on B holds; when it fails, g d keeps its value, its
full bit and its poison bit, and the task goes on. -/
def conditionalMoveRule : Prop :=
  ∀ (s : State) (d a b : GReg) (ka kb : Bool), s.goes [.g a ka, .g b kb] →
    let A := s.me.rdG a
    let B := s.me.rdG b
    exec (.movz d a b ka kb) s = .next (if B = 0 then s.gives d A else s.does fun f => f) ∧
    exec (.movn d a b ka kb) s = .next (if B = 0 then s.does (fun f => f) else s.gives d A) ∧
    (∀ r, (s.does fun f => f).me.genReg r = s.me.genReg r)

/-- The immediate forms (R190, R191, R192): sign-extended immediates, constant shifts and rotate, and the long immediates;
`lim` and `lih` read g d. -/
def scalarImmediateRule : Prop :=
  ∀ (s : State) (d a : GReg) (ka : Bool) (i : BitVec 12) (c : BitVec 6) (j : BitVec 19),
    let A := s.me.rdG a
    let D := s.me.rdG d
    (s.goes [.g a ka] →
      exec (.addi d a ka i) s = .next (s.gives d (A + BitVec.ofInt 64 i.toInt)) ∧
      exec (.andi d a ka i) s = .next (s.gives d (A &&& BitVec.ofInt 64 i.toInt)) ∧
      exec (.shli d a ka c) s = .next (s.gives d (BitVec.ofNat 64 (A.toNat * 2 ^ c.toNat))) ∧
      exec (.shri d a ka c) s = .next (s.gives d (BitVec.ofNat 64 (A.toNat / 2 ^ c.toNat))) ∧
      exec (.sari d a ka c) s = .next (s.gives d (BitVec.ofInt 64 (A.toInt / 2 ^ c.toNat))) ∧
      exec (.roli d a ka c) s = .next (s.gives d (A.rotateLeft c.toNat))) ∧
    exec (.li d j) s = .next (s.gives d (BitVec.ofInt 64 j.toInt)) ∧
    (s.goes [.g d false] →
      exec (.lim d j) s = .next (s.gives d (BitVec.ofNat 64
        (D.toNat % 2 ^ 19 + j.toNat * 2 ^ 19 + D.toNat / 2 ^ 38 * 2 ^ 38))) ∧
      exec (.lih d j) s = .next (s.gives d (BitVec.ofNat 64 (D.toNat % 2 ^ 38 + j.toNat * 2 ^ 38))))

/-- The other scalar results (R186–R195): unary forms, conditional moves and immediate forms. -/
def Obligations.ScalarUnaryAndImmediate : Prop := scalarBitsRule ∧ conditionalMoveRule ∧ scalarImmediateRule

/-- Branches (R193): outside a repeat, taken to PC + 4 × the signed offset when the condition holds, else the next word;
no register is written. -/
def branchesRule : Prop :=
  ∀ (s : State) (a b : GReg) (o : BitVec 13), s.me.rpt = none → s.goes [.g a false, .g b false] →
    let A := s.me.rdG a
    let B := s.me.rdG b
    let go (taken : Bool) : State := s.issued.updMe fun f => { f with pc := if taken then f.pc + BitVec.ofInt 64 (4 * o.toInt) else f.pc + 4 }
    exec (.beq a b o) s = .next (go (decide (A = B))) ∧
    exec (.bne a b o) s = .next (go (decide (A ≠ B))) ∧
    exec (.blt a b o) s = .next (go (decide (A.toInt < B.toInt))) ∧
    exec (.bge a b o) s = .next (go (decide (B.toInt ≤ A.toInt))) ∧
    exec (.bltu a b o) s = .next (go (decide (A.toNat < B.toNat))) ∧
    exec (.bgeu a b o) s = .next (go (decide (B.toNat ≤ A.toNat)))

/-- Jumps (R194, R195): `jal` writes PC + 4 to g63 and goes to PC + 4 × the signed offset. `jalr` forms its target from A
before it writes g d; a target that is no multiple of 4 traps with ALIGN and the target in `tval`, and g d is not
written. -/
def jumpsRule : Prop :=
  ∀ (s : State) (d a : GReg) (ka : Bool) (i : BitVec 12) (o : BitVec 25), s.me.rpt = none →
    exec (.jal o) s = .next (s.issued.updMe fun f => { f.wrG 63 (f.pc + 4) with pc := f.pc + BitVec.ofInt 64 (4 * o.toInt) }) ∧
    (s.goes [.g a ka] →
      let t := s.me.rdG a + BitVec.ofInt 64 i.toInt
      (t.toNat % 4 = 0 → exec (.jalr d a ka i) s = .next (s.issued.updMe fun f => { f.wrG d (f.pc + 4) with pc := t })) ∧
      (t.toNat % 4 ≠ 0 → exec (.jalr d a ka i) s = .next (s.issued.trapAt Cause.ALIGN t s.me.pc false)))

/-- Branches and jumps (R193–R195), outside a repeat. -/
def Obligations.Transfers : Prop := branchesRule ∧ jumpsRule

/-- Instructions beside the sources that each has. -/
def withSrcs (srcs : List Src) (is : List Instr) : List (Instr × List Src) := is.map fun x => (x, srcs)

/-- The scalar forms with one destination, beside their sources. -/
def scalarForms (d a b : GReg) (ka kb : Bool) (i : BitVec 12) (c : BitVec 6) (j : BitVec 19) : List (Instr × List Src) :=
  withSrcs [.g a ka, .g b kb]
    [.add d a b ka kb, .sub d a b ka kb, .mul d a b ka kb, .mulh d a b ka kb, .mulhu d a b ka kb, .div d a b ka kb,
     .divu d a b ka kb, .rem d a b ka kb, .remu d a b ka kb, .and d a b ka kb, .or d a b ka kb, .xor d a b ka kb,
     .andn d a b ka kb, .shl d a b ka kb, .shr d a b ka kb, .sar d a b ka kb, .min d a b ka kb, .max d a b ka kb,
     .minu d a b ka kb, .maxu d a b ka kb, .seq d a b ka kb, .sne d a b ka kb, .slt d a b ka kb, .sltu d a b ka kb,
     .movz d a b ka kb, .movn d a b ka kb, .bfx d a b ka kb, .bfxs d a b ka kb] ++
  withSrcs [.g a ka]
    [.clz d a ka, .ctz d a ka, .popc d a ka, .bswap d a ka, .addi d a ka i, .andi d a ka i, .shli d a ka c, .shri d a ka c,
     .sari d a ka c, .roli d a ka c] ++
  withSrcs [] [.li d j] ++ withSrcs [.g d false] [.lim d j, .lih d j]

/-- The frame of the scalar forms of R186 to R192: with sources full, only g d may change among the registers; presence and
value of every other register, the special registers, the sticky flags, every other task and every byte of memory stay. -/
def Obligations.ScalarFrame : Prop :=
  ∀ (s t : State) (d a b : GReg) (ka kb : Bool) (i : BitVec 12) (c : BitVec 6) (j : BitVec 19),
    ∀ p ∈ scalarForms d a b ka kb i c j, s.goes p.2 → exec p.1 s = .next t →
      (∀ r, r ≠ d → t.me.genReg r = s.me.genReg r) ∧ t.me.genReg 0 = s.me.genReg 0 ∧
      (∀ r e, t.me.vecReg r e = s.me.vecReg r e) ∧ (∀ r, t.me.maskReg r = s.me.maskReg r) ∧
      t.me.specials = s.me.specials ∧ t.me.vfx = s.me.vfx ∧ s.onlyMe t ∧ s.sameBytes t

/-! ## Vector instructions -/

/-- Sources of a vector word with two vector sources, one, in format order, `vd` first where it is read. -/
def vecSrcs2 (rd : Bool) (d a b : VReg) (m : MReg) (ka kb : Bool) : List Src :=
  (if rd then [.v d ka] else []) ++ [.v a ka, .v b kb, .m m ka]
def vecSrcs1 (rd : Bool) (d a : VReg) (m : MReg) (ka : Bool) : List Src :=
  (if rd then [.v d ka] else []) ++ [.v a ka, .m m ka]

/-- Number of lanes of n bits. -/
def lanesOf (n : Nat) : Nat := 512 / n

/-- The lanes that an instruction leaves in v d: selected lanes hold the value, the others what they held (R234). -/
def leavesLanes (s t : State) (n : Nat) (d : VReg) (on : Nat → Bool) (value : Nat → BitVec n) : Prop :=
  ∀ i, i < lanesOf n → BitVec.ofNat n (lane (t.me.rdV d) n i) = if on i then value i else BitVec.ofNat n (lane (s.me.rdV d) n i)

/-- An instruction beside the value it gives a lane. -/
def laneOp {n : Nat} (i : Instr) (f : BitVec n → BitVec n → BitVec n) : Instr × (BitVec n → BitVec n → BitVec n) := (i, f)

/-- An integer held within the signed range of n bits, within the unsigned range. -/
def laneS (n : Nat) (z : Int) : BitVec n := BitVec.ofInt n (max (-2 ^ (n - 1)) (min z (2 ^ (n - 1) - 1)))
def laneU (n z : Nat) : BitVec n := BitVec.ofNat n (min z (2 ^ n - 1))

/-- The integer lane operations of R244 and R245 with two sources, on lanes of n bits. -/
def laneOps (n : Nat) (w : BitVec 2) (d a b : VReg) (m : MReg) (ka kb : Bool) : List (Instr × (BitVec n → BitVec n → BitVec n)) :=
  [laneOp (.vadd w d a b m ka kb) fun x y => x + y, laneOp (.vsub w d a b m ka kb) fun x y => x - y,
   laneOp (.vmul w d a b m ka kb) fun x y => x * y,
   laneOp (.vmulh w d a b m ka kb) fun x y => BitVec.ofInt n (x.toInt * y.toInt / 2 ^ n),
   laneOp (.vmulhu w d a b m ka kb) fun x y => BitVec.ofNat n (x.toNat * y.toNat / 2 ^ n)] ++
  [laneOp (.vmin w d a b m ka kb) fun x y => BitVec.ofInt n (min x.toInt y.toInt),
   laneOp (.vmax w d a b m ka kb) fun x y => BitVec.ofInt n (max x.toInt y.toInt),
   laneOp (.vminu w d a b m ka kb) fun x y => BitVec.ofNat n (min x.toNat y.toNat),
   laneOp (.vmaxu w d a b m ka kb) fun x y => BitVec.ofNat n (max x.toNat y.toNat)] ++
  [laneOp (.vadds w d a b m ka kb) fun x y => laneS n (x.toInt + y.toInt),
   laneOp (.vaddsu w d a b m ka kb) fun x y => laneU n (x.toNat + y.toNat),
   laneOp (.vsubs w d a b m ka kb) fun x y => laneS n (x.toInt - y.toInt),
   laneOp (.vsubsu w d a b m ka kb) fun x y => BitVec.ofNat n (x.toNat - y.toNat)] ++
  [laneOp (.vand w d a b m ka kb) fun x y => x &&& y, laneOp (.vor w d a b m ka kb) fun x y => x ||| y,
   laneOp (.vxor w d a b m ka kb) fun x y => x ^^^ y, laneOp (.vandn w d a b m ka kb) fun x y => x &&& ~~~y] ++
  [laneOp (.vshl w d a b m ka kb) fun x y => BitVec.ofNat n (x.toNat * 2 ^ (y.toNat % n)),
   laneOp (.vshr w d a b m ka kb) fun x y => BitVec.ofNat n (x.toNat / 2 ^ (y.toNat % n)),
   laneOp (.vsar w d a b m ka kb) fun x y => BitVec.ofInt n (x.toInt / 2 ^ (y.toNat % n))]

/-- Integer vector arithmetic, logic and shifts (R244, R245) with the masking of R234: with sources full the instruction
completes, each unmasked lane of v d holds the form's result of the lanes of va and vb, and each masked-off lane what it
held; `vabs` keeps −2^(w−1). -/
def vectorIntegerRule : Prop :=
  ∀ (s : State) (w : BitVec 2) (d a b : VReg) (m : MReg) (ka kb : Bool),
    let n := 8 * 2 ^ w.toNat
    let on (i : Nat) : Bool := (s.me.rdM m).getLsbD i
    let A (i : Nat) : BitVec n := BitVec.ofNat n (lane (s.me.rdV a) n i)
    let B (i : Nat) : BitVec n := BitVec.ofNat n (lane (s.me.rdV b) n i)
    (s.goes (vecSrcs2 (decide (m ≠ 0)) d a b m ka kb) → ∀ p ∈ laneOps n w d a b m ka kb,
      ∃ t, exec p.1 s = .next t ∧ leavesLanes s t n d on (fun i => p.2 (A i) (B i)) ∧ s.me.wentOn t.me) ∧
    (s.goes (vecSrcs1 (decide (m ≠ 0)) d a m ka) →
      ∃ t, exec (.vabs w d a m ka) s = .next t ∧
        leavesLanes s t n d on (fun i => BitVec.ofNat n (A i).toInt.natAbs) ∧ s.me.wentOn t.me)

/-- The frame of the vector forms of R244 and R245: an element of v d with no unmasked lane keeps its value and its
presence, and an element with one is full and not poisoned (R234); every other register, the special registers, the
sticky flags, every other task and every byte of memory are as before. -/
def Obligations.VectorFrame : Prop :=
  ∀ (s t : State) (w : BitVec 2) (d a b : VReg) (m : MReg) (ka kb : Bool),
    let n := 8 * 2 ^ w.toNat
    s.goes (vecSrcs2 (decide (m ≠ 0)) d a b m ka kb) → ∀ p ∈ laneOps n w d a b m ka kb, exec p.1 s = .next t →
      (∀ e, e < 8 → (∀ i, i < lanesOf n → i / (64 / n) = e → (s.me.rdM m).getLsbD i = false) → t.me.vecReg d e = s.me.vecReg d e) ∧
      (∀ e i, e < 8 → i < lanesOf n → i / (64 / n) = e → (s.me.rdM m).getLsbD i = true →
        t.me.vFull.getLsbD (8 * d.toNat + e) = true ∧ t.me.vPoison.getLsbD (8 * d.toNat + e) = false) ∧
      (∀ r e, e < 8 → r ≠ d → t.me.vecReg r e = s.me.vecReg r e) ∧ (∀ r, t.me.genReg r = s.me.genReg r) ∧
      (∀ r, t.me.maskReg r = s.me.maskReg r) ∧ t.me.specials = s.me.specials ∧ t.me.vfx = s.me.vfx ∧ s.onlyMe t ∧ s.sameBytes t

/-- The bits that a compare leaves in mask d (R246): bit i is set when lane i is unmasked and its condition holds; bits at
and above n are 0; m0 discards. -/
def leavesMask (t : State) (n : Nat) (d : MReg) (on : Nat → Bool) (holds : Nat → Bool) : Prop :=
  d ≠ 0 → (∀ i, i < lanesOf n → (t.me.rdM d).getLsbD i = (on i && holds i)) ∧
    (∀ i, lanesOf n ≤ i → i < 64 → (t.me.rdM d).getLsbD i = false) ∧ t.me.mFull.getLsbD d.toNat = true ∧ t.me.mPoison.getLsbD d.toNat = false

/-- Integer compares (R246) and mask logic (R254). The frame of the compares: only m d may change. -/
def vectorCompareRule : Prop :=
  ∀ (s : State) (w : BitVec 2) (d : MReg) (a b : VReg) (m : MReg) (ka kb : Bool),
    let n := 8 * 2 ^ w.toNat
    let on (i : Nat) : Bool := (s.me.rdM m).getLsbD i
    let A (i : Nat) : BitVec n := BitVec.ofNat n (lane (s.me.rdV a) n i)
    let B (i : Nat) : BitVec n := BitVec.ofNat n (lane (s.me.rdV b) n i)
    s.goes (vecSrcs2 false 0 a b m ka kb) →
      ∀ p ∈ ([(.veq w d a b m ka kb, fun i => decide (A i = B i)), (.vne w d a b m ka kb, fun i => decide (A i ≠ B i)),
          (.vlt w d a b m ka kb, fun i => decide ((A i).toInt < (B i).toInt)),
          (.vltu w d a b m ka kb, fun i => decide ((A i).toNat < (B i).toNat)),
          (.vle w d a b m ka kb, fun i => decide ((A i).toInt ≤ (B i).toInt)),
          (.vleu w d a b m ka kb, fun i => decide ((A i).toNat ≤ (B i).toNat))] : List (Instr × (Nat → Bool))),
        ∃ t, exec p.1 s = .next t ∧ leavesMask t n d on p.2 ∧ s.me.wentOn t.me ∧ (∀ r, r ≠ d → t.me.maskReg r = s.me.maskReg r) ∧
          (∀ r e, t.me.vecReg r e = s.me.vecReg r e) ∧ (∀ r, t.me.genReg r = s.me.genReg r) ∧ t.me.specials = s.me.specials ∧
          t.me.vfx = s.me.vfx ∧ s.onlyMe t ∧ s.sameBytes t

/-- Mask logic (R254) and transfers between masks and general registers (R257): whole 64-bit masks; m0 reads all ones and
discards. -/
def maskLogicRule : Prop :=
  ∀ (s : State) (d a b : MReg) (g r : BitVec 6) (ka kb : Bool),
    let A := s.me.rdM a
    let B := s.me.rdM b
    let m (v : Word) : Host.Outcome State Fault Refusal := .next (s.does fun f => f.wrM d v)
    s.me.rdM 0 = BitVec.allOnes 64 ∧ (∀ v, s.does (fun f => f.wrM 0 v) = s.does fun f => f) ∧
    (∀ v, d ≠ 0 → (s.does fun f => f.wrM d v).me.rdM d = v) ∧
    (s.goes [.m a ka, .m b kb] →
      exec (.mand d a b ka kb) s = m (A &&& B) ∧ exec (.mor d a b ka kb) s = m (A ||| B) ∧
      exec (.mxor d a b ka kb) s = m (A ^^^ B) ∧ exec (.mandn d a b ka kb) s = m (A &&& ~~~B)) ∧
    (s.goes [.m a ka] → exec (.mnot d a ka) s = m (~~~A) ∧ exec (.mget r (a.setWidth 6) ka) s = .next (s.gives r A)) ∧
    (s.goes [.g g ka] → exec (.mput (d.setWidth 6) g ka) s = m (s.me.rdG g))

/-- Vector comparisons and the mask registers they write, with the logic of masks. -/
def Obligations.VectorCompareAndMasks : Prop := vectorCompareRule ∧ maskLogicRule

/-- Permutes, slides and merges (R253), splats and element transfers (R257). -/
def vectorMovesRule : Prop :=
  ∀ (s : State) (w : BitVec 2) (d a b : VReg) (m : MReg) (g h : GReg) (ka kb : Bool),
    let n := 8 * 2 ^ w.toNat
    let on (i : Nat) : Bool := (s.me.rdM m).getLsbD i
    let A (i : Nat) : BitVec n := BitVec.ofNat n (lane (s.me.rdV a) n i)
    (s.goes (vecSrcs2 (decide (m ≠ 0)) d a b m ka kb) →
      (∃ t, exec (.vperm d a b m ka kb w) s = .next t ∧ s.me.wentOn t.me ∧
        leavesLanes s t n d on fun i => if lane (s.me.rdV b) n i < lanesOf n then A (lane (s.me.rdV b) n i) else 0) ∧
      (∃ t, exec (.vslide d a b m ka kb w) s = .next t ∧ s.me.wentOn t.me ∧
        leavesLanes s t n d on fun i => if 0 ≤ (i : Int) + (s.me.rdE b 0).toInt ∧ (i : Int) + (s.me.rdE b 0).toInt < lanesOf n
          then A ((i : Int) + (s.me.rdE b 0).toInt).toNat else 0)) ∧
    (s.goes (vecSrcs2 false d a b m ka kb) →
      ∃ t, exec (.vmerge d a b m ka kb) s = .next t ∧ s.me.wentOn t.me ∧
        ∀ i, i < 64 → lane (t.me.rdV d) 8 i = if on i then lane (s.me.rdV b) 8 i else lane (s.me.rdV a) 8 i) ∧
    (s.goes [.g g ka] →
      ∃ t, exec (.vsplat (d.setWidth 6) g ka w) s = .next t ∧ s.me.wentOn t.me ∧
        ∀ i, i < lanesOf (64 / 2 ^ w.toNat) → lane (t.me.rdV d) (64 / 2 ^ w.toNat) i = (s.me.rdG g).toNat % 2 ^ (64 / 2 ^ w.toNat)) ∧
    (s.goes [.v a ka, .g g kb] →
      exec (.vget h (a.setWidth 6) g ka kb) s = .next (s.gives h (s.me.rdE a ((s.me.rdG g).toNat % 8)))) ∧
    (s.goes [.v d ka, .g g ka, .g h kb] →
      ∃ t, exec (.vput (d.setWidth 6) g h ka kb) s = .next t ∧ s.me.wentOn t.me ∧
        ∀ e, e < 8 → t.me.rdE d e = if e = (s.me.rdG h).toNat % 8 then s.me.rdG g else s.me.rdE d e)

/-- Results of the integer vector forms and of vector moves. -/
def Obligations.VectorResults : Prop := vectorIntegerRule ∧ vectorMovesRule

/-- The sticky flags after lanes i below n raise flags `fl i` in flag lanes `at_ i`, none with q set (R242, R243). -/
def leavesFlags (s t : State) (q : Bool) (n : Nat) (on : Nat → Bool) (at_ : Nat → Nat) (fl : Nat → Flags) : Prop :=
  ∀ j, j < 128 → t.me.vfx.getLsbD j =
    (s.me.vfx.getLsbD j || (!q && (List.range n).any fun i => on i && decide (at_ i = j / 8) && (fl i).getLsbD (j % 8)))

/-- The flag lane of a destination element of width n (R242). -/
def flagLaneOf (n e : Nat) : Nat := if n = 64 then 2 * e else e / (32 / n)

/-- The vector floating-point forms (R247, R248), on lanes of binary16, bfloat16, binary32 or binary64: each unmasked lane is
the operation's exact value rounded once under `fcsr` (the operations `Fmt.addOp` and so on compute exactly and round), the
fused forms read v d, and the flags of each lane go to its flag lane unless q is set. -/
def Obligations.VectorFloat : Prop :=
  ∀ (s : State) (w : BitVec 2) (d a b : VReg) (m : MReg) (q ka kb : Bool),
    let f := fmtOf w
    let n := f.width
    let on (i : Nat) : Bool := (s.me.rdM m).getLsbD i
    let A (i : Nat) : Nat := lane (s.me.rdV a) n i
    let B (i : Nat) : Nat := lane (s.me.rdV b) n i
    let C (i : Nat) : Nat := lane (s.me.rdV d) n i
    let rc := s.me.rc
    let done (i : Instr) (r : Nat → Nat × Flags) : Prop := ∃ t, exec i s = .next t ∧ s.me.wentOn t.me ∧ s.onlyMe t ∧
      leavesLanes s t n d on (fun i => BitVec.ofNat n (r i).1) ∧
      leavesFlags s t q (lanesOf n) on (flagLaneOf n) (fun i => (r i).2)
    (s.goes (vecSrcs2 (decide (m ≠ 0)) d a b m ka kb) →
      done (.vfadd w d a b m q ka kb) (fun i => f.addOp rc (A i) (B i)) ∧
      done (.vfsub w d a b m q ka kb) (fun i => f.subOp rc (A i) (B i)) ∧
      done (.vfmul w d a b m q ka kb) (fun i => f.mulOp rc (A i) (B i)) ∧
      done (.vfdiv w d a b m q ka kb) (fun i => f.divOp rc (A i) (B i)) ∧
      done (.vfmin w d a b m q ka kb) (fun i => f.minmax false rc (A i) (B i)) ∧
      done (.vfmax w d a b m q ka kb) (fun i => f.minmax true rc (A i) (B i))) ∧
    (s.goes (vecSrcs2 true d a b m ka kb) →
      done (.vfma w d a b m q ka kb) (fun i => f.fmaOp false false rc (A i) (B i) (C i)) ∧
      done (.vfms w d a b m q ka kb) (fun i => f.fmaOp false true rc (A i) (B i) (C i)) ∧
      done (.vfnma w d a b m q ka kb) (fun i => f.fmaOp true false rc (A i) (B i) (C i)) ∧
      done (.vfnms w d a b m q ka kb) (fun i => f.fmaOp true true rc (A i) (B i) (C i))) ∧
    (s.goes (vecSrcs1 (decide (m ≠ 0)) d a m ka) →
      done (.vfsqrt w d a m q ka) (fun i => f.sqrtOp rc (A i)) ∧
      done (.vfabs w d a m q ka) (fun i => (f.absOp (A i), 0)) ∧
      done (.vfneg w d a m q ka) (fun i => (f.negOp (A i), 0)))

/-- Floating-point compares (R249): a compare with a NaN operand is false for the first three forms, `vfun` is true of it; NV is
raised as the rule's table says; the mask is written as R246 states. -/
def floatCompareRule : Prop :=
  ∀ (s : State) (w : BitVec 2) (d : MReg) (a b : VReg) (m : MReg) (q ka kb : Bool),
    let f := fmtOf w
    let n := f.width
    let on (i : Nat) : Bool := (s.me.rdM m).getLsbD i
    let A (i : Nat) : FV := f.operand s.me.rc.fz (lane (s.me.rdV a) n i)
    let B (i : Nat) : FV := f.operand s.me.rc.fz (lane (s.me.rdV b) n i)
    let nan (i : Nat) : Bool := (A i).isNan || (B i).isNan
    let sig (i : Nat) : Flags := if (A i).isSig || (B i).isSig then 0x10 else 0
    let any (i : Nat) : Flags := if nan i then 0x10 else 0
    let done (i : Instr) (holds : Nat → Bool) (fl : Nat → Flags) : Prop := ∃ t, exec i s = .next t ∧ s.me.wentOn t.me ∧ s.onlyMe t ∧
      leavesMask t n d on holds ∧ leavesFlags s t q (lanesOf n) on (flagLaneOf n) fl
    s.goes (vecSrcs2 false 0 a b m ka kb) →
      done (.vfeq w d a b m q ka kb) (fun i => !nan i && decide ((A i).cmp (B i) = some 0)) sig ∧
      done (.vflt w d a b m q ka kb) (fun i => !nan i && decide ((A i).cmp (B i) = some (-1))) any ∧
      done (.vfle w d a b m q ka kb)
        (fun i => !nan i && (decide ((A i).cmp (B i) = some (-1)) || decide ((A i).cmp (B i) = some 0))) any ∧
      done (.vfun w d a b m q ka kb) nan sig

/-- NaNs (R247, R248), in every format and rounding mode: an operation with a NaN operand gives the canonical quiet NaN, with NV
just when an operand is signalling; `vfmin` and `vfmax` ignore one quiet NaN, raise no flag for it, and give the other
operand where it is a number that flushing leaves alone; two NaNs give the canonical NaN. −0 is less than +0. -/
def nanRulesRule : Prop :=
  ∀ (w : BitVec 2) (rc : Rc) (a b c : Nat),
    let f := fmtOf w
    let A := f.operand rc.fz a
    let B := f.operand rc.fz b
    let C := f.operand rc.fz c
    let nv : Flags := if A.isSig || B.isSig then 0x10 else 0
    ((A.isNan || B.isNan) = true →
      f.addOp rc a b = (f.qnan, nv) ∧ f.subOp rc a b = (f.qnan, nv) ∧ f.mulOp rc a b = (f.qnan, nv) ∧ f.divOp rc a b = (f.qnan, nv)) ∧
    (A.isNan = true → f.sqrtOp rc a = (f.qnan, if A.isSig then 0x10 else 0) ∧ f.absOp a = f.qnan ∧ f.negOp a = f.qnan) ∧
    ((A.isNan || B.isNan || C.isNan) = true → ∀ p n, (f.fmaOp p n rc a b c).1 = f.qnan) ∧
    ((A.isNan && B.isNan) = true → ∀ x, f.minmax x rc a b = (f.qnan, nv)) ∧
    (A.isNan = true → A.isSig = false → B.isNan = false → ∀ x, f.minmax x rc a b = ((f.round false rc.rm rc.fz B).1, 0)) ∧
    (A.isNan = false → B.isNan = true → B.isSig = false → ∀ x, f.minmax x rc a b = ((f.round false rc.rm rc.fz A).1, 0)) ∧
    (let neg := 2 ^ (f.width - 1)
     f.minmax false rc 0 neg = (neg, 0) ∧ f.minmax false rc neg 0 = (neg, 0) ∧
     f.minmax true rc 0 neg = (0, 0) ∧ f.minmax true rc neg 0 = (0, 0))

/-- Floating-point comparisons, minimum and maximum, and what happens to NaNs. -/
def Obligations.FloatCompareAndNans : Prop := floatCompareRule ∧ nanRulesRule

/-- Conversions (R250, R251): with widths and value rule of the pair that fn names (`cvtRow`), a widening form reads part p of va, a
narrowing form writes part p of v d and keeps the rest of it, masked-off conversions keep their lanes, and flags go to the
flag lanes of the elements written. -/
def conversionsRule : Prop :=
  ∀ (s : State) (d a : VReg) (p : BitVec 2) (m : MReg) (q ka : Bool) (fn : BitVec 4),
    let r := cvtRow fn
    let n := 512 / max r.1 r.2.1
    let on (i : Nat) : Bool := (s.me.rdM m).getLsbD i
    let narrow := decide (r.2.1 < r.1)
    let value (i : Nat) : Nat × Flags := r.2.2 s.me.rc (lane (s.me.rdV a) r.1 (if narrow then i else p.toNat * n + i))
    p.toNat * n < 512 / min r.1 r.2.1 →
    s.goes (vecSrcs1 (decide (m ≠ 0) || narrow) d a m ka) →
      ∃ t, exec (.vcvt d a p m q ka fn) s = .next t ∧ s.me.wentOn t.me ∧ s.onlyMe t ∧
        (∀ i, i < n → lane (t.me.rdV d) r.2.1 (if narrow then p.toNat * n + i else i) =
          if on i then (value i).1 % 2 ^ r.2.1 else lane (s.me.rdV d) r.2.1 (if narrow then p.toNat * n + i else i)) ∧
        (narrow = true → ∀ j, j < 512 / r.2.1 → (j < p.toNat * n ∨ p.toNat * n + n ≤ j) →
          lane (t.me.rdV d) r.2.1 j = lane (s.me.rdV d) r.2.1 j) ∧
        leavesFlags s t q n on (fun i => flagLaneOf r.2.1 (if narrow then p.toNat * n + i else i)) (fun i => (value i).2)

/-- Worked values of R252, R256 and R270: conversions to E4M3 under RNE, the tree sum of 2^24 and fifteen ones, and the codes
and scale of the block 0.75, −2.5, 11.0, 0.1 under K4 type 1. -/
def workedNumbersRule : Prop :=
  let rc : Rc := { rm := 0, fz := false }
  (cvtRow 10).2.2 rc 0x40400000 = (0x44, 0) ∧ (cvtRow 10).2.2 rc 0x43FA0000 = (0x7E, 0x05) ∧
  (cvtRow 10).2.2 rc 0xFF800000 = (0xFE, 0x01) ∧ (cvtRow 10).2.2 rc 0x7FC00000 = (0x7F, 0) ∧
  (tree (Fmt.f32.addOp rc) 4 (some 0x4B800000 :: List.replicate 15 (some 0x3F800000))).1 = some 0x4B800007 ∧
  (let b := (QKind.k4 1).block rc ([0x3F400000, 0xC0200000, 0x41300000, 0x3DCCCCCD].map Fmt.f32.read ++ List.replicate 28 (.fin false 0 0))
   (b.1.take 4).map (·.1) = [0x1, 0xA, 0x7, 0x0] ∧ b.2 = 0x60)

/-- Conversions between formats, with the worked numbers of the spec. -/
def Obligations.ConversionResults : Prop := conversionsRule ∧ workedNumbersRule

/-- Reductions (R255, R256): the lanes that m selects are combined in the fixed tree; the result is element 0 of v d at the
form's width, and every other bit of v d is 0; with no lane, the rule's empty result. -/
def reductionsRule : Prop :=
  ∀ (s : State) (d a : VReg) (m : MReg) (q ka : Bool),
    let rc := s.me.rc
    let lanes (n : Nat) : List (Option Nat) := (List.range (512 / n)).map fun i =>
      if (s.me.rdM m).getLsbD i then some (lane (s.me.rdV a) n i) else none
    let done (i : Instr) (n : Nat) (v : Nat) : Prop := ∃ t, exec i s = .next t ∧ s.me.wentOn t.me ∧ s.onlyMe t ∧
      t.me.rdV d = BitVec.ofNat 512 (v % 2 ^ n)
    let pure_ (op : Nat → Nat → Nat) (x y : Nat) : Nat × Flags := (op x y, 0)
    let signed (x : Nat) : Int := (BitVec.ofNat 32 x).toInt
    s.goes (vecSrcs1 false d a m ka) →
      done (.vrsum d a m false ka 0) 32 (((tree (pure_ fun x y => (x + y) % 2 ^ 32) 4 (lanes 32)).1).getD 0) ∧
      done (.vrsum d a m false ka 1) 64 (((tree (pure_ fun x y => (x + y) % 2 ^ 64) 3 (lanes 64)).1).getD 0) ∧
      done (.vrsum d a m q ka 2) 32 (((tree (Fmt.f32.addOp rc) 4 (lanes 32)).1).getD 0) ∧
      done (.vrsum d a m q ka 3) 64 (((tree (Fmt.f64.addOp rc) 3 (lanes 64)).1).getD 0) ∧
      done (.vrminF32 d a m q ka) 32 (((tree (Fmt.f32.minmax false rc) 4 (lanes 32)).1).getD 0x7F800000) ∧
      done (.vrmaxF32 d a m q ka) 32 (((tree (Fmt.f32.minmax true rc) 4 (lanes 32)).1).getD 0xFF800000) ∧
      done (.vrminI32 d a m ka) 32
        (((tree (pure_ fun x y => if signed x < signed y then x else y) 4 (lanes 32)).1).getD 0x7FFFFFFF) ∧
      done (.vrmaxI32 d a m ka) 32
        (((tree (pure_ fun x y => if signed x < signed y then y else x) 4 (lanes 32)).1).getD 0x80000000)

/-- Quantise and dequantise (R268, R269, R270): the block is lanes 0–15 of va and of v(va+1); its codes go to part p of v d as R265
places them, its scale to byte p of element 0 of v(d+1), and every other byte of the two registers stays; `vdqnt` writes the
32 values of part p to v d and v(d+1). Flags go to flag lane j mod 16. The register numbers are even (R267). -/
def quantiseRule : Prop :=
  ∀ (s : State) (d a : VReg) (p t : BitVec 2) (q ka : Bool), d.toNat % 2 = 0 → a.toNat % 2 = 0 →
    let rc := s.me.rc
    let src : List FV := (List.range 32).map fun j =>
      Fmt.f32.operand rc.fz (lane (s.me.rdV (if j < 16 then a else a + 1)) 32 (j % 16))
    let done (i : Instr) (k : QKind) (len : Nat) : Prop := ∃ u, exec i s = .next u ∧ s.me.wentOn u.me ∧ s.onlyMe u ∧
      (∀ j, j < 64 → lane (u.me.rdV d) 8 j =
        if p.toNat * len ≤ j ∧ j < p.toNat * len + len then k.partByte (k.block rc src).1 (j - p.toNat * len) % 2 ^ 8 else lane (s.me.rdV d) 8 j) ∧
      (∀ j, j < 64 → lane (u.me.rdV (d + 1)) 8 j = if j = p.toNat then (k.block rc src).2 % 2 ^ 8 else lane (s.me.rdV (d + 1)) 8 j) ∧
      leavesFlags s u q 32 (fun _ => true) (fun j => j % 16) (fun j => ((k.block rc src).1.getD j (0, 0)).2)
    (s.goes [.v (d + 1) ka, .v a ka, .v (a + 1) ka] →
      (p.toNat < 2 → done (.vqntMxe4 d a p q ka) .mxe4 32) ∧ done (.vqntMxf4 d a p q ka) .mxf4 16 ∧ done (.vqntK4 d a t p q ka) (.k4 t.toNat) 16) ∧
    (s.goes [.v a ka, .v (a + 1) ka] →
      let v (j : Nat) : Nat × Flags := match QKind.value t (s.me.rdV a) p.toNat j (((s.me.rdE (a + 1) 0).toNat / 2 ^ (8 * p.toNat)) % 256) with
        | .nan _ => (0x7FC00000, 0)
        | x => Fmt.f32.round false rc.rm rc.fz x
      ∃ u, exec (.vdqnt d a t p q ka) s = .next u ∧ s.me.wentOn u.me ∧ s.onlyMe u ∧
        (∀ j, j < 16 → lane (u.me.rdV d) 32 j = (v j).1 % 2 ^ 32 ∧ lane (u.me.rdV (d + 1)) 32 j = (v (16 + j)).1 % 2 ^ 32) ∧
        leavesFlags s u q 32 (fun _ => true) (fun j => j % 16) (fun j => (v j).2))

/-- Reductions and the scale instructions. -/
def Obligations.ReductionsAndScales : Prop := reductionsRule ∧ quantiseRule

/-- The sticky flags as registers (R258): `vfxrd` reads each unmasked flag lane, zero-extended, into its 32-bit lane; `vfxwr` stores
bits [4:0] of each unmasked lane, its bits [7:5] zero; `vfxclr` clears each unmasked flag lane; masked-off flag lanes keep
their bytes. -/
def Obligations.StickyFlags : Prop :=
  ∀ (s : State) (d a : VReg) (m : MReg) (ka : Bool),
    let on (i : Nat) : Bool := (s.me.rdM m).getLsbD i
    let flags (u : State) (i : Nat) : Nat := (u.me.vfx.extractLsb' (8 * i) 8).toNat
    (s.goes ((if m ≠ 0 then [.v d ka] else []) ++ [.m m ka]) →
      ∃ t, exec (.vfxrd d m ka) s = .next t ∧ s.me.wentOn t.me ∧ s.onlyMe t ∧ t.me.vfx = s.me.vfx ∧
        ∀ i, i < 16 → lane (t.me.rdV d) 32 i = if on i then flags s i else lane (s.me.rdV d) 32 i) ∧
    (s.goes [.v a ka, .m m ka] →
      ∃ t, exec (.vfxwr a m ka) s = .next t ∧ s.me.wentOn t.me ∧ s.onlyMe t ∧ (∀ r e, t.me.vecReg r e = s.me.vecReg r e) ∧
        ∀ i, i < 16 → flags t i = if on i then lane (s.me.rdV a) 32 i % 32 else flags s i) ∧
    (s.goes [.m m ka] →
      ∃ t, exec (.vfxclr m ka) s = .next t ∧ s.me.wentOn t.me ∧ s.onlyMe t ∧ (∀ r e, t.me.vecReg r e = s.me.vecReg r e) ∧
        ∀ i, i < 16 → flags t i = if on i then 0 else flags s i)

/-! ## Memory instructions as they issue -/

/-- The task has posted one operation: the lowest free entry of its core's journal holds it as transmitted, its messages are on
their way, and registers and memory bytes are as before (R212, R214). -/
def postsAll (s t : State) (kind : BitVec 4) (dest : Word) (ms : Sender → List Msg) : Prop :=
  ∃ e, (s.core s.myCore).freeEntries.head? = some e ∧ t.net = s.net ++ ms (.core s.chip.chipNo s.myCore e) ∧
    (∃ j, t.journal s.myCore e = some j ∧ j.kind = kind ∧ j.state = 1 ∧ j.task = s.me.taskId ∧ j.dest = dest ∧ j.job = s.me.job) ∧
    (∀ k, k ≠ e → t.journal s.myCore k = s.journal s.myCore k) ∧ s.me.sameRegs t.me ∧ s.me.wentOn t.me ∧ s.sameBytes t
def posts (s t : State) (kind : BitVec 4) (dest : Word) (m : Sender → Msg) : Prop := postsAll s t kind dest fun e => [m e]

/-- The task has sent one message whose answer will fill g d, which is empty from now on (R62). -/
def asks (s t : State) (d : GReg) (m : Msg) : Prop :=
  t.net = s.net ++ [m] ∧ s.me.sameRegsBut t.me d ∧ s.me.wentOn t.me ∧ s.sameBytes t ∧ t.cores = s.cores

/-- Use of an address by a scalar load or store, by another form. -/
def plainUse (acc : AccKind) (n : Nat) : Use := { acc := acc, plain := true, size := n }
def formUse (acc : AccKind) (n : Nat) : Use := { acc := acc, plain := false, size := n }

/-- No write to the locations of n bytes at a place is on record, so that their bytes have one value. -/
def unrecorded (s : State) (p : Place) (n : Nat) : Prop :=
  ∀ x ∈ (s.located p).pieces (List.replicate n 0), ∀ y ∈ s.mem.past, y.at_ ≠ x.1

/-- What a read of bytes of a bank or a scratchpad brings: poison from an uncorrectable line, else a value, which where the bytes have
one value is theirs (R211, R366). -/
def readsLocal (s : State) (p : Place) (n : Nat) (r : Res) : Prop :=
  (s.localBad p n = true → r = .err Cause.REFUSED) ∧
  (s.localBad p n = false → ∃ bs, r = .ok (leWord bs) ∧ (unrecorded s p n → bs = s.localBytes p n))

/-- A place of the own core's scratchpad or the own tile may be accessed now: its bank is awake, and no earlier access of the task
overlaps. -/
def openNow (s u : State) (p : Place) (n : Nat) : Prop := p.isLocal s.myCore = true ∧ u.touch p = (u, true) ∧ u.pending p n = false

/-- The instruction blocks, and is evaluated again in full: nothing else changes (R10). -/
def waits (s t : State) : Prop :=
  t.me.state = .waiting ∧ t.me.wait = .retry ∧ t.me.pc = s.me.pc ∧ t.net = s.net ∧ t.cores = s.cores ∧ s.me.sameRegs t.me ∧ s.sameBytes t

/-- Scalar loads (R209, R210). With its source full, its address A + imm × size aligned and permitted at place p, and no acquire or
fill of the bytes outstanding, a load sends one access on its way and empties g d. From the own core's scratchpad or the own
tile's banks the bytes are read at once and travel as the reply, an uncorrectable line's as poison; elsewhere the access goes to
its home, or a line that the core's L1 holds answers it. The value is zero-extended by the little-endian word of n bytes. That a local
access reads when it issues, and that bytes whose locations no write is recorded for have one value, is the model's choice (log 9). -/
def Obligations.Loads : Prop :=
  ∀ (s u : State) (d a : GReg) (ka : Bool) (i : BitVec 12) (p : Place), s.goes [.g a ka] → s.acquiring = false →
    ∀ x ∈ ([(1, .ld8 d a ka i), (2, .ld16 d a ka i), (4, .ld32 d a ka i), (8, .ld64 d a ka i)] : List (Nat × Instr)),
      let ea := s.me.rdG a + BitVec.ofInt 64 (i.toInt * x.1)
      let id := s.me.taskId
      s.issued.target ea x.1 (plainUse .read x.1) = (u, .ok p) →
      (u.fillPending p x.1 = true → ∃ t, exec x.2 s = .next t ∧ waits s t) ∧
      (u.fillPending p x.1 = false → openNow s u p x.1 →
        ∃ t r, exec x.2 s = .next t ∧ asks s t d (.reply id (.g d) r none none) ∧ readsLocal s p x.1 r) ∧
      (u.fillPending p x.1 = false → p.isLocal s.myCore = false →
        ∃ t m, exec x.2 s = .next t ∧ asks s t d m ∧
          (m = .read id s.me.job p x.1 (.g d) s.me.knows ∨
            ∃ bs, u.l1Hit p x.1 = some bs ∧ m = .reply id (.g d) (.ok (leWord bs)) none none))

/-- No counter lies among the bytes (R340). -/
def noCounter (s : State) (p : Place) (n : Nat) : Prop := ∀ c ∈ s.mem.counters, p.overlaps n c 8 = false

/-- Scalar stores to the own core's scratchpad or the own tile's banks (R209, R212): the low n bytes of g d are in place at once,
every byte outside them and every register is as before, and nothing is sent; that of bytes that no counter has. The place is that of
the address A + imm × size. -/
def localStoresRule : Prop :=
  ∀ (s u : State) (d a : GReg) (ka : Bool) (i : BitVec 12) (p : Place), s.goes [.g d ka, .g a ka] → s.acquiring = false →
    ∀ x ∈ ([(1, .st8 d a ka i), (2, .st16 d a ka i), (4, .st32 d a ka i), (8, .st64 d a ka i)] : List (Nat × Instr)),
      let ea := s.me.rdG a + BitVec.ofInt 64 (i.toInt * x.1)
      s.issued.target ea x.1 (plainUse .write x.1) = (u, .ok p) → openNow s u p x.1 → noCounter s p x.1 →
      ∃ t, exec x.2 s = .next t ∧ t.localBytes p x.1 = leBytes (s.me.rdG d).toNat x.1 ∧ s.sameBytesBut t p x.1 ∧
        t.net = s.net ∧ s.me.sameRegs t.me ∧ s.me.wentOn t.me ∧ ∀ k, k ≠ s.run.cur → t.frame k = s.frame k

/-- Scalar stores elsewhere (R212) and counted stores (R225): one journal entry of kind 0 or 1 and one message with the low n bytes
of g d; `pst` is posted even when its address is local, and names the counter of B unless B is 0. The message names the writes that
happen before it. No byte of memory changes before it is performed at its home. Without a free entry a store blocks, and nothing
else changes. -/
def postedStoresRule : Prop :=
  ∀ (s u v : State) (d a b : GReg) (ka kb : Bool) (i : BitVec 12) (z : BitVec 2) (p c : Place),
    let n := 2 ^ z.toNat
    let id := s.me.taskId
    let bytes (n : Nat) : List Byte := leBytes (s.me.rdG d).toNat n
    s.acquiring = false →
    (s.goes [.g d ka, .g a ka] →
      ∀ x ∈ ([(1, .st8 d a ka i), (2, .st16 d a ka i), (4, .st32 d a ka i), (8, .st64 d a ka i)] : List (Nat × Instr)),
        let ea := s.me.rdG a + BitVec.ofInt 64 (i.toInt * x.1)
        s.issued.target ea x.1 (plainUse .write x.1) = (u, .ok p) → p.isLocal s.myCore = false →
        ((s.core s.myCore).freeEntries ≠ [] →
          ∃ t w, w.knows = s.me.knows ∧ exec x.2 s = .next t ∧ posts s t 0 ea fun e => .store e id s.me.job p (bytes x.1) false none w) ∧
        ((s.core s.myCore).freeEntries = [] → ∃ t, exec x.2 s = .next t ∧ waits s t)) ∧
    (s.goes [.g d ka, .g a ka, .g b kb] → (s.core s.myCore).freeEntries ≠ [] →
      s.issued.target (s.me.rdG a) n (formUse .write n) = (u, .ok p) →
      (s.me.rdG b = 0 →
        ∃ t w, w.knows = s.me.knows ∧ exec (.pst d a b ka kb z) s = .next t ∧
          posts s t 1 (s.me.rdG a) fun e => .store e id s.me.job p (bytes n) true none w) ∧
      (s.me.rdG b ≠ 0 → u.counter (s.me.rdG b) .add = (v, .ok c) →
        ∃ t w, w.knows = s.me.knows ∧ exec (.pst d a b ka kb z) s = .next t ∧
          posts s t 1 (s.me.rdG a) fun e => .store e id s.me.job p (bytes n) true (some c) w))

/-- Stores that are done at once, and posted ones (R212). -/
def Obligations.Stores : Prop := localStoresRule ∧ postedStoresRule

/-- Landings as they issue (R217, R218, R219): `lnd` and `lnd.v` post the read of the source with the landing address, entry kind 3;
`rput` and `rput.v` post the value of b, read at issue, entry kind 2. A landing address that R217 does not allow traps with
PERM and that address. -/
def Obligations.Landings : Prop :=
  ∀ (s u : State) (a b : GReg) (w : VReg) (ka kb : Bool) (z : BitVec 2) (p : Place),
    let id := s.me.taskId
    let A := s.me.rdG a
    let B := s.me.rdG b
    (s.goes [.g a ka, .g b kb] → s.acquiring = false →
      ∀ x ∈ ([(2 ^ z.toNat, false, .lnd a b ka kb z), (64, true, .lndV a b ka kb)] : List (Nat × Bool × Instr)),
        (beyond A = false → A.toNat % x.1 = 0 → s.landValid B x.2.1 = false → exec x.2.2 s = .next (s.issued.trap Cause.PERM B)) ∧
        (s.landValid B x.2.1 = true → s.issued.target A x.1 (formUse .read x.1) = (u, .ok p) → u.fillPending p x.1 = false →
          (s.core s.myCore).freeEntries ≠ [] →
          ∃ t, exec x.2.2 s = .next t ∧ posts s t 3 B fun e => .lndRead e id s.me.job p x.1 (s.landOf B) s.me.knows)) ∧
    (s.goes [.g a ka, .g b kb] →
      (s.landValid A false = false → exec (.rput a b ka kb) s = .next (s.issued.trap Cause.PERM A)) ∧
      (s.landValid A false = true → (s.core s.myCore).freeEntries ≠ [] →
        ∃ t, exec (.rput a b ka kb) s = .next t ∧ posts s t 2 A fun e => .landing e id s.me.job (s.landOf A) [B] none)) ∧
    (s.goes [.g a ka, .v w kb] → s.landValid A true = true → (s.core s.myCore).freeEntries ≠ [] →
      ∃ t, exec (.rputV a (w.setWidth 6) ka kb) s = .next t ∧
        posts s t 2 A fun e => .landing e id s.me.job (s.landOf A) ((List.range 8).map fun i => s.me.rdE w i) none)

/-- The accesses with one address, their sources, the address and its alignment. -/
def addressForms (s : State) (d a b : GReg) (v : VReg) (m : MReg) (w ka kb : Bool) (i : BitVec 12) (o : BitVec 10) (z : BitVec 2) :
    List (Instr × List Src × Word × Nat) :=
  let imm (n : Nat) : Word := s.me.rdG a + BitVec.ofInt 64 (i.toInt * n)
  let vea : Word := s.me.rdG a + BitVec.ofInt 64 (o.toInt * 64)
  let n : Nat := if w then 8 else 4
  [(.ld8 d a ka i, [.g a ka], imm 1, 1), (.ld16 d a ka i, [.g a ka], imm 2, 2), (.ld32 d a ka i, [.g a ka], imm 4, 4),
   (.ld64 d a ka i, [.g a ka], imm 8, 8), (.st8 d a ka i, [.g d ka, .g a ka], imm 1, 1),
   (.st16 d a ka i, [.g d ka, .g a ka], imm 2, 2), (.st32 d a ka i, [.g d ka, .g a ka], imm 4, 4),
   (.st64 d a ka i, [.g d ka, .g a ka], imm 8, 8),
   (.lnd a b ka kb z, [.g a ka, .g b kb], s.me.rdG a, 2 ^ z.toNat), (.lndV a b ka kb, [.g a ka, .g b kb], s.me.rdG a, 64),
   (.pst d a b ka kb z, [.g d ka, .g a ka, .g b kb], s.me.rdG a, 2 ^ z.toNat),
   (.vld v a m ka o, (if m ≠ 0 then [.v v ka] else []) ++ [.m m ka, .g a ka], vea, 64),
   (.vst v a m ka o, [.v v ka, .m m ka, .g a ka], vea, 64),
   (.amoSwap w d a b ka kb, [.g a ka, .g b kb], s.me.rdG a, n), (.amoCas w d a b ka kb, [.g d ka, .g a ka, .g b kb], s.me.rdG a, n),
   (.amoIncw w d a ka, [.g d ka, .g a ka], s.me.rdG a, n), (.amoAddb w d a b ka kb, [.g d ka, .g a ka, .g b kb], s.me.rdG a, n),
   (.amoFadd d a b ka kb, [.g a ka, .g b kb], s.me.rdG a, 4)]

/-- Addresses that trap (R200, R202): with sources full and no acquire outstanding, an address with a bit of [63:57] set traps with
PERM, and another that is no multiple of the access's size traps with ALIGN; the address is the `tval`. Neither has another
effect than the trap. -/
def Obligations.AddressTraps : Prop :=
  ∀ (s : State) (d a b : GReg) (v : VReg) (m : MReg) (w ka kb : Bool) (i : BitVec 12) (o : BitVec 10) (z : BitVec 2),
    s.acquiring = false → ∀ x ∈ addressForms s d a b v m w ka kb i o z, s.goes x.2.1 →
      (x.2.2.1.toNat / 2 ^ 57 ≠ 0 → exec x.1 s = .next (s.issued.trap Cause.PERM x.2.2.1)) ∧
      (x.2.2.1.toNat / 2 ^ 57 = 0 → x.2.2.1.toNat % x.2.2.2 ≠ 0 → exec x.1 s = .next (s.issued.trap Cause.ALIGN x.2.2.1))

/-- The cause and address of the lowest element that traps. -/
def firstTrap (es : List (Nat × Word × Target)) : Option (Byte × Word) :=
  es.findSome? fun e => match e.2.2 with
    | .trap c => some (c, e.2.1)
    | _ => none

/-- Vector loads and gathers (R226, R227). The lowest element that fails traps for all. Where every unmasked element has an open
place, each of these elements of v d is empty from then on, and one message for each is under way in element order: the
reply with what was read, of an element in the own core's scratchpad or the own tile's banks; else the read, or the reply of a
line that the L1 holds. Elements that are masked off, and all else, stay; with no element unmasked the instruction only goes on.
A fill of the bytes that is queued blocks it. What a local element reads follows log 9, as for the scalar loads. -/
def vectorLoadsRule : Prop :=
  ∀ (s : State) (d : VReg) (b : GReg) (m : MReg) (ka : Bool) (o : BitVec 10),
    let base := s.me.rdG b + BitVec.ofInt 64 (o.toInt * 64)
    let id := s.me.taskId
    let on : List Nat := (List.range 8).filter fun i => (s.me.rdM m).getLsbD i
    let vd : List Src := if m ≠ 0 then [.v d ka] else []
    s.acquiring = false →
    ∀ x ∈ ([(.vld d b m ka o, vd ++ [.m m ka, .g b ka], fun i => base + BitVec.ofNat 64 (8 * i)),
            (.vgath d b m ka o, vd ++ [.v (d + 1) ka, .m m ka, .g b ka], fun i => base + s.me.rdE (d + 1) i)] :
            List (Instr × List Src × (Nat → Word))),
      s.goes x.2.1 → (x.1 = .vld d b m ka o → base.toNat / 2 ^ 57 = 0 ∧ base.toNat % 64 = 0) →
      let u := (s.issued.targets (vmUse .read) (on.map fun i => (i, x.2.2 i))).1
      let es := (s.issued.targets (vmUse .read) (on.map fun i => (i, x.2.2 i))).2
      (∀ c va, firstTrap es = some (c, va) → exec x.1 s = .next (u.trap c va)) ∧
      ((∀ e ∈ es, ∃ p, e.2.2 = .ok p) → (∃ e ∈ es, ∃ p, e.2.2 = .ok p ∧ u.fillPending p 8 = true) →
        ∃ t, exec x.1 s = .next t ∧ waits s t) ∧
      ((∀ e ∈ es, ∃ p, e.2.2 = .ok p ∧ u.fillPending p 8 = false ∧ (p.isLocal s.myCore = false ∨ openNow s u p 8)) →
        ∃ (t : State) (ms : List Msg), exec x.1 s = .next t ∧ t.net = s.net ++ ms ∧ ms.length = on.length ∧
          (∀ (i : Nat) (e : Msg), ms[i]? = some e → ∃ j p, es[i]? = some (j, x.2.2 j, Target.ok p) ∧
            (p.isLocal s.myCore = true → ∃ r, e = .reply id (.v d (BitVec.ofNat 3 j)) r none none ∧ readsLocal s p 8 r) ∧
            (p.isLocal s.myCore = false → e = .read id s.me.job p 8 (.v d (BitVec.ofNat 3 j)) s.me.knows ∨
              ∃ pa l, p = .dev pa ∧ u.l1Line s.myCore pa (tagOf s.me.job) = some l ∧
                e = .reply id (.v d (BitVec.ofNat 3 j)) (.ok (leWord ((l.bytes.drop (pa % 64)).take 8))) none none)) ∧
          (∀ i, i < 8 → (s.me.rdM m).getLsbD i = true → t.me.vFull.getLsbD (8 * d.toNat + i) = false) ∧
          (∀ i, i < 8 → (s.me.rdM m).getLsbD i = false → t.me.vecReg d i = s.me.vecReg d i) ∧
          (∀ r e, e < 8 → r ≠ d → t.me.vecReg r e = s.me.vecReg r e) ∧ (∀ r, t.me.genReg r = s.me.genReg r) ∧
          (∀ r, t.me.maskReg r = s.me.maskReg r) ∧ t.me.specials = s.me.specials ∧ t.me.vfx = s.me.vfx ∧
          s.me.wentOn t.me ∧ t.me.state = .running ∧ s.sameBytes t ∧ t.cores = s.cores)

/-- The writes of a vector store: a full vector as one of 64 bytes, else each unmasked element with its place. -/
def vectorWrites (es : List (Nat × Word × Target)) (place : Target → Option Place) (bytes : Nat → List Byte) : List (Place × List Byte) :=
  let ps := es.filterMap fun e => (place e.2.2).map fun p => (e.1, p)
  if ps.length = 8 then (ps.head?.map fun x => (x.2, (List.range 8).flatMap bytes)).toList else ps.map fun x => (x.2, bytes x.1)

def okPlace : Target → Option Place
  | .ok p => some p
  | _ => none
def ownPlace : Target → Option Place
  | .own p => some p
  | _ => none

/-- `vst` (R226, R228), on the unmasked elements of one line. With none it only goes on. In the own tile it writes them at once, byte
for byte, and nothing else, where no counter lies. Elsewhere it posts them with one journal entry of kind 6, a full vector as one
write of 64 bytes, and changes no byte before they are performed; on a host-owned page that entry parks with them under OWN
(R124). Without a free entry it blocks. -/
def vstRule : Prop :=
  ∀ (s : State) (d : VReg) (b : GReg) (m : MReg) (ka : Bool) (o : BitVec 10),
    let base := s.me.rdG b + BitVec.ofInt 64 (o.toInt * 64)
    let id := s.me.taskId
    let on : List Nat := (List.range 8).filter fun i => (s.me.rdM m).getLsbD i
    let u := (s.issued.targets (vmUse .write) (on.map fun i => (i, base + BitVec.ofNat 64 (8 * i)))).1
    let es := (s.issued.targets (vmUse .write) (on.map fun i => (i, base + BitVec.ofNat 64 (8 * i)))).2
    let bytes (i : Nat) : List Byte := leBytes (s.me.rdE d i).toNat 8
    let ws := vectorWrites es okPlace bytes
    let owned := vectorWrites es ownPlace bytes
    s.acquiring = false → s.goes [.v d ka, .m m ka, .g b ka] → base.toNat / 2 ^ 57 = 0 → base.toNat % 64 = 0 →
    (∀ c va, firstTrap es = some (c, va) → exec (.vst d b m ka o) s = .next (u.trap c va)) ∧
    (on = [] → ∃ t, exec (.vst d b m ka o) s = .next t ∧ t.net = s.net ∧ t.cores = s.cores ∧ s.me.sameRegs t.me ∧ s.me.wentOn t.me ∧
      s.sameBytes t) ∧
    (on ≠ [] → (∀ e ∈ es, ∃ p, e.2.2 = .ok p ∧ openNow s u p 8 ∧ noCounter s p 8) →
      ∃ t, exec (.vst d b m ka o) s = .next t ∧ (∀ w ∈ ws, t.localBytes w.1 w.2.length = w.2) ∧
        (∀ q, (∀ w ∈ ws, w.1.overlaps w.2.length q 1 = false) → t.byteAt q = s.byteAt q) ∧
        t.net = s.net ∧ t.cores = s.cores ∧ s.me.sameRegs t.me ∧ s.me.wentOn t.me) ∧
    (on ≠ [] → (∀ e ∈ es, ∃ p, e.2.2 = .ok p ∧ p.isLocal s.myCore = false) →
      ((s.core s.myCore).freeEntries = [] → ∃ t, exec (.vst d b m ka o) s = .next t ∧ waits s t) ∧
      ((s.core s.myCore).freeEntries ≠ [] → ∃ t w, w.knows = s.me.knows ∧ exec (.vst d b m ka o) s = .next t ∧
        postsAll s t 6 base fun e => ws.map fun x => .store e id s.me.job x.1 x.2 false none w)) ∧
    (on ≠ [] → (∀ e ∈ es, ∃ p, e.2.2 = .own p ∧ p.isLocal s.myCore = false) → (s.core s.myCore).freeEntries ≠ [] →
      ∃ t, exec (.vst d b m ka o) s = .next t ∧ postsAll s t 6 base (fun _ => []) ∧
        (t.parks.drop s.parks.length).map (fun p => (p.own, p.job, p.va)) = owned.map fun _ => (true, s.me.job, base))

/-- `vscat` (R226, R228): local, remote and host-owned elements in any mixture. Each unmasked element that is not local takes a journal
entry of kind 7, all of them free before the first is taken, and its write of 8 bytes leaves in element order, or parks under OWN
on a host-owned page; a local one is in place at once where no other overlaps it. No other byte changes, where no counter lies. With
too few entries free it blocks. -/
def vscatRule : Prop :=
  ∀ (s : State) (d : VReg) (b : GReg) (m : MReg) (ka : Bool) (o : BitVec 10),
    let base := s.me.rdG b + BitVec.ofInt 64 (o.toInt * 64)
    let id := s.me.taskId
    let on : List Nat := (List.range 8).filter fun i => (s.me.rdM m).getLsbD i
    let u := (s.issued.targets (vmUse .write) (on.map fun i => (i, base + s.me.rdE (d + 1) i))).1
    let es := (s.issued.targets (vmUse .write) (on.map fun i => (i, base + s.me.rdE (d + 1) i))).2
    let bytes (i : Nat) : List Byte := leBytes (s.me.rdE d i).toNat 8
    let here (p : Place) : Bool := p.isLocal s.myCore
    let near : List (Nat × Place) := es.filterMap fun e => (okPlace e.2.2).bind fun p => if here p then some (e.1, p) else none
    let far : List (Nat × Place) := es.filterMap fun e => (okPlace e.2.2).bind fun p => if here p then none else some (e.1, p)
    let owned : List (Nat × Place) := es.filterMap fun e => (ownPlace e.2.2).map fun p => (e.1, p)
    s.acquiring = false → s.goes [.v d ka, .v (d + 1) ka, .m m ka, .g b ka] →
    (∀ c va, firstTrap es = some (c, va) → exec (.vscat d b m ka o) s = .next (u.trap c va)) ∧
    ((∀ e ∈ es, ∃ p, (e.2.2 = .ok p ∧ (here p = false ∨ openNow s u p 8 ∧ noCounter s p 8)) ∨ (e.2.2 = .own p ∧ here p = false)) →
      ((s.core s.myCore).freeEntries.length < far.length + owned.length → ∃ t, exec (.vscat d b m ka o) s = .next t ∧ waits s t) ∧
      (far.length + owned.length ≤ (s.core s.myCore).freeEntries.length →
        ∃ (t : State) (ms : List Msg), exec (.vscat d b m ka o) s = .next t ∧ t.net = s.net ++ ms ∧ ms.length = far.length ∧
          (∀ (i : Nat) (e : Msg), ms[i]? = some e → ∃ j p from_ w, far[i]? = some (j, p) ∧ e = .store from_ id s.me.job p (bytes j) false none w) ∧
          t.parks.length = s.parks.length + owned.length ∧
          (t.core s.myCore).freeEntries.length + far.length + owned.length = (s.core s.myCore).freeEntries.length ∧
          (∀ x ∈ near, (∀ y ∈ near, y ≠ x → x.2.overlaps 8 y.2 8 = false) → t.localBytes x.2 8 = bytes x.1) ∧
          (∀ q, (∀ x ∈ near, x.2.overlaps 8 q 1 = false) → t.byteAt q = s.byteAt q) ∧ s.me.sameRegs t.me ∧ s.me.wentOn t.me))

/-- Vector loads and stores. -/
def Obligations.VectorMemory : Prop := vectorLoadsRule ∧ vstRule ∧ vscatRule

/-- Fences and prefetch (R229, R230, R231, R232). `fence.p` goes on just when no journal entry of the task is left, `fence.r` when
every write of the task is performed; until then they block and are evaluated again. `fence.a` goes on once no acquiring
`cpoll` is unanswered, and then widens the task's last acquire, which it uses up. A prefetch never traps, parks or changes a
register or a byte. -/
def Obligations.FencesAndPrefetch : Prop :=
  ∀ (s : State) (d a : GReg) (ka : Bool) (i : BitVec 12) (z : BitVec 2),
    let waits (x : Instr) : Prop := ∃ t, exec x s = .next t ∧ s.onlyMe t ∧ t.me.state = .waiting ∧ t.me.wait = .retry ∧ t.me.pc = s.me.pc
    (s.entriesOf s.me.taskId = false → exec .fenceP s = .next (s.does fun f => f)) ∧ (s.entriesOf s.me.taskId = true → waits .fenceP) ∧
    (s.writesDone s.me.taskId = true → exec (.fenceR z) s = .next (s.does fun f => f)) ∧
    (s.writesDone s.me.taskId = false → waits (.fenceR z)) ∧
    (s.acquiring = false → s.me.acq = none → exec (.fenceA z) s = .next (s.does fun f => f)) ∧
    (s.acquiring = false → s.me.acq ≠ none → ∃ t, exec (.fenceA z) s = .next t ∧ t.me.acq = none ∧ s.me.wentOn t.me ∧ s.me.sameRegs t.me ∧
      s.sameBytes t ∧ ∀ k, s.myCore * 2 ^ 36 ≤ k → k < (s.myCore + 1) * 2 ^ 36 → Tab.get? t.mem.l1 k = none) ∧
    (s.goes [.g a ka] → ∃ t, exec (.pf d a ka i) s = .next t ∧ s.me.sameRegs t.me ∧ s.me.wentOn t.me ∧ t.me.state = .running ∧ s.sameBytes t ∧
      t.net = s.net ∧ t.parks = s.parks)

/-- An atomic as it issues: its sources, operation, whether it is posted, operand and second operand. -/
structure AmoForm where
  i      : Instr
  srcs   : List Src
  op     : AmoOp
  posted : Bool
  v      : Word
  d      : Word

/-- The forms of the atomics (R356, R359). -/
def amoForms (s : State) (w : Bool) (d a b : GReg) (ka kb : Bool) (o : BitVec 3) : List AmoForm :=
  let B := s.me.rdG b
  let D := s.me.rdG d
  let alu : List AmoOp := [.add, .and, .or, .xor, .min, .max, .minu, .maxu]
  [⟨.amoAlu w d a b ka kb o, [.g a ka, .g b kb], alu.getD o.toNat .add, decide (d = 0), B, 0⟩,
   ⟨.amoSwap w d a b ka kb, [.g a ka, .g b kb], .swap, decide (d = 0), B, 0⟩,
   ⟨.amoCas w d a b ka kb, [.g d ka, .g a ka, .g b kb], .cas, false, B, D⟩,
   ⟨.amoIncw w d a ka, [.g d ka, .g a ka], .incw, false, 0, D⟩,
   ⟨.amoAddb w d a b ka kb, [.g d ka, .g a ka, .g b kb], .addb, false, B, D⟩] ++
  (if w then [] else [⟨.amoFadd d a b ka kb, [.g a ka, .g b kb], .fadd, decide (d = 0), B, 0⟩])

/-- Data atomics as they issue (R356, R359): to a place that is not on the own core, the posted form (d = g0, where the form allows it)
takes a journal entry of kind 5, and the value-returning form empties g d; either sends the operation with its operands and the
writes that happen before it. On the own core's scratchpad, in a line that is not uncorrectable, the operation is performed at once,
and the old value travels as the reply (when a local value is read: log 9). -/
def atomicsIssueRule : Prop :=
  ∀ (s u : State) (w : Bool) (d a b : GReg) (ka kb : Bool) (o : BitVec 3) (p : Place), s.acquiring = false →
    ∀ x ∈ amoForms s w d a b ka kb o, s.goes x.srcs →
      let n := if w then 8 else 4
      let A := s.me.rdG a
      let id := s.me.taskId
      s.issued.target A n (formUse .both n) = (u, .ok p) → u.fillPending p n = false →
      ((∀ c off, p = .sram c off → c ≠ s.myCore) →
        (x.posted = true → (s.core s.myCore).freeEntries ≠ [] →
          ∃ t wn, wn.knows = s.me.knows ∧ exec x.i s = .next t ∧
            posts s t 5 A fun e => .atomic (some e) id s.me.job p w x.op x.v x.d .none wn) ∧
        (x.posted = false → ∃ t wn, wn.knows = s.me.knows ∧ exec x.i s = .next t ∧
          asks s t d (.atomic none id s.me.job p w x.op x.v x.d (.g d) wn))) ∧
      (∀ off, p = .sram s.myCore off → off + n ≤ 0x10000 → u.pending p n = false → u.localBad p n = false →
        let old := leNat (s.localBytes p n)
        ∃ t, exec x.i s = .next t ∧ s.me.wentOn t.me ∧ s.sameBytesBut t p n ∧
          t.localBytes p n = leBytes ((amoNew x.op (8 * n) old (x.v.toNat % 2 ^ (8 * n)) (x.d.toNat % 2 ^ (8 * n))).getD old) n ∧
          (x.posted = true → t.net = s.net ∧ s.me.sameRegs t.me) ∧
          (x.posted = false → t.net = s.net ++ [.reply id (.g d) (.ok (BitVec.ofNat 64 old)) none none] ∧ s.me.sameRegsBut t.me d))

/-- What an atomic stores (R357, R358), on w-bit values: the new value by operation, or nothing. -/
def atomicValuesRule : Prop :=
  ∀ (n : Nat) (old v d : BitVec n), n = 32 ∨ n = 64 →
    let new (op : AmoOp) : Option (BitVec n) := (amoNew op n old.toNat v.toNat d.toNat).map (BitVec.ofNat n)
    new .add = some (old + v) ∧ new .and = some (old &&& v) ∧ new .or = some (old ||| v) ∧ new .xor = some (old ^^^ v) ∧
    new .min = some (BitVec.ofInt n (min old.toInt v.toInt)) ∧ new .max = some (BitVec.ofInt n (max old.toInt v.toInt)) ∧
    new .minu = some (BitVec.ofNat n (min old.toNat v.toNat)) ∧ new .maxu = some (BitVec.ofNat n (max old.toNat v.toNat)) ∧
    new .swap = some v ∧ new .cas = (if old = d then some v else none) ∧
    new .incw = some (if d.toNat ≤ old.toNat then 0 else old + 1) ∧
    new .addb = (if d.toNat ≤ old.toNat then none else some (BitVec.ofNat n (min (old.toNat + v.toNat) d.toNat)))

/-- Data atomics as they issue, and the value that each leaves (R357–R361). -/
def Obligations.Atomics : Prop := atomicsIssueRule ∧ atomicValuesRule

/-! ## Counters as they issue -/

/-- Counter instructions (R341, R349, R350, R351, R352). With the address checked to a counter's place: an add of 2^63 or more traps with
CWRAP and the increment, with no other effect; else, once an earlier release is done, `cadd` and `cfadd` with d = g0 take a
journal entry of kind 5 and send the add, and `cfadd` with another d empties it; `cpoll`, `cread` and, in service mode, `cset` send
one observation and empty g d; `cwait` sends its wait and the task waits, its instruction not finished. A releasing add carries
its scope, where the task lies, and the writes that happen before it (R354). -/
def Obligations.CountersIssue : Prop :=
  ∀ (s u : State) (d a b : GReg) (ka kb : Bool) (z : BitVec 2) (p : Place), s.acquiring = false →
    let id := s.me.taskId
    let A := s.me.rdG a
    let B := s.me.rdG b
    let quiet := z = 0 ∨ (s.writesDone id = true ∧ s.readsDone id = true)
    (s.goes [.g a ka, .g b kb] →
      ∀ x ∈ ([(.cadd a b ka kb z, CtrUse.add, true), (.cfadd d a b ka kb z, CtrUse.fadd, decide (d = 0))] : List (Instr × CtrUse × Bool)),
        s.issued.counter A x.2.1 = (u, .ok p) →
        (2 ^ 63 ≤ B.toNat → exec x.1 s = .next (u.trap Cause.CWRAP B)) ∧
        (B.toNat < 2 ^ 63 → quiet → x.2.2 = true → (s.core s.myCore).freeEntries ≠ [] →
          ∃ t, exec x.1 s = .next t ∧ posts s t 5 A fun e => .add (.posted e) (some id) s.me.job p B (s.myRel (scScope z))) ∧
        (B.toNat < 2 ^ 63 → quiet → x.2.2 = false →
          ∃ t, exec x.1 s = .next t ∧ asks s t d (.add (.value id (.g d)) (some id) s.me.job p B (s.myRel (scScope z))))) ∧
    (s.goes [.g a ka, .g b kb] → s.issued.counter A .wait = (u, .ok p) →
      (∃ t, exec (.cwait d a b ka kb z) s = .next t ∧
        t.net = s.net ++ [.cwait (.task id ((scScope z).getD .tile) (.g d) s.clk.stepNo) s.me.job p B none] ∧
        t.me.state = .waiting ∧ t.me.wait = .wake s.clk.stepNo p ∧
        t.me.pc = s.me.pc ∧ s.me.sameRegs t.me ∧ s.sameBytes t) ∧
      (∃ t, exec (.cpoll d a b ka kb z) s = .next t ∧ asks s t d (.observe id s.me.job p (.poll (scScope z)) B (.g d)))) ∧
    (s.goes [.g a ka] → s.issued.counter A .wait = (u, .ok p) →
      ∃ t, exec (.cread d a ka) s = .next t ∧ asks s t d (.observe id s.me.job p .read 0 (.g d))) ∧
    (s.me.svc = true → s.goes [.g a ka, .g b kb] → s.issued.counter A .set = (u, .ok p) →
      ∃ t, exec (.cset d a b ka kb) s = .next t ∧ asks s t d (.observe id s.me.job p .set B (.g d)))

/-! ## Envelopes as they issue -/

/-- An envelope as its form makes it (R127, R130): the words of the task, and the sender that the acknowledgement returns to. -/
def envBy (s : State) (hdr w1 : Word) (pl : List Word) (z : BitVec 2) (stamp : Option (Nat × BitVec 16)) (e : Sender) : Env :=
  { hdr := hdr, w1 := w1, pl := pl, sender := e, task := some s.me.taskId, job := s.me.job,
    rel := if z = 0 then none else some (if z = 1 then .tile else if z = 2 then .chip else .domain), svc := s.me.svc,
    stamp := stamp, row := none, stolen := none, knows := s.me.knows }

/-- The hardware fields of a header (R127): origin, job and the low four bits above the reserved ones; the class, the stealing
bit and the low bits stay as the task gave them. -/
def hdrBy (given hdr : Word) (origin : Nat) (job : BitVec 12) : Prop :=
  hdr.extractLsb' 32 2 = BitVec.ofNat 2 origin ∧ hdr.extractLsb' 20 12 = job ∧ hdr.extractLsb' 16 4 = 0 ∧
  hdr.extractLsb' 0 16 = given.extractLsb' 0 16 ∧ hdr.extractLsb' 34 5 = given.extractLsb' 34 5

/-- Sending (R130, R132): with sources full, a destination that may be addressed, the release done and a journal entry free, the
form takes an entry of kind 4 and transmits its envelope, a multicast one packet for each chip of the group's current
version. A destination beyond the tiles or the domain, or a service core outside service mode, traps with PERM and the
header. -/
def Obligations.Sending : Prop :=
  ∀ (s : State) (d a b : GReg) (ka kb : Bool) (z : BitVec 2),
    let H := s.me.rdG a
    let B := s.me.rdG b
    let pl : List Word := (List.range 6).map fun i => if d = 0 then 0 else s.me.rdG (d + BitVec.ofNat 6 i)
    let srcs : List Src := (if d = 0 then [] else (List.range 6).map fun i => .g (d + BitVec.ofNat 6 i) ka) ++ [.g a ka, .g b kb]
    let chip := if H.extractLsb' 53 11 = 0x7FF then s.chip.chipNo else H.extractLsb' 53 11
    let named := H.toNat / 2 ^ 44 % 256 ≤ 175 ∧ chip.toNat < s.chip.nChips ∧ (H.toNat / 2 ^ 39 % 32 = 31 → s.me.svc = true)
    let g := s.group (H.toNat / 2 ^ 44 % 256)
    s.goes srcs →
      (¬named → exec (.send d a b ka kb z) s = .next (s.issued.trap Cause.PERM H)) ∧
      (g.cv = false → exec (.sendg d a b ka kb z) s = .next (s.issued.trap Cause.PERM H)) ∧
      ((s.core s.myCore).freeEntries ≠ [] → (z = 0 ∨ (s.acquiring = false ∧ s.writesDone s.me.taskId = true)) →
        (named → ∃ t hdr, exec (.send d a b ka kb z) s = .next t ∧ hdrBy H hdr 0 s.me.job ∧
          hdr.extractLsb' 53 11 = chip ∧ hdr.extractLsb' 39 14 = H.extractLsb' 39 14 ∧
          posts s t 4 H fun e => .env (envBy s hdr B pl z none e)) ∧
        (g.cv = true → ∃ t hdr, exec (.sendg d a b ka kb z) s = .next t ∧ hdrBy H hdr 1 s.me.job ∧
          postsAll s t 4 H fun e => (s.chip.chipNo :: s.farChips g.curM).map fun c =>
            .group (envBy s (putFld hdr 53 11 c.toNat) B pl z (some (H.toNat / 2 ^ 44 % 256, g.cur)) e))) ∧
      ((s.core s.myCore).freeEntries ≠ [] → s.acquiring = false → s.writesDone s.me.taskId = true →
        ∃ t hdr, exec (.spawn d a b ka kb) s = .next t ∧ hdrBy H hdr 2 s.me.job ∧
          hdr.extractLsb' 53 11 = s.chip.chipNo ∧ hdr.extractLsb' 39 5 = BitVec.ofNat 5 (s.myCore % 32) ∧
          posts s t 4 H fun e => .env (envBy s hdr B pl 1 none e))

/-- The handler table (R141): `bind` of a template that passes its checks, with its presets readable, binds the class at the own core, keeps the presets and status 0 comes as the
reply; an entry address that is no multiple of 4 gives status 2 and binds nothing. `unbind` unbinds and gives whether the
class was bound. `clsmask` gives the old mask and sets it to its bits without A, with B. -/
def Obligations.HandlerTable : Prop :=
  ∀ (s u v : State) (d a b : GReg) (ka kb : Bool) (p : Place) (bs : List Byte) (ps : List (Nat × Word × Target)),
    let A := s.me.rdG a
    let B := s.me.rdG b
    let addr := B &&& ~~~63#64
    let tm := Template.ofBytes bs
    let use := formUse .read 8
    let c := s.myCore
    let x := s.core c
    let cls := A.extractLsb' 0 4
    let got (e : Nat × Word × Target) : List Byte := match e.2.2 with
      | .ok q => (match v.placeBytes s.me.job q 16 with | .bytes l => l | .err _ => [])
      | _ => []
    (s.goes [.g a ka, .g b kb] → s.acquiring = false →
      (A.toNat % 4 ≠ 0 → ∃ t, exec (.bind d a b ka kb) s = .next t ∧ asks s t d (.reply s.me.taskId (.g d) (.ok 2) none none)) ∧
      (A.toNat % 4 = 0 → s.issued.target addr 8 use = (u, .ok p) → u.placeBytes s.me.job p 48 = .bytes bs →
        u.targets use ((List.range tm.npre.toNat).map fun i => (i, addr + tm.preoff.setWidth 64 + BitVec.ofNat 64 (16 * i))) = (v, ps) →
        (∀ e ∈ ps, ∃ q l, e.2.2 = .ok q ∧ v.placeBytes s.me.job q 16 = .bytes l) →
        tm.ok (ps.map fun e => leNat ((got e).take 1)) = true → tm.pinned = false →
        ∃ t, exec (.bind d a b ka kb) s = .next t ∧ t.net = s.net ++ [.reply s.me.taskId (.g d) (.ok 0) none none] ∧
          (t.core c).handler (B.extractLsb' 2 4) =
            { bound := true, entry := A, tmpl := tm, taddr := addr, prio := B.extractLsb' 0 2,
              presets := ps.map fun e => (leNat ((got e).take 1), leWord ((got e).drop 8)) } ∧
          (∀ k, k ≠ B.extractLsb' 2 4 → (t.core c).handler k = x.handler k) ∧ s.me.sameRegsBut t.me d ∧ s.me.wentOn t.me ∧ s.sameBytes t)) ∧
    (s.goes [.g a ka] →
      ∃ t, exec (.unbind d a ka) s = .next t ∧ t.me = (s.gives d (if (x.handler cls).bound then 1 else 0)).me ∧
        ((t.core c).handler cls).bound = false ∧ (∀ k, k ≠ cls → (t.core c).handler k = x.handler k) ∧ s.sameBytes t) ∧
    (s.goes [.g a ka, .g b kb] →
      ∃ t, exec (.clsmask d a b ka kb) s = .next t ∧ t.me = (s.gives d (x.mask.setWidth 64)).me ∧
        (∀ n, n < 16 → (t.core c).mask.getLsbD n = ((x.mask.getLsbD n && !A.getLsbD n) || B.getLsbD n)) ∧ s.sameBytes t)

/-! ## A task's own frame -/

/-- `arm` and `live` (R155): each goes on to the next word with nothing changed but these bits: an armed register or element is
empty, not poisoned and live, the others keep presence and liveness; `arm.v` with no element named takes all eight; g0 and m0 are
never armed; `live` sets the live set of its class. Values stay. -/
def armAndLiveRule : Prop :=
  ∀ (s : State) (a b : GReg) (ka kb : Bool) (y : BitVec 2),
    let A := s.me.rdG a
    let B := s.me.rdG b
    let el (e : Nat) : Bool := decide (B.toNat % 256 = 0) || B.getLsbD e
    (s.goes [.g a ka] →
      (∃ full poison live : BitVec 64,
        exec (.armG a ka) s = .next (s.does fun f => { f with gFull := full, gPoison := poison, gLive := live }) ∧
        ∀ r : Nat, r < 64 → (full.getLsbD r, poison.getLsbD r, live.getLsbD r) =
          if r ≠ 0 ∧ A.getLsbD r = true then (false, false, true) else (s.me.gFull.getLsbD r, s.me.gPoison.getLsbD r, s.me.gLive.getLsbD r)) ∧
      (∃ full poison live : BitVec 8,
        exec (.armM a ka) s = .next (s.does fun f => { f with mFull := full, mPoison := poison, mLive := live }) ∧
        ∀ r : Nat, r < 8 → (full.getLsbD r, poison.getLsbD r, live.getLsbD r) =
          if r ≠ 0 ∧ A.getLsbD r = true then (false, false, true) else (s.me.mFull.getLsbD r, s.me.mPoison.getLsbD r, s.me.mLive.getLsbD r)) ∧
      (y = 0 → ∃ live : BitVec 64, exec (.live a ka y) s = .next (s.does fun f => { f with gLive := live }) ∧
        ∀ r : Nat, r < 64 → live.getLsbD r = (decide (r ≠ 0) && A.getLsbD r)) ∧
      (y = 1 → ∃ live : BitVec 32, exec (.live a ka y) s = .next (s.does fun f => { f with vLive := live }) ∧
        ∀ r : Nat, r < 32 → live.getLsbD r = A.getLsbD r) ∧
      (y = 2 → ∃ live : BitVec 8, exec (.live a ka y) s = .next (s.does fun f => { f with mLive := live }) ∧
        ∀ r : Nat, r < 8 → live.getLsbD r = (decide (r ≠ 0) && A.getLsbD r))) ∧
    (s.goes [.g a ka, .g b kb] →
      ∃ (full poison : BitVec 256) (live : BitVec 32),
        exec (.armV a b ka kb) s = .next (s.does fun f => { f with vFull := full, vPoison := poison, vLive := live }) ∧
        (∀ r e : Nat, r < 32 → e < 8 → (full.getLsbD (8 * r + e), poison.getLsbD (8 * r + e)) =
          if A.getLsbD r = true ∧ el e = true then (false, false) else (s.me.vFull.getLsbD (8 * r + e), s.me.vPoison.getLsbD (8 * r + e))) ∧
        ∀ r : Nat, r < 32 → live.getLsbD r = (s.me.vLive.getLsbD r || A.getLsbD r))

/-- `myaddr` (R76, R157, R455): it goes on, with the landing address of the task's frame at its origin, with the class, register,
element and counter that the word names, in g d. -/
def myAddressRule : Prop :=
  ∀ (s : State) (d r : GReg) (c y : BitVec 2) (e : BitVec 3),
    ∃ w : Word, exec (.myaddr d r c y e) s = .next (s.gives d w) ∧ w.extractLsb' 62 2 = 2 ∧ w.extractLsb' 0 8 = 0 ∧
      LandAddr.ofWord w = { chip := s.me.origin.chip, die := s.me.origin.die, tile := s.me.origin.tile, core := s.me.origin.core,
                            frame := s.me.origin.frame, gen := s.me.origin.gen, cls := c, reg := r, elem := e, ctr := y }

/-- `yield` (R155, R179, R494): the task is ready at the next word, but it runs on where its job is stopping; its followers
leave it, and nothing else changes. -/
def yieldRule : Prop :=
  ∀ (s : State), ∃ t : State, exec .yield s = .next t ∧ t = { s with frames := t.frames } ∧
    s.me.sameRegs t.me ∧ s.me.wentOn t.me ∧ t.me.wait = .none ∧ t.me.state = (if s.jobHeld s.me.job then .running else .ready) ∧
    ∀ k, k ≠ s.run.cur → t.frame k = match (s.frame k).follow with
      | some (l, _, true) => if l = s.run.cur then { s.frame k with follow := none } else s.frame k
      | _ => s.frame k

/-- `end` (R144, R156, R283, R464): a task at its origin leaves its frame free with the next generation; a guest leaves the
entry that held it free so, and its origin retired; a task in its handler at a service core leaves its entry retired, and a guest there
its own and its origin's; these send a retirement notice to each core whose entry is retired. Its lease of its tile's array ends, what it owns there is being freed, every
other task keeps its registers, and no byte changes. -/
def endRule : Prop :=
  ∀ (s : State), let f := s.me
    let o := f.origin.key
    let t0 := coreOfFrame s.run.cur / 32
    ∃ t, exec .endTask s = .next t ∧ s.sameBytes t ∧
      (f.guest = false → f.atSvc = false → t.me = { Frame.reset with gen := f.gen + 1 }) ∧
      (f.guest = true → f.atSvc = false → o ≠ s.run.cur → t.me = { Frame.reset with gen := f.gen + 1 } ∧ (t.frame o).state = .retired ∧
        Msg.notice o f.origin.gen ∈ t.net) ∧
      (f.guest = true → f.atSvc = true → o ≠ s.run.cur → t.me.state = .retired ∧ t.me.resident = false ∧ f.sameRegs t.me ∧
        (t.frame o).state = .retired ∧ Msg.notice s.run.cur f.origin.gen ∈ t.net ∧ Msg.notice o f.origin.gen ∈ t.net) ∧
      (f.guest = false → f.atSvc = true → t.me.state = .retired ∧ t.me.resident = false ∧ f.sameRegs t.me ∧
        Msg.notice s.run.cur f.origin.gen ∈ t.net) ∧
      (∀ l, (t.array t0).lease = some l → ¬(l.task = o ∧ l.gen = f.origin.gen)) ∧
      (∀ n w, ((t.array t0).acc n).owner = some w → w.key = o → w.gen = f.origin.gen → ((t.array t0).acc n).freeing = true) ∧
      ∀ k, k ≠ s.run.cur → (s.frame k).sameRegs (t.frame k)

/-- What a task does with its own frame (R154–R157): arm and live, its landing address, yield and end. -/
def Obligations.TaskControl : Prop := armAndLiveRule ∧ myAddressRule ∧ yieldRule ∧ endRule

/-! ## Repeats and following -/

/-- `rpt` (R174, R175), in a task that follows none: when every body word can be fetched and may be captured in every iteration, the repeat is open at its first word; a
word that may not be captured traps with ILLEGAL at that word, with the word in `tval`. -/
def repeatOpensRule : Prop :=
  ∀ (s u : State) (sd sa sb : BitVec 3) (n : BitVec 8) (len : BitVec 4) (ws : List IWord) (va : Word) (w : IWord),
    let got := s.issued.capture n.toNat sd.toNat sa.toNat sb.toNat (len.toNat + 1) (s.me.pc + 4) []
    s.me.stream = [] →
    (got = (u, .inl ws) →
      ∃ t, exec (.rpt sd sa sb n len) s = .next t ∧ s.sameBytes t ∧ s.me.sameRegs t.me ∧ ws.length = len.toNat + 1 ∧
        t.me.rpt = some { base := s.me.pc, body := ws, k := 0, j := 0, n := n.toNat, sd := sd.toNat, sa := sa.toNat, sb := sb.toNat } ∧
        t.me.wordAddr = s.me.pc + 4) ∧
    (got = (u, .inr (va, .word w)) → exec (.rpt sd sa sb n len) s = .next (u.trapAt Cause.ILLEGAL (w.setWidth 64) va false))

/-- Repeats (R174, R175): how one opens, and the order of its words. -/
def Obligations.Repeats : Prop := repeatOpensRule ∧ repeatOrderRule

/-- Following (R177, R179, R180): a `fol` whose leader qualifies gives 0, holds the leader's channel and waits to join at the next
word; another gives its status and goes on, following nothing. `unfol` ends the following, with what is left of the leader's
words, gives the task's own channel up and goes on. Words that followers have received stay theirs. -/
def Obligations.Following : Prop :=
  ∀ (s : State) (d a b : GReg) (ka kb : Bool),
    let A := s.me.rdG a
    let B := s.me.rdG b
    let c := s.myTile * 32 + A.toNat % 32
    let k := c * 256 + B.toNat % 256
    (s.goes [.g a ka, .g b kb] →
      (s.folStatus A B = 0 → ∃ t, exec (.fol d a b ka kb) s = .next t ∧ t.me.rdG d = 0 ∧ s.me.wentOn t.me ∧ t.me.state = .waiting ∧ t.me.wait = .join ∧
        t.me.follow = some (k, (s.frame k).gen, false) ∧ (t.core c).stream = some (k, (s.frame k).gen) ∧
        (∀ r, r ≠ d → t.me.genReg r = s.me.genReg r) ∧ s.sameBytes t) ∧
      (s.folStatus A B ≠ 0 → exec (.fol d a b ka kb) s =
        .next (s.does fun f => { f.wrG d (BitVec.ofNat 64 (s.folStatus A B)) with follow := none }))) ∧
    (∃ t, exec .unfol s = .next t ∧ t.me.follow = none ∧ t.me.stream = [] ∧ s.me.wentOn t.me ∧ s.me.sameRegs t.me ∧ s.sameBytes t ∧
      (t.core (coreOfFrame s.run.cur)).stream ≠ some (s.run.cur, s.me.gen) ∧ ∀ j, j ≠ s.run.cur → t.frame j = s.frame j)

/-! ## The array and the engines as they are commanded -/

/-- The command has entered its tile's array queue behind the others, and counts in the lease, once (R278, R285). -/
def enqueued (s t : State) (op : AOp) : Prop :=
  (∃ c, (t.array s.myTile).queue = (s.array s.myTile).queue ++ [c] ∧ c.op = op ∧ c.job = s.me.job ∧ c.task = s.me.origin.key ∧
    c.draining = false ∧ c.read = [] ∧ c.knows = s.me.knows) ∧
  (∃ l m, (s.array s.myTile).lease = some l ∧ (t.array s.myTile).lease = some m ∧ m.task = l.task ∧
    m.count = if s.me.counted then l.count else l.count + 1) ∧ t.me.counted = false ∧
  s.me.sameRegs t.me ∧ s.me.wentOn t.me ∧ s.sameBytes t

/-- The command counts in the lease, once, and waits for room in the queue (R278, R285). -/
def waitsForRoom (s t : State) : Prop :=
  t.me.state = .waiting ∧ t.me.wait = .array ∧ t.me.pc = s.me.pc ∧ t.me.counted = true ∧ s.me.sameRegs t.me ∧ s.sameBytes t ∧
  (t.array s.myTile).queue = (s.array s.myTile).queue ∧
  ∃ l m, (s.array s.myTile).lease = some l ∧ (t.array s.myTile).lease = some m ∧ m.task = l.task ∧
    m.count = if s.me.counted then l.count else l.count + 1

/-- Array commands that do not read memory (R281, R282, R288, R289, R296, R299). With the lease held, the queue not full, and the
accumulator free or the task's own, `mma` (both latch sides loading or loaded, with the scale bytes its pair needs) and
`mzero` claim the accumulator and enter the queue; `mdrain` of an own accumulator enters with its destination. Without the
lease these and the fills trap with LEASE, reason 1, or 2 after a lost lease, whose flag that clears; on an accumulator that is
another's, and for `mdrain` on one that is not the task's, reason 3. `mfree` of an own accumulator waits until it is freed; of another
it only goes on. A command that meets a full queue counts, once, and waits for room. -/
def arrayCommandsRule : Prop :=
  ∀ (s : State) (pr : BitVec 4) (acc : BitVec 2) (lt : BitVec 6) (a b sc : GReg),
    let x := s.array s.myTile
    let l := lt.getLsbD 0
    let scaled : List Src := if sc ≠ 0 then [.g sc false] else []
    let p := pairOf pr
    let fits := (p.sa = true → (x.latch l false).n = needN p.k) ∧ (p.sb = true → (x.latch l true).n = needN p.k)
    let mine (t : State) : Prop := ∃ w, ((t.array s.myTile).acc acc).owner = some w ∧ w.key = s.me.origin.key ∧ w.gen = s.me.origin.gen
    (s.holds = true → x.queue.length < 8 → s.ownedByOther acc = false →
      ((x.latch l false).st ≠ .empty → (x.latch l true).st ≠ .empty → fits →
        ∃ t, exec (.mma pr acc lt) s = .next t ∧ enqueued s t (.mma pr acc l) ∧ mine t) ∧
      (∃ t, exec (.mzero acc) s = .next t ∧ enqueued s t (.mzero acc) ∧ mine t)) ∧
    (s.holds = true → x.queue.length < 8 → s.ownedByMe acc = true → s.goes [.g a false, .g b false] →
      let w := s.me.rdG a
      let g := s.group (w.toNat / 32 % 256)
      (w.getLsbD 4 = false → ∃ t, exec (.mdrain acc a b) s = .next t ∧
        enqueued s t (.mdrain acc (w.extractLsb' 0 4) none [s.myCore] (s.me.rdG b))) ∧
      (w.getLsbD 4 = true → g.cv = true → s.membersHere g.curM ≠ [] → ∃ t, exec (.mdrain acc a b) s = .next t ∧
        enqueued s t (.mdrain acc (w.extractLsb' 0 4) (some (w.toNat / 32 % 256, g.cur)) (s.membersHere g.curM) (s.me.rdG b)))) ∧
    (s.holds = false → ∀ i ∈ ([(.mma pr acc lt, []), (.mzero acc, []), (.mdrain acc a b, [.g a false, .g b false]),
        (.mldA l a b sc, [.g a false, .g b false] ++ scaled), (.mldB l a b sc, [.g a false, .g b false] ++ scaled)] : List (Instr × List Src)),
      s.goes i.2 →
        (s.me.tstat.getLsbD 60 = false → exec i.1 s = .next (s.issued.trap Cause.LEASE 1)) ∧
        (s.me.tstat.getLsbD 60 = true →
          exec i.1 s = .next ((s.issued.updMe fun f => { f with tstat := setBit f.tstat 60 false }).trap Cause.LEASE 2))) ∧
    (s.holds = true → s.ownedByMe acc = false → s.goes [.g a false, .g b false] →
      exec (.mdrain acc a b) s = .next (s.issued.trap Cause.LEASE (BitVec.ofNat 64 (16 * acc.toNat + 3)))) ∧
    (s.holds = true → s.ownedByOther acc = true →
      exec (.mma pr acc lt) s = .next (s.issued.trap Cause.LEASE (BitVec.ofNat 64 (16 * acc.toNat + 3))) ∧
      exec (.mzero acc) s = .next (s.issued.trap Cause.LEASE (BitVec.ofNat 64 (16 * acc.toNat + 3)))) ∧
    (s.ownedByMe acc = false → exec (.mfree acc) s = .next (s.does fun f => f)) ∧
    (s.ownedByMe acc = true → ∃ t, exec (.mfree acc) s = .next t ∧ ((t.array s.myTile).acc acc).freeing = true ∧ t.me.state = .waiting ∧
      t.me.wait = .array ∧ t.me.pc = s.me.pc ∧ s.me.sameRegs t.me ∧ s.sameBytes t) ∧
    (s.holds = true → 8 ≤ x.queue.length →
      (s.ownedByOther acc = false → (x.latch l false).st ≠ .empty → (x.latch l true).st ≠ .empty → fits →
        ∃ t, exec (.mma pr acc lt) s = .next t ∧ waitsForRoom s t) ∧
      (s.ownedByOther acc = false → ∃ t, exec (.mzero acc) s = .next t ∧ waitsForRoom s t) ∧
      (s.ownedByMe acc = true → s.goes [.g a false, .g b false] → (s.me.rdG a).getLsbD 4 = false →
        ∃ t, exec (.mdrain acc a b) s = .next t ∧ waitsForRoom s t))

/-- Leases and the array's words (R287, R306): `mlease` by the holder gives 0; with the lease free, no other request, no command
of an earlier holder reading a latch, and the job running, it is granted at once and gives 0; while another holds it, the form that does not wait
gives 1 and the other waits. `mrel` ends an own lease. `merr` reads a word of the log or the state, and clears the log where
its bit says so. -/
def leasesAndLogRule : Prop :=
  ∀ (s : State) (d b : GReg),
    let x := s.array s.myTile
    let w := s.me.rdG b
    let noMma := ∀ c ∈ x.queue, ∀ p a l, c.op ≠ .mma p a l
    (s.goes [.g b false] →
      (s.holds = true → ∃ t, exec (.mlease d b) s = .next t ∧ t.me.rdG d = 0 ∧ s.me.wentOn t.me ∧ t.me.tstat.getLsbD 60 = false ∧
        (∀ r, r ≠ d → t.me.genReg r = s.me.genReg r) ∧ s.onlyMe t) ∧
      (x.lease = none → x.reqs = [] → noMma → s.agingStopped s.me.job = false → (s.fwdOf s.me.origin.key).isNone → s.me.origin.key = s.run.cur →
        ∃ t, exec (.mlease d b) s = .next t ∧ t.holds = true ∧ t.me.rdG d = 0 ∧ s.me.wentOn t.me ∧ (∀ r, r ≠ d → t.me.genReg r = s.me.genReg r) ∧
          (t.array s.myTile).a0.st = .empty ∧ (t.array s.myTile).a1.st = .empty ∧ (t.array s.myTile).b0.st = .empty ∧ (t.array s.myTile).b1.st = .empty ∧
          s.sameBytes t) ∧
      (x.lease ≠ none → s.holds = false →
        (w.getLsbD 0 = true → ∃ t, exec (.mlease d b) s = .next t ∧ (d ≠ 0 → t.me.rdG d = 1) ∧ s.me.wentOn t.me ∧
          (∀ r, r ≠ d → t.me.genReg r = s.me.genReg r) ∧ (t.array s.myTile).lease = x.lease) ∧
        (w.getLsbD 0 = false → ∃ t r, exec (.mlease d b) s = .next t ∧ t.me.state = .waiting ∧ t.me.wait = .lease d ∧ t.me.pc = s.me.pc ∧
          r ∈ (t.array s.myTile).reqs ∧ r.task = s.me.origin.key ∧ (t.array s.myTile).lease = x.lease)) ∧
      (∃ t, exec (.merr d b) s = .next t ∧ t.me = (s.gives d (x.word (w.toNat % 32))).me ∧ s.sameBytes t ∧
        (w.toNat % 32 = 8 → w.getLsbD 5 = true → (t.array s.myTile).log = [] ∧ (t.array s.myTile).lost = 0 ∧ (t.array s.myTile).sticky = 0) ∧
        ((w.toNat % 32 ≠ 8 ∨ w.getLsbD 5 = false) → t.array s.myTile = x))) ∧
    (∃ t, exec .mrel s = .next t ∧ s.me.wentOn t.me ∧ s.me.sameRegs t.me ∧ s.sameBytes t ∧
      (∀ l, (s.array (coreOfFrame s.run.cur / 32)).lease = some l → l.task = s.me.origin.key → l.gen = s.me.origin.gen →
        (t.array (coreOfFrame s.run.cur / 32)).lease = none))

/-- Fills (R290, R291, R292): with the lease held, the descriptor well-formed, every computed address passed and every earlier write
and read performed, `mld.a` and `mld.b` enter the queue with the addresses and places of their rows and scale bytes, and the latch
side is loading; with the queue full they wait. Row
i of 128 of side A, of 64 of side B, lies 64 × the stride × i from the base; with an index vector, which side A may have, its
entry i counts in place of i. -/
def fillsRule : Prop :=
  ∀ (s u v : State) (l sideB : Bool) (a b sc : GReg) (idx : List Nat) (rows scales : List (Word × Target)),
    let ga := s.me.rdG a
    let lay := s.me.rdG b
    let gs := s.me.rdG sc
    let n := lay.extractLsb' 46 2
    let stride := lay.toNat / 2 ^ 48 % 2 ^ 16
    let sstride := lay.toNat / 2 ^ 32 % 2 ^ 14
    let index := lay.toNat % 2 ^ 32
    let nb := if n = 1 then 2 else 4
    let places (ts : List (Word × Target)) : List (Word × Place) := ts.filterMap fun e => e.2.place?.map fun p => (e.1, p)
    let lines := (s.issued.indexLines index).filterMap Prod.snd
    let i : Instr := if sideB then .mldB l a b sc else .mldA l a b sc
    s.goes ([.g a false, .g b false] ++ (if sc ≠ 0 then [.g sc false] else [])) → s.acquiring = false → s.holds = true →
    ga.toNat % 64 = 0 → n ≠ 3 →
    s.writesDone s.me.taskId = true → s.loadsDone s.me.taskId = true →
    (if sideB = true ∨ index = 0xFFFFFFFF then idx = List.range (if sideB then 64 else 128)
     else (s.issued.indexVector index).2 = .inl idx ∧ s.issued.touchAll lines = (s.issued, true) ∧
       ∀ p ∈ lines, s.issued.pending p 64 = false) →
    s.issued.fillTargets sideB 64 (idx.map fun i => ga + BitVec.ofNat 64 (i * 64 * stride)) = (u, rows) →
    (if n = 0 then (u, []) else u.fillTargets sideB nb (idx.map fun i => gs + BitVec.ofNat 64 (i * sstride))) = (v, scales) →
    (∀ e ∈ rows ++ scales, ∃ p, e.2 = .ok p) →
    ((s.array s.myTile).queue.length < 8 →
      ∃ t, exec i s = .next t ∧ enqueued s t (.fill sideB l n s.me.svc (places rows) (places scales)) ∧
        ((t.array s.myTile).latch l sideB).st = .loading ∧ ((t.array s.myTile).latch l sideB).n = n) ∧
    (8 ≤ (s.array s.myTile).queue.length → ∃ t, exec i s = .next t ∧ waitsForRoom s t)

/-- The array as a task drives it: commands, leases and the log, and fills of latches. -/
def Obligations.ArrayInstructions : Prop := arrayCommandsRule ∧ leasesAndLogRule ∧ fillsRule

/-- Engine commands (R308, R312, R313, R316): with its five descriptor words and counter full, the checks passed, the counter absent or
at place p, a member for a group form, every earlier write and read performed and room in the inbox, a command enters the tile's
engine as queued and its handle, which names tile, core and the core's next number, is given. `xstat` and `xcancel` send
their query. -/
def Obligations.EngineCommands : Prop :=
  ∀ (s u : State) (d a b : GReg) (ka kb : Bool) (p : Place) (ver : BitVec 16) (ms : List Nat),
    let w (i : Nat) : Word := s.me.rdG (a + BitVec.ofNat 6 i)
    let t0 := s.myTile
    let h := engHandle t0 (s.myCore % 32) (s.core s.myCore).engNum.toNat
    (s.goes ((List.range 5).map (fun i => Src.g (a + BitVec.ofNat 6 i) ka) ++ [.g b kb]) →
      s.acquiring = false → s.writesDone s.me.taskId = true → s.readsDone s.me.taskId = true → (s.engine t0).cmds.length < 32 →
      ∀ f, f < 5 →
        let form : BitVec 3 := BitVec.ofNat 3 f
        let i : Instr := match f with
          | 0 => .xcopy d a b ka kb
          | 1 => .xcopyg d a b ka kb
          | 2 => .xgath d a b ka kb
          | 3 => .xscat d a b ka kb
          | _ => .xred d a b ka kb
        descCheck form a.toNat t0 (w 0) (w 1) (w 2) (w 3) (w 4) = none → s.engGroup form (w 2) = some (ver, ms) →
        (s.me.rdG b = 0 ∨ s.issued.counter (s.me.rdG b) .add = (u, .ok p)) →
        ∃ t c, exec i s = .next t ∧ (t.engine t0).cmds = (s.engine t0).cmds ++ [c] ∧ c.handle = h ∧ c.state = .queued ∧ c.form = form ∧
          c.job = s.me.job ∧ c.task = s.me.taskId ∧ [c.w0, c.w1, c.w2, c.w3, c.w4] = [w 0, w 1, w 2, w 3, w 4] ∧ c.members = ms ∧
          c.knows = s.me.knows ∧
          (s.me.rdG b = 0 → c.ctr = none) ∧ (s.me.rdG b ≠ 0 → c.ctr = some p) ∧ (d ≠ 0 → t.me.rdG d = h) ∧ s.me.wentOn t.me ∧
          (t.core s.myCore).engNum = (s.core s.myCore).engNum + 1 ∧ (∀ r, r ≠ d → t.me.genReg r = s.me.genReg r) ∧ s.sameBytes t) ∧
    (s.goes [.g a ka] → s.acquiring = false →
      (∃ t, exec (.xstat d a ka) s = .next t ∧ asks s t d (.engQuery s.me.taskId s.me.job (s.me.rdG a) false (.g d))) ∧
      ((s.me.rdG a).toNat / 2 ^ 32 % 256 ≤ 175 →
        ∃ t, exec (.xcancel d a ka) s = .next t ∧ asks s t d (.engQuery s.me.taskId s.me.job (s.me.rdG a) true (.g d))) ∧
      (175 < (s.me.rdG a).toNat / 2 ^ 32 % 256 → exec (.xcancel d a ka) s = .next (s.issued.trap Cause.PERM (s.me.rdG a))))

/-! ## Control registers, traps, privilege -/

/-- Access to control registers (R60, R66, R68, R79, R437): `csrr` gives the register, but a register of service mode reads 0 outside it;
the writing forms give the register as it was, and write it, with A, with its bits set, with its bits cleared; they trap with PERM on a
register of service mode outside it, once the source is full. The `tval` of that trap is the instruction's address, which is the
model's choice (log 15). -/
def controlInstructionsRule : Prop :=
  ∀ (s : State) (d a : GReg) (ka : Bool) (c : BitVec 12),
    let A := s.me.rdG a
    let old := s.issued.csrValue c
    let service : Bool := decide (c = 0x010) || decide (c = 0x011) || decide (c = 0x020) || decide (c = 0x021) || decide (c = 0x022) || decide (c = 0x023)
    let wrote (i : Instr) (v : Word) : Prop := exec i s = .next ((s.issued.csrWrite c v).retG d old)
    exec (.csrr d c) s = .next (s.gives d (if service = true ∧ s.me.svc = false then 0 else old)) ∧
    (s.goes [.g a ka] → (service = false ∨ s.me.svc = true) →
      wrote (.csrw d a ka c) A ∧ wrote (.csrset d a ka c) (old ||| A) ∧ wrote (.csrclr d a ka c) (old &&& ~~~A)) ∧
    (s.goes [.g a ka] → service = true → s.me.svc = false →
      ∀ i ∈ ([.csrw d a ka c, .csrset d a ka c, .csrclr d a ka c] : List Instr),
        exec i s = .next (s.issued.trap Cause.PERM s.me.wordAddr))

/-- What a write of a control register keeps (R79, R237, R242, R424, R425, R502): `fcsr` keeps fz and an rm of 0 to 4, an rm of 5 to 7
leaves rm; `vfxlo` and `vfxhi` keep bits [4:0] of each byte; `cause` its nine low bits; `epc` all but the low two; `tval` all; the
seeing accumulators all; `tstat`, `capbase`, `cycle` and `dtime` are read-only. Memory bytes and general registers stay. -/
def controlFieldsRule : Prop :=
  ∀ (s : State) (v : Word),
    let read (c : BitVec 12) : Word := (s.csrWrite c v).csrValue c
    read 0x000 = BitVec.ofNat 64 (8 * (v.toNat / 8 % 2) + (if v.toNat % 8 ≤ 4 then v.toNat % 8 else s.me.fcsr.toNat % 8)) ∧
    read 0x001 = v &&& 0x1F1F1F1F1F1F1F1F ∧ read 0x002 = v &&& 0x1F1F1F1F1F1F1F1F ∧
    (s.csrWrite 0x001 v).csrValue 0x002 = s.csrValue 0x002 ∧ (s.csrWrite 0x002 v).csrValue 0x001 = s.csrValue 0x001 ∧
    read 0x020 = BitVec.ofNat 64 (v.toNat % 512) ∧ read 0x021 = BitVec.ofNat 64 (v.toNat / 4 * 4) ∧ read 0x022 = v ∧
    (∀ k, k < 64 → read (BitVec.ofNat 12 (0x100 + k)) = v) ∧
    s.csrWrite 0x023 v = s ∧ s.csrWrite 0x030 v = s ∧ s.csrWrite 0x040 v = s ∧ s.csrWrite 0x041 v = s ∧
    (∀ r c, c ∈ ([0x000, 0x001, 0x002, 0x020, 0x021, 0x022] : List (BitVec 12)) → (s.csrWrite c v).me.genReg r = s.me.genReg r ∧ s.sameBytes (s.csrWrite c v))

/-- The control registers: their instructions and the fields each write keeps. -/
def Obligations.ControlRegisters : Prop := controlInstructionsRule ∧ controlFieldsRule

/-- A handler may start: none runs in the frame, the tile's vector is valid, the frame is on a service core or has a forwarding entry
or room for one (R430, R456). -/
def mayTrap (s : State) : Prop :=
  s.me.handling = false ∧ s.me.atSvc = false ∧ (s.tile (coreOfFrame s.run.cur / 32)).tvec.getLsbD 63 = true ∧
  (coreOfFrame s.run.cur % 32 = 31 ∨ s.me.guest = true ∨ (s.core (coreOfFrame s.run.cur)).fwdUsed < 64)

/-- What taking a trap leaves (R426, R430, R431). -/
def trapped (s t : State) (cause tval epc : Word) : Prop :=
  t.me.cause = cause ∧ t.me.tval = tval ∧ t.me.epc = epc &&& ~~~3#64 ∧
  t.me.tstat.getLsbD 63 = true ∧ t.me.tstat.getLsbD 62 = true ∧ t.me.tstat.getLsbD 61 = s.me.tstat.getLsbD 62 ∧
  t.me.pc = BitVec.ofNat 64 (4 * ((s.tile (coreOfFrame s.run.cur / 32)).tvec.toNat / 4 % 2 ^ 55)) ∧
  t.me.state = (if t.me.resident then .running else .ready) ∧ t.me.wait = .none ∧ t.me.rpt = none ∧
  ((if coreOfFrame s.run.cur % 32 = 31 then s.me.resident = true
    else (s.residents (32 * (coreOfFrame s.run.cur / 32) + 31)).length < 16) → t.me.resident = true) ∧
  (t.me.atSvc = true ↔ coreOfFrame s.run.cur % 32 ≠ 31) ∧
  t.me.rdG 60 = imageAddr s.run.cur ∧ t.me.rdG 61 = cause ∧ (∀ r, r ≠ 60 → r ≠ 61 → t.me.genReg r = s.me.genReg r) ∧
  (∀ r e, t.me.vecReg r e = s.me.vecReg r e) ∧ (∀ r, t.me.maskReg r = s.me.maskReg r) ∧ t.me.vfx = s.me.vfx ∧ t.me.fcsr = s.me.fcsr ∧
  t.savedWord s.run.cur 0 = s.me.rawG 60 ∧ t.savedWord s.run.cur 8 = s.me.rawG 61

/-- Taking a trap (R428, R430, R431, R435, R503, R65, R432): `svc` traps with cause 0x0E, A in `tval` and the next word in `epc`; `brk` with 0x0F
and its code, an illegal word with 0x01 and the word, both with their own address; a due asynchronous trap with its pending
cause, bit 8 of `cause` set, before the next word. The frame runs, unless the service core has no free slot and it waits, ready, for one (log 64). `cause`, `epc`, `tval` and the old service mode are recorded, the handler runs
in service mode at the tile's vector on the service core, g60 and g61 hold the image address and the cause after their old values
went to the save area, and every other register is as before. -/
def trapEntryRule : Prop :=
  ∀ (s : State) (a : GReg) (ka : Bool) (c : BitVec 25) (w : IWord) (p : Pend) (ps : List Pend), mayTrap s →
    (s.goes [.g a ka] → ∃ t, exec (.svc a ka) s = .next t ∧ trapped s t 0x0E (s.me.rdG a) (s.me.wordAddr + 4)) ∧
    (∃ t, exec (.brk c) s = .next t ∧ trapped s t 0x0F (c.setWidth 64) s.me.wordAddr) ∧
    (∃ t, exec (.illegalInstruction w) s = .next t ∧ trapped s t 0x01 (w.setWidth 64) s.me.wordAddr) ∧
    (s.asyncDue s.run.cur = true → s.me.pend = p :: ps →
      ∃ t, exec .asynchronousTrap s = .next t ∧ t.me.pend = ps ∧ trapped s t (0x100 + p.cause.setWidth 64) p.tval s.me.wordAddr)

/-- A double trap, or a trap with no valid vector, is fatal (R433): the frame stays parked with the new cause and is never replayed, its
registers and the save area stay, and the job's fatal fault is reported to the front end, with the frame's address. -/
def doubleTrapRule : Prop :=
  ∀ (s : State) (w : IWord), s.me.handling = true ∨ (s.tile (coreOfFrame s.run.cur / 32)).tvec.getLsbD 63 = false →
    ∃ t, exec (.illegalInstruction w) s = .next t ∧ t.me.state = .parked ∧ t.me.wait = .halted ∧ t.me.cause = 0x01 ∧
      t.me.tval = w.setWidth 64 ∧ Msg.fatal s.me.job 0x01 (some (imageAddr s.run.cur)) ∈ t.net ∧ (∀ r, t.me.genReg r = s.me.genReg r) ∧ t.me.tstat = s.me.tstat ∧ s.sameBytes t

/-- Taking an exception (R428–R433), and a trap inside a handler or without a vector. -/
def Obligations.Traps : Prop := trapEntryRule ∧ doubleTrapRule

/-- Returning from a trap (R436): in service mode in a handler, `tret` goes to `epc` with the service mode that was recorded, g60 and g61
from the save area, no handler running, the record of a repeat and of a guest cleared, back at the frame's own core, where it runs, or
waits, ready, for a slot (log 64); every other register is as the handler left it. A frame that comes back from a service core holds no lease of
the array (R277). In a frame with no handler it is illegal. -/
def Obligations.TrapReturn : Prop :=
  ∀ (s : State), s.me.svc = true →
    (s.me.handling = true → (s.me.atSvc = true → coreOfFrame s.run.cur % 32 ≠ 31) →
      ∃ t, exec .tret s = .next t ∧ t.me.pc = s.me.epc ∧ t.me.tstat.getLsbD 63 = false ∧ t.me.tstat.getLsbD 62 = s.me.tstat.getLsbD 61 ∧
        t.me.tstat.getLsbD 61 = false ∧ t.me.tstat.getLsbD 59 = false ∧ t.me.tstat.getLsbD 41 = false ∧ t.me.atSvc = false ∧
        t.me.state = (if t.me.resident then .running else .ready) ∧
        (s.me.atSvc = false ∨ (s.residents (coreOfFrame s.run.cur)).length < 8 → t.me.resident = true) ∧ t.me.rdG 60 = s.savedWord s.run.cur 0 ∧ t.me.rdG 61 = s.savedWord s.run.cur 8 ∧
        (∀ r, r ≠ 60 → r ≠ 61 → t.me.genReg r = s.me.genReg r) ∧ (∀ r e, t.me.vecReg r e = s.me.vecReg r e) ∧
        (s.me.atSvc = true → ∀ l, (t.array (coreOfFrame s.run.cur / 32)).lease = some l →
          ¬(l.task = s.me.origin.key ∧ l.gen = s.me.origin.gen)) ∧
        (∀ r, t.me.maskReg r = s.me.maskReg r) ∧ s.sameBytes t) ∧
    (s.me.handling = false → exec .tret s = .next (s.issued.trap Cause.ILLEGAL 0xE8000001))

/-- Privileged forms outside service mode trap with PERM before their sources are looked at (R66, R68), whatever their presence. The
`tval` is the instruction's address, which is the model's choice (log 15). -/
def Obligations.Privilege : Prop :=
  ∀ (s : State) (d a b : GReg) (ka kb : Bool), s.me.svc = false →
    ∀ i ∈ ([.cset d a b ka kb, .tret, .tlbinv a b ka kb, .tlbinvAll a ka, .tlbprobe d a b ka kb, .tlbreplayAll] : List Instr),
      exec i s = .next (s.trap Cause.PERM s.me.wordAddr)

/-- An instruction-cache line of what an invalidation names: everything, a job, or a page of a job that the line records (R173, R449). -/
def named (v : Inv) (l : CLine) : Prop :=
  match v with
  | .all => True
  | .job j => l.owner = some (tagOf j)
  | .page va j => l.owner = some (tagOf j) ∧ l.page = some (va.toNat / 2 ^ 26 % 2 ^ 31)

/-- What an invalidation removes and leaves (R449): of TLB entries and instruction-cache lines those it covers, no others of the TLBs. -/
def invalidated (s t : State) (v : Inv) : Prop :=
  (∀ e, e ∈ t.chip.tlb ↔ e ∈ s.chip.tlb ∧ v.covers e = false) ∧ t.chip = { s.chip with tlb := t.chip.tlb } ∧
  (∀ p ∈ t.mem.icache, p ∈ s.mem.icache ∧ ¬named v p.2) ∧ s.sameBytes t

/-- Invalidations (R173, R449): `tlbinv` of a page of a job, `tlbinv.all` of a job or of all. In service mode, once every earlier write of
the task is performed, the entries and lines it covers are gone; with no access of the jobs it covers under way, it goes on, with
nothing else changed but a refused pin's count; else it waits, and when the accesses that were under way have been performed, goes on. That it waits for every access of these jobs, not
only for those through a removed entry, is the model's choice (log 34). -/
def invalidationRule : Prop :=
  ∀ (s : State) (a b : GReg) (ka kb : Bool), s.me.svc = true →
    let id := s.me.taskId
    let A := s.me.rdG a
    let rule (i : Instr) (v : Inv) : Prop :=
      (s.net.contains (.marker id) = false → s.writesDone id = true →
        (s.unperformed v = false → ∃ t, exec i s = .next t ∧ invalidated s t v ∧ t.me = (s.does fun f => f).me ∧ t.net = s.net ∧
          t.cores = s.cores ∧ t.tiles = s.tiles ∧ t.arrays = s.arrays ∧ t.engines = s.engines ∧ t.fe = s.fe) ∧
        (s.unperformed v = true → ∃ t, exec i s = .next t ∧ invalidated s t v ∧ t.net = s.net ++ [.marker id] ∧
          t.me.state = .waiting ∧ t.me.wait = .retry ∧ t.me.pc = s.me.pc ∧ s.me.sameRegs t.me)) ∧
      (s.net.contains (.marker id) = true → s.unperformed v = false →
        exec i s = .next { (s.does fun f => f) with net := s.net.filter fun m => decide (m ≠ Msg.marker id) })
    (s.goes [.g a ka, .g b kb] → rule (.tlbinv a b ka kb) (.page A ((s.me.rdG b).setWidth 12))) ∧
    (s.goes [.g a ka] → rule (.tlbinvAll a ka) (if A.getLsbD 63 then .all else .job (A.setWidth 12)))

/-- `tlbprobe` answers as a reply, and `tlbreplay.all`, once every earlier write of the task is performed, goes on; where no store is parked
at the own die, it frees the die's pending-fault entries, and the tasks parked there under XLATE go on; accesses parked elsewhere, or
for their job's host, stay parked (R450, R451). -/
def probeAndReplayRule : Prop :=
  ∀ (s : State) (d a b : GReg) (ka kb : Bool), s.me.svc = true →
    let here (p : Park) : Prop := p.own = false ∧ p.die = s.myDie
    (s.goes [.g a ka, .g b kb] →
      ∃ t v, exec (.tlbprobe d a b ka kb) s = .next t ∧ asks s t d (.reply s.me.taskId (.g d) (.ok v) none none)) ∧
    (s.writesDone s.me.taskId = true → ∃ t, exec .tlbreplayAll s = .next t ∧ s.me.sameRegs t.me ∧ s.me.wentOn t.me ∧ s.sameBytes t ∧
      ((∀ p ∈ s.parks, here p → ∀ m, p.who ≠ .store m) →
        (t.die s.myDie).pft = [] ∧ (∀ p, p ∈ t.parks ↔ p ∈ s.parks ∧ ¬here p) ∧ t.net = s.net ∧
        ∀ p ∈ s.parks, here p → ∀ k, p.who = .task k → (t.frame k).wait ≠ .xlate))

/-- Translation control (R449, R450, R451): invalidations, probes and replays. -/
def Obligations.TranslationControl : Prop := invalidationRule ∧ probeAndReplayRule

/-- Debug instructions (R503): `trc` adds one record of kind 3 with A as its payload where its job is the open, traced one and the trace
unit's queue is empty, and where debug is not open only goes on; `seerd` gives an accumulator, `seerd.c` also clears it; `dbgsync`
gives the trace head once no record of its frame and generation is queued, else waits (by which fields a record is the task's: log 51).
A record's time is the domain time, or the core's last record's if that is later (R498). -/
def Obligations.DebugInstructions : Prop :=
  ∀ (s : State) (d a b : GReg) (ka kb : Bool),
    let A := s.me.rdG a
    let n := A.toNat % 64
    let see := Tab.get (s.core s.myCore).see n 0
    let mine (r : Rec) : Bool := decide (r.w0.toNat / 2 ^ 27 % 256 = s.me.origin.frame.toNat) && decide (r.w1.toNat / 2 ^ 56 % 256 = s.me.origin.gen.toNat)
    (s.goes [.g a ka, .g b kb] →
      (s.dbg.open_ = false → exec (.trc a b ka kb) s = .next (s.does fun f => f)) ∧
      (s.dbg.open_ = true → s.dbg.on = true → s.dbg.job = s.me.job → s.dbg.queue = [] →
        ∃ t r, exec (.trc a b ka kb) s = .next t ∧ t.dbg.queue = [r] ∧ r.w3 = A ∧ r.w0.toNat / 2 ^ 60 = 3 ∧ r.w2 = s.recTime s.myCore ∧
          s.me.sameRegs t.me ∧ s.me.wentOn t.me ∧ s.sameBytes t)) ∧
    (s.goes [.g a ka] → exec (.seerd d a ka) s = .next (s.gives d see) ∧
      ∃ t, exec (.seerdC d a ka) s = .next t ∧ t.me = (s.gives d see).me ∧ Tab.get (t.core s.myCore).see n 0 = 0 ∧ s.sameBytes t) ∧
    (s.dbg.queue.any mine = false → exec (.dbgsync d) s = .next (s.gives d s.dbg.head)) ∧
    (s.dbg.queue.any mine = true → ∃ t, exec (.dbgsync d) s = .next t ∧ t.me.state = .waiting ∧ t.me.wait = .retry ∧ t.me.pc = s.me.pc ∧ s.onlyMe t)

/-! ## Events at the homes of memory -/

/-- What an operation of n bytes meets at its home at p: the bytes there, or the cause of its failure. It is refused for a job that was
removed from the chip; a bank that accepts no scratchpad accesses, scratchpad beyond the core's split, or host memory that does not
answer refuses it; device memory serves it by the owner of the line; and a line marked uncorrectable fails (R205, R211, R440, R469,
R489, R507, R508). -/
def atHome (s : State) (job : BitVec 12) (p : Place) (n : Nat) (ok : List Byte → Prop) (no : Byte → Prop) : Prop :=
  let gone := (s.job job).removed = true
  (∀ k off, p = .bank k off →
    (gone ∨ (s.tile k).bankOpen (off / 0x20000) = false → no Cause.PERM) ∧
    (¬gone → (s.tile k).bankOpen (off / 0x20000) = true → s.touch p = (s, true) →
      (s.localBad p n = true → no Cause.REFUSED) ∧ (s.localBad p n = false → ok (s.localBytes p n)))) ∧
  (∀ c off, p = .sram c off →
    (gone ∨ (s.core c).split.toNat * 0x4000 ≤ off → no Cause.PERM) ∧
    (¬gone → off < (s.core c).split.toNat * 0x4000 →
      (s.localBad p n = true → no Cause.REFUSED) ∧ (s.localBad p n = false → ok (s.localBytes p n)))) ∧
  (∀ a, p = .host a → (gone → no Cause.PERM) ∧
    (¬gone → (s.hostAnswers a = false ∧ no Cause.PERM) ∨ (s.hostAnswers a = true ∧ ok (s.hostBytes a n)))) ∧
  (∀ pa, p = .dev pa → pa < Config.devBytes → pubOf pa = none →
    let check := s.ownerCheck (tagOf job) (s.lineOwner pa)
    (gone ∨ check = .refused → no Cause.PERM) ∧
    (¬gone → check ≠ .refused → s.mem.bad.contains (pa / 64) = true → no Cause.REFUSED) ∧
    (¬gone → check = .stale → s.mem.bad.contains (pa / 64) = false → ∃ bs, bs.length = n ∧ ok bs) ∧
    (¬gone → check = .served → s.mem.bad.contains (pa / 64) = false → ok ((List.range n).map fun i => s.devByte (pa + i))))

/-- Every byte outside the n from a place on is as before, and outside the counters that they meet, whose values are undefined from now on
(R340). -/
def sameOutside (s t : State) (p : Place) (n : Nat) : Prop :=
  ∀ q, p.overlaps n q 1 = false → (∀ c ∈ s.mem.counters, p.overlaps n c 8 = true → c.overlaps 8 q 1 = false) → t.byteAt q = s.byteAt q

/-- The value that a read returns, by what is on record (R340, R364, R366, R367). Bytes with no write on record, of a counter, or at a place that
is no location, are returned as they are. Where the task knows a write of the whole location, by what happens before the read or by
its own earlier reads of these bytes, that was performed last and lies after all others on record, no older value is returned. And what
a read returned of a byte, every later read of that byte by the task knows. Which value an unordered read returns is free (log 9). -/
def readValuesRule : Prop :=
  ∀ (s : State) (who : TaskId) (ks : List Nat) (p q : Place) (off : Nat) (bs : List Byte),
    let got := (s.look who ks p bs).2
    let known := ks ++ s.returned (some who) (s.located q, off, bs)
    (unrecorded s p bs.length → got = bs) ∧
    (p.word = none → got = bs) ∧
    (p.word = some (q, off) → off + bs.length ≤ 8 → 0 < bs.length →
      (s.mem.counters.contains (s.located q) = true → got = bs) ∧
      (∀ y, (s.mem.past.filter fun z => decide (z.at_ = s.located q)).getLast? = some y → y.id ∈ known → y.off = 0 → y.bytes.length = 8 →
        (∀ z ∈ s.mem.past, z.at_ = s.located q → z ≠ y → z.id ∈ y.after ∧ y.id ∉ z.after) → y.id ∉ y.after →
        got = bs ∨ got = (y.bytes.drop off).take bs.length)) ∧
    ∀ r ∈ (s.view (some who) ks p bs).2, ∀ (x : Place × Nat × List Byte) (j : Nat), j < x.2.2.length → r.1 = x.1.plus (x.2.1 + j) →
      r.2 ∈ (s.look who ks p bs).1.returned (some who) x

/-- Reads at their homes (R211, R218, R223, R357, R360, R366). A load's reply takes the place of its request: the little-endian value of the
bytes it returns, or the error cause. The read of an `lnd` becomes its landing: one word, or eight for 64 bytes, or the cause. A data
atomic gives the old value to its task or an acknowledgement to its entry, and the new value is in place; the others of R360 fail
with ATOMTYPE on host memory; what a read returns of bytes with a write on record is log 9, and that a posted atomic which meets an
uncorrectable word is refused with the reason REFUSED is log 58. A request for a peer chip leaves by that chip's stream. -/
def readHomesRule : Prop :=
  ∀ (s : State) (n size c e : Nat) (who : TaskId) (job : BitVec 12) (p : Place) (dst : Dst) (la : LandAddr) (ks : List Nat) (dbl : Bool)
    (op : AmoOp) (v d : Word) (wn : WNo),
    who.chip = s.chip.chipNo →
    let x : Sender := .core s.chip.chipNo c e
    let w := if dbl then 8 else 4
    let seen (n : Nat) (bs got : List Byte) : Prop := unrecorded s p n → got = bs
    (s.deliverable n = some (.read who job p size dst ks) →
      let answer (r : Res) : Prop := ∃ t see, exec (.homeReadRequest n) s = .next t ∧ t.net = setAt s.net n (.reply who dst r none see) ∧
        t.frames = s.frames ∧ s.sameBytes t
      (s.wayHit who job p size ks = none →
        atHome s job p size (fun bs => ∃ got, seen size bs got ∧ answer (.ok (leWord got))) (fun r => answer (.err r))) ∧
      (∀ k pa, p = .peer k pa → ∃ t, exec (.homeReadRequest n) s = .next t ∧ t.net = setAt s.net n (.remote who dst false) ∧
        (t.stream k).unsent = (s.stream k).unsent ++ [s.packet k job false 1 (.msg (.read who job p size dst ks))] ∧ s.sameBytes t)) ∧
    (s.deliverable n = some (.lndRead x who job p size la ks) → la.chip = s.chip.chipNo →
      let answer (ws : List Word) (r : Option Byte) : Prop := ∃ t, exec (.lndHomeRead n) s = .next t ∧
        t.net = setAt s.net n (.landing x who job la ws r) ∧ t.frames = s.frames ∧ s.sameBytes t
      atHome s job p size
        (fun bs => ∃ got, seen size bs got ∧
          answer (if size = 64 then (List.range 8).map fun i => leWord ((got.drop (8 * i)).take 8) else [leWord got]) none)
        (fun r => answer (List.replicate (if size = 64 then 8 else 1) 0) (some r))) ∧
    ((∀ a, p ≠ .host a) ∨ op.byHost = true →
      let next (bs : List Byte) (t : State) : Prop :=
        match amoNew op (8 * w) (leNat bs) (v.toNat % 2 ^ (8 * w)) (d.toNat % 2 ^ (8 * w)) with
        | none => s.sameBytes t
        | some y => sameOutside s t (s.located p) w ∧ (noCounter s (s.located p) w → ∀ i, i < w → t.byteAt ((s.located p).plus i) = (leBytes y w)[i]?)
      (∀ pa, p = .dev pa → pa % w = 0) → (∀ k off, p = .bank k off → off + w ≤ 0x300000) → (∀ k off, p = .sram k off → off + w ≤ 0x10000) →
      (s.deliverable n = some (.atomic none who job p dbl op v d dst wn) →
        atHome s job p w
          (fun bs => (∀ pa, p = .dev pa → s.ownerCheck (tagOf job) (s.lineOwner pa) = .served) →
            ∃ t see, exec (.atomicHome n) s = .next t ∧ t.net = setAt s.net n (.reply who dst (.ok (BitVec.ofNat 64 (leNat bs))) none see) ∧ next bs t)
          (fun r => ∃ t see, exec (.atomicHome n) s = .next t ∧ t.net = setAt s.net n (.reply who dst (.err r) none see) ∧ s.sameBytes t)) ∧
      (s.deliverable n = some (.atomic (some x) who job p dbl op v d dst wn) →
        atHome s job p w
          (fun bs => (∀ pa, p = .dev pa → s.ownerCheck (tagOf job) (s.lineOwner pa) = .served) →
            ∃ t see, exec (.atomicHome n) s = .next t ∧ t.net = dropAt s.net n ++ [.ack x see] ∧ next bs t)
          (fun r => ∃ t, exec (.atomicHome n) s = .next t ∧ t.net = dropAt s.net n ++ [.refusal x Cause.REFUSED r] ∧ s.sameBytes t))) ∧
    (s.deliverable n = some (.atomic none who job p dbl op v d dst wn) → (∃ a, p = .host a) → op.byHost = false →
      ∃ t see, exec (.atomicHome n) s = .next t ∧ t.net = setAt s.net n (.reply who dst (.err Cause.ATOMTYPE) none see) ∧ s.sameBytes t)

/-- What reads return, and what they do at their homes. -/
def Obligations.HomeReads : Prop := readValuesRule ∧ readHomesRule

/-- Posted stores and counted stores at their homes (R212, R225, R340, R355, R489). A store that its home serves is performed: its bytes
are in place, where no counter is among them, no byte outside them and the counters they meet changes but that a line of another
owner loses its old bytes, and the sender gets an acknowledgement, or for a counted store the add of its byte count goes to
its counter, which releases the store at domain scope, and the entry waits for that (state 4). A store that its home refuses changes
no byte, and the sender gets the refusal with the reason. -/
def Obligations.HomeStores : Prop :=
  ∀ (s : State) (n c e : Nat) (who : TaskId) (job : BitVec 12) (bs : List Byte) (pst : Bool) (ctr : Option Place) (wn : WNo) (p : Place),
    let x : Sender := .core s.chip.chipNo c e
    let i : Instr := if pst then .pstHome n else .postedStorePerform n
    let told (t : State) : Prop := match ctr with
      | none => ∃ see, t.net = dropAt s.net n ++ [.ack x see]
      | some q => t.net = dropAt s.net n ++ [.add (.pst x) (some who) job q (BitVec.ofNat 64 bs.length)
          (some { scope := .domain, chip := s.chip.chipNo, tile := some (c / 32), knows := [wn.id] })] ∧
        ∀ j, s.journal c e = some j → t.journal c e = some { j with state := 4 }
    let no : Prop := ∃ t, exec i s = .next t ∧ t.net = dropAt s.net n ++ [.refusal x Cause.REFUSED Cause.PERM] ∧ s.sameBytes t ∧ t.frames = s.frames
    let done : Prop := ∃ t, exec i s = .next t ∧ told t ∧ sameOutside s t (s.located p) bs.length ∧ t.frames = s.frames ∧
      (noCounter s (s.located p) bs.length → ∀ j, j < bs.length → t.byteAt ((s.located p).plus j) = bs[j]?)
    s.deliverable n = some (.store x who job p bs pst ctr wn) → who.chip = s.chip.chipNo →
    let gone := (s.job job).removed = true
    (∀ k off, p = .bank k off → off + bs.length ≤ 0x300000 →
      (gone ∨ (s.tile k).bankOpen (off / 0x20000) = false → no) ∧
      (¬gone → (s.tile k).bankOpen (off / 0x20000) = true → s.touch p = (s, true) → done)) ∧
    (∀ k off, p = .sram k off → off + bs.length ≤ 0x10000 →
      (gone ∨ (s.core k).split.toNat * 0x4000 ≤ off → no) ∧ (¬gone → off < (s.core k).split.toNat * 0x4000 → done)) ∧
    (∀ a, p = .host a → (gone ∨ s.hostUp = false → no) ∧ (¬gone → s.hostUp = true → done)) ∧
    (∀ pa, p = .dev pa → pa < Config.devBytes → pubOf pa = none → pa % 64 + bs.length ≤ 64 →
      let check := s.ownerCheck (tagOf job) (s.lineOwner pa)
      (gone ∨ check = .refused → no) ∧
      (¬gone → check = .served → done) ∧
      (¬gone → check ≠ .refused → ∃ t, exec i s = .next t ∧ told t ∧ t.lineOwner pa = some (tagOf job) ∧
        (noCounter s p bs.length → (∀ j, j < bs.length → t.byteAt (.dev (pa + j)) = bs[j]?) ∧ s.sameBytesBut t (.dev (64 * (pa / 64))) 64))) ∧
    (∀ k pa, p = .peer k pa → ∃ t, exec i s = .next t ∧ t.net = dropAt s.net n ∧ s.sameBytes t ∧
      (t.stream k).unsent = (s.stream k).unsent ++ [s.packet k job false 0 (.msg (.store x who job p bs pst ctr wn))])

/-! ## Events at a frame, its journal and its counters -/

/-- The event answers a next state of which P holds. -/
def yields (i : Instr) (s : State) (P : State → Prop) : Prop := ∃ t, exec i s = .next t ∧ P t

/-- Only the task of frame key k may differ, and no byte of a memory does. -/
def onlyFrame (s t : State) (k : Nat) : Prop := (∀ j, j ≠ k → t.frame j = s.frame j) ∧ s.sameBytes t

/-- What a landing leaves of a frame (R221): its register or element holds the value, or the cause as poison; full and live. A
landing of eight words fills the whole vector register. Nothing else of the registers changes. -/
def landed (f g : Frame) (la : LandAddr) (vs : List Word) (err : Option Byte) : Prop :=
  let value (w : Word) : Word := match err with
    | none => w
    | some c => c.setWidth 64
  let holds (w : Word) : Word × Bool × Bool × Bool := (value w, true, err.isSome, true)
  let r : VReg := la.reg.setWidth 5
  let one := vs.length = 1
  (∀ q, g.maskReg q = f.maskReg q) ∧
  (la.cls = 0 → (la.reg ≠ 0 → g.genReg la.reg = holds (vs.headD 0)) ∧ (∀ q, q ≠ la.reg ∨ q = 0 → g.genReg q = f.genReg q) ∧
    ∀ q j, g.vecReg q j = f.vecReg q j) ∧
  (la.cls ≠ 0 → (∀ q, g.genReg q = f.genReg q) ∧ (∀ q j, q ≠ r → j < 8 → g.vecReg q j = f.vecReg q j) ∧
    (one → g.vecReg r la.elem.toNat = holds (vs.headD 0) ∧
      ∀ j, j < 8 → j ≠ la.elem.toNat → g.rdE r j = f.rdE r j ∧ g.vFull.getLsbD (8 * r.toNat + j) = f.vFull.getLsbD (8 * r.toNat + j)) ∧
    (¬one → ∀ j, j < 8 → g.vecReg r j = holds (vs.getD j 0)))

/-- A task that observed a counter at a scope knows what happens before the releases it read from, of those whose scope and whose own scope
covers the other party, and what it knew (R354, R355, R364). -/
def acquiresFrom (s : State) (f g : Frame) (k : Nat) (sc : Scope) (rels : List Rel) : Prop :=
  g.acq = some sc ∧ g.rels = rels ∧ (∀ i ∈ f.knows, i ∈ g.knows) ∧
  ∀ r ∈ rels, let near := r.near s.chip.chipNo (some (f.coreAt k / 32))
    scopeCovers r.scope near = true → scopeCovers sc near = true → ∀ i ∈ r.knows, i ∈ g.knows

/-- Traffic for a frame (R167, R210, R211, R220, R221, R491). A landing is applied at a live frame of its generation and job: the register, the
count of its frame counter, an acknowledgement; of another job it is refused with PERM; for a frame that is gone it is
counted and reported dead; while the frame moves or its slot transfer runs it is held. A reply fills the register that
waits for it. At the end of a slot transfer a loaded task runs and the held traffic is applied in order of arrival; what
was loaded from an uncorrectable line is poisoned, and a fatal fault of the job is reported (R491; log 26). -/
def Obligations.FrameArrivals : Prop :=
  ∀ (s : State) (n k c e : Nat) (who : TaskId) (job : BitVec 12) (la : LandAddr) (vs : List Word) (err : Option Byte) (dst : Dst)
    (v : Res) (acq : Option (Scope × List Rel)) (see : Option Nat) (loads : Bool),
    let x : Sender := .core s.chip.chipNo c e
    let m : Msg := .landing x who job la vs err
    let f := s.frame k
    let rest := dropAt s.net n
    let poison : Bool := match v with | .ok _ => false | .err _ => true
    let value : Word := match v with | .ok w => w | .err r => r.setWidth 64
    (s.deliverable n = some m → la.chip = s.chip.chipNo →
      let fate := s.fate la.key la.gen (some job)
      (fate = .apply k → yields (.landingArrival n) s fun t => onlyFrame s t k ∧ landed f (t.frame k) la vs err ∧
        (t.frame k).rdC la.ctr.toNat = f.rdC la.ctr.toNat + 1 ∧ ∃ z, t.net.getLast? = some (.ack x z)) ∧
      (fate = .refused → yields (.landingArrival n) s fun t => t.frames = s.frames ∧ s.sameBytes t ∧
        t.net = rest ++ [.refusal x Cause.REFUSED Cause.PERM]) ∧
      (fate = .dead → yields (.landingArrival n) s fun t => t.frames = s.frames ∧ s.sameBytes t ∧ t.net = rest ++ [.deadRep x] ∧
        (t.core (s.deadCore la.key)).qdead = min ((s.core (s.deadCore la.key)).qdead + 1) 0xFFFFFFFF) ∧
      (fate = .held → yields (.landingArrival n) s fun t => t.frames = s.frames ∧ t.net = rest ∧
        (t.core (coreOfFrame la.key)).traffic = (s.core (coreOfFrame la.key)).traffic ++ [m]) ∧
      (fate = .transfer k → yields (.landingArrival n) s fun t => t.net = rest ∧ t.frame k = { f with heldMsgs := f.heldMsgs ++ [m] })) ∧
    (s.deliverable n = some (.reply who dst v acq see) → s.fate who.key who.gen none = .apply k →
      yields (.replyArrival n) s fun t => onlyFrame s t k ∧ t.net = rest ∧ (t.frame k).specials = f.specials ∧
        (∀ r, dst = .g r → r ≠ 0 → (t.frame k).genReg r = (value, true, poison, true)) ∧
        (∀ r, dst ≠ .g r ∨ r = 0 → (t.frame k).genReg r = f.genReg r) ∧
        (∀ r j, dst = .v r j → (t.frame k).vecReg r j.toNat = (value, true, poison, true)) ∧
        (∀ pa, dst = .code pa → Tab.get? (t.frame k).fetched pa = some v) ∧
        (∀ sc rels, acq = some (sc, rels) → acquiresFrom s f (t.frame k) k sc rels ∧
          ∀ l, l < 2 ^ 36 → Tab.get? t.mem.l1 (l1Key (f.coreAt k) l) = none)) ∧
    (f.transfer = some true → f.heldMsgs = [] → ∀ r : Nat, 0 < r → r < 64 → f.gLive.getLsbD r = true → s.localBad (.image k (8 * r)) 8 = true →
      yields (.slotTransferEnd k) s fun t => (t.frame k).gPoison.getLsbD r = true ∧ (t.frame k).rawG r = Cause.REFUSED.setWidth 64 ∧
        (t.frame k).state = .parked ∧ (t.frame k).wait = .halted ∧ Msg.fatal f.job Cause.REFUSED (some (imageAddr k)) ∈ t.net) ∧
    (f.transfer = some loads → (loads = true → s.mem.badArena = []) →
      let g : Frame := { f with transfer := none, heldMsgs := [], state := if loads = true ∧ f.state = .ready ∧ s.issueHeld f = false then .running else f.state }
      exec (.slotTransferEnd k) s = .next (f.heldMsgs.foldl State.applyHeld (s.setFrame k g)))

/-- The journal (R136, R214, R215, R224). An acknowledgement counts an operation of its entry, and with the last frees the entry
unless it was refused. A refusal or ORPHAN of a live task's operation keeps the entry in state 3 with its reason, and
makes a trap pending with the kind, the reason and the entry, a `vst` only for the first of its elements (R228); of a task that is gone or being removed it only frees the
entry. A dead report frees and counts it, and with the core's `deadtrap` makes DEADLAND pending. A bounced envelope whose
wait is over is sent again. -/
def Obligations.JournalEvents : Prop :=
  ∀ (s : State) (n c e : Nat) (see : Option Nat) (cause reason : Byte) (j : JEntry) (b : Env × Nat),
    let x : Sender := .core s.chip.chipNo c e
    let live := s.taskLive j.task = true ∧ s.removing j.job = false
    let less : Option JEntry := if j.copies ≤ 1 ∧ j.state ≠ 3 then none else some { j with copies := j.copies - 1 }
    let k := s.homeOf j.task.key
    let tval (r : Nat) : Word := BitVec.ofNat 64 (j.kind.toNat * 0x10000 + r * 0x100 + e)
    let pends (t : State) (p : Pend) : Prop := (t.frame k).pend = (s.frame k).pend ++ [p]
    let others (t : State) : Prop := (∀ a d, a ≠ c ∨ d ≠ e → t.journal a d = s.journal a d) ∧ s.sameBytes t
    s.journal c e = some j →
    (s.net[n]? = some (.ack x see) → yields (.journalAck n) s fun t => t.journal c e = less ∧ others t ∧ t.frames = s.frames) ∧
    (s.net[n]? = some (.refusal x cause reason) → j.kind = JKind.vst → j.told = true → yields (.refusalReturn n) s fun t => others t ∧
      t.frames = s.frames ∧ (t.core c).jrefused = (s.core c).jrefused ∧ t.journal c e = less) ∧
    (s.net[n]? = some (.refusal x cause reason) → (j.kind ≠ JKind.vst ∨ j.told = false) → yields (.refusalReturn n) s fun t => others t ∧
      (live → t.journal c e = some { j with state := 3, reason := reason, copies := j.copies - 1, told := true } ∧
        pends t { cause := cause, tval := tval reason.toNat, entry := some (c, e) }) ∧
      (¬live → t.journal c e = less ∧ t.frames = s.frames) ∧
      (t.core c).jrefused = if cause = Cause.REFUSED then min ((s.core c).jrefused + 1) 0xFFFFFFFF else (s.core c).jrefused) ∧
    (s.net[n]? = some (.deadRep x) → yields (.deadlandReport n) s fun t => others t ∧ t.journal c e = less ∧
      (t.core c).jdead = min ((s.core c).jdead + 1) 0xFFFF ∧
      (live → (s.core c).deadtrap = true → pends t { cause := Cause.DEADLAND, tval := tval 0, entry := none }) ∧
      ((s.core c).deadtrap = false → t.frames = s.frames)) ∧
    (j.bounced.find? (fun b => decide (b.2 ≤ s.clk.cycle)) = some b → yields (.bounceRetry c e) s fun t => others t ∧
      t.net = s.net ++ [.env b.1] ∧ t.frames = s.frames ∧
      t.journal c e = some { j with bounced := j.bounced.erase b, state := if j.state = 2 ∧ j.bounced.erase b = [] then 1 else j.state })

/-- A counter word lies at a place of a memory, on its boundary. -/
def wordAt (p : Place) : Prop :=
  (∀ pa, p = .dev pa → pa % 8 = 0) ∧ (∀ k off, p = .bank k off → off + 8 ≤ 0x300000) ∧ (∀ k off, p = .sram k off → off + 8 ≤ 0x10000)

/-- A threshold is reached by the values up to 2^63 − 1 ahead of it (R338). -/
def reaches (v thr : Word) : Prop := (v - thr).toNat < 2 ^ 63

/-- The waiters at the home of a counter (R344). -/
def waitersAt (s : State) (p : Place) : List CWaiter :=
  match p with
  | .bank t _ => (s.tile t).waiters
  | _ => s.chip.waiters ++ s.chip.spilled

/-- Every waiter of the counter that the value reaches is on its way to be woken with it, and with what was released (R346, R354). -/
def wakes (s t : State) (p : Place) (v : Word) : Prop :=
  ∀ w, w ∈ waitersAt s p → w.p.sameCounter p = true → reaches v w.thr →
    ∃ ws, Msg.toWake ws v (t.relsOf p) ∈ t.net ∧ (w.w, w.job) ∈ ws

/-- What the maker of an add learns: the old value or only that it was done. -/
def addAnswer (b : Adder) (old : Word) (see : Option Nat) : Msg :=
  match b with
  | .posted x => .ack x see
  | .pst x => .ack x see
  | .value w dst => .reply w dst (.ok old) none see
  | .front c cmd => .wake (.front c cmd) (.ok old)
  | .engine .. => .ack .nobody see

/-- What it learns of an add that was not made. -/
def addRefusal (b : Adder) (r : Byte) (see : Option Nat) : Msg :=
  match b with
  | .posted x => .refusal x Cause.REFUSED r
  | .pst x => .refusal x Cause.REFUSED r
  | .value w dst => .reply w dst (.err r) none see
  | .front c cmd => .wake (.front c cmd) (.err r)
  | .engine .. => .ack .nobody none

/-- The maker of the add waits for an answer on this chip. -/
def addHere (s : State) (b : Adder) : Prop :=
  (∃ c e, b = .posted (.core s.chip.chipNo c e) ∨ b = .pst (.core s.chip.chipNo c e)) ∨
  (∃ w dst, b = .value w dst ∧ w.chip = s.chip.chipNo) ∨ ∃ cmd, b = .front s.chip.chipNo cmd

/-- Adds and observations of counters at their homes (R343, R349, R351–R355). An add makes the sum, wakes the waiters it reaches, releases
what it carries to those that observe the counter later, and tells its maker; one that its home refuses, or of a job being removed, changes nothing and its maker learns it; at a frame
that is gone it is dead, which SIGNAL learns as PERM (the model's choice, log 69). `cread` and `cpoll` give the value, and `cpoll` acquires if the threshold is reached; `cset`
writes only a counter that nobody waits for, so that later observers acquire from the adds after it alone, and answers 1 otherwise.
That an add which meets an uncorrectable word is refused with the reason REFUSED is the model's choice (log 58). -/
def Obligations.CounterHomes : Prop :=
  ∀ (s : State) (n k : Nat) (b : Adder) (by_ : Option TaskId) (who : TaskId) (job : BitVec 12) (p : Place) (la : LandAddr) (v : Word)
    (rel : Option Rel) (sc : Option Scope) (dst : Dst),
    let rest := dropAt s.net n
    let same (t : State) : Prop := s.sameBytes t ∧ t.frames = s.frames
    let put (t : State) (w : Word) : Prop := s.sameBytesBut t p 8 ∧ ∀ i, i < 8 → t.byteAt (p.plus i) = (leBytes w.toNat 8)[i]?
    let served := ∀ pa, p = .dev pa → s.ownerCheck (tagOf job) (s.lineOwner pa) = .served
    let releasedBy (t : State) : Prop := t.relsOf p = s.relsOf p ++ rel.toList
    (addHere s b → s.deliverable n = some (.add b by_ job p v rel) →
      (s.removing job = false → wordAt p → atHome s job p 8
        (fun bs => served → yields (.counterAddHome n) s fun t => put t (leWord bs + v) ∧ t.frames = s.frames ∧ wakes s t p (leWord bs + v) ∧ releasedBy t ∧
          ∃ see, t.net.getLast? = some (addAnswer b (leWord bs) see))
        (fun r => yields (.counterAddHome n) s fun t => same t ∧ ∃ see, t.net = rest ++ [addRefusal b r see])) ∧
      (s.removing job = true → yields (.counterAddHome n) s fun t => same t ∧ ∃ see, t.net = rest ++ [addRefusal b Cause.PERM see]) ∧
      (p = .frameCtr la → la.chip = s.chip.chipNo → s.removing job = false →
        let fate := s.fate la.key la.gen (some job)
        let old := (s.frame k).rdC la.reg.toNat
        (fate = .apply k → yields (.counterAddHome n) s fun t => onlyFrame s t k ∧
          t.frame k = (s.frame k).wrC la.reg.toNat (old + v) ∧ wakes s t p (old + v) ∧ releasedBy t ∧ ∃ see, t.net.getLast? = some (addAnswer b old see)) ∧
        (fate = .refused → yields (.counterAddHome n) s fun t => same t ∧ ∃ see, t.net = rest ++ [addRefusal b Cause.PERM see]) ∧
        (fate = .dead → yields (.counterAddHome n) s fun t => same t ∧ ∃ see, t.net = rest ++ [match b with
          | .posted x => .deadRep x
          | .pst x => .deadRep x
          | .front c cmd => addRefusal (.front c cmd) Cause.PERM see
          | b => addRefusal b Cause.DEADLAND see]))) ∧
    (who.chip = s.chip.chipNo → s.deliverable n = some (.observe who job (.frameCtr la) .read v dst) →
      s.fate la.key la.gen (some job) = .apply k →
      yields (.counterObserveHome n) s fun t => same t ∧
        ∃ see, t.net = setAt s.net n (.reply who dst (.ok ((s.frame k).rdC la.reg.toNat)) none see)) ∧
    (who.chip = s.chip.chipNo → wordAt p →
      let answer (t : State) (r : Res) (acq : Option (Scope × List Rel)) : Prop := ∃ see, t.net = setAt s.net n (.reply who dst r acq see)
      (s.deliverable n = some (.observe who job p .read v dst) → atHome s job p 8
        (fun bs => yields (.counterObserveHome n) s fun t => same t ∧ answer t (.ok (leWord bs)) none)
        (fun r => yields (.counterObserveHome n) s fun t => same t ∧ answer t (.err r) none)) ∧
      (s.deliverable n = some (.observe who job p (.poll sc) v dst) → atHome s job p 8
        (fun bs => yields (.counterObserveHome n) s fun t => same t ∧ (reaches (leWord bs) v → answer t (.ok (leWord bs)) (sc.map fun q => (q, s.relsOf p))) ∧
          (¬reaches (leWord bs) v → answer t (.ok (leWord bs)) none))
        (fun r => yields (.counterObserveHome n) s fun t => same t ∧ answer t (.err r) none)) ∧
      (s.deliverable n = some (.observe who job p .set v dst) → atHome s job p 8
        (fun _ => yields (.counterObserveHome n) s fun t => t.frames = s.frames ∧
          (s.hasWaiter p = true → s.sameBytes t ∧ answer t (.ok 1) none) ∧
          (s.hasWaiter p = false → served → put t v ∧ answer t (.ok 0) none ∧ t.relsOf p = []))
        (fun r => yields (.counterObserveHome n) s fun t => same t ∧ answer t (.err r) none)))

/-- The wait of the task at frame key k is over (R350): g r holds the value, or the cause as poison; the task goes on at the next
word, running if it is resident and its job is not held; and with a value it acquires. -/
def waitEnds (s t : State) (k : Nat) (sc : Scope) (r : GReg) (v : Res) (rels : List Rel) : Prop :=
  let f := s.frame k
  let g := t.frame k
  onlyFrame s t k ∧ f.wentOn g ∧ g.wait = .none ∧
  g.state = (if f.resident = true ∧ s.jobHeld f.job = false then .running else .ready) ∧
  (∀ q, q ≠ r ∨ q = 0 → g.genReg q = f.genReg q) ∧
  match v with
  | .ok w => (r ≠ 0 → g.genReg r = (w, true, false, f.gLive.getLsbD r.toNat)) ∧ acquiresFrom s f g k sc rels ∧
      ∀ l, l < 2 ^ 36 → Tab.get? t.mem.l1 (l1Key (f.coreAt k) l) = none
  | .err c => r ≠ 0 → g.genReg r = (c.setWidth 64, true, true, f.gLive.getLsbD r.toNat)

/-- Waits for counters (R344–R347, R350, R354). A `cwait` at its home is answered at once if the threshold is reached, with what was released
there, else it registers where the home has room; a task that finds none polls. Waiters that are due are woken one at a time. A wake
ends the wait it belongs to, and one whose wait was withdrawn is discarded. A polling task's core reads the counter every 512 cycles,
and the wait ends when the threshold is reached; a wait that polls from another chip reads so too, at the home (log 56). By which mark a
wake is told from that of a wait withdrawn is the model's choice (log 57). -/
def Obligations.CounterWaits : Prop :=
  ∀ (s : State) (n k tk last : Nat) (who : TaskId) (job jb : BitVec 12) (p : Place) (thr v : Word) (sc : Scope) (r : GReg) (val : Res)
    (ws : List (Waiter × BitVec 12)) (rels : List Rel),
    let w : Waiter := .task who sc (.g r) tk
    let rest := dropAt s.net n
    let x : CWaiter := { job := job, p := p, thr := thr, w := w }
    let same (t : State) : Prop := s.sameBytes t ∧ t.frames = s.frames
    let h := s.homeOf who.key
    who.chip = s.chip.chipNo →
    (s.deliverable n = some (.cwait w job p thr none) → atHome s job p 8
      (fun bs =>
        (reaches (leWord bs) thr → yields (.cwaitRegister n) s fun t => same t ∧ t.net = rest ++ [.wake w (.ok (leWord bs)) (s.relsOf p)]) ∧
        (¬reaches (leWord bs) thr →
          let spilled := (s.chip.spilled.filter fun y => decide (y.slice = x.slice)).length
          ((∀ t off, p = .bank t off → (s.tile t).waiters.length < 256) → (∀ pa, p = .dev pa → spilled < 16384) →
            yields (.cwaitRegister n) s fun t => same t ∧ t.net = rest ∧ x ∈ waitersAt t p) ∧
          (∀ t off, p = .bank t off → 256 ≤ (s.tile t).waiters.length → (s.frame h).wait.isWake tk = true →
            yields (.cwaitRegister n) s fun t => onlyFrame s t h ∧ t.net = rest ∧
              (t.frame h).wait = .poll p thr sc (.g r) s.clk.cycle)))
      (fun c => yields (.cwaitRegister n) s fun t => same t ∧ t.net = rest ++ [.wake w (.err c)])) ∧
    (s.deliverable n = some (.cwait w job p thr (some last)) → 512 ≤ s.clk.cycle - last → atHome s job p 8
      (fun bs =>
        (reaches (leWord bs) thr → yields (.cwaitRegister n) s fun t => same t ∧ t.net = rest ++ [.wake w (.ok (leWord bs)) (s.relsOf p)]) ∧
        (¬reaches (leWord bs) thr → yields (.cwaitRegister n) s fun t => same t ∧ t.net = setAt s.net n (.cwait w job p thr (some s.clk.cycle))))
      (fun c => yields (.cwaitRegister n) s fun t => same t ∧ t.net = rest ++ [.wake w (.err c)])) ∧
    (s.net[n]? = some (.toWake ((w, jb) :: ws) v rels) → yields (.waiterWake n) s fun t => same t ∧
      t.net = (if ws = [] then rest else setAt s.net n (.toWake ws v rels)) ++ [.wake w (.ok v) rels]) ∧
    (s.deliverable n = some (.wake w val rels) → s.fate who.key who.gen none = .apply k →
      ((s.frame k).wait.isWake tk = true → yields (.wakeArrival n) s fun t => t.net = rest ∧ waitEnds s t k sc r val rels) ∧
      ((s.frame k).wait.isWake tk = false → exec (.wakeArrival n) s = .next (s.dropMsg n))) ∧
    ((s.frame k).wait = .poll p thr sc (.g r) last → 512 ≤ s.clk.cycle - last → (s.frame k).state = .waiting → (s.frame k).transfer = none → atHome s (s.frame k).job p 8
      (fun bs => yields (.polledWaiterRead k) s fun t => t.net = s.net ∧
        (reaches (leWord bs) thr → waitEnds s t k sc r (.ok (leWord bs)) (s.relsOf p)) ∧
        (¬reaches (leWord bs) thr → onlyFrame s t k ∧ t.frame k = { s.frame k with wait := .poll p thr sc (.g r) s.clk.cycle }))
      (fun c => yields (.polledWaiterRead k) s fun t => t.net = s.net ∧ waitEnds s t k sc r (.err c) []))

/-! ## Envelopes, frames and groups -/

/-- A core that traffic reached: it runs, and one that was gated has been idle since now at the earliest (R506). -/
def roused (s : State) (x : Core) : Core := if x.gated then { x with gated := false, idleAt := s.clk.cycle } else x

/-- An envelope reaches its core (R133–R138, R506). A core that does not take it refuses it; a class that is not bound goes to the held list,
which orphans what finds no place; a bound class goes to the activation queue with its handler's priority, and bounces
where the queue has no room: the bounce is counted and the entry keeps the envelope with the time of its retry; before that time nothing arrives (the model's choice, log 65). The
sender is told; an envelope for a peer chip leaves by that chip's stream. One of a job that is being removed is discarded, as if it had
been accepted (R148). -/
def Obligations.EnvelopeArrivals : Prop :=
  ∀ (s : State) (n k i : Nat) (e : Env) (y : JEntry),
    let c := e.core
    let x := s.core c
    let h := x.handler e.cls
    let rest := dropAt s.net n
    let new (p : Nat) (st : Stored) : QEnv := { env := e, prio := p, base := p, arrival := s.clk.stepNo, cycle := s.clk.cycle, stored := st }
    let told (t : State) (m : Msg) : Prop := t.net = rest ++ [m] ∧ t.frames = s.frames ∧ s.sameBytes t
    s.deliverable n = some (.env e) →
    (s.clk.cycle < e.due → exec (.envelopeArrival n) s = .next s) ∧
    (e.due ≤ s.clk.cycle → e.chip ≠ s.chip.chipNo → yields (.envelopeArrival n) s fun t => t.net = rest ∧ t.cores = s.cores ∧
      (t.stream e.chip).unsent = (s.stream e.chip).unsent ++ [s.packet e.chip e.job false 6 (.msg (.env e))]) ∧
    (e.due ≤ s.clk.cycle → e.chip = s.chip.chipNo → e.stolen = none → e.sender = .core s.chip.chipNo k i → (s.job e.job).state = 4 →
      yields (.envelopeArrival n) s fun t => told t (.ack e.sender none) ∧ t.cores = s.cores) ∧
    (e.due ≤ s.clk.cycle → e.chip = s.chip.chipNo → e.stolen = none → e.sender = .core s.chip.chipNo k i → (s.job e.job).state ≠ 4 →
      (s.takes c e = false → yields (.envelopeArrival n) s fun t => told t (.refusal e.sender Cause.REFUSED Cause.PERM) ∧ t.cores = s.cores) ∧
      (s.takes c e = true → h.bound = false →
        (x.heldPlaces < 16 → yields (.envelopeArrival n) s fun t => (∃ see, told t (.ack e.sender see)) ∧
          t.core c = roused s { x with held := x.held ++ [new 0 .held] }) ∧
        (16 ≤ x.heldPlaces → yields (.envelopeArrival n) s fun t => told t (.refusal e.sender Cause.ORPHAN 0) ∧ t.cores = s.cores)) ∧
      (s.takes c e = true → h.bound = true →
        (∀ st, s.room c = some st → yields (.envelopeArrival n) s fun t => (∃ see, told t (.ack e.sender see)) ∧
          t.core c = roused s { x with queue := x.queue ++ [new h.prio.toNat st] }) ∧
        (s.room c = none → s.journal k i = some y → yields (.envelopeArrival n) s fun t => t.net = rest ∧ t.frames = s.frames ∧
          (t.core c).bounces = min (x.bounces + 1) 0xFFFF ∧ (t.core c).queue = x.queue ∧
          ∃ at_, s.clk.cycle + 256 * 2 ^ min y.bounces 8 ≤ at_ ∧ at_ < s.clk.cycle + 256 * 2 ^ min y.bounces 8 + 256 ∧
            t.journal k i = some { y with state := 2, bounces := y.bounces + 1,
                                          bounced := y.bounced ++ [({ e with hdr := setBit e.hdr 19 true }, at_)] })))

/-- A core's queue engine and the thieves of its job (R143, R145, R146, R149, R151, R152). The activation (its priority is the handler's, log 28) of the envelope that is
served next takes the template's pinned frame or the lowest free one: the program counter is the handler's entry, g1 is
word 1, g2 to g7 the payload, g8 the header, the presets of the binding are in their registers, with undefined values if the list has
changed since (R14), presence and the live set are the template's, the envelope leaves the queue, and the task knows what a release
that covers its core carries (R132, R364). A class that is no longer bound goes to the held list. Waiting raises an
envelope one level each 16,384 cycles, up to 3. An idle core asks a core of its job's steal domain; the victim's answer is
the tail of its queue, readdressed, or nothing, after which the thief waits 512 cycles; while the job is suspended it does not answer
(R466). -/
def Obligations.Activations : Prop :=
  ∀ (s u : State) (c i v n k : Nat) (q : QEnv) (ps : List (Nat × Word)) (j : BitVec 12) (mask : BitVec 16) (e : Env),
    let x := s.core c
    let h := x.handler q.env.cls
    let t' := h.tmpl
    let base := h.taddr + t'.preoff.setWidth 64
    (s.pwr.fatal = false → s.nextEnv c = some q → h.bound = true →
      (if t'.pinned then some t'.pinFrame else s.lowestFree c) = some n →
      s.readPresets c q.env.job ((List.range t'.npre.toNat).map fun i => base + BitVec.ofNat 64 (16 * i)) = (u, .inl ps) →
      (h.presets.map (·.1)).Nodup → (∀ p ∈ h.presets, 9 ≤ p.1 ∧ p.1 ≤ 63) → q.env.row = none →
      yields (.activation c) s fun t =>
        let g := t.frame (c * 256 + n)
        let full (r : GReg) (w : Word) : Prop := g.rdG r = w ∧ g.gFull.getLsbD r.toNat = true ∧ g.gPoison.getLsbD r.toNat = false
        g.state = .ready ∧ g.gen = (u.frame (c * 256 + n)).gen ∧ g.pc = h.entry ∧ g.cls = q.env.cls ∧ g.prio = h.prio ∧ g.job = q.env.job ∧
        g.tstat = (if c % 32 = 31 then 0x4000000000000000 else 0) ∧ g.fcsr = 0 ∧ (∀ r, g.rdC r = 0) ∧
        (q.env.rel = none → g.knows = []) ∧ (q.env.rel = some .domain → g.knows = q.env.knows) ∧
        full 1 q.env.w1 ∧ full 8 q.env.hdr ∧ (∀ i, i < 6 → full (BitVec.ofNat 6 (i + 2)) ((q.env.pl[i]?).getD 0)) ∧
        (ps = h.presets → ∀ p ∈ ps, full (BitVec.ofNat 6 p.1) p.2) ∧ (∀ p ∈ h.presets, ∃ w, full (BitVec.ofNat 6 p.1) w) ∧ g.gLive = t'.glive ∧ g.vLive = t'.vlive ∧ g.mLive = t'.mlive ∧
        (∀ r : GReg, 8 < r.toNat → (∀ p ∈ h.presets, p.1 ≠ r.toNat) → g.gFull.getLsbD r.toNat = !t'.gempty.getLsbD r.toNat) ∧
        (∀ r : VReg, ∀ e, e < 8 → g.vFull.getLsbD (8 * r.toNat + e) = !t'.vempty.getLsbD r.toNat) ∧
        (∀ r : MReg, g.mFull.getLsbD r.toNat = !t'.mempty.getLsbD r.toNat) ∧
        (∀ y ∈ (t.core c).queue, ¬(y.arrival = q.arrival ∧ y.env = q.env)) ∧ (∀ k, k ≠ c * 256 + n → t.frame k = u.frame k)) ∧
    (s.pwr.fatal = false → s.nextEnv c = some q → h.bound = false → (x.without q).heldPlaces < 16 →
      yields (.activation c) s fun t => t.frames = s.frames ∧ (t.core c).held = x.held ++ [{ q with stored := .held }]) ∧
    (x.queue[i]? = some q → q.prio < 3 → 16384 * (q.prio - q.base + 1) ≤ s.clk.cycle - q.cycle → s.agingStopped q.env.job = false →
      exec (.envelopeAging c i) s = .next (s.setCore c { x with queue := setAt x.queue i { q with prio := q.prio + 1 } })) ∧
    (x.job = some j → (s.core v).job = some j → c % 32 ≠ 31 → v % 32 ≠ 31 → c ≠ v → stealDomain (s.job j).steal c v = true → s.idle c = true →
      x.gated = false → x.stealOut = false → x.stealAt ≤ s.clk.cycle → s.agingStopped j = false →
      exec (.stealRequest c v) s = .next ((s.setCore c { x with stealOut := true }).send (.stealReq c v x.stealMask j))) ∧
    (s.net[n]? = some (.stealReq k v mask j) →
      (s.agingStopped j = false → s.tailEnv v mask j = some q → yields (.stealAnswer n) s fun t =>
        t.net = setAt s.net n (.stealAns k (some { q.env with hdr := hdrTo q.env.hdr s.chip.chipNo k, stolen := some q.prio })) ∧
        ∀ y ∈ (t.core v).queue, ¬(y.arrival = q.arrival ∧ y.env = q.env)) ∧
      (s.agingStopped j = false → s.tailEnv v mask j = none → exec (.stealAnswer n) s = .next ((s.rouse v).swapMsg n (.stealAns k none))) ∧
      (s.agingStopped j = true → exec (.stealAnswer n) s = .next (s.rouse v))) ∧
    (s.net[n]? = some (.stealAns c none) →
      exec (.stealAnswer n) s = .next ((s.dropMsg n).setCore c { x with stealOut := false, stealAt := s.clk.cycle + 512 })) ∧
    (s.net[n]? = some (.stealAns c (some e)) → exec (.stealAnswer n) s = .next ((s.swapMsg n (.env e)).setCore c { x with stealOut := false }))

/-- Slots, aging, joins and moves of frames (R149, R165–R167, R172, R178, R457–R459, R464). The best ready frame of a core enters a slot,
for which the victim of R165 leaves its own and keeps the values of its live and poisoned registers: a running one is ready then, a
waiting or parked one keeps its state, but a join is cancelled (R147, R178). A ready task that
has not issued for 4,096 cycles a level rises one. A join that waited 65,536 cycles, or whose leader is gone, is
cancelled. A line of own memory is copied to an instruction cache. A move that fails a check only reports why; one that
passes them marks both entries; at its commit the task is in the guest frame, the origin forwards to it and the held traffic is
applied in its order of arrival (R459, R462). A retirement notice frees the origin's entry, whose generation advances. An
event out of its condition changes nothing (log 2). -/
def Obligations.FrameEvents : Prop :=
  ∀ (s : State) (c k v l n a : Nat) (w : Word) (gen : BitVec 8) (r : BitVec 3) (m : Mig),
    let f := s.frame k
    let x := s.core c
    (s.bestReady c = some k →
      ((s.residents c).length < slotsOf c → exec (.frameResidency c) s = .next (s.setFrame k { f with resident := true, transfer := some true })) ∧
      (slotsOf c ≤ (s.residents c).length → s.victim c f.curPrio = some v → v ≠ k → yields (.frameResidency c) s fun t =>
        (t.frame k).resident = true ∧ (t.frame k).transfer = some true ∧ (t.frame v).resident = false ∧ (t.frame v).transfer = some false ∧
        (∀ r, (s.frame v).gLive.getLsbD r.toNat = true ∨ (s.frame v).gPoison.getLsbD r.toNat = true → (t.frame v).genReg r = (s.frame v).genReg r) ∧
        (let goes := (s.frame v).state = .running ∨ (s.frame v).wait = .join
         (goes → (t.frame v).state = .ready ∧ (t.frame v).wait = .none) ∧
         (¬goes → (t.frame v).state = (s.frame v).state ∧ (t.frame v).wait = (s.frame v).wait)) ∧
        ∀ j, j ≠ k → j ≠ v → (s.frame j).follow = none → t.frame j = s.frame j)) ∧
    (f.state = .ready ∨ f.state = .running → f.curPrio < 3 → 4096 * (f.curPrio - f.prio.toNat + 1) ≤ s.clk.cycle - max f.lastIssue f.since →
      s.agingStopped f.job = false →
      exec (.contextAging k) s = .next (s.setFrame k { f with curPrio := f.curPrio + 1 })) ∧
    (f.follow = some (a, gen, false) → f.wait = .join → 65536 ≤ s.clk.cycle - f.since ∨ s.leaderGone a gen = true ∨ f.resident = false →
      yields (.followJoinTimeout k) s fun t => onlyFrame s t k ∧ (t.frame k).follow = none ∧ (t.frame k).wait = .none ∧
        (t.frame k).pc = f.pc ∧ (t.frame k).state = if f.resident = true ∧ s.jobHeld f.job = false then .running else .ready) ∧
    (64 * l < Config.devBytes → (s.lineOwner (64 * l)).isSome = true → s.mem.bad.contains l = false → l < 2 ^ 36 →
      yields (.icacheLineArrival c l) s fun t => Tab.get? t.mem.icache (c * 2 ^ 36 + l) = some (s.homeLine (64 * l)) ∧ s.sameBytes t ∧
        t.frames = s.frames) ∧
    (s.deliverable n = some (.notice k gen) → f.origin.gen = gen ∨ f.gen = gen → yields (.retirementNotice n) s fun t =>
      t.net = dropAt s.net n ∧ t.frame k = f.freed ∧ (t.frame k).state = .free ∧ (t.frame k).gen = f.gen + 1 ∧ t.fwdOf k = none) ∧
    (w.getLsbD 63 = true → x.mig = none →
      (s.moveCheck c w = .inl r → exec (.migrateStart c w) s = .next (s.setCore c { x with migres := r, migfr := w.setWidth 8 })) ∧
      (s.moveCheck c w = .inr a → yields (.migrateStart c w) s fun t =>
        let o := c * 256 + w.toNat % 256
        let at_ := s.homeOf o
        (t.frame a).state = .migrating ∧ (t.frame a).guest = true ∧
        (at_ ≠ a → (t.frame at_).state = .migrating ∧ (t.frame at_).resident = false ∧ (t.frame at_).follow = none) ∧
        (t.core c).mig = some { frame := o, src := at_, guest := a, left := (s.frame at_).state } ∧ (t.core c).migres = 0 ∧
        (t.core c).miggf = BitVec.ofNat 8 (a % 256) ∧ s.sameBytes t)) ∧
    (x.mig = some m → m.guest ≠ m.src → m.guest ≠ m.frame → m.frame / 256 = c →
      let o := s.frame m.src
      ∃ t, exec (.migrationCommit c) s = .next (x.traffic.foldl State.applyHeld t) ∧
        let g := t.frame m.guest
        (∀ r, g.genReg r = o.genReg r) ∧ (∀ r e, g.vecReg r e = o.vecReg r e) ∧ (∀ r, g.maskReg r = o.maskReg r) ∧ g.c = o.c ∧ g.origin = o.origin ∧
        g.pc = o.pc ∧ g.fcsr = o.fcsr ∧ g.guest = true ∧ g.resident = false ∧ g.job = o.job ∧ g.gen = (s.frame m.guest).gen ∧
        (m.src ≠ m.frame → (t.frame m.src).state = .free ∧ (t.frame m.src).gen = o.gen + 1) ∧
        (m.src = m.frame → (t.frame m.src).state = .migrating) ∧
        t.fwdOf m.frame = some { frame := m.frame % 256, gen := o.origin.gen, host := .guest m.guest } ∧
        (t.core c).mig = none ∧ (t.core c).traffic = [] ∧ t.net = s.net ∧ s.sameBytes t)

/-- The group table (R159, R160). Load shadow takes the members of the list at the shadow address, or sets error bit 2 where there is
none to take (an empty list too, the model's choice, log 29). Commit makes the shadow the current version and the current one the previous; without a shadow or while busy it only sets error bit 1, and error bit 0 if a
core of the domain would be in more than four groups or the version number given is not ahead. Discard empties the shadow. When no
packet of the previous version is left, it is dropped. -/
def Obligations.GroupEvents : Prop :=
  ∀ (s : State) (g : Nat) (bs : List Byte) (ms : List (BitVec 11 × Nat)),
    let x := s.group g
    let pa := x.saddr.toNat * 64
    let n := x.count.toNat
    let tiles := (s.job x.job).tiles
    let here := tiles.any (fun p => decide (p.2.1 = s.chip.chipNo)) = true
    let words : List (BitVec 32) := (List.range n).map fun i => BitVec.ofNat 32 (leNat ((bs.drop (4 * i)).take 4))
    let ahead := (x.nver - x.cur).toNat
    let stops := s.tooMany g = true ∨ (x.sv = true ∧ x.cv = true ∧ ¬(1 ≤ ahead ∧ ahead ≤ 32767))
    ((n = 0 ∨ Config.devBytes < pa + 4 * n ∨ ¬here) → exec (.groupLoadShadow g) s = .next (s.setGroup g { x with err := x.err ||| 4, shv := false })) ∧
    (n ≠ 0 → pa + 4 * n ≤ Config.devBytes → here → s.devReads .device (n / 8 + 1) pa (4 * n) = .bytes bs → expandMembers tiles words = some ms →
      yields (.groupLoadShadow g) s fun t => t.group g = { x with shv := true, shadow := ms } ∧ s.sameBytes t ∧ t.frames = s.frames) ∧
    (x.shv = false ∨ x.busy = true → exec (.groupCommit g) s = .next (s.setGroup g { x with err := x.err ||| 2 })) ∧
    (x.shv = true → x.busy = false → stops → exec (.groupCommit g) s = .next (s.setGroup g { x with err := x.err ||| 1 })) ∧
    (x.shv = true → x.busy = false → ¬stops → exec (.groupCommit g) s = .next (s.setGroup g { x with
      prev := x.cur, pv := x.cv, prevM := x.curM, cur := if x.sv = true then x.nver else x.cur + 1, curM := x.shadow, cv := true,
      shv := false, shadow := [], busy := x.cv, owner := x.job })) ∧
    exec (.groupDiscardShadow g) s = .next (s.setGroup g { x with shv := false, shadow := [] }) ∧
    (x.busy = true → s.stamped g x.prev = false →
      exec (.groupPrevDrained g) s = .next (s.setGroup g { x with busy := false, pv := false, prevM := [] }))

/-! ## Engines and arrays -/

/-- What the end of a segment does (R319, R320, R330, R332): it counts once, and only once, for the command that it belongs to: its
bytes go to the completion counter, at the member's own instance where each member has one, and the add releases the segment's
writes at domain scope. A segment whose end was counted before ends no second time. -/
def segmentCounts (s : State) (h : Word) (seg : Nat) : Prop :=
  let t := s.segEnd h seg none
  ∀ c, (s.engine (handleTile h)).cmds.find? (fun c => decide (c.handle = h)) = some c →
    let rel : Rel := { scope := .domain, chip := s.chip.chipNo, tile := some (handleTile h), knows := [segWriteNo s.chip.chipNo h (c.lead seg)] }
    let add (p : Place) : Msg := .add (.engine s.chip.chipNo h) none c.job p (BitVec.ofNat 64 (c.segLen seg)) (some rel)
    (c.segs.contains seg = true → t = s.settleCmd h) ∧
    (c.segs.contains seg = false → (c.touched = [] → s.sameBytes t ∧ t.frames = s.frames) ∧
      (∀ c', (t.engine (handleTile h)).find h = some c' → c'.segs = c.segs ++ [seg]) ∧
      (∀ p, c.ctr = some p → s.removing c.job = false → c.segLen seg ≠ 0 →
        (c.each = false → t.net = s.net ++ [add p]) ∧
        (∀ k off, c.each = true → p = .bank k off → c.member seg < 2 ^ 20 → t.net = s.net ++ [add (.bank (c.member seg) off)])))

/-- Memory as an engine reads and writes it (R313, R329, R330, R340, R366): a doubleword of own memory or of a bank that nothing has
written since reset or its owner's change reads as it is, where the program has not touched it (which other value a read returns is log 9's); a write to an open, awake bank, or to
a line that serves the job, of a job that is not removed, puts its bytes in place and changes no others but the counters it meets;
one of a removed job fails with PERM and writes nothing (R469). -/
def engineMemoryRule : Prop :=
  ∀ (s : State) (c : ECmd) (seg n : Nat) (va : Word) (w : WNo) (p : Place) (bs : List Byte),
    let served := (∃ k off, p = .bank k off ∧ off + 64 ≤ 0x300000 ∧ (s.tile k).bankOpen (off / 0x20000) = true ∧ s.touch p = (s, true)) ∨
      ∃ pa, p = .dev pa ∧ pa < Config.devBytes ∧ s.ownerCheck (tagOf c.job) (s.lineOwner pa) = .served
    served →
    (s.engPlace c false va = (s, .ok p) → c.touched = [] → unrecorded s p n → s.localBad p n = false →
      (∀ pa, p = .dev pa → s.mem.bad.contains (pa / 64) = false) → ∃ t, s.engGet c seg va n = (t, .ok (s.homeBytes p n))) ∧
    ((s.job c.job).removed = true → s.engWrite w c.job p bs = (s, .error (.fail Cause.PERM))) ∧
    ((s.job c.job).removed = false → 0 < bs.length → bs.length ≤ 64 → (∀ pa, p = .dev pa → pa % 64 + bs.length ≤ 64) →
      ∃ t, s.engWrite w c.job p bs = (t, .ok ()) ∧ sameOutside s t p bs.length ∧ t.frames = s.frames ∧ t.net = s.net ∧
        (noCounter s p bs.length → ∀ j, j < bs.length → t.byteAt (p.plus j) = bs[j]?))

/-- The copy engines (R308, R319–R323, R326–R328, R332–R334, R420). A waiting command becomes active while fewer than eight are. A segment of
an active command reads its words, writes them at their homes and ends, all in one event (log 32); words for peer chips leave in link
packets. The two halves of a side-band segment meet in the destination's pairing unit, of 16 places: the first waits, or is returned
and sent again from its source after 256 cycles, from a peer chip in the packets that are not acknowledged (log 32); the second performs
the writes of both; a half of the wrong length, or one that waited 65,536 cycles, fails the segment with SCALESEQ; the half of another
chip's engine is over for its packets instead, and that chip is told of a failure. Bytes that a peer's engine sends to a group wait for
their version; a stale one is refused; then they go to each member tile here, where they are written, or refused where there is no
place for them. A query answers with the status, and a cancel follows it. -/
def engineEventsRule : Prop :=
  ∀ (s u v w : State) (tile n i seg : Nat) (num : BitVec 27) (core : BitVec 5) (c : ECmd) (idx : List (List Byte)) (ws : List (Place × List Byte))
    (h g : Half) (who : TaskId) (job : BitVec 12) (hd : Word) (dst : Dst) (src : BitVec 11) (seq : BitVec 48) (cp : Copy) (p : Place) (tl : Nat)
    (cause : Byte) (seqs : List (BitVec 48)),
    let e := s.engine tile
    let hn := engHandle tile core.toNat num.toNat
    let found (x : Engine) (k : Word) : Prop := x.cmds.find? (fun c => decide (c.handle = k)) = some c
    let from_ := s.engine (handleTile h.handle)
    let there := s.engine h.dest
    let want := if h.scale = true then c.segLen h.seg / c.block else c.segLen h.seg
    (e.cmds.find? (fun c => decide (c.state = .queued)) = some c → (e.cmds.filter fun c => decide (c.state ≠ .queued)).length < 8 →
      s.removing c.job = false → exec (.engineCommandActivate tile) s = .next (s.updCmd c.handle fun c => { c with state := .active })) ∧
    (found e hn → c.state = .active → c.hasSeg seg = true → c.segs.contains seg = false → c.parked.contains seg = false → c.sent.contains seg = false →
      s.removing c.job = false → ¬(c.form = 1 ∧ 2 ^ 20 ≤ c.member seg) → ¬(c.form = 4 ∧ ∃ m ∈ c.members, 2 ^ 20 ≤ m) →
      s.engGets c seg 4 (c.idxVas seg) = (u, .ok idx) → u.moveWords c seg (c.moves seg (idx.map leNat)) = (v, .ok ws) → c.block = 0 →
      let runs := runsOf (if c.form = 3 then anyRival v.clk.free ws else ws)
      let far := runs.filter fun p => p.1.isPeer
      v.engAwake runs = (v, true) →
      (v.beginSeg c.handle seg).engPuts { id := segWriteNo v.chip.chipNo c.handle seg, knows := c.knows } c.job (runs.filter fun p => !p.1.isPeer) = (w, .ok ()) →
      (far = [] → exec (.engineSegmentComplete tile num core seg) s = .next ((w.showWrites c.tile runs).fresh.segEnd c.handle seg none)) ∧
      (far ≠ [] → yields (.engineSegmentComplete tile num core seg) s fun t =>
        t.mem = (w.showWrites c.tile runs).mem ∧ t.net = w.net ∧ t.frames = w.frames)) ∧
    (∀ k, segmentCounts s k seg) ∧
    (s.net[n]? = some (.half h) → h.origin = none → found from_ h.handle → s.removing c.job = false → c.segs.contains h.seg = false → c.hasSeg h.seg = true →
      (h.len ≠ want → exec (.sidebandHalfArrival n) s = .next ((s.dropMsg n).segEnd h.handle h.seg (some Cause.SCALESEQ))) ∧
      (h.len = want → there.pairing.find? h.partner = none → there.pairing.length < 16 →
        exec (.sidebandHalfArrival n) s = .next ((s.dropMsg n).setEngine h.dest { there with pairing := there.pairing ++ [{ h with since := s.clk.cycle }] })) ∧
      (h.len = want → there.pairing.find? h.partner = none → 16 ≤ there.pairing.length →
        exec (.sidebandHalfArrival n) s =
          .next ((s.dropMsg n).setEngine (handleTile h.handle) { from_ with resend := from_.resend ++ [{ h with since := s.clk.cycle }] })) ∧
      (h.len = want → there.pairing.find? h.partner = some g → s.engAwake (h.writes ++ g.writes) = (s, true) →
        ((s.dropMsg n).setEngine h.dest { there with pairing := there.pairing.filter fun x => !h.partner x }).engPuts
            { id := segWriteNo s.chip.chipNo h.handle h.seg, knows := h.knows } c.job (h.writes ++ g.writes) = (w, .ok ()) →
        exec (.sidebandHalfArrival n) s = .next ((w.showWrites (handleTile h.handle) (h.writes ++ g.writes)).segEnd h.handle h.seg none))) ∧
    (e.resend[i]? = some h → 256 ≤ s.clk.cycle - h.since →
      (h.origin = none → exec (.sidebandHalfResend tile i) s = .next ((s.setEngine tile { e with resend := dropAt e.resend i }).send (.half h))) ∧
      (h.origin = some (src, job, seqs) → yields (.sidebandHalfResend tile i) s fun t =>
        let ofHalf (o : Packet) : Prop := ∃ y, o.body = .multi y ∧ y.handle = h.handle ∧ y.seg = h.seg ∧ y.part.map Prod.fst = some h.scale
        t.mem = s.mem ∧ t.frames = s.frames ∧ t.net = s.net ∧
        (∀ o ∈ (s.stream src).out, ofHalf o → ∃ q ∈ (t.stream src).resend, q.seq = o.seq) ∧
        (∀ q ∈ (t.stream src).resend, q ∉ (s.stream src).resend → ∃ o ∈ (s.stream src).out, ofHalf o ∧ q = { o with back := true }))) ∧
    (e.pairing[i]? = some h → 65536 ≤ s.clk.cycle - h.since →
      exec (.sidebandPairTimeout tile i) s =
        .next ((s.setEngine tile { e with pairing := dropAt e.pairing i }).halfEnd h (some Cause.SCALESEQ))) ∧
    (h.origin = none → s.halfEnd h (some cause) = s.segEnd h.handle h.seg (some cause) ∧ s.halfEnd h none = s.segEnd h.handle h.seg none) ∧
    (h.origin = some (src, job, seqs) → s.halfEnd h none = seqs.foldl (fun s q => s.tileDone src h.dest q) s ∧
      (s.halfEnd h (some cause)).net = s.net ∧ s.sameBytes (s.halfEnd h (some cause)) ∧
      ((s.halfEnd h (some cause)).stream src).unsent = (s.stream src).unsent ++
        [s.packet src job false 8 (.msg (.copyRefused h.handle h.seg s.chip.chipNo (some h.dest) cause))]) ∧
    (s.net[n]? = some (.copies src seq job cp) → cp.tile = none →
      (s.classify cp.g cp.ver = .later → exec (.sidebandHalfArrival n) s = .next s) ∧
      (s.classify cp.g cp.ver = .stale → yields (.sidebandHalfArrival n) s fun t =>
        s.sameBytes t ∧ t.frames = s.frames ∧ t.net = dropAt s.net n ∧ (t.group cp.g).err = (s.group cp.g).err ||| 8 ∧
        (t.stream src).unsent = (s.stream src).unsent ++
          [s.packet src job false 8 (.msg (.copyRefused cp.handle cp.seg s.chip.chipNo none Cause.REFUSED))]) ∧
      (∀ ms, s.classify cp.g cp.ver = .members ms → yields (.sidebandHalfArrival n) s fun t =>
        s.sameBytes t ∧ t.frames = s.frames ∧ (∀ m ∈ dropAt s.net n, m ∈ t.net) ∧
        ∀ k ∈ ms, (s.dropMsg n).heldFor src seq (tileOfCore k) = false → .copies src seq job { cp with tile := some (tileOfCore k) } ∈ t.net)) ∧
    (s.net[n]? = some (.copies src seq job cp) → cp.tile = some tl → cp.part = none →
      (s.copyPlace tl cp = some p → s.engWrite { id := segWriteNo src cp.handle cp.seg, knows := cp.knows } job p cp.bytes = (w, .ok ()) →
        exec (.sidebandHalfArrival n) s = .next ((w.dropMsg n).tileDone src tl seq)) ∧
      (s.copyPlace tl cp = none → yields (.sidebandHalfArrival n) s fun t =>
        s.sameBytes t ∧ t.frames = s.frames ∧ t.net = dropAt s.net n ∧ (t.stream src).unsent = (s.stream src).unsent ++
          [s.packet src job false 8 (.msg (.copyRefused cp.handle cp.seg s.chip.chipNo (some tl) Cause.PERM))])) ∧
    (∀ stop : Bool, s.deliverable n = some (.engQuery who job hd stop dst) → hd.toNat / 2 ^ 32 % 256 ≤ 175 →
      let x := s.swapMsg n (.reply who dst (.ok (s.engStatus job hd)) none none)
      exec (.engineStatusQuery n) s = .next (if stop = true then x.engCancel job hd else x)) ∧
    (∀ stop : Bool, s.deliverable n = some (.engQuery who job hd stop dst) → 175 < hd.toNat / 2 ^ 32 % 256 →
      exec (.engineStatusQuery n) s = .next (s.swapMsg n (.reply who dst (.ok 0) none none)))

/-- The copy engines: their events, and the memory they work on. A segment is one event, and where a half waits or goes again is log 32's;
which value a read returns is log 9's. -/
def Obligations.EngineEvents : Prop := engineEventsRule ∧ engineMemoryRule

/-- The arrays (R277–R280, R283, R288, R294, R296, R299, R300, R304). A lease that nobody holds goes to the request that is next, with every
latch side empty, and its waiting task has its 0 and goes on; at its bound, with no command of its own being enqueued, or after 4,096
cycles in which a request waited and the holder did not run, it ends, and the holder's lease-lost flag is set. A fill brings the words that
reads of its places return, one after the other, as long as one is left, and marks those it could not read; with the last it is over. An
`mma` gives every element that is not bad its new value, for pair 10 the sum with 64 products of 8-bit integers, modulo
2^32. `mzero` clears. A drain sends 128 row envelopes and ends when every row has gone. A freed accumulator is free once
nothing uses it. An element found uncorrectable is marked and logged. What becomes of a fill queued before a new lease, and which of two
queued fills of a side makes it loaded, is log 30's; which value a read of a fill returns is log 9's; a request of a task of a suspended
job is never next (R466). -/
def Obligations.ArrayEvents : Prop :=
  ∀ (s : State) (tile i : Nat) (c : ACmd) (r : LeaseReq) (l : Lease) (acc : BitVec 2) (row : BitVec 7) (col : BitVec 6) (pr : BitVec 4)
    (sideB lt svc : Bool) (n : BitVec 2) (rows scales : List (Word × Place)) (cls : BitVec 4) (gs : Option (Nat × BitVec 16)) (ms : List Nat) (user : Word),
    let a := s.array tile
    let x := a.acc acc
    let lost (t : State) : Prop := (t.array tile).lease = none ∧
      (t.frame (s.homeOf l.task)).tstat = setBit (s.frame (s.homeOf l.task)).tstat 60 true ∧ ∀ k, k ≠ s.homeOf l.task → t.frame k = s.frame k
    (a.lease = none → (∀ d ∈ a.queue, ∀ p k f, d.op ≠ .mma p k f) → s.nextReq a = some r → a.reqs ≠ [] →
      yields (.arrayLeaseGrant tile) s fun t =>
        let b := t.array tile
        let k := s.homeOf r.task
        b.lease = some { task := r.task, gen := r.gen, core := r.core, frame := BitVec.ofNat 8 (k % 256), job := (s.frame k).job,
                         count := 0, bound := r.bound, quiet := s.clk.cycle } ∧
        b.a0.st = .empty ∧ b.a1.st = .empty ∧ b.b0.st = .empty ∧ b.b1.st = .empty ∧ b.reqs = a.reqs.filter (fun y => decide (y ≠ r)) ∧
        b.lastCore = r.core ∧
        ∀ d, (s.frame k).wait = .lease d → (t.frame k).wait = .none ∧ (t.frame k).rdG d = 0 ∧ (s.frame k).wentOn (t.frame k) ∧
          (t.frame k).state = if (s.frame k).resident = true ∧ s.jobHeld (s.frame k).job = false then .running else .ready) ∧
    (a.lease = some l → l.bound ≤ l.count → a.reqs ≠ [] → (s.frame (s.homeOf l.task)).counted = false → yields (.arrayLeaseBoundEnd tile) s lost) ∧
    (a.lease = some l →
      let f := s.frame (s.homeOf l.task)
      let challenged := a.reqs ≠ [] ∧ (f.resident = false ∨ f.state = .waiting ∨ f.state = .parked) ∧ f.wait ≠ .array
      (challenged → 4096 ≤ s.clk.cycle - l.quiet → yields (.arrayLeaseRevoke tile) s lost) ∧
      (challenged → (s.watchLeases.array tile).lease = some l) ∧
      (¬challenged → (s.watchLeases.array tile).lease = some { l with quiet := s.clk.cycle })) ∧
    (a.head = some (i, c) → c.op = .fill sideB lt n svc rows scales → (∃ x, x < 8 * rows.length + scales.length ∧ c.read.contains x = false) →
      ∃ w, s.fillNext tile = some w ∧ w < 8 * rows.length + scales.length ∧ c.read.contains w = false) ∧
    (a.head = some (i, c) → c.op = .fill sideB lt n svc rows scales → ∀ w va p size, s.fillNext tile = some w → fillWordAt rows scales n w = some (va, p, size) →
      ∀ u q, s.fillPlace tile c.job svc va p = (u, q) → (∀ y, q = some y → u.touch y = (u, true)) → yields (.arrayFill tile) s fun t =>
      let y := (t.array tile).latch lt sideB
      let words := 8 * rows.length
      let last := ∀ x, x < words + scales.length → x ≠ w → c.read.contains x = true
      (match q.bind fun y => (u.fillRead c.job y size).map fun bs => (y, bs) with
        | some (z, bs) => ∃ got, (unrecorded u z size → got = bs) ∧
          (w < words → Tab.get? y.data w = some (leWord got) ∧ y.bad.contains w = false) ∧
          (words ≤ w → n ≠ 0 → ∀ b, b < size → Tab.get? y.scales (4 * (w - words) + b) = some ((got[b]?).getD 0))
        | none => (w < words → y.bad.contains w = true) ∧ (words ≤ w → n ≠ 0 → ∀ b, b < size → y.badScale.contains (4 * (w - words) + b) = true)) ∧
      (¬last → (t.array tile).queue = setAt a.queue i { c with read := w :: c.read }) ∧
      (last → (t.array tile).queue = dropAt a.queue i ∧
        ((∀ d ∈ a.queue.drop (i + 1), ∀ m v r z, d.op ≠ .fill sideB lt m v r z) → y.st = .loaded))) ∧
    (a.head = some (i, c) → c.op = .mma pr acc lt → yields (.arrayMmaExecute tile) s fun t =>
      let y := (t.array tile).acc acc
      let la := a.latch lt false
      let lb := a.latch lt true
      y.bad = x.bad ∧ (t.array tile).queue = dropAt a.queue i ∧ ∀ i j, i < 128 → j < 64 →
        let old := Tab.get x.elems (64 * i + j) 0
        (x.bad.contains (64 * i + j) = true → Tab.get y.elems (64 * i + j) 0 = old) ∧
        (x.bad.contains (64 * i + j) = false → Tab.get y.elems (64 * i + j) 0 = mmaElem (pairOf pr) la lb i j old ∧
          (pr = 10 → Tab.get y.elems (64 * i + j) 0 =
            BitVec.ofInt 32 (old.toInt + ((List.range 64).map fun t => la.int8 i t * lb.int8 j t).sum)))) ∧
    (a.head = some (i, c) → c.op = .mzero acc → yields (.arrayMzeroExecute tile) s fun t =>
      let y := (t.array tile).acc acc
      (∀ e, Tab.get y.elems e 0 = 0) ∧ y.bad = [] ∧ y.owner = x.owner ∧ (t.array tile).queue = dropAt a.queue i) ∧
    (a.head = some (i, c) → c.op = .mdrain acc cls gs ms user → yields (.arrayDrainStart tile) s fun t =>
      ((t.array tile).acc acc).drain = some (List.range 128) ∧ (t.array tile).drainNo = a.drainNo + 1 ∧
      t.net = s.net ++ (List.range 128).map fun r => .env (s.rowEnv tile c acc cls ((ms[r % ms.length]?).getD 0) a.drainNo user r)) ∧
    (x.drain = some [] → yields (.arrayDrainComplete tile acc) s fun t => ((t.array tile).acc acc).drain = none ∧
      ∀ d ∈ (t.array tile).queue, d.draining = true → ∀ k g m u, d.op ≠ .mdrain acc k g m u) ∧
    (x.freeing = true → x.drain = none → (∀ d ∈ a.queue, d.op.acc? ≠ some acc) → yields (.accumulatorFree tile acc) s fun t =>
      ((t.array tile).acc acc).owner = none ∧ ((t.array tile).acc acc).freeing = false) ∧
    (yields (.arraySoftError tile acc row col) s fun t =>
      let b := t.array tile
      (b.acc acc).bad.contains (64 * row.toNat + col.toNat) = true ∧ b.sticky.getLsbD acc.toNat = true ∧
      (a.log.length < 8 → b.log.length = a.log.length + 1 ∧ b.lost = a.lost) ∧ (8 ≤ a.log.length → b.log = a.log ∧ b.lost = min (a.lost + 1) 0xFFFFFF) ∧
      s.sameBytes t ∧ t.frames = s.frames)

/-! ## Registers and the host's ports -/

/-- Register writes from the inside (R204–R208, R237, R429, R439, R446, R447, R512). `lsplit` moves the boundary: the bytes that
change side are zero, at 4 no line of the L1 stays, and a value above 4 or the old one changes nothing. `vgrp` and TVEC
keep their fields, TROOT its entry. TSCTL sets the mode of each bank that nothing depends on, and gates it or begins its
wake, in which accesses are held; a changed bank reads zero; a bank that is depended on keeps its mode and the error bit is set. A wake lasts 1,500
cycles. FBCLR drops the fault records its bits name. A notification of faults goes once to the pager's service core.
PWRCTL takes budgets between 1,000 and 3,600. An event out of its condition changes nothing (log 2). -/
def Obligations.RegisterEvents : Prop :=
  ∀ (s : State) (c t b d j r : Nat) (v : Word),
    let x := s.core c
    let y := s.tile t
    let z := s.die d
    let n := v.toNat % 8
    let o := x.split.toNat
    let same (u : State) : Prop := s.sameBytes u ∧ u.frames = s.frames
    (4 < n ∨ n = o → exec (.lsplitWrite c v) s = .next s) ∧
    (n ≤ 4 → n ≠ o → yields (.lsplitWrite c v) s fun u => (u.core c).split.toNat = n ∧ u.frames = s.frames ∧
      (∀ off, off < 0x10000 → u.byteAt (.sram c off) = if 0x4000 * min n o ≤ off ∧ off < 0x4000 * max n o then some 0 else s.byteAt (.sram c off)) ∧
      (∀ p, (∀ off, p ≠ .sram c off) → u.byteAt p = s.byteAt p) ∧
      (n = 4 → ∀ l, l < 2 ^ 36 → Tab.get? u.mem.l1 (l1Key c l) = none)) ∧
    (yields (.vgrpWrite t v) s fun u => (u.tile t).vgrp = v &&& 0x87FFFFFF00000000 ∧ same u) ∧
    (yields (.fcsrWrite v) s fun u => u.me.fcsr.toNat = 8 * (v.toNat / 8 % 2) + (if v.toNat % 8 ≤ 4 then v.toNat % 8 else s.me.fcsr.toNat % 8) ∧
      (∀ r, u.me.genReg r = s.me.genReg r) ∧ s.onlyMe u) ∧
    (yields (.tsctlWrite t v) s fun u => (u.tile t).wlock = v.getLsbD 61 ∧ u.frames = s.frames ∧
      (∀ n, n < 24 →
        let change := y.mode.getLsbD n ≠ v.getLsbD n
        let gating := y.gate.getLsbD n = false ∧ v.getLsbD (24 + n) = true
        (s.bankBusy t n = true → (u.tile t).mode.getLsbD n = y.mode.getLsbD n ∧ (u.tile t).gate.getLsbD n = y.gate.getLsbD n ∧
          (change ∨ y.gate.getLsbD n ≠ v.getLsbD (24 + n) → (u.tile t).err = true)) ∧
        (s.bankBusy t n = false → (u.tile t).mode.getLsbD n = v.getLsbD n ∧ (u.tile t).gate.getLsbD n = v.getLsbD (24 + n) ∧
          (change ∨ gating → n ∈ (u.tile t).changing ∧ ∀ off, 0x20000 * n ≤ off → off < 0x20000 * (n + 1) → u.byteAt (.bank t off) = some 0) ∧
          (y.gate.getLsbD n = true → v.getLsbD (24 + n) = false → (n, s.clk.cycle) ∈ (u.tile t).waking)))) ∧
    (exec (.tsctlChangeDone t) s = .next (s.setTile t { y with changing := [] })) ∧
    (∀ since, y.waking.find? (fun w => decide (w.1 = b)) = some (b, since) → 1500 ≤ s.clk.cycle - since →
      exec (.bankWakeDone t b) s = .next (s.setTile t { y with waking := y.waking.filter (fun w => decide (w.1 ≠ b)) })) ∧
    (j < 4096 → yields (.registerWrite (.window t (0xF4000000 + 8 * j)) v) s fun u =>
      Tab.get u.chip.troot j 0 = v &&& 0x800FFFFFFFFFC000 ∧ (∀ i, i ≠ j → Tab.get u.chip.troot i 0 = Tab.get s.chip.troot i 0) ∧ same u) ∧
    (yields (.registerWrite (.window t 0xF6000000) v) s fun u => (u.tile t).tvec = v &&& 0x81FFFFFFFFFFFFFC ∧ same u) ∧
    (j < 4096 → exec (.registerWrite (.window t (0xF9000000 + 8 * j)) v) s = .next s) ∧
    (r < 32 → yields (.registerWrite (.window t (0xF0000000 + 0x100 * r + 0x18)) v) s fun u => (u.core (t * 32 + r)).deadtrap = v.getLsbD 0 ∧ same u) ∧
    (yields (.fbclrWrite d v) s fun u => (u.die d).fb = z.fb.filter (fun p => !v.getLsbD p.1) ∧ (u.die d).notif = false ∧ same u) ∧
    (z.pgEn = true → z.notif = false → (z.fb ≠ [] ∨ z.dropped = true) → d < 2 → z.pgTile.toNat ≤ 175 → yields (.pagerNotify d) s fun u =>
      (u.die d).notif = true ∧ same u ∧ ∃ e, u.net = s.net ++ [.env e] ∧ e.core = tileKey d z.pgTile.toNat * 32 + 31 ∧ e.chip = s.chip.chipNo ∧
        e.cls = z.pgClass ∧ e.origin = 3 ∧ e.job = 0 ∧ e.pl = [z.pfstat, 0, 0, 0, 0, 0]) ∧
    (yields (.pwrctlWrite v) s fun u => u.pwr.budget.toNat = max 1000 (min 3600 (v.toNat % 65536)) ∧ same u)

/-- The host's ports (R110–R114, R116, R119, R122). The compare-and-swap of the lease gives the old value, and stores if it was the
old value, the lease is free, the port's own or over, and the new one names this port or none and ends within 10 s. Other
atomics there are answered with Completer Abort and do nothing. Expiry stops fetching. QCTL enables a queue with a ring of 16 to 65,536 commands and starts its
counts; a served queue keeps its job and its ring. A doorbell adds to the published index, which waits may observe (log 68 places the
counter), but 2^63 and more only count as bad, and so does a write that a running interface of the queue does not accept (R490). The
count done starts over with the queue, and commands of its time before count no more (log 61). A fetch takes the next published command from its ring. A command that fails a check ends without effect: with
0x0100 for a code that is none, 0x0102 for a job that is not its queue's; else it runs. A completed one leaves its record,
adds one to the host counter and to QDONE; each write that its port cannot deliver is counted (log 62). An access to the window outside every host-owned handle, with
any of its bytes, or beyond the windows of the 64 interfaces, reads all ones, writes nothing, and counts as bad; one that a running
interface does not accept completes with Unsupported Request, writes nothing, and counts as bad (R490); one inside reads and writes the
job's bytes (log 42). -/
def Obligations.HostPorts : Prop :=
  ∀ (s u : State) (port : Bool) (via : Via) (q id off size : Nat) (v old new : Word) (c : Cmd) (st : BitVec 16) (p : Option Place),
    let x := s.queueOf q
    let me : Nat := if port then 2 else 1
    let now := s.clk.dtime.toNat % 2 ^ 62
    let lease := s.fe.hlease
    let holder (w : Word) : Nat := w.toNat / 2 ^ 62
    let ends (w : Word) : Nat := w.toNat % 2 ^ 62
    let mine := q < 256 ∧ (via.port = true ↔ 128 ≤ q)
    let same (t : State) : Prop := s.sameBytes t ∧ t.frames = s.frames
    (s.sec.failed = none → yields (.hleaseCas port old new) s fun t => same t ∧ t.fe.answers = some lease :: s.fe.answers ∧
      t.fe.hlease = if lease = old ∧ (holder lease = 0 ∨ holder lease = me ∨ ends lease ≤ now) ∧ (holder new = 0 ∨ holder new = me) ∧
        ends new ≤ now + 10000000000 then new else lease) ∧
    (exec (.hleaseOtherAtomic port v) s = .next (s.answerHost none)) ∧
    (ends lease ≤ now → yields (.hostLeaseExpiry) s fun t => t.fe.expired = true ∧ (∀ q, t.served q = false) ∧ same t) ∧
    (mine → s.sec.failed = none → s.trusted via q = false →
      ∀ i ∈ ([.qctlWrite via q v, .qdbl via q v] : List Instr), yields i s fun t =>
        t.queueOf q = x ∧ t.fe.bad = min (s.fe.bad + 1) 0xFFFF ∧ t.net = s.net ∧ same t) ∧
    ((∀ y, s.ifaceOf q (fun x => decide (x = y)) = true → y.accepts via = true) → s.trusted via q = true) ∧
    (∀ y : Iface, y.st = .run → (y.accepts via = true ↔ via.stream = some y.stream ∧ via.tbit = true)) ∧
    (mine → s.sec.failed = none → s.frozen q = false → s.trusted via q = true →
      (yields (.qctlWrite via q v) s fun t =>
        let y := t.queueOf q
        let n := if x.en = true then x.lent.toNat else v.toNat % 32
        y.en = (v.getLsbD 63 && decide (4 ≤ n) && decide (n ≤ 16)) ∧ y.job = (if x.en = true then x.job else v.extractLsb' 32 12) ∧ y.lent.toNat = n ∧
        y.msix = v.extractLsb' 16 16 ∧ (y.en = true → x.en = false → y.pub = 0 ∧ y.fetch = 0 ∧ y.done = 0) ∧
        (x.en = true ∨ y.en = false → y.pub = x.pub ∧ y.fetch = x.fetch ∧ y.done = x.done) ∧ same t) ∧
      (v.toNat < 2 ^ 63 → yields (.qdbl via q v) s fun t => (t.queueOf q).pub = x.pub + v ∧ t.fe.bad = s.fe.bad ∧
        wakes s t (.dev (Config.pubPa q)) (x.pub + v) ∧ same t) ∧
      (2 ^ 63 ≤ v.toNat → yields (.qdbl via q v) s fun t => t.queueOf q = x ∧ t.fe.bad = min (s.fe.bad + 1) 0xFFFF ∧ same t)) ∧
    (q < 256 → s.served q = true → s.portUp q = true → reaches x.pub (BitVec.ofNat 64 (x.fetch + 1)) →
      (∀ d ∈ s.fe.cmds, d.q = q → d.epoch = x.epoch → d.k + 2 ^ x.lent.toNat ≠ x.fetch) → yields (.commandFetch q) s fun t =>
        let bs := s.portBytes (decide (128 ≤ q)) (x.qbase.toNat + 64 * (x.fetch % 2 ^ x.lent.toNat)) 64
        let word (o n : Nat) : Nat := leNat ((bs.drop o).take n)
        (t.queueOf q).fetch = x.fetch + 1 ∧ same t ∧ ∃ d, t.fe.cmds = s.fe.cmds ++ [d] ∧ d.id = s.fe.nextId ∧ d.q = q ∧ d.k = x.fetch ∧
          d.op.toNat = word 0 1 % 256 ∧ d.flags.toNat = word 1 1 % 256 ∧ d.job.toNat = word 2 2 % 4096 ∧ d.arg0 = BitVec.ofNat 64 (word 8 8) ∧
          d.arg1 = BitVec.ofNat 64 (word 0x10 8) ∧ d.arg2 = BitVec.ofNat 64 (word 0x18 8) ∧ d.arg3 = BitVec.ofNat 64 (word 0x20 8) ∧
          d.hostctr = BitVec.ofNat 64 (word 0x38 8) ∧ d.phase = .fetched) ∧
    (s.cmd id = some c → c.phase = .fetched → s.mayStart c = true → s.pwr.fatal = false →
      ((c.op = 0 ∨ 0x0D < c.op.toNat) → yields (.commandStart id) s fun t => same t ∧ t.cmd id = some { c with phase := .ended, status := 0x0100 }) ∧
      (c.op.toNat ∈ List.range 11 → c.op ≠ 0 → c.resv = false → c.flags.toNat < 4 → (∀ u ∈ c.uses, u.toNat / 4096 % 4 = 0) → c.job ≠ (s.queueOf c.q).job →
        yields (.commandStart id) s fun t => same t ∧ t.cmd id = some { c with phase := .ended, status := 0x0102 }) ∧
      (s.check116 c = (u, st, p) → st ≠ 0 → yields (.commandStart id) s fun t => t.mem = u.mem ∧ (u.fe = s.fe → t.cmd id = some { c with phase := .ended, status := st })) ∧
      (s.check116 c = (u, 0, p) → u.fe = s.fe → yields (.commandStart id) s fun t => t.cmd id = some { c with phase := .running, ctr := p, begun := true })) ∧
    (s.cmd id = some c → c.phase = .ended → s.pwr.fatal = false →
      let y := s.queueOf c.q
      let at_ := c.cbase.toNat + 32 * (c.k % 2 ^ c.lent.toNat)
      let port := decide (128 ≤ c.q)
      at_ + 32 ≤ 2 ^ 64 → c.hostctr.toNat + 8 ≤ 2 ^ 64 →
      (s.portUp c.q = true → c.hostctr = 0 → yields (.commandComplete id) s fun t => t.cmd id = none ∧ (c.epoch = y.epoch → (t.queueOf c.q).done = y.done + 1) ∧
        let bs := t.portBytes port at_ 32
        let word (o n : Nat) : Nat := leNat ((bs.drop o).take n)
        word 0 4 = c.k % 2 ^ 32 ∧ word 4 4 = c.tag.toNat ∧ word 8 2 = c.status.toNat ∧ word 0x0A 1 = c.op.toNat ∧ word 0x10 8 = s.clk.dtime.toNat ∧
        word 0x18 8 = c.detail.toNat ∧ (c.flags.getLsbD 0 = true → t.fe.msixSent = s.fe.msixSent ++ [(if c.q < 128 then 0 else 1, c.msix)])) ∧
      (s.portUp c.q = true → c.hostctr ≠ 0 → (c.hostctr.toNat + 8 ≤ at_ ∨ at_ + 32 ≤ c.hostctr.toNat) →
        yields (.commandComplete id) s fun t =>
          t.cmd id = none ∧ leNat (t.portBytes port c.hostctr.toNat 8) = (leNat (s.portBytes port c.hostctr.toNat 8) + 1) % 2 ^ 64) ∧
      (s.portUp c.q = false → yields (.commandComplete id) s fun t => t.cmd id = none ∧ same t ∧
        t.fe.dropcpl = min (s.fe.dropcpl + (1 + (if c.hostctr = 0 then 0 else 1) + (if c.flags.getLsbD 0 = true then 1 else 0))) 0xFFFFFFFF)) ∧
    (off / 2 ^ 34 < 64 → (∃ y, Tab.get? s.sec.ifaces (ifaceKey via.port (off / 2 ^ 34)) = some y ∧ y.accepts via = false) →
      (yields (.hostWindowAccess via off size .read) s fun t => t.fe.answers = none :: s.fe.answers ∧ t.fe.bad = min (s.fe.bad + 1) 0xFFFF ∧ same t) ∧
      (yields (.hostWindowAccess via off size (.write v)) s fun t => t.fe.answers = s.fe.answers ∧ t.fe.bad = min (s.fe.bad + 1) 0xFFFF ∧ same t)) ∧
    (64 ≤ off / 2 ^ 34 →
      (yields (.hostWindowAccess via off size .read) s fun t =>
        t.fe.answers = some (BitVec.allOnes 64) :: s.fe.answers ∧ t.fe.bad = min (s.fe.bad + 1) 0xFFFF ∧ same t) ∧
      (yields (.hostWindowAccess via off size (.write v)) s fun t => t.fe.answers = s.fe.answers ∧ t.fe.bad = min (s.fe.bad + 1) 0xFFFF ∧ same t)) ∧
    (off / 2 ^ 34 < 64 → (∀ y, Tab.get? s.sec.ifaces (ifaceKey via.port (off / 2 ^ 34)) = some y → y.accepts via = true) →
      let j := s.ifaceJob via.port (off / 2 ^ 34)
      let seen := s.windowVa via.port (off / 2 ^ 34) (off % 2 ^ 34) size
      let pas := seen.bind fun va => s.ownBytes j va size
      (pas = none →
        (∀ wr, (∀ v, wr ≠ .write v) → yields (.hostWindowAccess via off size wr) s fun t =>
          t.fe.answers = some (BitVec.allOnes 64) :: s.fe.answers ∧ t.fe.bad = min (s.fe.bad + 1) 0xFFFF ∧ same t) ∧
        (yields (.hostWindowAccess via off size (.write v)) s fun t => t.fe.answers = s.fe.answers ∧ t.fe.bad = min (s.fe.bad + 1) 0xFFFF ∧ same t)) ∧
      (∀ l bs, pas = some l → s.gatherBytes (tagOf j) l = .bytes bs → yields (.hostWindowAccess via off size .read) s fun t =>
        t.fe.answers = some (leWord bs) :: s.fe.answers ∧ t.fe.bad = s.fe.bad ∧ same t) ∧
      (∀ l, pas = some l → exec (.hostWindowAccess via off size (.write v)) s =
        .next ((s.scatterBytes (tagOf j) (l.zip (leBytes v.toNat size))).spoil (.dev (l.headD 0)) size).fresh))

/-! ## Commands and jobs -/

/-- A command has ended with a status and a detail. -/
def endedWith (t : State) (c : Cmd) (status : BitVec 16) (detail : Word) : Prop :=
  ∃ d, t.cmd c.id = some d ∧ d.phase = .ended ∧ d.status = status ∧ d.detail = detail

/-- The commands as they run (R115, R117, R118, R123–R125, R515). LAUNCH, WAIT and SIGNAL send their wait or add to the counter; LAUNCH
sends its envelopes one by one, with the job and origin 3, at most 64 on their way, and fails for a destination that does
not exist. COPYIN and COPYOUT move bytes between host and device memory and end, or fail with the cause; each moves all its bytes in one
event (log 55), and the OWN mark of a page fails it (log 59). HBIND makes a handle of a range of own pages, and one that is refused is no
last writer; HREL frees it. TOHOST marks the pages of its handle and commits when no access to them is in flight: the handle is the
host's. TODEVICE gives it back and its parked accesses go again; that of a handle that is the device's, and who wrote a handle last, are
log 42's. LOAD, by stages (log 44), ends with status 0 and an image that runs, or fails and leaves the job as it was, but that pages
written for it are free again, or waits for the other chips of its placement to end their stage; of a job that has an image it fails
with 0x0013. -/
def Obligations.CommandEvents : Prop :=
  ∀ (s u : State) (id n pa : Nat) (c : Cmd) (p : Place) (cause : Byte) (h : Handle) (bs : List Byte),
    let j := c.job
    let front : Sender := .front s.chip.chipNo id c.sent
    let asked (t : State) (m : Msg) : Prop := t.net = s.net ++ [m] ∧ t.cmd id = some { c with asked := true } ∧ s.sameBytes t
    let k := c.arg2.toNat % 4096
    let key := (c.uses.headD 0).toNat % 4096
    let port := decide (128 ≤ c.q)
    let env := s.portBytes port (c.arg0.toNat + 64 * c.sent) 64
    let word (i : Nat) : Word := leWord ((env.drop (8 * i)).take 8)
    let chip := if (word 0).extractLsb' 53 11 = 0x7FF then s.chip.chipNo else (word 0).extractLsb' 53 11
    let named := (word 0).toNat / 2 ^ 44 % 256 ≤ 175 ∧ chip.toNat < s.chip.nChips
    s.cmd id = some c → c.phase = .running → s.pwr.fatal = false →
    (c.op = 0x01 → s.portUp c.q = true →
      (c.load = none → s.imageBusy j = true → yields (.load id) s fun t => endedWith t c 0x0013 0 ∧ t.job j = s.job j ∧ s.sameBytes t) ∧
      (c.load = none → yields (.load id) s fun t => ∃ d, t.cmd id = some d ∧
        ((d.phase = .running ∧ ∃ r, d.load = some r ∧ r.wait ≠ []) ∨
        (d.phase = .ended ∧ (d.status = 0 → (t.job j).image = true ∧ (t.job j).state = 1 ∧ (t.job j).removed = false) ∧
          (d.status ≠ 0 → (s.job j).pages = [] → t.job j = s.job j)))) ∧
      (∀ r, c.load = some r → (r.wait ≠ [] → exec (.load id) s = .next s) ∧
        (r.wait = [] → r.step ≠ 4 → r.code ≠ 0 → yields (.load id) s fun t => endedWith t c (BitVec.ofNat 16 r.code) 0 ∧
          (t.job j = s.job j ∨ ((s.job j).pages ≠ [] ∧ (s.job j).image = false ∧ t.job j = { s.job j with pages := [], maps := [] }))) ∧
        (r.wait = [] → r.step = 12 → r.code = 0 → yields (.load id) s fun t => endedWith t c 0 0 ∧ t.job j = s.job j))) ∧
    (c.op = 0x02 → c.asked = false → c.ctr = some p → yields (.launch id) s fun t => asked t (.cwait (.front s.chip.chipNo id) j p c.arg3 none)) ∧
    (c.op = 0x02 → c.bounced = [] → c.sent < c.arg1.toNat → s.fe.out < 64 → s.portUp c.q = true →
      (named → yields (.launchEnvelopeSend id) s fun t => t.cmd id = some { c with sent := c.sent + 1, out := c.out + 1 } ∧ t.fe.out = s.fe.out + 1 ∧
        ∃ e, t.net = s.net ++ [.env e] ∧ hdrBy (word 0) e.hdr 3 j ∧ e.hdr.extractLsb' 53 11 = chip ∧ e.hdr.extractLsb' 39 14 = (word 0).extractLsb' 39 14 ∧
          e.w1 = word 1 ∧ e.pl = [word 2, word 3, word 4, word 5, word 6, word 7] ∧ e.sender = front ∧ e.job = j ∧ e.svc = false) ∧
      (¬named → yields (.launchEnvelopeSend id) s fun t => endedWith t c 0x0104 (BitVec.ofNat 64 (5 * 2 ^ 32 + c.sent)))) ∧
    (c.op = 0x07 → c.asked = false → c.ctr = some p → yields (.wait id) s fun t => asked t (.cwait (.front s.chip.chipNo id) j p c.arg1 none)) ∧
    (c.op = 0x08 → c.asked = false → c.ctr = some p → yields (.signal id) s fun t => asked t (.add (.front s.chip.chipNo id) none j p c.arg1
      (some { scope := .domain, chip := s.chip.chipNo, tile := none, knows := s.fe.knows }))) ∧
    (c.op = 0x03 →
      let run := s.copyIn j port c.arg0.toNat c.arg1 (s.portUp c.q) c.arg2.toNat (c.arg2.toNat / 64 + 2) 0
      (match run.2 with
       | none => exec (.copyin id) s = .next (run.1.endCmd id 0 0)
       | some (cause, off) => exec (.copyin id) s =
          .next ((run.1.blank j c.arg1 c.arg2.toNat (c.arg2.toNat / 64 + 2) off).endCmd id 0x0106 (BitVec.ofNat 64 (cause.toNat + 256 * off)))) ∧
      (s.portUp c.q = true → c.arg2.toNat = n → 0 < n → c.arg1.toNat % 64 + n ≤ 64 →
        (s.fePlace j .write c.arg1 = (u, .inl pa) → pa % 64 + n ≤ 64 → pa < Config.devBytes → u.ownerCheck (tagOf j) (u.lineOwner pa) = .served →
          yields (.copyin id) s fun t => (Config.hostServes s.clk.free c.arg0.toNat = true ∧ endedWith t c 0 0 ∧ u.sameBytesBut t (.dev pa) n ∧
              ∀ i, i < n → t.byteAt (.dev (pa + i)) = (u.portBytes port c.arg0.toNat n)[i]?) ∨
            (Config.hostServes s.clk.free c.arg0.toNat = false ∧ endedWith t c 0x0106 5)) ∧
        (s.fePlace j .write c.arg1 = (u, .inr cause) → yields (.copyin id) s fun t => endedWith t c 0x0106 5 ∨ endedWith t c 0x0106 (cause.setWidth 64)))) ∧
    (c.op = 0x04 →
      let run := s.copyOut j port c.arg0 c.arg1.toNat (s.portUp c.q) c.arg2.toNat (c.arg2.toNat / 64 + 2) 0
      (match run.2 with
       | none => exec (.copyout id) s = .next (run.1.endCmd id 0 0)
       | some (cause, off) => exec (.copyout id) s = .next (run.1.endCmd id 0x0106 (BitVec.ofNat 64 (cause.toNat + 256 * off)))) ∧
      (s.portUp c.q = true → c.arg2.toNat = n → 0 < n → c.arg0.toNat % 64 + n ≤ 64 →
        (s.fePlace j .read c.arg0 = (u, .inl pa) → u.devRead (tagOf j) pa n = .bytes bs → bs.length = n →
          yields (.copyout id) s fun t => (Config.hostServes s.clk.free c.arg1.toNat = true ∧ endedWith t c 0 0 ∧
              u.sameBytesBut t (.host (hostKey port c.arg1.toNat)) n ∧ ∀ i, i < n → t.byteAt (.host (hostKey port c.arg1.toNat + i)) = bs[i]?) ∨
            (Config.hostServes s.clk.free c.arg1.toNat = false ∧ endedWith t c 0x0106 5)) ∧
        (s.fePlace j .read c.arg0 = (u, .inr cause) → yields (.copyout id) s fun t => endedWith t c 0x0106 5 ∨ endedWith t c 0x0106 (cause.setWidth 64)))) ∧
    (c.op = 0x05 →
      let bad := c.arg0.toNat % 0x10000 ≠ 0 ∨ c.arg1.toNat % 0x10000 ≠ 0 ∨ s.handle j k ≠ none ∨ s.allOwn j c.arg0 c.arg1 = false
      (bad → yields (.hbind id) s fun t => endedWith t c 0x0101 0 ∧ t.job j = s.job j ∧ ∃ d, t.cmd id = some d ∧ t.lastWriters d = t) ∧
      (¬bad → yields (.hbind id) s fun t => endedWith t c 0 0 ∧
        t.handle j k = some { base := c.arg0, len := c.arg1, hostOwned := false, flipping := false, lastHost := false })) ∧
    (c.op = 0x06 →
      (s.handle j k = none → yields (.hrel id) s fun t => endedWith t c 0x0101 0 ∧ t.job j = s.job j) ∧
      (s.handle j k = some h →
        let v := s.failParks (s.ownParks j h.base h.len)
        exec (.hrel id) s = .next (((if h.hostOwned = true then v.setHo j h.base h.len false else v).dropHandle j k).endCmd id 0 0))) ∧
    (c.op = 0x09 →
      (s.handle j key = none → yields (.tohost id) s fun t => endedWith t c 0x0101 0 ∧ t.job j = s.job j) ∧
      (s.handle j key = some h → h.flipping = false →
        exec (.tohost id) s = .next ((s.setHo j h.base h.len true).setHandle j key { h with flipping := true })) ∧
      (s.handle j key = some h → h.flipping = true → s.accessesTo j h.base h.len = false → yields (.tohostCommit id) s fun t =>
        endedWith t c 0 0 ∧ t.handle j key = some { h with flipping := false, hostOwned := true } ∧ s.sameBytes t) ∧
      (s.handle j key = some h → s.accessesTo j h.base h.len = true → exec (.tohostCommit id) s = .next s)) ∧
    (c.op = 0x0A →
      (s.handle j key = none → yields (.todevice id) s fun t => endedWith t c 0x0101 0 ∧ t.job j = s.job j) ∧
      (s.handle j key = some h →
        let v := (if h.hostOwned = true then s.setHo j h.base h.len false else s).setHandle j key { h with hostOwned := false, lastHost := true }
        exec (.todevice id) s = .next ((v.replayParks (v.ownParks j h.base h.len)).endCmd id 0 0)))

/-- Suspending, resuming and removing a job (R433, R466–R470). SUSPEND holds a running job: it is suspended, with no resident frame,
and the command ends, or is suspending until that is so. RESUME makes it run, its aging clocks going on from where they stopped. KILL starts its removal, whose first step
ends its other commands with 0x0103, and its loads under way, and goes on with a removal in progress one step at a time while nothing of
the step is left: in step 2 refused entries fail, and in step 5 the packets of the job are discarded; without an image it only ends (log
60). The aging clocks while a job is held are log 66's. A fatal fault reported by a die starts the removal with its cause. -/
def Obligations.JobEvents : Prop :=
  ∀ (s : State) (id n : Nat) (c : Cmd) (job : BitVec 12) (cause : Byte) (image : Option (BitVec 64)),
    let j := c.job
    let st := (s.job j).state
    let starts (t : State) (j : BitVec 12) (cause : Byte) : Prop := (t.job j).state = 4 ∧ (t.job j).step = 1 ∧ (t.job j).cause = cause ∧
      (∀ d ∈ t.fe.cmds, d.job = j → d.op ≠ 0x0D → d.phase = .ended) ∧
      (∀ p ∈ t.fe.parts, p.1 / 2 ^ 11 ≠ j.toNat) ∧ ((∀ p ∈ s.fe.parts, p.1 / 2 ^ 11 ≠ j.toNat) → t.frames = s.frames ∧ s.sameBytes t)
    let goesOn (j : BitVec 12) (i : Instr) : Prop :=
      let x := s.job j
      let drop := x.step = 5 ∧ s.packetsLeft j = true
      (drop → exec i s = .next (s.dropPackets j)) ∧
      (¬drop → s.inflight j ≠ 0 → exec i s = .next (if x.step = 2 then s.failEntries j else s)) ∧
      (s.inflight j = 0 → x.step = 7 → exec i s = .next (s.removalEnd j)) ∧
      (¬drop → s.inflight j = 0 → x.step ≠ 7 → exec i s = .next ((s.setJob j { x with step := x.step + 1 }).removalAction j (x.step.toNat + 1)))
    (s.cmd id = some c → c.phase = .running → s.pwr.fatal = false →
      (c.op = 0x0B → c.asked = false → st = 1 → yields (.suspend id) s fun t => (t.job j).heldAt = s.clk.cycle ∧
        (((t.job j).state = 3 ∧ t.jobResident j = false ∧ endedWith t c 0 0) ∨
        ((t.job j).state = 2 ∧ t.jobResident j = true ∧ t.cmd id = some { c with asked := true }))) ∧
      (c.op = 0x0C → yields (.resume id) s fun t => endedWith t c 0 0 ∧ (t.job j).state = (if st = 2 ∨ st = 3 then 1 else st) ∧
        (∀ k, ∃ v, t.frame k = { s.frame k with lastIssue := v } ∧ ((s.frame k).job ≠ j → v = (s.frame k).lastIssue)) ∧
        (st = 2 ∨ st = 3 → ∀ p ∈ s.frames, p.2.job = j →
          let v := max p.2.lastIssue p.2.since
          let v' := if v ≤ (s.job j).heldAt then s.clk.cycle - ((s.job j).heldAt - v) else s.clk.cycle
          (p.1, { p.2 with lastIssue := v' }) ∈ t.frames)) ∧
      (c.op = 0x0D →
        (st = 0 → yields (.kill id) s fun t => endedWith t c 0 0 ∧ t.job j = s.job j) ∧
        (st ≠ 0 → st ≠ 4 → yields (.kill id) s fun t => starts t j 0) ∧
        (st = 4 → goesOn j (.kill id)))) ∧
    (s.net[n]? = some (.fatal job cause image) →
      ((s.job job).state = 0 → exec (.fatalFaultRemoval n) s = .next (s.dropMsg n)) ∧
      ((s.job job).state ≠ 0 → (s.job job).state ≠ 4 → yields (.fatalFaultRemoval n) s fun t => starts t job cause) ∧
      ((s.job job).state = 4 → goesOn job (.fatalFaultRemoval n)))

/-! ## The fabric -/

/-- At least nine of the sixteen copies of a guard hold this word with a valid CRC (R401). -/
def heard (copies : List (Word × Bool)) (w : Word) : Prop := 9 ≤ ((copies.take 16).filter fun c => c.2 && decide (c.1 = w)).length

/-- The Orrery ports (R399, R402–R409, R412, R415). At a guard, once in a transit, a port that takes part and has a valid entry sends its
word, and opens a circuit with the peer if the word that it heard agrees; else it counts a mismatch, the third in a row
disabling it. The forming flag, with which the meetings of the domain become known, is cleared at the first guard (log 21). In a dwell
packets leave, numbered one by one and, with those sent again, at most as many as the dwell holds. A circuit ends with its dwell or an end
marker, and what was not acknowledged goes back to its stream, the packets of a job that is gone as withdrawals. A received packet that is damaged or out of its link order is dropped; of one
for this chip the next of its ordered stream is delivered, once, an acknowledgement of the peer's frees what it covers, and
one under no key of its job is counted, at the port and for its job, and refused. A lost lane halves the width, or lets a half-width port
die at the end of the transit; in a guard it is a mismatch. A relay takes a packet into the FIFO of its destination, or refuses it, and
forwards its packets in order, when no other waiting packet wants the slot and the packet is the next of its share. A re-enabled port
waits for its trim. Domain time takes the synchronised value. -/
def Obligations.FabricEvents : Prop :=
  ∀ (s : State) (p : Nat) (copies : List (Word × Bool)) (c : Circuit) (q : Packet) (m : Msg) (lane : BitVec 2) (rest : List Packet) (time : Word)
    (next base : BitVec 48) (map : BitVec 1024),
    let x := s.port p
    let t := (s.transitAt.1 + 1) % 24
    let e := s.almanac t p
    let same (u : State) : Prop := s.sameBytes u ∧ u.frames = s.frames
    let quiet (u : State) : Prop := same u ∧ u.net = s.net
    (p ≤ 63 → s.transitAt.2 < 3980 ∨ x.guardAt = some s.transitNo → yields (.transitGuard p copies) s fun u => u.port p = x ∧ quiet u) ∧
    (p ≤ 63 → 3980 ≤ s.transitAt.2 → x.guardAt ≠ some s.transitNo → s.pwr.fatal = false → x.circuit = none → x.dying = false →
      (x.state = 1 → x.trim = none → entryValid e = true → entryLoop e = false →
        (∀ v, heard copies v → s.agrees p t v = true → yields (.transitGuard p copies) s fun u =>
          let y := u.port p
          y.circuit = some { peer := entryChip e, lanes := x.lanes &&& v.extractLsb' 35 4, occ := v.extractLsb' 11 8, txNext := 0, rxNext := 0, sent := [] } ∧
          y.mstreak = 0 ∧ y.occ = v.extractLsb' 11 8 ∧ y.pchip = entryChip e ∧ y.transit.toNat = t ∧ y.mism = x.mism ∧ u.fab.forming = false ∧ quiet u) ∧
        ((∀ v, heard copies v → s.agrees p t v = false) → yields (.transitGuard p copies) s fun u =>
          let y := u.port p
          y.circuit = none ∧ y.mism = min (x.mism + 1) 0xFFFFFF ∧ quiet u ∧
          (x.mstreak = 2 → y.state = 2 ∧ u.fab.events = min (s.fab.events + 1) 0xFFFF) ∧ (x.mstreak ≠ 2 → y.state = 1 ∧ y.mstreak = x.mstreak + 1)) ∧
        (yields (.transitGuard p copies) s fun u => (u.port p).guardAt = some s.transitNo ∧ ∃ v, (u.port p).word = some v ∧ v.toNat / 2 ^ 61 = 1 ∧
          v.extractLsb' 50 11 = s.chip.chipNo ∧ v.toNat / 2 ^ 44 % 64 = p ∧ v.toNat / 2 ^ 39 % 32 = t ∧ v.extractLsb' 35 4 = x.lanes ∧
          v.toNat / 2 ^ 33 % 4 = (if x.width = true then 1 else 0) ∧ v.toNat / 2 ^ 31 % 4 = 0 ∧ v.extractLsb' 19 12 = s.fab.epoch ∧
          v.toNat / 2 ^ 11 % 256 = s.relayFree ∧ v.toNat % 2048 = 0)) ∧
      ((x.state ≠ 1 ∨ entryValid e = false ∨ entryLoop e = true) → yields (.transitGuard p copies) s fun u => (u.port p).circuit = none ∧
        (u.port p).state = x.state ∧ (u.port p).mism = x.mism ∧ quiet u)) ∧
    (x.circuit = none → exec (.dwellStart p) s = .next s ∧ exec (.linkPacketReceive p q) s = .next s) ∧
    (x.circuit = some c → yields (.dwellStart p) s fun u => quiet u ∧ ∃ c' new, (u.port p).circuit = some c' ∧ c'.peer = c.peer ∧ c'.lanes = c.lanes ∧
      c'.rxNext = c.rxNext ∧ c'.sent = c.sent ++ new ∧ c'.used ≤ max c.used c.slots ∧ c.used + new.length ≤ c'.used ∧
      c'.txNext = c.txNext + BitVec.ofNat 15 new.length ∧ ∀ k ∈ new, k.lack = c.rxNext - 1 ∧ k.crc = true) ∧
    (p ≤ 63 → x.circuit = some c →
      let again (k : Packet) : Packet := { (if s.unwanted k = true then s.withdrawn k else k) with back := true }
      let back (u : State) : Prop := (u.port p).circuit = none ∧ quiet u ∧
        (∀ k ∈ c.sent, k.src = s.chip.chipNo → k.kind = 9 ∨ k ∈ (s.stream k.dest).out → again k ∈ (u.stream k.dest).resend) ∧
        (∀ k ∈ c.sent, k.src ≠ s.chip.chipNo → again k ∈ Tab.get u.fab.relay k.dest.toNat [])
      (s.inDwell p = true → exec (.dwellEnd p) s = .next s) ∧
      (s.inDwell p = false → yields (.dwellEnd p) s fun u => back u ∧ (u.port p).state = x.state) ∧
      (3980 ≤ s.transitAt.2 → x.guardAt ≠ some s.transitNo → s.pwr.fatal = false → x.dying = true →
        yields (.transitGuard p copies) s fun u => back u ∧ (u.port p).state = 3 ∧ (u.port p).dying = false) ∧
      (yields (.endMarkerReceive p) s fun u => back u ∧ (u.port p).state = x.state) ∧
      (s.transitAt.2 < 3600 → c.lanes.getLsbD lane.toNat = true → yields (.laneLoss p lane) s fun u => back u ∧
        (u.port p).lost = min (x.lost + 1) 0xFF ∧ (u.port p).marker = true ∧
        (x.width = true → (u.port p).dying = true ∧ (u.port p).lanes.getLsbD lane.toNat = false) ∧
        (x.width = false → (u.port p).width = true ∧ (u.port p).lanes = if lane.toNat < 2 then 0xC else 0x3))) ∧
    (p ≤ 63 → 3600 ≤ s.transitAt.2 → x.guardAt ≠ some s.transitNo → x.circuit = none → x.dying = false → x.state = 1 → x.trim = none → entryValid e = true →
      entryLoop e = false → x.lanes.getLsbD lane.toNat = true → yields (.laneLoss p lane) s fun u => (u.port p).circuit = none ∧
        (u.port p).mism = min (x.mism + 1) 0xFFFFFF ∧ (u.port p).guardAt = some s.transitNo ∧ quiet u) ∧
    (x.circuit = some c → s.pwr.fatal = false →
      (q.crc = false ∨ q.lseq ≠ c.rxNext → exec (.linkPacketReceive p q) s = .next s ∧ exec (.ackReceive p q) s = .next s) ∧
      (q.crc = true → q.lseq = c.rxNext → q.dest = s.chip.chipNo → q.kind ≠ 9 → q.kind ≠ 10 → q.bulk = false → q.body = .msg m →
        (∀ f h j l vs er, m ≠ .landing f h j l vs er) → (∀ h d v a z, m ≠ .reply h d v a z) → (∀ d g, m ≠ .bounce d g) → (∀ d j n, m ≠ .more d j n) → (∀ h n, m ≠ .tally h n) →
        (∀ h k f d y, m ≠ .copyRefused h k f d y) → (∀ h k f j b, m ≠ .halfBack h k f j b) →
        let st := s.stream q.src
        (s.keyOk q = true → q.seq = st.rxNext → yields (.linkPacketReceive p q) s fun u => u.net = s.net ++ [m.arrive s.chip.chipNo] ∧ same u ∧
          (u.stream q.src).rxNext = st.rxNext + 1 ∧ (u.stream q.src).ackDue = true ∧ ∃ d, (u.port p).circuit = some d ∧ d.rxNext = c.rxNext + 1) ∧
        (q.seq ≠ st.rxNext → yields (.linkPacketReceive p q) s fun u => quiet u ∧ ∃ d, (u.port p).circuit = some d ∧ d.rxNext = c.rxNext + 1) ∧
        (s.keyOk q = false → q.seq = st.rxNext → yields (.linkPacketReceive p q) s fun u => quiet u ∧ (u.port p).keyfail = min (x.keyfail + 1) 0xFFFFFFFF ∧
          Tab.get u.fab.jobFails q.job.toNat 0 = Tab.get s.fab.jobFails q.job.toNat 0 + 1 ∧ ∀ r, m.refusalOf Cause.PERM = some r → (u.stream q.src).unsent = st.unsent ++ [s.packet q.src q.job false 8 (.msg r)])) ∧
      (q.crc = true → q.lseq = c.rxNext → q.dest = s.chip.chipNo → q.kind = 9 → q.body = .acks next base map → s.keyOk q = true →
        (∀ a, (s.stream q.src).ackSeq = some a → a < q.seq) → yields (.ackReceive p q) s fun u => quiet u ∧
          let out := (s.stream q.src).out
          (∀ k, k ∈ (u.stream q.src).out ↔ k ∈ out ∧ (k.bulk = false → next ≤ k.seq) ∧
            (k.bulk = true → base ≤ k.seq ∧ ¬((k.seq - base).toNat < 1024 ∧ map.getLsbD (k.seq - base).toNat = true))) ∧
          (u.stream q.src).ackSeq = some q.seq) ∧
      (q.crc = true → q.lseq = c.rxNext → q.dest ≠ s.chip.chipNo → q.rly = true →
        let fifo (u : State) : List Packet := Tab.get u.fab.relay q.dest.toNat []
        (s.relayRefuses c q = true → yields (.linkPacketReceive p q) s fun u => quiet u ∧ fifo u = fifo s ∧
          ∃ d, (u.port p).circuit = some d ∧ d.rxNext = c.rxNext + 1) ∧
        (s.relayRefuses c q = false → s.keyOk q = true → yields (.linkPacketReceive p q) s fun u => quiet u ∧
          fifo u = fifo s ++ [{ q with rly := false, made := s.fab.made }])) ∧
      (Tab.get s.fab.relay c.peer.toNat [] = q :: rest → (s.picks c).length ≤ c.slots - c.used → s.inDwell p = true →
        s.pickOn c (fun r => decide (x.share r.job = x.share q.job)) = some { dest := c.peer, from_ := .relay, idx := 0, q := q } → yields (.relayForward p) s fun u => quiet u ∧
        Tab.get u.fab.relay c.peer.toNat [] = rest ∧ ∃ d k, (u.port p).circuit = some d ∧ d.sent = c.sent ++ [k] ∧ k.body = q.body ∧ k.dest = q.dest ∧
          k.src = q.src ∧ k.seq = q.seq ∧ k.lseq = c.txNext ∧ k.rly = false)) ∧
    (p ≤ 63 → x.state ≠ 1 → yields (.portReenable p) s fun u => (u.port p).state = 1 ∧ (u.port p).mstreak = 0 ∧ (u.port p).trim = some s.clk.dtime ∧ quiet u) ∧
    (p ≤ 63 → x.state = 1 → exec (.portReenable p) s = .next s) ∧
    (yields (.domainTimeResync time) s fun u => u.clk.dtime = time ∧ quiet u)

/-! ## The root of trust, debug, power and reset -/

/-- The root of trust's requests (R475–R485, R488, R490). After a boot that stopped only measurements are given, and while a dissolve
is served nothing else. Versions come first, then capabilities and negotiation, and nothing else before it. The chain in slot 0 is
Virow's root with the certificates of the identity and the alias key. KEY_EXCHANGE begins a session that FINISH opens, if the
requester has the session's secret and proves the key it authenticates with, or drops. A request that needs a session is refused outside
one; one for the wrap key or a new job, outside a session whose requester authenticated; one for a job that exists is answered with OWNER
there, as it is for every other key than the owner's. JOB_CREATE gives a free tag its policy, owner and nonce. LINK_KEY installs the key
that a record unwraps to, once for each job, from its owner; a record with a reserved field set, with a point off the curve or without
its check value is refused. IMAGE_KEY adds one of at most four keys. JOB_DISSOLVE begins the removal of a job that has an image; it ends
one without: its keys and its policy are gone. A rollback counter only rises, and on a signed request (with which key and of which bytes
is log 13's). An interface is locked, with a binding that is log 41's, started and stopped, and stopping disables its queues; out of its
condition it is not (log 2). The order of
SPDM's messages is the model's (log 45), and so are the uninterpreted functions of cryptography (log 13). -/
def Obligations.SecurityEvents : Prop :=
  ∀ (s : State) (port : Bool) (a b c d n slot ver : Nat) (nonce : BitVec 256) (key : BitVec 1064) (peer : Option (BitVec 1064)) (ss : Session)
    (h : BitVec 512) (j : BitVec 12) (run sig dbg p0 p1 : Bool) (r : BitVec 1536) (ide : BitVec 256) (pr : Proof) (sg : List Byte),
    let sent (t : State) (x : Reply) : Prop := t.sec.replies = x :: s.sec.replies
    let refused (i : Instr) : Prop := exec i s = .next (s.reply .refused)
    let slots := (List.range 8).map fun k => Tab.get s.sec.slots (k + 1) 0
    let policy (v : Word) : Prop := v.getLsbD 63 = true ∧ v.getLsbD 62 = run ∧ v.getLsbD 61 = sig ∧ v.getLsbD 60 = dbg ∧ v.getLsbD 59 = p1 ∧
      v.getLsbD 58 = p0 ∧ v.getLsbD 57 = false ∧ v.toNat % 2 ^ 57 = 0
    let nik := (s.jpol j).toNat / 2 ^ 54 % 8
    let q := recJob r
    let bad := recReserved r = true ∨ Config.onCurve (recPoint r) = false
    let face := s.iface port a
    (s.sec.failed ≠ none ∨ s.sec.dissolving ≠ none →
      ∀ i ∈ ([.getVersion port, .getCapabilities port, .negotiateAlgorithms port a b c d, .getDigests port, .getCertificate port slot, .challenge port nonce, .keyExchange port key,
        .finish port n peer pr, .heartbeat port n, .endSession port n, .getWrapkey port n, .jobCreate port n j run sig dbg p0 p1 false,
        .linkKey port n r, .imageKey port n j key, .rollbackAdvance port n slot ver sg, .ideKmKeyProgramming port n a ide] : List Instr),
        exec i s = .next s) ∧
    (s.sec.failed ≠ none → s.sec.dissolving = none → (yields (.getMeasurements port nonce) s fun t => ∃ g, sent t (.signed slots g)) ∧
      exec (.jobDissolve port n j) s = .next s) ∧
    (s.sec.dissolving ≠ none → exec (.getMeasurements port nonce) s = .next s ∧
      (s.sec.dissolving ≠ some (port, n, j) → exec (.jobDissolve port n j) s = .next s)) ∧
    (s.sec.dissolving = some (port, n, j) → exec (.jobDissolve port n j) s = .next (s.dissolveStep j)) ∧
    (s.sec.failed = none → s.sec.dissolving = none → s.sec.versioned.length = 2 → s.sec.negotiated.length = 2 →
      (yields (.getVersion port) s fun t => sent t (.version 0x12 0x13) ∧ t.versioned port = true) ∧
      (yields (.getCapabilities port) s fun t => sent t (if s.versioned port = true then .capabilities else .refused)) ∧
      (yields (.negotiateAlgorithms port a b c d) s fun t =>
        let ok := a = 0 ∧ b = 0 ∧ c = 0 ∧ d = 0 ∧ s.versioned port = true
        (ok → sent t .algorithms ∧ t.negotiated port = true) ∧ (¬ok → sent t .refused ∧ t.negotiated port = false)) ∧
      (s.negotiated port = false → refused (.getDigests port) ∧ refused (.getCertificate port slot) ∧ refused (.challenge port nonce) ∧
        refused (.getMeasurements port nonce) ∧ refused (.keyExchange port key)) ∧
      (s.negotiated port = true →
        (yields (.getDigests port) s fun t => ∃ g, sent t (.digests g)) ∧
        (yields (.getCertificate port 0) s fun t => sent t (.certificate Config.virowRoot identityCert s.aliasCert)) ∧ (slot ≠ 0 → refused (.getCertificate port slot)) ∧
        (yields (.challenge port nonce) s fun t => ∃ g, sent t (.signed [] g)) ∧
        (yields (.getMeasurements port nonce) s fun t => ∃ g, sent t (.signed slots g)) ∧
        (yields (.keyExchange port key) s fun t => if Config.onCurve key then
            let mine := Config.dheShare s.sec.draws
            sent t (.share s.sec.nextSess mine) ∧ t.sec.sessions = s.sec.sessions ++ [{
              port := port, id := s.sec.nextSess, open_ := false, th := Config.sha512 (keyBytes key ++ keyBytes mine), draw := s.sec.draws,
              peer := none }] ∧ t.sec.nextSess = s.sec.nextSess + 1
          else sent t .refused ∧ t.sec.sessions = s.sec.sessions)) ∧
      (s.opening port n = none → refused (.finish port n peer pr)) ∧
      (∀ x, s.opening port n = some x →
        let proves := pr.mac = Config.finishMac x.draw x.th ∧ ∀ k, peer = some k → Config.ecdsaOk k x.th pr.sig = true
        (proves → yields (.finish port n peer pr) s fun t => sent t .ok ∧
          { x with open_ := true, peer := peer.map fun k => Config.sha512 (keyBytes k) } ∈ t.sec.sessions ∧ x ∉ t.sec.sessions) ∧
        (¬proves → yields (.finish port n peer pr) s fun t => sent t .refused ∧ t.sec.sessions = s.sec.sessions.filter fun y => decide (y ≠ x))) ∧
      (s.session port n = none → refused (.heartbeat port n) ∧ refused (.endSession port n) ∧ refused (.getWrapkey port n) ∧
        refused (.jobCreate port n j run sig dbg p0 p1 false) ∧ refused (.imageKey port n j key) ∧ refused (.jobDissolve port n j) ∧
        refused (.linkKey port n r) ∧ refused (.rollbackAdvance port n slot ver sg) ∧ refused (.ideKmKeyProgramming port n a ide)) ∧
      (s.session port n = some ss →
        (yields (.heartbeat port n) s fun t => sent t .ok) ∧
        (yields (.endSession port n) s fun t => sent t .ok ∧ ss ∉ t.sec.sessions) ∧
        (let rises := advanceSigned slot ver sg = true ∧ Tab.get s.sec.rollback slot 0 < ver
         (rises → yields (.rollbackAdvance port n slot ver sg) s fun t => sent t .ok ∧ Tab.get t.sec.rollback slot 0 = ver ∧
           ∀ k, k ≠ slot → Tab.get t.sec.rollback k 0 = Tab.get s.sec.rollback k 0) ∧
         (¬rises → yields (.rollbackAdvance port n slot ver sg) s fun t => sent t .refused ∧ t.sec.rollback = s.sec.rollback)) ∧
        (a ≤ 64 → s.sec.ifaces = [] → yields (.ideKmKeyProgramming port n a ide) s fun t => sent t .ok ∧
          Tab.get? t.sec.ide ((if port then 65 else 0) + a) = some ide) ∧
        (64 < a → yields (.ideKmKeyProgramming port n a ide) s fun t => sent t .refused ∧ t.sec.ide = s.sec.ide) ∧
        (ss.peer = none → refused (.getWrapkey port n) ∧ refused (.jobCreate port n j run sig dbg p0 p1 false) ∧
          (recKind r = 2 → refused (.linkKey port n r)) ∧
          (∀ i ∈ ([.imageKey port n j key, .jobDissolve port n j] : List Instr), yields i s fun t =>
            sent t (.status (if s.jobExists j = true then 3 else 2)) ∧ t.chip = s.chip ∧ t.sec.imgKeys = s.sec.imgKeys) ∧
          (recKind r ≠ 2 → yields (.linkKey port n r) s fun t =>
            sent t (.status (if s.jobExists q = true then 3 else 2)) ∧ t.chip = s.chip ∧ t.sec.linkKeys = s.sec.linkKeys)) ∧
        (ss.peer = some h →
          (yields (.getWrapkey port n) s fun t => sent t (.wrapKey s.wrapCert)) ∧
          (s.jobExists j = true → yields (.jobCreate port n j run sig dbg p0 p1 false) s fun t => sent t (.status 1) ∧ t.chip = s.chip) ∧
          (s.jobExists j = false → (j = 0 → yields (.jobCreate port n j run sig dbg p0 p1 false) s fun t => sent t (.status 7) ∧ t.chip = s.chip) ∧
            (yields (.jobCreate port n j run sig dbg p0 p1 true) s fun t => sent t (.status 7) ∧ t.chip = s.chip) ∧
            (j ≠ 0 → yields (.jobCreate port n j run sig dbg p0 p1 false) s fun t => (∃ x, sent t (.nonce x) ∧ Tab.get? t.sec.nonces j.toNat = some x) ∧
              policy (t.jpol j) ∧ Tab.get? t.sec.owners j.toNat = some h)) ∧
          (s.jobExists j = false → yields (.imageKey port n j key) s (fun t => sent t (.status 2)) ∧ yields (.jobDissolve port n j) s fun t => sent t (.status 2)) ∧
          (s.jobExists j = true → Tab.get? s.sec.owners j.toNat ≠ some h →
            yields (.imageKey port n j key) s (fun t => sent t (.status 3)) ∧ yields (.jobDissolve port n j) s fun t => sent t (.status 3)) ∧
          (s.jobExists j = true → Tab.get? s.sec.owners j.toNat = some h →
            (nik = 4 → yields (.imageKey port n j key) s fun t => sent t (.status 6)) ∧
            (nik < 4 → yields (.imageKey port n j key) s fun t => if Config.onCurve key then sent t (.status 0) ∧
                Tab.get t.sec.imgKeys j.toNat [] = Tab.get s.sec.imgKeys j.toNat [] ++ [key] ∧ (t.jpol j).toNat / 2 ^ 54 % 8 = nik + 1
              else sent t (.status 7)) ∧
            ((s.job j).state ≠ 4 → s.imageBusy j = false → yields (.jobDissolve port n j) s fun t => sent t (.status 0) ∧ t.jpol j = 0 ∧
              Tab.get? t.sec.linkKeys j.toNat = none ∧ Tab.get? t.sec.memKeys j.toNat = none ∧ Tab.get? t.sec.imgKeys j.toNat = none ∧
              Tab.get? t.sec.owners j.toNat = none ∧ (t.job j).image = false ∧ t.sec.dissolving = none) ∧
            ((s.job j).state ≠ 4 → s.imageBusy j = true → yields (.jobDissolve port n j) s fun t => t.sec.replies = s.sec.replies ∧
              t.sec.dissolving = some (port, n, j) ∧ (t.job j).state = 4 ∧ (t.job j).step = 1)) ∧
          (recKind r = 1 → s.jobExists q = true → Tab.get? s.sec.owners q.toNat = some h →
            ((s.jpol q).getLsbD 57 = true → yields (.linkKey port n r) s fun t => sent t (.status 5) ∧ t.sec.linkKeys = s.sec.linkKeys) ∧
            ((s.jpol q).getLsbD 57 = false → yields (.linkKey port n r) s fun t =>
              (bad → sent t (.status 4)) ∧
              (¬bad → match s.unwrapped r (Tab.get s.sec.nonces q.toNat 0) with
                | some k => sent t (.status 0) ∧ (t.jpol q).getLsbD 57 = true ∧ t.linkKey q = some k
                | none => sent t (.status 4)))) ∧
          (recKind r = 2 → (q ≠ 0 → yields (.linkKey port n r) s fun t => sent t (.status 4)) ∧
            (q = 0 → s.linkKey 0 ≠ none → yields (.linkKey port n r) s fun t => sent t (.status 5) ∧ t.sec.linkKeys = s.sec.linkKeys))))) ∧
    (face.st = .unlocked → (a < 64 → yields (.tdispLockInterface port a) s fun t => (t.iface port a).st = .locked ∧
        128 * (if port then 1 else 0) ≤ (t.iface port a).qlo ∧ (t.iface port a).qlo ≤ (t.iface port a).qhi ∧ (t.iface port a).qhi < 128 * (if port then 1 else 0) + 128 ∧ (t.iface port a).stream < 64) ∧
      exec (.tdispStartInterface port a) s = .next s ∧ exec (.tdispStopInterface port a) s = .next s) ∧
    (face.st = .locked → yields (.tdispStartInterface port a) s fun t => t.iface port a = { face with st := .run }) ∧
    (face.st ≠ .unlocked → exec (.tdispLockInterface port a) s = .next s ∧ yields (.tdispStopInterface port a) s fun t =>
      t.iface port a = { face with st := .unlocked } ∧ ∀ k, face.qlo ≤ k → k ≤ face.qhi → (t.queueOf k).en = false)

/-- Eyepiece (R492–R500). Opening needs a job whose policy allows it: it ends every session and extends measurement slot 8, which the
model does by a hash of its own choice (log 35); else the error bit is set. Closing ends a stop and the trace. A stop that
is asked for is reached when nothing of the job runs, and tells it by a record of kind 9; force evicts what runs. Trace is
enabled if every page of its buffer can be pinned. The record at the head of the queue is written at its slot, or lost in
a full buffer that does not wrap; the count of records saturates. A disable writes what is queued, one record after the other; a forced
release only counts it. A sample is a record of kind 10 for a core with a resident task, once in each sample period, counted from reset
(log 47), whose time is never before that of the core's last record; after a forced release it counts as lost. An event out of its
condition changes nothing (log 2). -/
def Obligations.DebugEvents : Prop :=
  ∀ (s : State) (v : Word) (r : Rec) (rs : List Rec) (pa k lg cycle : Nat) (f : Frame),
    let d := s.dbg
    let j : BitVec 12 := v.extractLsb' 0 12
    let same (t : State) : Prop := s.sameBytes t ∧ t.frames = s.frames
    let slot := d.head.toNat % d.capacity
    let told (t : State) (q : Rec) : Prop := t.dbg.queue = [q] ∧ q.w0.toNat / 2 ^ 60 = 9 ∧ q.w0.toNat / 2 ^ 11 % 4096 = d.job.toNat ∧ q.w2 = s.clk.dtime
    let more (n : Word) : Word := if n = BitVec.allOnes 64 then n else n + 1
    let at_ := pa + 32 * slot % 0x10000
    let room := Tab.get? d.pins (d.base.toNat + 32 * slot / 0x10000) = some (pa, lg) ∧ pa % 64 = 0 ∧ at_ < Config.devBytes ∧
      s.ownerCheck (tagOf d.job) (s.lineOwner at_) = .served ∧ (d.wrap = true ∨ d.head.toNat < d.capacity)
    let written (t : State) : Prop := t.dbg.head = more d.head ∧ t.frames = s.frames ∧ s.sameBytesBut t (.dev at_) 32 ∧
      ∀ i, i < 32 → t.byteAt (.dev (at_ + i)) =
        (leBytes r.w0.toNat 8 ++ leBytes r.w1.toNat 8 ++ leBytes r.w2.toNat 8 ++ leBytes r.w3.toNat 8)[i]?
    (v.getLsbD 63 = true → d.open_ = false →
      ((s.jpol j).getLsbD 60 = true → yields (.eyctlWrite v) s fun t => same t ∧ t.dbg.open_ = true ∧ t.dbg.job = j ∧ t.dbg.state = 0 ∧
        t.dbg.reason = 0 ∧ t.sec.sessions = [] ∧ ∀ n, n ≠ 8 → Tab.get? t.sec.slots n = Tab.get? s.sec.slots n) ∧
      ((s.jpol j).getLsbD 60 = false → yields (.eyctlWrite v) s fun t => same t ∧ t.dbg.open_ = false ∧ t.dbg.job = j ∧ t.dbg.err = true ∧ t.sec = s.sec)) ∧
    (v.getLsbD 63 = true → v.getLsbD 62 = false → d.open_ = true → d.job = j → exec (.eyctlWrite v) s = .next s) ∧
    (v.getLsbD 63 = false → yields (.eyctlWrite v) s fun t => t.dbg.open_ = false ∧ t.dbg.job = j ∧ t.frames = s.frames ∧
      (d.open_ = true → t.dbg.state = 0 ∧ t.dbg.on = false) ∧ (v.getLsbD 62 = true → t.dbg.err = false)) ∧
    (d.open_ = true → d.state = 0 → exec .eystopGo s = .next (s.setDbg { d with state := 1, reason := 0 })) ∧
    (d.open_ = false ∨ d.state ≠ 0 → exec .eystopGo s = .next s) ∧
    (d.open_ = true → exec .eystopRes s = .next (s.setDbg { d with state := 0 })) ∧ (d.open_ = false → exec .eystopRes s = .next s) ∧
    (d.open_ = true → d.state = 1 → yields .eystopForce s fun t => s.sameBytes t ∧ t.dbg.state = 2 ∧ t.dbg.reason = 1 ∧
      (∀ k, (s.frame k).resident = true → (s.frame k).job = d.job → ((s.frame k).state = .running ∨ (s.frame k).handling = true) →
        (t.frame k).resident = false ∧ (t.frame k).pc = (s.frame k).pc) ∧ (d.on = true → d.queue = [] → ∃ q, told t q)) ∧
    (d.open_ = true → d.state = 1 → s.stopRun = 0 → yields .stopReached s fun t => same t ∧ t.dbg.state = 2 ∧ t.dbg.reason = d.reason ∧
      (d.on = true → d.queue = [] → ∃ q, told t q)) ∧
    (d.state ≠ 1 ∨ s.stopRun ≠ 0 → exec .stopReached s = .next s) ∧
    (d.open_ = true → d.on = false →
      let pages := List.range (2 ^ d.lgSize)
      let fits := d.base.toNat % 2 ^ d.lgSize = 0 ∧ ∀ i ∈ pages, s.pinPage (d.base.toNat + i) ≠ none
      (fits → yields (.traceEnable v) s fun t => same t ∧ t.dbg.on = true ∧ t.dbg.head = 0 ∧ t.dbg.wrap = v.getLsbD 61 ∧ t.dbg.chrono = v.getLsbD 60 ∧
        t.dbg.samp = v.getLsbD 59 ∧ t.dbg.pinerr = d.pinerr ∧ ∀ i ∈ pages, Tab.get? t.dbg.pins (d.base.toNat + i) = s.pinPage (d.base.toNat + i)) ∧
      (¬fits → yields (.traceEnable v) s fun t => same t ∧ t.dbg.on = false ∧ t.dbg.pinerr = true)) ∧
    (d.open_ = true → d.on = true → yields .traceDisable s fun t => t.frames = s.frames ∧ t.dbg.on = false ∧ t.dbg.pins = [] ∧ t.dbg.queue = [] ∧
      (let all := d.queue.foldl (fun u _ => u.writeNext) s
       t.mem = all.mem ∧ t.dbg.head = all.dbg.head ∧ t.dbg.lostcnt = all.dbg.lostcnt) ∧ (d.queue = [] → same t) ∧ (d.queue = [r] → room → written t)) ∧
    (d.on = true → yields .traceForceRelease s fun t => same t ∧ t.dbg.on = false ∧ t.dbg.pins = [] ∧ t.dbg.queue = [] ∧ t.dbg.lost = true ∧
      t.dbg.lostcnt = min (d.lostcnt + d.queue.length) 0xFFFFFFFF) ∧
    (d.on = true → d.queue = r :: rs →
      (room → yields .traceRecordWrite s fun t => t.dbg.queue = rs ∧ written t) ∧
      (d.wrap = false → d.capacity ≤ d.head.toNat → yields .traceRecordWrite s fun t => same t ∧ t.dbg.queue = rs ∧ t.dbg.lost = true ∧
        t.dbg.head = d.head ∧ t.dbg.lostcnt = min (d.lostcnt + 1) 0xFFFFFFFF)) ∧
    (d.samp = false ∨ d.open_ = false ∨ (d.on = false ∧ d.forced = false) ∨ d.period s.clk.cycle < d.sampNext → exec .traceSample s = .next s) ∧
    (d.samp = true → d.open_ = true → d.sampNext ≤ d.period s.clk.cycle → s.frames = [(k, f)] → f.resident = true → f.job = d.job →
      (d.on = true → d.queue = [] → yields .traceSample s fun t => same t ∧ t.dbg.sampNext = d.sampNext + 1 ∧ ∃ q, t.dbg.queue = [q] ∧
        q.w0.toNat / 2 ^ 60 = 10 ∧ q.w0.toNat / 2 ^ 11 % 4096 = d.job.toNat ∧ q.w3.toNat % 2 ^ 55 = f.wordAddr.toNat / 4 % 2 ^ 55 ∧
        q.w2.toNat = max s.clk.dtime.toNat (Tab.get d.recAt (f.coreAt k) 0).toNat) ∧
      (d.on = false → d.forced = true → yields .traceSample s fun t => same t ∧ t.dbg.queue = d.queue ∧
        t.dbg.lostcnt = min (d.lostcnt + 1) 0xFFFFFFFF)) ∧
    (d.sampling = true → d.period cycle ≤ (s.catchUp cycle).dbg.sampNext)

/-- Power, wear and reset (R475, R476, R491, R501, R505–R510). A throttle lowers a setting, and a restoration gives back one from before a
throttle that is not over; the change is in the chronograph's ring with its old and new setting, and no other change happens. A
worker core that held nothing for 65,536 cycles is gated, and a wake ends it. A scrub marks an uncorrectable line, of device memory, of a bank, of a
scratchpad or of a frame image, or an element or scale byte of a latch; a line of the relay region is device-fatal. After a
device-fatal event, which is told to both ports, nothing is activated and no command starts. Power-on reset leaves no job,
task or key, keeps host memory and the rollback counters, and boots: each stage is checked, its key by the fused hash, its signature, and
its version by the rollback counter, and the slots are those measured before the first stage that failed. An event out of its condition
changes nothing (log 2). -/
def Obligations.PowerEvents : Prop :=
  ∀ (s : State) (p : ThrottlePlace) (cause : BitVec 4) (new : BitVec 24) (c id : Nat) (line : Place) (reason : BitVec 7) (stages : List BootStage)
    (fuses : BitVec 512) (rest : List (ThrottlePlace × BitVec 24)),
    let x := s.core c
    let same (t : State) : Prop := s.sameBytes t ∧ t.frames = s.frames
    let changed (t : State) : Prop := same t ∧ t.dbg.chrhead = (if s.dbg.chrhead = BitVec.allOnes 64 then s.dbg.chrhead else s.dbg.chrhead + 1) ∧
      t.limit p = new ∧ (∀ q, q ≠ p → (∃ l ∈ s.pwr.limits, l.1 = q) → t.limit q = s.limit q) ∧
      ∃ r, Tab.get? t.dbg.chr (s.dbg.chrhead.toNat % 16) = some r ∧ r.w0.toNat / 2 ^ 60 = 7 ∧ r.w2 = s.clk.dtime ∧
        r.w3.toNat = p.qty.toNat * 2 ^ 60 + cause.toNat * 2 ^ 56 + new.toNat * 2 ^ 24 + (s.limit p).toNat
    (p.qty ≤ 2 → cause < 4 → new < s.limit p → yields (.throttleChange p cause new) s fun t => changed t ∧ t.pwr.before = (p, s.limit p) :: s.pwr.before) ∧
    (p.qty ≤ 2 → cause = 4 → restored p new s.pwr.before = some rest →
      yields (.throttleChange p cause new) s fun t => changed t ∧ t.pwr.before = rest) ∧
    (4 < cause ∨ 2 < p.qty ∨ (cause < 4 ∧ ¬new < s.limit p) ∨ (cause = 4 ∧ restored p new s.pwr.before = none) →
      exec (.throttleChange p cause new) s = .next s) ∧
    ((∀ b ∈ s.pwr.before, b ≠ (p, new)) ↔ restored p new s.pwr.before = none) ∧
    (c % 32 ≠ 31 → s.residents c = [] → x.queue = [] → 65536 ≤ s.clk.cycle - x.idleAt →
      exec (.coreClockGate c) s = .next (s.setCore c { x with gated := true })) ∧
    (c % 32 = 31 ∨ s.residents c ≠ [] ∨ x.queue ≠ [] ∨ s.clk.cycle - x.idleAt < 65536 → exec (.coreClockGate c) s = .next s) ∧
    (yields (.coreWake c) s fun t => same t ∧ (t.core c).gated = false ∧ (t.core c).queue = x.queue) ∧
    (exec (.scrubLine line false) s = .next s) ∧
    (∀ pa, line = .dev pa → Config.reserved pa = true → Config.inRelay pa = true → s.pwr.fatal = false →
      yields (.scrubLine line true) s fun t => same t ∧ t.pwr.fatal = true ∧ t.pwr.reason = 2) ∧
    (∀ pa, line = .dev pa → (Config.reserved pa && Config.inRelay pa) = false → pa < Config.devBytes → yields (.scrubLine line true) s fun t =>
      same t ∧ t.mem.bad.contains (pa / 64) = true ∧ ∀ l, l ≠ pa / 64 → t.mem.bad.contains l = s.mem.bad.contains l) ∧
    (∀ u b l2 i, line = .latch u b l2 false i → yields (.scrubLine line true) s fun t => same t ∧ (((t.array u).latch l2 b).bad.contains i) = true) ∧
    (∀ u b l2 i, line = .latch u b l2 true i → yields (.scrubLine line true) s fun t => same t ∧ (((t.array u).latch l2 b).badScale.contains i) = true) ∧
    (∀ k off, line = .bank k off → yields (.scrubLine line true) s fun t => same t ∧ t.mem.bad = s.mem.bad ∧
      ∀ l, t.mem.badBank.contains l = (decide (l = bankKey k off / 64) || s.mem.badBank.contains l)) ∧
    (∀ k off, line = .sram k off → yields (.scrubLine line true) s fun t => same t ∧ t.mem.bad = s.mem.bad ∧
      ∀ l, t.mem.badSram.contains l = (decide (l = sramKey k off / 64) || s.mem.badSram.contains l)) ∧
    (∀ k off, line = .image k off → yields (.scrubLine line true) s fun t => same t ∧ t.mem.bad = s.mem.bad ∧
      ∀ l, t.mem.badArena.contains l = (decide (l = (k * 4096 + off) / 64) || s.mem.badArena.contains l)) ∧
    (s.pwr.fatal = false → yields (.deviceFatal reason) s fun t => same t ∧ t.pwr.fatal = true ∧ t.pwr.reason = reason ∧
      t.fe.msixSent = s.fe.msixSent ++ [(0, 0), (1, 0)]) ∧
    (s.pwr.fatal = true → exec (.deviceFatal reason) s = .next s ∧ exec (.activation c) s = .next s ∧ exec (.commandStart id) s = .next s ∧
      exec (.commandComplete id) s = .next s) ∧
    (let failed := s.bootFails stages
     let digests := (stages.take 5).map (·.digest) ++ [fuses]
     let passes (n : Nat) : Prop := ∃ x, stages[n - 2]? = some x ∧ Config.sha512 (keyBytes x.key) = Config.firmwareKeyHash ∧
       Config.ecdsaOk x.key x.digest x.sig = true ∧ Tab.get s.sec.rollback n 0 ≤ x.version
     (failed = none ↔ ∀ n, 2 ≤ n → n ≤ 6 → passes n) ∧ (∀ n, failed = some n → 2 ≤ n ∧ n ≤ 6 ∧ ¬passes n ∧ ∀ m, 2 ≤ m → m < n → passes m) ∧
     yields (.powerOnReset stages fuses) s fun t => t.frames = [] ∧ t.cores = [] ∧ t.net = [] ∧ t.chip = Chip.reset ∧ t.fe = FrontEnd.reset ∧
      t.fab = Fabric.reset ∧ t.dbg = Debug.reset ∧ t.pwr.fatal = false ∧ t.mem.dev = [] ∧ t.mem.host = s.mem.host ∧ t.sec.rollback = s.sec.rollback ∧
      t.sec.linkKeys = [] ∧ t.sec.memKeys = [] ∧ t.sec.imgKeys = [] ∧ t.sec.sessions = [] ∧ t.sec.failed = failed ∧
      (t.pwr.stage.toNat = if failed = none then 5 else 0) ∧
      (∀ i, i < 6 → (∀ f, failed = some f → i + 2 < f) → Tab.get? t.sec.slots (i + 2) = some ((digests[i]?).getD 0)) ∧
      (∀ i, i < 6 → (∃ f, failed = some f ∧ f ≤ i + 2) → Tab.get? t.sec.slots (i + 2) = none))

/-- Right after reset (R79, R110, R163, R203, R205, R276, R418, R425, R429, R439, R476, R509, R512): no lease, no job, every frame free, every bank
a cache way, no forwarding, every array without a holder or an owner, ports enabled at full width with no circuit, no
translation, no trap vector, trace off, the power budget 3,600; nothing listed in a memory. The values of registers the
spec gives none for are the model's (log 5), and so is the form of the memories (log 6). -/
def Obligations.ResetState : Prop :=
  let s := State.reset
  s.mem.wf = true ∧ s.mem.dev = [] ∧ s.net = [] ∧ s.fe.hlease = 0 ∧ s.clk.cycle = 0 ∧ s.pwr.budget = 3600 ∧ s.pwr.stat = 0 ∧ s.pwr.fatal = false ∧
  s.dbg.open_ = false ∧ s.dbg.on = false ∧ s.sec.sessions = [] ∧ s.fab.forming = true ∧
  (∀ k, (s.frame k).state = .free ∧ (s.frame k).gen = 0 ∧ (s.frame k).tstat = 0 ∧ (s.frame k).fcsr = 0) ∧
  (∀ c, (s.core c).split = 0 ∧ (s.core c).job = none ∧ (s.core c).queue = [] ∧ (s.core c).journal = [] ∧ (s.core c).fwd = [] ∧ (s.core c).deadtrap = false ∧
    ∀ n, ((s.core c).handler n).bound = false) ∧
  (∀ t n, n < 24 → (s.tile t).mode.getLsbD n = true ∧ (s.tile t).gate.getLsbD n = false) ∧ (∀ t, (s.tile t).tvec = 0 ∧ (s.tile t).vgrp = 0) ∧
  (∀ t, (s.array t).lease = none ∧ (s.array t).queue = [] ∧ ((s.array t).acc 0).owner = none ∧ ((s.array t).acc 3).owner = none ∧ (s.array t).a0.st = .empty) ∧
  (∀ j, s.job j = Job.reset ∧ s.jpol j = 0 ∧ Tab.get s.chip.troot j.toNat 0 = 0) ∧
  (∀ q, (s.queueOf q).en = false) ∧ (∀ p, (s.port p).state = 1 ∧ (s.port p).lanes = 0xF ∧ (s.port p).circuit = none ∧ (s.port p).width = false)
end

