-- ==== Sys2Proof/Laws/Table.lean ====
section
/-! SUPPORT. Laws/Table.lean: what reads of a sparse table give after a write, and that every memory operation keeps
the canonical form. -/

namespace Sys2Proof.Machine

variable {α : Type}

@[simp] theorem Tab.get?_put_self (t : Table α) (k : Nat) (v : α) : Tab.get? (Tab.put t k v) k = some v := by
  induction t with
  | nil => simp [Tab.put, Tab.get?]
  | cons p t ih =>
    obtain ⟨j, w⟩ := p
    simp only [Tab.put]
    split
    · simp [Tab.get?]
    · split
      · simp [Tab.get?]
      · rw [Tab.get?, if_neg (by omega), ih]

theorem Tab.get?_put_ne (t : Table α) {k i : Nat} (v : α) (h : i ≠ k) : Tab.get? (Tab.put t k v) i = Tab.get? t i := by
  induction t with
  | nil => simp [Tab.put, Tab.get?, Ne.symm h]
  | cons p t ih =>
    obtain ⟨j, w⟩ := p
    simp only [Tab.put]
    split
    · rw [Tab.get?, if_neg (Ne.symm h)]
    · split
      · rename_i hk
        subst hk
        simp [Tab.get?, Ne.symm h]
      · simp only [Tab.get?, ih]

@[simp] theorem Tab.get_put_self (t : Table α) (k : Nat) (v d : α) : Tab.get (Tab.put t k v) k d = v := by
  simp [Tab.get]

theorem Tab.get_put_ne (t : Table α) {k i : Nat} (v d : α) (h : i ≠ k) : Tab.get (Tab.put t k v) i d = Tab.get t i d := by
  simp [Tab.get, Tab.get?_put_ne t v h]

@[simp] theorem Tab.put_put (t : Table α) (k : Nat) (v w : α) : Tab.put (Tab.put t k v) k w = Tab.put t k w := by
  induction t with
  | nil => simp [Tab.put]
  | cons p t ih =>
    obtain ⟨j, x⟩ := p
    simp only [Tab.put]
    by_cases h1 : k < j
    · simp [h1, Tab.put]
    · by_cases h2 : k = j
      · subst h2; simp [Tab.put]
      · simp [h1, h2, Tab.put, ih]

@[simp] theorem Tab.get?_del_self (t : Table α) (k : Nat) : Tab.get? (Tab.del t k) k = none := by
  induction t with
  | nil => rfl
  | cons p t ih =>
    obtain ⟨j, w⟩ := p
    simp only [Tab.del]
    split
    · exact ih
    · rename_i h
      simp [Tab.get?, h, ih]

theorem Tab.get?_del_ne (t : Table α) {k i : Nat} (h : i ≠ k) : Tab.get? (Tab.del t k) i = Tab.get? t i := by
  induction t with
  | nil => rfl
  | cons p t ih =>
    obtain ⟨j, w⟩ := p
    simp only [Tab.del]
    split
    · rename_i hj
      simp [ih, Tab.get?, hj, Ne.symm h]
    · simp [Tab.get?, ih]

/-! ## Bytes -/

/-- A byte write, read back with what an unlisted key reads as. -/
theorem Mem.get_put_self (m : List Host.Cell) (a : Nat) (b d : Byte) : Tab.get (Mem.put (some d) m a b) a d = b := by
  unfold Mem.put
  split
  · rename_i h
    simp [Tab.get, Option.some.inj h]
  · simp

theorem Mem.get?_put_ne (blank : Option Byte) (m : List Host.Cell) {a i : Nat} (b : Byte) (h : i ≠ a) :
    Tab.get? (Mem.put blank m a b) i = Tab.get? m i := by
  unfold Mem.put
  split
  · exact Tab.get?_del_ne m h
  · exact Tab.get?_put_ne m b h

theorem Mem.get?_put_none (m : List Host.Cell) (a : Nat) (b : Byte) : Tab.get? (Mem.put none m a b) a = some b := by
  simp [Mem.put]

/-- A write of consecutive bytes leaves every other key alone. -/
theorem Mem.get?_puts_out (blank : Option Byte) (bs : List Byte) :
    ∀ (m : List Host.Cell) (a i : Nat), i < a ∨ a + bs.length ≤ i → Tab.get? (Mem.puts blank m a bs) i = Tab.get? m i := by
  induction bs with
  | nil => intro m a i _; rfl
  | cons b bs ih =>
    intro m a i h
    simp only [List.length_cons] at h
    rw [Mem.puts, ih _ _ _ (by omega), Mem.get?_put_ne _ _ _ (by omega)]

/-- A write of consecutive bytes reads back, where unlisted keys read as `d`. -/
theorem Mem.get_puts_in (d : Byte) (bs : List Byte) :
    ∀ (m : List Host.Cell) (a i : Nat) (_ : i < bs.length), Tab.get (Mem.puts (some d) m a bs) (a + i) d = bs[i] := by
  induction bs with
  | nil => intro m a i h; simp at h
  | cons b bs ih =>
    intro m a i h
    cases i with
    | zero =>
      have hout := Mem.get?_puts_out (some d) bs (Mem.put (some d) m a b) (a + 1) a (by omega)
      simp only [Mem.puts, Nat.add_zero, List.getElem_cons_zero, Tab.get, hout]
      exact Mem.get_put_self m a b d
    | succ i =>
      have := ih (Mem.put (some d) m a b) (a + 1) i (by simpa using h)
      rw [Mem.puts, show a + (i + 1) = a + 1 + i by omega]
      simpa using this

/-- The same where unlisted keys have no value. -/
theorem Mem.get?_puts_none (bs : List Byte) :
    ∀ (m : List Host.Cell) (a i : Nat) (_ : i < bs.length), Tab.get? (Mem.puts none m a bs) (a + i) = some bs[i] := by
  induction bs with
  | nil => intro m a i h; simp at h
  | cons b bs ih =>
    intro m a i h
    cases i with
    | zero =>
      have hout := Mem.get?_puts_out none bs (Mem.put none m a b) (a + 1) a (by omega)
      simp only [Mem.puts, Nat.add_zero, List.getElem_cons_zero, hout]
      exact Mem.get?_put_none m a b
    | succ i =>
      have := ih (Mem.put none m a b) (a + 1) i (by simpa using h)
      rw [Mem.puts, show a + (i + 1) = a + 1 + i by omega]
      simpa using this

/-! ## The canonical form -/

theorem Mem.rising_mono {lo hi : Nat} (h : lo ≤ hi) : ∀ m, Mem.rising hi m = true → Mem.rising lo m = true
  | [], _ => rfl
  | (k, _) :: t, hm => by
    simp only [Mem.rising, Bool.and_eq_true, decide_eq_true_eq] at hm ⊢
    exact ⟨by omega, hm.2⟩

theorem Mem.rising_put (k : Nat) (v : Byte) : ∀ (m : List Host.Cell) (lo : Nat), lo ≤ k → Mem.rising lo m = true →
    Mem.rising lo (Tab.put m k v) = true
  | [], lo, h, _ => by simp [Tab.put, Mem.rising, h]
  | (j, w) :: t, lo, h, hm => by
    simp only [Mem.rising, Bool.and_eq_true, decide_eq_true_eq] at hm
    simp only [Tab.put]
    split
    · simp only [Mem.rising, Bool.and_eq_true, decide_eq_true_eq]
      exact ⟨h, by omega, hm.2⟩
    · split
      · rename_i hk
        subst hk
        simp only [Mem.rising, Bool.and_eq_true, decide_eq_true_eq]
        exact ⟨h, hm.2⟩
      · simp only [Mem.rising, Bool.and_eq_true, decide_eq_true_eq]
        exact ⟨hm.1, Mem.rising_put k v t (j + 1) (by omega) hm.2⟩

theorem Mem.rising_filter (p : Host.Cell → Bool) : ∀ (m : List Host.Cell) (lo : Nat), Mem.rising lo m = true →
    Mem.rising lo (m.filter p) = true
  | [], _, _ => rfl
  | (j, w) :: t, lo, hm => by
    simp only [Mem.rising, Bool.and_eq_true, decide_eq_true_eq] at hm
    rw [List.filter_cons]
    split
    · simp only [Mem.rising, Bool.and_eq_true, decide_eq_true_eq]
      exact ⟨hm.1, Mem.rising_filter p t (j + 1) hm.2⟩
    · exact Mem.rising_mono (by omega) _ (Mem.rising_filter p t (j + 1) hm.2)

theorem Tab.del_eq_filter (t : Table α) (k : Nat) : Tab.del t k = t.filter (fun p => decide (p.1 ≠ k)) := by
  induction t with
  | nil => rfl
  | cons p t ih =>
    obtain ⟨j, w⟩ := p
    simp only [Tab.del, List.filter_cons, ih]
    by_cases h : j = k <;> simp [h]

theorem Tab.mem_put {t : Table α} {k : Nat} {v : α} {p : Nat × α} (h : p ∈ Tab.put t k v) : p = (k, v) ∨ p ∈ t := by
  induction t with
  | nil => simpa [Tab.put] using h
  | cons q t ih =>
    obtain ⟨j, w⟩ := q
    simp only [Tab.put] at h
    split at h
    · simpa using h
    · split at h
      · rcases List.mem_cons.mp h with h | h
        · exact .inl h
        · exact .inr (List.mem_cons_of_mem _ h)
      · rcases List.mem_cons.mp h with h | h
        · exact .inr (by simp [h])
        · exact (ih h).imp id (List.mem_cons_of_mem _)

theorem Mem.wf_filter {blank : Option Byte} {m : List Host.Cell} (p : Host.Cell → Bool) (h : Mem.wf blank m = true) :
    Mem.wf blank (m.filter p) = true := by
  simp only [Mem.wf, Bool.and_eq_true, List.all_eq_true] at h ⊢
  exact ⟨Mem.rising_filter p m 0 h.1, fun c hc => h.2 c (List.mem_filter.mp hc).1⟩

theorem Mem.wf_clear {blank : Option Byte} {m : List Host.Cell} (lo hi : Nat) (h : Mem.wf blank m = true) :
    Mem.wf blank (Tab.clear m lo hi) = true := Mem.wf_filter _ h

theorem Mem.wf_put {blank : Option Byte} {m : List Host.Cell} (a : Nat) (b : Byte) (h : Mem.wf blank m = true) :
    Mem.wf blank (Mem.put blank m a b) = true := by
  unfold Mem.put
  split
  · rw [Tab.del_eq_filter]; exact Mem.wf_filter _ h
  · rename_i hb
    simp only [Mem.wf, Bool.and_eq_true, List.all_eq_true] at h ⊢
    refine ⟨Mem.rising_put a b m 0 (Nat.zero_le _) h.1, fun c hc => ?_⟩
    rcases Tab.mem_put hc with rfl | hc
    · simpa using hb
    · exact h.2 c hc

theorem Mem.wf_puts {blank : Option Byte} (bs : List Byte) : ∀ {m : List Host.Cell} (a : Nat), Mem.wf blank m = true →
    Mem.wf blank (Mem.puts blank m a bs) = true := by
  induction bs with
  | nil => intro m a h; exact h
  | cons b bs ih => intro m a h; exact ih _ (Mem.wf_put a b h)

end Sys2Proof.Machine
end

