-- ==== Sys2Proof/Laws/State.lean ====
section
/-! SUPPORT. Laws/State.lean: for each update of the state, each field after it; reading back the entry it wrote; the
state right after reset. -/

namespace Sys2Proof.Machine

/-! ## `setFrame` -/

@[simp] theorem State.setFrame_clk (s : State) (k : Nat) (f : Frame) : (s.setFrame k f).clk = s.clk := rfl
@[simp] theorem State.setFrame_run (s : State) (k : Nat) (f : Frame) : (s.setFrame k f).run = s.run := rfl
@[simp] theorem State.setFrame_mem (s : State) (k : Nat) (f : Frame) : (s.setFrame k f).mem = s.mem := rfl
@[simp] theorem State.setFrame_frames (s : State) (k : Nat) (f : Frame) : (s.setFrame k f).frames = Tab.put s.frames k f := rfl
@[simp] theorem State.setFrame_cores (s : State) (k : Nat) (f : Frame) : (s.setFrame k f).cores = s.cores := rfl
@[simp] theorem State.setFrame_tiles (s : State) (k : Nat) (f : Frame) : (s.setFrame k f).tiles = s.tiles := rfl
@[simp] theorem State.setFrame_arrays (s : State) (k : Nat) (f : Frame) : (s.setFrame k f).arrays = s.arrays := rfl
@[simp] theorem State.setFrame_engines (s : State) (k : Nat) (f : Frame) : (s.setFrame k f).engines = s.engines := rfl
@[simp] theorem State.setFrame_net (s : State) (k : Nat) (f : Frame) : (s.setFrame k f).net = s.net := rfl
@[simp] theorem State.setFrame_dies (s : State) (k : Nat) (f : Frame) : (s.setFrame k f).dies = s.dies := rfl
@[simp] theorem State.setFrame_parks (s : State) (k : Nat) (f : Frame) : (s.setFrame k f).parks = s.parks := rfl
@[simp] theorem State.setFrame_chip (s : State) (k : Nat) (f : Frame) : (s.setFrame k f).chip = s.chip := rfl
@[simp] theorem State.setFrame_fe (s : State) (k : Nat) (f : Frame) : (s.setFrame k f).fe = s.fe := rfl
@[simp] theorem State.setFrame_fab (s : State) (k : Nat) (f : Frame) : (s.setFrame k f).fab = s.fab := rfl
@[simp] theorem State.setFrame_sec (s : State) (k : Nat) (f : Frame) : (s.setFrame k f).sec = s.sec := rfl
@[simp] theorem State.setFrame_dbg (s : State) (k : Nat) (f : Frame) : (s.setFrame k f).dbg = s.dbg := rfl
@[simp] theorem State.setFrame_pwr (s : State) (k : Nat) (f : Frame) : (s.setFrame k f).pwr = s.pwr := rfl

/-! ## `setCore` -/

@[simp] theorem State.setCore_clk (s : State) (c : Nat) (x : Core) : (s.setCore c x).clk = s.clk := rfl
@[simp] theorem State.setCore_run (s : State) (c : Nat) (x : Core) : (s.setCore c x).run = s.run := rfl
@[simp] theorem State.setCore_mem (s : State) (c : Nat) (x : Core) : (s.setCore c x).mem = s.mem := rfl
@[simp] theorem State.setCore_frames (s : State) (c : Nat) (x : Core) : (s.setCore c x).frames = s.frames := rfl
@[simp] theorem State.setCore_cores (s : State) (c : Nat) (x : Core) : (s.setCore c x).cores = Tab.put s.cores c x := rfl
@[simp] theorem State.setCore_tiles (s : State) (c : Nat) (x : Core) : (s.setCore c x).tiles = s.tiles := rfl
@[simp] theorem State.setCore_arrays (s : State) (c : Nat) (x : Core) : (s.setCore c x).arrays = s.arrays := rfl
@[simp] theorem State.setCore_engines (s : State) (c : Nat) (x : Core) : (s.setCore c x).engines = s.engines := rfl
@[simp] theorem State.setCore_net (s : State) (c : Nat) (x : Core) : (s.setCore c x).net = s.net := rfl
@[simp] theorem State.setCore_dies (s : State) (c : Nat) (x : Core) : (s.setCore c x).dies = s.dies := rfl
@[simp] theorem State.setCore_parks (s : State) (c : Nat) (x : Core) : (s.setCore c x).parks = s.parks := rfl
@[simp] theorem State.setCore_chip (s : State) (c : Nat) (x : Core) : (s.setCore c x).chip = s.chip := rfl
@[simp] theorem State.setCore_fe (s : State) (c : Nat) (x : Core) : (s.setCore c x).fe = s.fe := rfl
@[simp] theorem State.setCore_fab (s : State) (c : Nat) (x : Core) : (s.setCore c x).fab = s.fab := rfl
@[simp] theorem State.setCore_sec (s : State) (c : Nat) (x : Core) : (s.setCore c x).sec = s.sec := rfl
@[simp] theorem State.setCore_dbg (s : State) (c : Nat) (x : Core) : (s.setCore c x).dbg = s.dbg := rfl
@[simp] theorem State.setCore_pwr (s : State) (c : Nat) (x : Core) : (s.setCore c x).pwr = s.pwr := rfl

/-! ## `setTile` -/

@[simp] theorem State.setTile_clk (s : State) (t : Nat) (x : Tile) : (s.setTile t x).clk = s.clk := rfl
@[simp] theorem State.setTile_run (s : State) (t : Nat) (x : Tile) : (s.setTile t x).run = s.run := rfl
@[simp] theorem State.setTile_mem (s : State) (t : Nat) (x : Tile) : (s.setTile t x).mem = s.mem := rfl
@[simp] theorem State.setTile_frames (s : State) (t : Nat) (x : Tile) : (s.setTile t x).frames = s.frames := rfl
@[simp] theorem State.setTile_cores (s : State) (t : Nat) (x : Tile) : (s.setTile t x).cores = s.cores := rfl
@[simp] theorem State.setTile_tiles (s : State) (t : Nat) (x : Tile) : (s.setTile t x).tiles = Tab.put s.tiles t x := rfl
@[simp] theorem State.setTile_arrays (s : State) (t : Nat) (x : Tile) : (s.setTile t x).arrays = s.arrays := rfl
@[simp] theorem State.setTile_engines (s : State) (t : Nat) (x : Tile) : (s.setTile t x).engines = s.engines := rfl
@[simp] theorem State.setTile_net (s : State) (t : Nat) (x : Tile) : (s.setTile t x).net = s.net := rfl
@[simp] theorem State.setTile_dies (s : State) (t : Nat) (x : Tile) : (s.setTile t x).dies = s.dies := rfl
@[simp] theorem State.setTile_parks (s : State) (t : Nat) (x : Tile) : (s.setTile t x).parks = s.parks := rfl
@[simp] theorem State.setTile_chip (s : State) (t : Nat) (x : Tile) : (s.setTile t x).chip = s.chip := rfl
@[simp] theorem State.setTile_fe (s : State) (t : Nat) (x : Tile) : (s.setTile t x).fe = s.fe := rfl
@[simp] theorem State.setTile_fab (s : State) (t : Nat) (x : Tile) : (s.setTile t x).fab = s.fab := rfl
@[simp] theorem State.setTile_sec (s : State) (t : Nat) (x : Tile) : (s.setTile t x).sec = s.sec := rfl
@[simp] theorem State.setTile_dbg (s : State) (t : Nat) (x : Tile) : (s.setTile t x).dbg = s.dbg := rfl
@[simp] theorem State.setTile_pwr (s : State) (t : Nat) (x : Tile) : (s.setTile t x).pwr = s.pwr := rfl

/-! ## `setArray` -/

@[simp] theorem State.setArray_clk (s : State) (t : Nat) (x : TArray) : (s.setArray t x).clk = s.clk := rfl
@[simp] theorem State.setArray_run (s : State) (t : Nat) (x : TArray) : (s.setArray t x).run = s.run := rfl
@[simp] theorem State.setArray_mem (s : State) (t : Nat) (x : TArray) : (s.setArray t x).mem = s.mem := rfl
@[simp] theorem State.setArray_frames (s : State) (t : Nat) (x : TArray) : (s.setArray t x).frames = s.frames := rfl
@[simp] theorem State.setArray_cores (s : State) (t : Nat) (x : TArray) : (s.setArray t x).cores = s.cores := rfl
@[simp] theorem State.setArray_tiles (s : State) (t : Nat) (x : TArray) : (s.setArray t x).tiles = s.tiles := rfl
@[simp] theorem State.setArray_arrays (s : State) (t : Nat) (x : TArray) : (s.setArray t x).arrays = Tab.put s.arrays t x := rfl
@[simp] theorem State.setArray_engines (s : State) (t : Nat) (x : TArray) : (s.setArray t x).engines = s.engines := rfl
@[simp] theorem State.setArray_net (s : State) (t : Nat) (x : TArray) : (s.setArray t x).net = s.net := rfl
@[simp] theorem State.setArray_dies (s : State) (t : Nat) (x : TArray) : (s.setArray t x).dies = s.dies := rfl
@[simp] theorem State.setArray_parks (s : State) (t : Nat) (x : TArray) : (s.setArray t x).parks = s.parks := rfl
@[simp] theorem State.setArray_chip (s : State) (t : Nat) (x : TArray) : (s.setArray t x).chip = s.chip := rfl
@[simp] theorem State.setArray_fe (s : State) (t : Nat) (x : TArray) : (s.setArray t x).fe = s.fe := rfl
@[simp] theorem State.setArray_fab (s : State) (t : Nat) (x : TArray) : (s.setArray t x).fab = s.fab := rfl
@[simp] theorem State.setArray_sec (s : State) (t : Nat) (x : TArray) : (s.setArray t x).sec = s.sec := rfl
@[simp] theorem State.setArray_dbg (s : State) (t : Nat) (x : TArray) : (s.setArray t x).dbg = s.dbg := rfl
@[simp] theorem State.setArray_pwr (s : State) (t : Nat) (x : TArray) : (s.setArray t x).pwr = s.pwr := rfl

/-! ## `setEngine` -/

@[simp] theorem State.setEngine_clk (s : State) (t : Nat) (x : Engine) : (s.setEngine t x).clk = s.clk := rfl
@[simp] theorem State.setEngine_run (s : State) (t : Nat) (x : Engine) : (s.setEngine t x).run = s.run := rfl
@[simp] theorem State.setEngine_mem (s : State) (t : Nat) (x : Engine) : (s.setEngine t x).mem = s.mem := rfl
@[simp] theorem State.setEngine_frames (s : State) (t : Nat) (x : Engine) : (s.setEngine t x).frames = s.frames := rfl
@[simp] theorem State.setEngine_cores (s : State) (t : Nat) (x : Engine) : (s.setEngine t x).cores = s.cores := rfl
@[simp] theorem State.setEngine_tiles (s : State) (t : Nat) (x : Engine) : (s.setEngine t x).tiles = s.tiles := rfl
@[simp] theorem State.setEngine_arrays (s : State) (t : Nat) (x : Engine) : (s.setEngine t x).arrays = s.arrays := rfl
@[simp] theorem State.setEngine_engines (s : State) (t : Nat) (x : Engine) : (s.setEngine t x).engines = Tab.put s.engines t x := rfl
@[simp] theorem State.setEngine_net (s : State) (t : Nat) (x : Engine) : (s.setEngine t x).net = s.net := rfl
@[simp] theorem State.setEngine_dies (s : State) (t : Nat) (x : Engine) : (s.setEngine t x).dies = s.dies := rfl
@[simp] theorem State.setEngine_parks (s : State) (t : Nat) (x : Engine) : (s.setEngine t x).parks = s.parks := rfl
@[simp] theorem State.setEngine_chip (s : State) (t : Nat) (x : Engine) : (s.setEngine t x).chip = s.chip := rfl
@[simp] theorem State.setEngine_fe (s : State) (t : Nat) (x : Engine) : (s.setEngine t x).fe = s.fe := rfl
@[simp] theorem State.setEngine_fab (s : State) (t : Nat) (x : Engine) : (s.setEngine t x).fab = s.fab := rfl
@[simp] theorem State.setEngine_sec (s : State) (t : Nat) (x : Engine) : (s.setEngine t x).sec = s.sec := rfl
@[simp] theorem State.setEngine_dbg (s : State) (t : Nat) (x : Engine) : (s.setEngine t x).dbg = s.dbg := rfl
@[simp] theorem State.setEngine_pwr (s : State) (t : Nat) (x : Engine) : (s.setEngine t x).pwr = s.pwr := rfl

/-! ## `setDie` -/

@[simp] theorem State.setDie_clk (s : State) (d : Nat) (x : Die) : (s.setDie d x).clk = s.clk := rfl
@[simp] theorem State.setDie_run (s : State) (d : Nat) (x : Die) : (s.setDie d x).run = s.run := rfl
@[simp] theorem State.setDie_mem (s : State) (d : Nat) (x : Die) : (s.setDie d x).mem = s.mem := rfl
@[simp] theorem State.setDie_frames (s : State) (d : Nat) (x : Die) : (s.setDie d x).frames = s.frames := rfl
@[simp] theorem State.setDie_cores (s : State) (d : Nat) (x : Die) : (s.setDie d x).cores = s.cores := rfl
@[simp] theorem State.setDie_tiles (s : State) (d : Nat) (x : Die) : (s.setDie d x).tiles = s.tiles := rfl
@[simp] theorem State.setDie_arrays (s : State) (d : Nat) (x : Die) : (s.setDie d x).arrays = s.arrays := rfl
@[simp] theorem State.setDie_engines (s : State) (d : Nat) (x : Die) : (s.setDie d x).engines = s.engines := rfl
@[simp] theorem State.setDie_net (s : State) (d : Nat) (x : Die) : (s.setDie d x).net = s.net := rfl
@[simp] theorem State.setDie_dies (s : State) (d : Nat) (x : Die) : (s.setDie d x).dies = Tab.put s.dies d x := rfl
@[simp] theorem State.setDie_parks (s : State) (d : Nat) (x : Die) : (s.setDie d x).parks = s.parks := rfl
@[simp] theorem State.setDie_chip (s : State) (d : Nat) (x : Die) : (s.setDie d x).chip = s.chip := rfl
@[simp] theorem State.setDie_fe (s : State) (d : Nat) (x : Die) : (s.setDie d x).fe = s.fe := rfl
@[simp] theorem State.setDie_fab (s : State) (d : Nat) (x : Die) : (s.setDie d x).fab = s.fab := rfl
@[simp] theorem State.setDie_sec (s : State) (d : Nat) (x : Die) : (s.setDie d x).sec = s.sec := rfl
@[simp] theorem State.setDie_dbg (s : State) (d : Nat) (x : Die) : (s.setDie d x).dbg = s.dbg := rfl
@[simp] theorem State.setDie_pwr (s : State) (d : Nat) (x : Die) : (s.setDie d x).pwr = s.pwr := rfl

/-! ## `setJob` -/

@[simp] theorem State.setJob_clk (s : State) (j : BitVec 12) (x : Job) : (s.setJob j x).clk = s.clk := rfl
@[simp] theorem State.setJob_run (s : State) (j : BitVec 12) (x : Job) : (s.setJob j x).run = s.run := rfl
@[simp] theorem State.setJob_mem (s : State) (j : BitVec 12) (x : Job) : (s.setJob j x).mem = s.mem := rfl
@[simp] theorem State.setJob_frames (s : State) (j : BitVec 12) (x : Job) : (s.setJob j x).frames = s.frames := rfl
@[simp] theorem State.setJob_cores (s : State) (j : BitVec 12) (x : Job) : (s.setJob j x).cores = s.cores := rfl
@[simp] theorem State.setJob_tiles (s : State) (j : BitVec 12) (x : Job) : (s.setJob j x).tiles = s.tiles := rfl
@[simp] theorem State.setJob_arrays (s : State) (j : BitVec 12) (x : Job) : (s.setJob j x).arrays = s.arrays := rfl
@[simp] theorem State.setJob_engines (s : State) (j : BitVec 12) (x : Job) : (s.setJob j x).engines = s.engines := rfl
@[simp] theorem State.setJob_net (s : State) (j : BitVec 12) (x : Job) : (s.setJob j x).net = s.net := rfl
@[simp] theorem State.setJob_dies (s : State) (j : BitVec 12) (x : Job) : (s.setJob j x).dies = s.dies := rfl
@[simp] theorem State.setJob_parks (s : State) (j : BitVec 12) (x : Job) : (s.setJob j x).parks = s.parks := rfl
@[simp] theorem State.setJob_fe (s : State) (j : BitVec 12) (x : Job) : (s.setJob j x).fe = s.fe := rfl
@[simp] theorem State.setJob_fab (s : State) (j : BitVec 12) (x : Job) : (s.setJob j x).fab = s.fab := rfl
@[simp] theorem State.setJob_sec (s : State) (j : BitVec 12) (x : Job) : (s.setJob j x).sec = s.sec := rfl
@[simp] theorem State.setJob_dbg (s : State) (j : BitVec 12) (x : Job) : (s.setJob j x).dbg = s.dbg := rfl
@[simp] theorem State.setJob_pwr (s : State) (j : BitVec 12) (x : Job) : (s.setJob j x).pwr = s.pwr := rfl

/-! ## `setGroup` -/

@[simp] theorem State.setGroup_clk (s : State) (g : Nat) (x : GroupEntry) : (s.setGroup g x).clk = s.clk := rfl
@[simp] theorem State.setGroup_run (s : State) (g : Nat) (x : GroupEntry) : (s.setGroup g x).run = s.run := rfl
@[simp] theorem State.setGroup_mem (s : State) (g : Nat) (x : GroupEntry) : (s.setGroup g x).mem = s.mem := rfl
@[simp] theorem State.setGroup_frames (s : State) (g : Nat) (x : GroupEntry) : (s.setGroup g x).frames = s.frames := rfl
@[simp] theorem State.setGroup_cores (s : State) (g : Nat) (x : GroupEntry) : (s.setGroup g x).cores = s.cores := rfl
@[simp] theorem State.setGroup_tiles (s : State) (g : Nat) (x : GroupEntry) : (s.setGroup g x).tiles = s.tiles := rfl
@[simp] theorem State.setGroup_arrays (s : State) (g : Nat) (x : GroupEntry) : (s.setGroup g x).arrays = s.arrays := rfl
@[simp] theorem State.setGroup_engines (s : State) (g : Nat) (x : GroupEntry) : (s.setGroup g x).engines = s.engines := rfl
@[simp] theorem State.setGroup_net (s : State) (g : Nat) (x : GroupEntry) : (s.setGroup g x).net = s.net := rfl
@[simp] theorem State.setGroup_dies (s : State) (g : Nat) (x : GroupEntry) : (s.setGroup g x).dies = s.dies := rfl
@[simp] theorem State.setGroup_parks (s : State) (g : Nat) (x : GroupEntry) : (s.setGroup g x).parks = s.parks := rfl
@[simp] theorem State.setGroup_fe (s : State) (g : Nat) (x : GroupEntry) : (s.setGroup g x).fe = s.fe := rfl
@[simp] theorem State.setGroup_fab (s : State) (g : Nat) (x : GroupEntry) : (s.setGroup g x).fab = s.fab := rfl
@[simp] theorem State.setGroup_sec (s : State) (g : Nat) (x : GroupEntry) : (s.setGroup g x).sec = s.sec := rfl
@[simp] theorem State.setGroup_dbg (s : State) (g : Nat) (x : GroupEntry) : (s.setGroup g x).dbg = s.dbg := rfl
@[simp] theorem State.setGroup_pwr (s : State) (g : Nat) (x : GroupEntry) : (s.setGroup g x).pwr = s.pwr := rfl

/-! ## `send` -/

@[simp] theorem State.send_clk (s : State) (m : Msg) : (s.send m).clk = s.clk := rfl
@[simp] theorem State.send_run (s : State) (m : Msg) : (s.send m).run = s.run := rfl
@[simp] theorem State.send_mem (s : State) (m : Msg) : (s.send m).mem = s.mem := rfl
@[simp] theorem State.send_frames (s : State) (m : Msg) : (s.send m).frames = s.frames := rfl
@[simp] theorem State.send_cores (s : State) (m : Msg) : (s.send m).cores = s.cores := rfl
@[simp] theorem State.send_tiles (s : State) (m : Msg) : (s.send m).tiles = s.tiles := rfl
@[simp] theorem State.send_arrays (s : State) (m : Msg) : (s.send m).arrays = s.arrays := rfl
@[simp] theorem State.send_engines (s : State) (m : Msg) : (s.send m).engines = s.engines := rfl
@[simp] theorem State.send_net (s : State) (m : Msg) : (s.send m).net = s.net ++ [m] := rfl
@[simp] theorem State.send_dies (s : State) (m : Msg) : (s.send m).dies = s.dies := rfl
@[simp] theorem State.send_parks (s : State) (m : Msg) : (s.send m).parks = s.parks := rfl
@[simp] theorem State.send_chip (s : State) (m : Msg) : (s.send m).chip = s.chip := rfl
@[simp] theorem State.send_fe (s : State) (m : Msg) : (s.send m).fe = s.fe := rfl
@[simp] theorem State.send_fab (s : State) (m : Msg) : (s.send m).fab = s.fab := rfl
@[simp] theorem State.send_sec (s : State) (m : Msg) : (s.send m).sec = s.sec := rfl
@[simp] theorem State.send_dbg (s : State) (m : Msg) : (s.send m).dbg = s.dbg := rfl
@[simp] theorem State.send_pwr (s : State) (m : Msg) : (s.send m).pwr = s.pwr := rfl

/-! ## `sendAll` -/

@[simp] theorem State.sendAll_clk (s : State) (ms : List Msg) : (s.sendAll ms).clk = s.clk := rfl
@[simp] theorem State.sendAll_run (s : State) (ms : List Msg) : (s.sendAll ms).run = s.run := rfl
@[simp] theorem State.sendAll_mem (s : State) (ms : List Msg) : (s.sendAll ms).mem = s.mem := rfl
@[simp] theorem State.sendAll_frames (s : State) (ms : List Msg) : (s.sendAll ms).frames = s.frames := rfl
@[simp] theorem State.sendAll_cores (s : State) (ms : List Msg) : (s.sendAll ms).cores = s.cores := rfl
@[simp] theorem State.sendAll_tiles (s : State) (ms : List Msg) : (s.sendAll ms).tiles = s.tiles := rfl
@[simp] theorem State.sendAll_arrays (s : State) (ms : List Msg) : (s.sendAll ms).arrays = s.arrays := rfl
@[simp] theorem State.sendAll_engines (s : State) (ms : List Msg) : (s.sendAll ms).engines = s.engines := rfl
@[simp] theorem State.sendAll_net (s : State) (ms : List Msg) : (s.sendAll ms).net = s.net ++ ms := rfl
@[simp] theorem State.sendAll_dies (s : State) (ms : List Msg) : (s.sendAll ms).dies = s.dies := rfl
@[simp] theorem State.sendAll_parks (s : State) (ms : List Msg) : (s.sendAll ms).parks = s.parks := rfl
@[simp] theorem State.sendAll_chip (s : State) (ms : List Msg) : (s.sendAll ms).chip = s.chip := rfl
@[simp] theorem State.sendAll_fe (s : State) (ms : List Msg) : (s.sendAll ms).fe = s.fe := rfl
@[simp] theorem State.sendAll_fab (s : State) (ms : List Msg) : (s.sendAll ms).fab = s.fab := rfl
@[simp] theorem State.sendAll_sec (s : State) (ms : List Msg) : (s.sendAll ms).sec = s.sec := rfl
@[simp] theorem State.sendAll_dbg (s : State) (ms : List Msg) : (s.sendAll ms).dbg = s.dbg := rfl
@[simp] theorem State.sendAll_pwr (s : State) (ms : List Msg) : (s.sendAll ms).pwr = s.pwr := rfl

/-! ## `setMe` -/

@[simp] theorem State.setMe_clk (s : State) (f : Frame) : (s.setMe f).clk = s.clk := rfl
@[simp] theorem State.setMe_run (s : State) (f : Frame) : (s.setMe f).run = s.run := rfl
@[simp] theorem State.setMe_mem (s : State) (f : Frame) : (s.setMe f).mem = s.mem := rfl
@[simp] theorem State.setMe_frames (s : State) (f : Frame) : (s.setMe f).frames = Tab.put s.frames s.run.cur f := rfl
@[simp] theorem State.setMe_cores (s : State) (f : Frame) : (s.setMe f).cores = s.cores := rfl
@[simp] theorem State.setMe_tiles (s : State) (f : Frame) : (s.setMe f).tiles = s.tiles := rfl
@[simp] theorem State.setMe_arrays (s : State) (f : Frame) : (s.setMe f).arrays = s.arrays := rfl
@[simp] theorem State.setMe_engines (s : State) (f : Frame) : (s.setMe f).engines = s.engines := rfl
@[simp] theorem State.setMe_net (s : State) (f : Frame) : (s.setMe f).net = s.net := rfl
@[simp] theorem State.setMe_dies (s : State) (f : Frame) : (s.setMe f).dies = s.dies := rfl
@[simp] theorem State.setMe_parks (s : State) (f : Frame) : (s.setMe f).parks = s.parks := rfl
@[simp] theorem State.setMe_chip (s : State) (f : Frame) : (s.setMe f).chip = s.chip := rfl
@[simp] theorem State.setMe_fe (s : State) (f : Frame) : (s.setMe f).fe = s.fe := rfl
@[simp] theorem State.setMe_fab (s : State) (f : Frame) : (s.setMe f).fab = s.fab := rfl
@[simp] theorem State.setMe_sec (s : State) (f : Frame) : (s.setMe f).sec = s.sec := rfl
@[simp] theorem State.setMe_dbg (s : State) (f : Frame) : (s.setMe f).dbg = s.dbg := rfl
@[simp] theorem State.setMe_pwr (s : State) (f : Frame) : (s.setMe f).pwr = s.pwr := rfl

/-! ## `updMe` -/

@[simp] theorem State.updMe_clk (s : State) (u : Frame → Frame) : (s.updMe u).clk = s.clk := rfl
@[simp] theorem State.updMe_run (s : State) (u : Frame → Frame) : (s.updMe u).run = s.run := rfl
@[simp] theorem State.updMe_mem (s : State) (u : Frame → Frame) : (s.updMe u).mem = s.mem := rfl
@[simp] theorem State.updMe_frames (s : State) (u : Frame → Frame) : (s.updMe u).frames = Tab.put s.frames s.run.cur (u s.me) := rfl
@[simp] theorem State.updMe_cores (s : State) (u : Frame → Frame) : (s.updMe u).cores = s.cores := rfl
@[simp] theorem State.updMe_tiles (s : State) (u : Frame → Frame) : (s.updMe u).tiles = s.tiles := rfl
@[simp] theorem State.updMe_arrays (s : State) (u : Frame → Frame) : (s.updMe u).arrays = s.arrays := rfl
@[simp] theorem State.updMe_engines (s : State) (u : Frame → Frame) : (s.updMe u).engines = s.engines := rfl
@[simp] theorem State.updMe_net (s : State) (u : Frame → Frame) : (s.updMe u).net = s.net := rfl
@[simp] theorem State.updMe_dies (s : State) (u : Frame → Frame) : (s.updMe u).dies = s.dies := rfl
@[simp] theorem State.updMe_parks (s : State) (u : Frame → Frame) : (s.updMe u).parks = s.parks := rfl
@[simp] theorem State.updMe_chip (s : State) (u : Frame → Frame) : (s.updMe u).chip = s.chip := rfl
@[simp] theorem State.updMe_fe (s : State) (u : Frame → Frame) : (s.updMe u).fe = s.fe := rfl
@[simp] theorem State.updMe_fab (s : State) (u : Frame → Frame) : (s.updMe u).fab = s.fab := rfl
@[simp] theorem State.updMe_sec (s : State) (u : Frame → Frame) : (s.updMe u).sec = s.sec := rfl
@[simp] theorem State.updMe_dbg (s : State) (u : Frame → Frame) : (s.updMe u).dbg = s.dbg := rfl
@[simp] theorem State.updMe_pwr (s : State) (u : Frame → Frame) : (s.updMe u).pwr = s.pwr := rfl

/-! ## `fresh` -/

@[simp] theorem State.fresh_run (s : State) : (s.fresh).run = s.run := rfl
@[simp] theorem State.fresh_mem (s : State) : (s.fresh).mem = s.mem := rfl
@[simp] theorem State.fresh_frames (s : State) : (s.fresh).frames = s.frames := rfl
@[simp] theorem State.fresh_cores (s : State) : (s.fresh).cores = s.cores := rfl
@[simp] theorem State.fresh_tiles (s : State) : (s.fresh).tiles = s.tiles := rfl
@[simp] theorem State.fresh_arrays (s : State) : (s.fresh).arrays = s.arrays := rfl
@[simp] theorem State.fresh_engines (s : State) : (s.fresh).engines = s.engines := rfl
@[simp] theorem State.fresh_net (s : State) : (s.fresh).net = s.net := rfl
@[simp] theorem State.fresh_dies (s : State) : (s.fresh).dies = s.dies := rfl
@[simp] theorem State.fresh_parks (s : State) : (s.fresh).parks = s.parks := rfl
@[simp] theorem State.fresh_chip (s : State) : (s.fresh).chip = s.chip := rfl
@[simp] theorem State.fresh_fe (s : State) : (s.fresh).fe = s.fe := rfl
@[simp] theorem State.fresh_fab (s : State) : (s.fresh).fab = s.fab := rfl
@[simp] theorem State.fresh_sec (s : State) : (s.fresh).sec = s.sec := rfl
@[simp] theorem State.fresh_dbg (s : State) : (s.fresh).dbg = s.dbg := rfl
@[simp] theorem State.fresh_pwr (s : State) : (s.fresh).pwr = s.pwr := rfl

/-! ## `setDbg` -/

@[simp] theorem State.setDbg_clk (s : State) (d : Debug) : (s.setDbg d).clk = s.clk := rfl
@[simp] theorem State.setDbg_run (s : State) (d : Debug) : (s.setDbg d).run = s.run := rfl
@[simp] theorem State.setDbg_mem (s : State) (d : Debug) : (s.setDbg d).mem = s.mem := rfl
@[simp] theorem State.setDbg_frames (s : State) (d : Debug) : (s.setDbg d).frames = s.frames := rfl
@[simp] theorem State.setDbg_cores (s : State) (d : Debug) : (s.setDbg d).cores = s.cores := rfl
@[simp] theorem State.setDbg_tiles (s : State) (d : Debug) : (s.setDbg d).tiles = s.tiles := rfl
@[simp] theorem State.setDbg_arrays (s : State) (d : Debug) : (s.setDbg d).arrays = s.arrays := rfl
@[simp] theorem State.setDbg_engines (s : State) (d : Debug) : (s.setDbg d).engines = s.engines := rfl
@[simp] theorem State.setDbg_net (s : State) (d : Debug) : (s.setDbg d).net = s.net := rfl
@[simp] theorem State.setDbg_dies (s : State) (d : Debug) : (s.setDbg d).dies = s.dies := rfl
@[simp] theorem State.setDbg_parks (s : State) (d : Debug) : (s.setDbg d).parks = s.parks := rfl
@[simp] theorem State.setDbg_chip (s : State) (d : Debug) : (s.setDbg d).chip = s.chip := rfl
@[simp] theorem State.setDbg_fe (s : State) (d : Debug) : (s.setDbg d).fe = s.fe := rfl
@[simp] theorem State.setDbg_fab (s : State) (d : Debug) : (s.setDbg d).fab = s.fab := rfl
@[simp] theorem State.setDbg_sec (s : State) (d : Debug) : (s.setDbg d).sec = s.sec := rfl
@[simp] theorem State.setDbg_dbg (s : State) (d : Debug) : (s.setDbg d).dbg = d := rfl
@[simp] theorem State.setDbg_pwr (s : State) (d : Debug) : (s.setDbg d).pwr = s.pwr := rfl

/-! ## `dropMsg` -/

@[simp] theorem State.dropMsg_clk (s : State) (n : Nat) : (s.dropMsg n).clk = s.clk := rfl
@[simp] theorem State.dropMsg_run (s : State) (n : Nat) : (s.dropMsg n).run = s.run := rfl
@[simp] theorem State.dropMsg_mem (s : State) (n : Nat) : (s.dropMsg n).mem = s.mem := rfl
@[simp] theorem State.dropMsg_frames (s : State) (n : Nat) : (s.dropMsg n).frames = s.frames := rfl
@[simp] theorem State.dropMsg_cores (s : State) (n : Nat) : (s.dropMsg n).cores = s.cores := rfl
@[simp] theorem State.dropMsg_tiles (s : State) (n : Nat) : (s.dropMsg n).tiles = s.tiles := rfl
@[simp] theorem State.dropMsg_arrays (s : State) (n : Nat) : (s.dropMsg n).arrays = s.arrays := rfl
@[simp] theorem State.dropMsg_engines (s : State) (n : Nat) : (s.dropMsg n).engines = s.engines := rfl
@[simp] theorem State.dropMsg_net (s : State) (n : Nat) : (s.dropMsg n).net = dropAt s.net n := rfl
@[simp] theorem State.dropMsg_dies (s : State) (n : Nat) : (s.dropMsg n).dies = s.dies := rfl
@[simp] theorem State.dropMsg_parks (s : State) (n : Nat) : (s.dropMsg n).parks = s.parks := rfl
@[simp] theorem State.dropMsg_chip (s : State) (n : Nat) : (s.dropMsg n).chip = s.chip := rfl
@[simp] theorem State.dropMsg_fe (s : State) (n : Nat) : (s.dropMsg n).fe = s.fe := rfl
@[simp] theorem State.dropMsg_fab (s : State) (n : Nat) : (s.dropMsg n).fab = s.fab := rfl
@[simp] theorem State.dropMsg_sec (s : State) (n : Nat) : (s.dropMsg n).sec = s.sec := rfl
@[simp] theorem State.dropMsg_dbg (s : State) (n : Nat) : (s.dropMsg n).dbg = s.dbg := rfl
@[simp] theorem State.dropMsg_pwr (s : State) (n : Nat) : (s.dropMsg n).pwr = s.pwr := rfl

/-! ## `swapMsg` -/

@[simp] theorem State.swapMsg_clk (s : State) (n : Nat) (m : Msg) : (s.swapMsg n m).clk = s.clk := rfl
@[simp] theorem State.swapMsg_run (s : State) (n : Nat) (m : Msg) : (s.swapMsg n m).run = s.run := rfl
@[simp] theorem State.swapMsg_mem (s : State) (n : Nat) (m : Msg) : (s.swapMsg n m).mem = s.mem := rfl
@[simp] theorem State.swapMsg_frames (s : State) (n : Nat) (m : Msg) : (s.swapMsg n m).frames = s.frames := rfl
@[simp] theorem State.swapMsg_cores (s : State) (n : Nat) (m : Msg) : (s.swapMsg n m).cores = s.cores := rfl
@[simp] theorem State.swapMsg_tiles (s : State) (n : Nat) (m : Msg) : (s.swapMsg n m).tiles = s.tiles := rfl
@[simp] theorem State.swapMsg_arrays (s : State) (n : Nat) (m : Msg) : (s.swapMsg n m).arrays = s.arrays := rfl
@[simp] theorem State.swapMsg_engines (s : State) (n : Nat) (m : Msg) : (s.swapMsg n m).engines = s.engines := rfl
@[simp] theorem State.swapMsg_net (s : State) (n : Nat) (m : Msg) : (s.swapMsg n m).net = setAt s.net n m := rfl
@[simp] theorem State.swapMsg_dies (s : State) (n : Nat) (m : Msg) : (s.swapMsg n m).dies = s.dies := rfl
@[simp] theorem State.swapMsg_parks (s : State) (n : Nat) (m : Msg) : (s.swapMsg n m).parks = s.parks := rfl
@[simp] theorem State.swapMsg_chip (s : State) (n : Nat) (m : Msg) : (s.swapMsg n m).chip = s.chip := rfl
@[simp] theorem State.swapMsg_fe (s : State) (n : Nat) (m : Msg) : (s.swapMsg n m).fe = s.fe := rfl
@[simp] theorem State.swapMsg_fab (s : State) (n : Nat) (m : Msg) : (s.swapMsg n m).fab = s.fab := rfl
@[simp] theorem State.swapMsg_sec (s : State) (n : Nat) (m : Msg) : (s.swapMsg n m).sec = s.sec := rfl
@[simp] theorem State.swapMsg_dbg (s : State) (n : Nat) (m : Msg) : (s.swapMsg n m).dbg = s.dbg := rfl
@[simp] theorem State.swapMsg_pwr (s : State) (n : Nat) (m : Msg) : (s.swapMsg n m).pwr = s.pwr := rfl

/-! ## Reading back -/

@[simp] theorem State.frame_setFrame (s : State) (k : Nat) (f : Frame) : (s.setFrame k f).frame k = f := by
  simp [State.frame]
theorem State.frame_setFrame_ne (s : State) {k i : Nat} (f : Frame) (h : i ≠ k) : (s.setFrame k f).frame i = s.frame i := by
  simp [State.frame, Tab.get_put_ne _ f _ h]
@[simp] theorem State.core_setCore (s : State) (c : Nat) (x : Core) : (s.setCore c x).core c = x := by simp [State.core]
theorem State.core_setCore_ne (s : State) {c i : Nat} (x : Core) (h : i ≠ c) : (s.setCore c x).core i = s.core i := by
  simp [State.core, Tab.get_put_ne _ x _ h]
@[simp] theorem State.tile_setTile (s : State) (t : Nat) (x : Tile) : (s.setTile t x).tile t = x := by simp [State.tile]
@[simp] theorem State.array_setArray (s : State) (t : Nat) (x : TArray) : (s.setArray t x).array t = x := by simp [State.array]
@[simp] theorem State.engine_setEngine (s : State) (t : Nat) (x : Engine) : (s.setEngine t x).engine t = x := by simp [State.engine]
@[simp] theorem State.die_setDie (s : State) (d : Nat) (x : Die) : (s.setDie d x).die d = x := by simp [State.die]
@[simp] theorem State.job_setJob (s : State) (j : BitVec 12) (x : Job) : (s.setJob j x).job j = x := by simp [State.job, State.setJob]
@[simp] theorem State.group_setGroup (s : State) (g : Nat) (x : GroupEntry) : (s.setGroup g x).group g = x := by
  simp [State.group, State.setGroup]

@[simp] theorem State.me_setMe (s : State) (f : Frame) : (s.setMe f).me = f := by simp [State.me, State.setMe]
@[simp] theorem State.me_updMe (s : State) (u : Frame → Frame) : (s.updMe u).me = u s.me := by simp [State.updMe]
@[simp] theorem State.setMe_setMe (s : State) (f g : Frame) : (s.setMe f).setMe g = s.setMe g := by
  simp [State.setMe, State.setFrame]
@[simp] theorem State.updMe_updMe (s : State) (u v : Frame → Frame) : (s.updMe u).updMe v = s.updMe fun f => v (u f) := by
  simp [State.updMe]
/-- Every other task's frame is as before. -/
theorem State.frame_updMe_ne (s : State) (u : Frame → Frame) {k : Nat} (h : k ≠ s.run.cur) : (s.updMe u).frame k = s.frame k :=
  s.frame_setFrame_ne _ h
/-- Nothing but the frame of the issuing task changes. -/
theorem State.updMe_eq (s : State) (u : Frame → Frame) : s.updMe u = s.setMe (s.updMe u).me := by simp [State.updMe]
@[simp] theorem State.me_send (s : State) (m : Msg) : (s.send m).me = s.me := rfl
@[simp] theorem State.me_fresh (s : State) : s.fresh.me = s.me := rfl

/-! ## Reset -/

theorem State.reset_memories : State.reset.mem = Memories.reset := rfl
theorem Memories.reset_dev : Mem.wf none Memories.reset.dev = true := rfl
theorem Memories.reset_bank : Mem.wf (some 0) Memories.reset.bank = true := rfl
theorem Memories.reset_sram : Mem.wf (some 0) Memories.reset.sram = true := rfl
theorem Memories.reset_arena : Mem.wf (some 0) Memories.reset.arena = true := rfl
theorem Memories.reset_host : Mem.wf none Memories.reset.host = true := rfl

end Sys2Proof.Machine
end

