-- ==== Sys2Proof/Laws/Regs.lean ====
section
/-! SUPPORT. Laws/Regs.lean: registers read back after a write, with their presence bits; elements and lanes of
vectors. -/

namespace Sys2Proof.Machine

/-! ## Bits -/

theorem getLsbD_setBit {n : Nat} (x : BitVec n) (i j : Nat) (b : Bool) (h : j < n) :
    (setBit x i b).getLsbD j = if j = i then b else x.getLsbD j := by
  unfold setBit
  by_cases hij : j = i
  · subst hij
    cases b
    · simp [h]
    · simp [h]
  · by_cases hlt : j < i
    · cases b <;> simp [hij, hlt, h]
    · cases b <;> simp [hij, hlt, h, show j - i ≠ 0 by omega]

/-! ## General registers -/

@[simp] theorem Frame.rdG_zero (f : Frame) : f.rdG 0#6 = 0#64 := rfl
@[simp] theorem Frame.wrG_zero (f : Frame) (v : Word) : f.wrG 0#6 v = f := rfl
@[simp] theorem Frame.rdM_zero (f : Frame) : f.rdM 0#3 = BitVec.allOnes 64 := rfl
@[simp] theorem Frame.wrM_zero (f : Frame) (v : Word) : f.wrM 0#3 v = f := rfl

theorem Frame.rdG_wrG (f : Frame) (r : GReg) (v : Word) : (f.wrG r v).rdG r = if r = 0 then 0 else v := by
  unfold Frame.wrG Frame.rdG Frame.rawG
  by_cases h : r = 0
  · rw [if_pos h, if_pos h]
  · rw [if_neg h, if_neg h, if_neg h]
    simp

theorem Frame.rawG_wrG_ne (f : Frame) {r i : GReg} (v : Word) (h : i ≠ r) : (f.wrG r v).rawG i.toNat = f.rawG i.toNat := by
  unfold Frame.wrG Frame.rawG
  split
  · rfl
  · simp only [Tab.get?_put_ne f.g v (show i.toNat ≠ r.toNat from fun e => h (BitVec.eq_of_toNat_eq e))]

theorem Frame.rdG_wrG_ne (f : Frame) {r i : GReg} (v : Word) (h : i ≠ r) : (f.wrG r v).rdG i = f.rdG i := by
  simp only [Frame.rdG, Frame.rawG_wrG_ne f v h]

theorem Frame.gFull_wrG (f : Frame) (r : GReg) (v : Word) (h : r ≠ 0) : (f.wrG r v).gFull.getLsbD r.toNat = true := by
  simp only [Frame.wrG, if_neg h]
  rw [getLsbD_setBit _ _ _ _ r.isLt, if_pos rfl]

theorem Frame.gPoison_wrG (f : Frame) (r : GReg) (v : Word) (h : r ≠ 0) : (f.wrG r v).gPoison.getLsbD r.toNat = false := by
  simp only [Frame.wrG, if_neg h]
  rw [getLsbD_setBit _ _ _ _ r.isLt, if_pos rfl]

theorem Frame.gFull_wrG_ne (f : Frame) {r i : GReg} (v : Word) (h : i ≠ r) :
    (f.wrG r v).gFull.getLsbD i.toNat = f.gFull.getLsbD i.toNat := by
  unfold Frame.wrG
  split
  · rfl
  · exact (getLsbD_setBit _ _ _ _ i.isLt).trans (if_neg fun e => h (BitVec.eq_of_toNat_eq e))

theorem Frame.gPoison_wrG_ne (f : Frame) {r i : GReg} (v : Word) (h : i ≠ r) :
    (f.wrG r v).gPoison.getLsbD i.toNat = f.gPoison.getLsbD i.toNat := by
  unfold Frame.wrG
  split
  · rfl
  · exact (getLsbD_setBit _ _ _ _ i.isLt).trans (if_neg fun e => h (BitVec.eq_of_toNat_eq e))

/-- A general-register write touches nothing else of the frame. -/
theorem Frame.wrG_eq (f : Frame) (r : GReg) (v : Word) :
    f.wrG r v = { f with g := (f.wrG r v).g, gFull := (f.wrG r v).gFull, gPoison := (f.wrG r v).gPoison } := by
  unfold Frame.wrG
  split <;> rfl

/-! ## Mask registers -/

theorem Frame.rdM_wrM (f : Frame) (r : MReg) (v : Word) : (f.wrM r v).rdM r = if r = 0 then BitVec.allOnes 64 else v := by
  unfold Frame.wrM Frame.rdM Frame.rawM
  by_cases h : r = 0
  · rw [if_pos h, if_pos h]
  · rw [if_neg h, if_neg h, if_neg h]
    simp

theorem Frame.rdM_wrM_ne (f : Frame) {r i : MReg} (v : Word) (h : i ≠ r) : (f.wrM r v).rdM i = f.rdM i := by
  by_cases hr : r = 0
  · rw [Frame.wrM, if_pos hr]
  · simp only [Frame.wrM, Frame.rdM, Frame.rawM, if_neg hr, Tab.get?_put_ne f.m v (show i.toNat ≠ r.toNat from fun e => h (BitVec.eq_of_toNat_eq e))]

theorem Frame.wrM_eq (f : Frame) (r : MReg) (v : Word) :
    f.wrM r v = { f with m := (f.wrM r v).m, mFull := (f.wrM r v).mFull, mPoison := (f.wrM r v).mPoison } := by
  unfold Frame.wrM
  split <;> rfl

/-! ## Elements of vectors -/

theorem Frame.rawE_wrE (f : Frame) (r : VReg) (e n i : Nat) (v : Word) (he : e < 8) (hi : i < 8) :
    (f.wrE r e v).rawE n i = if n = r.toNat ∧ i = e then v else f.rawE n i := by
  unfold Frame.wrE Frame.rawE
  split
  · rename_i h
    simp [h.1, h.2]
  · rename_i h
    simp only [Tab.get?_put_ne f.v v (show 8 * n + i ≠ 8 * r.toNat + e by omega)]

/-- The elements among `l` that a vector write has written. -/
theorem Frame.rawE_foldl (r : VReg) (es : Nat → Bool) (x : BitVec 512) (l : List Nat) :
    ∀ (f : Frame) (n i : Nat), (∀ e ∈ l, e < 8) → i < 8 →
      (l.foldl (fun f e => if es e then f.wrE r e (x.extractLsb' (64 * e) 64) else f) f).rawE n i =
        if n = r.toNat ∧ i ∈ l ∧ es i then x.extractLsb' (64 * i) 64 else f.rawE n i := by
  induction l with
  | nil => intro f n i _ _; simp
  | cons e l ih =>
    intro f n i hl hi
    have he : e < 8 := hl e (by simp)
    rw [List.foldl_cons, ih _ n i (fun e h => hl e (by simp [h])) hi]
    by_cases hin : n = r.toNat ∧ i ∈ l ∧ es i
    · rw [if_pos hin, if_pos ⟨hin.1, by simp [hin.2.1], hin.2.2⟩]
    · rw [if_neg hin]
      by_cases hes : es e
      · rw [if_pos hes, Frame.rawE_wrE f r e n i _ he hi]
        by_cases hne : n = r.toNat ∧ i = e
        · rw [if_pos hne, if_pos ⟨hne.1, by simp [hne.2], by rw [hne.2]; exact hes⟩, hne.2]
        · rw [if_neg hne, if_neg]
          rintro ⟨h1, h2, h3⟩
          rcases List.mem_cons.mp h2 with h2 | h2
          · exact hne ⟨h1, h2⟩
          · exact hin ⟨h1, h2, h3⟩
      · rw [if_neg hes, if_neg]
        rintro ⟨h1, h2, h3⟩
        rcases List.mem_cons.mp h2 with h2 | h2
        · rw [h2] at h3; exact hes h3
        · exact hin ⟨h1, h2, h3⟩

/-- Element i of register n after elements of r are written. -/
theorem Frame.rawE_wrEs (f : Frame) (r : VReg) (es : Nat → Bool) (x : BitVec 512) (n i : Nat) (hi : i < 8) :
    (f.wrEs r es x).rawE n i = if n = r.toNat ∧ es i then x.extractLsb' (64 * i) 64 else f.rawE n i := by
  unfold Frame.wrEs
  rw [Frame.rawE_foldl r es x _ f n i (fun e h => List.mem_range.mp h) hi]
  simp [hi]

theorem Frame.rdE_wrEs (f : Frame) (r : VReg) (es : Nat → Bool) (x : BitVec 512) (i : Nat) (hi : i < 8) :
    (f.wrEs r es x).rdE r i = if es i then x.extractLsb' (64 * i) 64 else f.rdE r i := by
  simp [Frame.rdE, Frame.rawE_wrEs f r es x r.toNat i hi]

theorem Frame.rdE_wrEs_ne (f : Frame) {r q : VReg} (es : Nat → Bool) (x : BitVec 512) (i : Nat) (hi : i < 8) (h : q ≠ r) :
    (f.wrEs r es x).rdE q i = f.rdE q i := by
  rw [Frame.rdE, Frame.rawE_wrEs f r es x _ i hi, if_neg (fun c => h (BitVec.eq_of_toNat_eq c.1))]
  rfl

/-- A vector write touches the vector registers and their bits only. -/
theorem Frame.wrEs_eq (f : Frame) (r : VReg) (es : Nat → Bool) (x : BitVec 512) :
    f.wrEs r es x = { f with v := (f.wrEs r es x).v, vFull := (f.wrEs r es x).vFull, vPoison := (f.wrEs r es x).vPoison } := by
  have key : ∀ (l : List Nat) (f : Frame),
      let g := l.foldl (fun f e => if es e then f.wrE r e (x.extractLsb' (64 * e) 64) else f) f
      g = { f with v := g.v, vFull := g.vFull, vPoison := g.vPoison } := by
    intro l
    induction l with
    | nil => intro f; rfl
    | cons e l ih =>
      intro f
      simp only [List.foldl_cons]
      rw [ih]
      split <;> rfl
  exact key _ f

/-- Element i of v r is bits [64i+63:64i] of the whole register. -/
theorem Frame.extract_rdV (f : Frame) (r : VReg) (i : Nat) (hi : i < 8) : (f.rdV r).extractLsb' (64 * i) 64 = f.rdE r i := by
  unfold Frame.rdV
  interval_cases i <;>
    (ext k hk
     simp only [BitVec.getElem_extractLsb', BitVec.getLsbD_append]
     simp (disch := omega) only [if_pos, if_neg]
     rw [← BitVec.getLsbD_eq_getElem]
     exact congrArg _ (by omega))

/-! ## Lanes -/

/-- Bit k of a vector built from lanes. -/
theorem getLsbD_lanes (w : Nat) (l : Nat → Nat) (L : List Nat) (k : Nat) (hk : k < 512) :
    (L.foldr (fun i x => x ||| (BitVec.ofNat 512 (l i % 2 ^ w) <<< (w * i))) (0 : BitVec 512)).getLsbD k =
      L.any fun i => decide (w * i ≤ k) && decide (k < w * i + w) && (l i).testBit (k - w * i) := by
  induction L with
  | nil => simp
  | cons i L ih =>
    rw [List.foldr_cons, BitVec.getLsbD_or, ih, List.any_cons, Bool.or_comm]
    congr 1
    rw [BitVec.getLsbD_shiftLeft, BitVec.getLsbD_ofNat, Nat.testBit_mod_two_pow]
    by_cases h1 : k < w * i
    · simp [h1, show ¬ w * i ≤ k by omega]
    · by_cases h2 : k - w * i < w
      · simp [h1, h2, hk, show w * i ≤ k by omega, show k < w * i + w by omega, show k - w * i < 512 by omega]
      · simp [h2, show ¬ k < w * i + w by omega]

/-- A lane of a vector built from lanes. -/
theorem lane_ofLanes (w n : Nat) (l : Nat → Nat) (i : Nat) (hi : i < n) (hn : w * n ≤ 512) :
    lane (ofLanes w n l) w i = l i % 2 ^ w := by
  have hin : w * i + w ≤ w * n := by rw [← Nat.mul_succ]; exact Nat.mul_le_mul_left w hi
  unfold lane
  apply Nat.eq_of_testBit_eq
  intro j
  rw [← BitVec.getLsbD, BitVec.getLsbD_extractLsb', Nat.testBit_mod_two_pow]
  by_cases hj : j < w
  · simp only [hj, decide_true, Bool.true_and]
    unfold ofLanes
    rw [getLsbD_lanes w l _ _ (by omega), Bool.eq_iff_iff, List.any_eq_true]
    constructor
    · rintro ⟨k, hk, h⟩
      simp only [Bool.and_eq_true, decide_eq_true_eq] at h
      have : k = i := by
        rcases Nat.lt_trichotomy k i with hlt | heq | hgt
        · have : w * (k + 1) ≤ w * i := Nat.mul_le_mul_left w hlt
          rw [Nat.mul_succ] at this; omega
        · exact heq
        · have : w * (i + 1) ≤ w * k := Nat.mul_le_mul_left w hgt
          rw [Nat.mul_succ] at this; omega
      subst this
      rw [← h.2]; congr 1; omega
    · intro h
      refine ⟨i, List.mem_range.mpr hi, ?_⟩
      simp only [Bool.and_eq_true, decide_eq_true_eq]
      exact ⟨⟨by omega, by omega⟩, by rw [← h]; congr 1; omega⟩
  · simp [hj]

/-- The widths of lanes (R233). -/
def laneWidths : List Nat := [4, 8, 16, 32, 64]

/-- A lane lies in the element that holds its bits. -/
theorem lane_eq_elem (x : BitVec 512) (w i : Nat) (hw : w ∈ laneWidths) :
    lane x w i = ((x.extractLsb' (64 * (i / (64 / w))) 64).extractLsb' (w * (i % (64 / w))) w).toNat := by
  unfold lane
  refine congrArg BitVec.toNat ?_
  ext k hk
  simp only [BitVec.getElem_extractLsb', BitVec.getLsbD_extractLsb']
  have hpos : 0 < 64 / w ∧ w * (64 / w) = 64 := by
    simp only [laneWidths, List.mem_cons, List.not_mem_nil, or_false] at hw
    rcases hw with rfl | rfl | rfl | rfl | rfl <;> decide
  have hm : i % (64 / w) < 64 / w := Nat.mod_lt _ hpos.1
  have h1 : w * (i % (64 / w)) + w ≤ w * (64 / w) := by rw [← Nat.mul_succ]; exact Nat.mul_le_mul_left w hm
  have h2 : w * i = 64 * (i / (64 / w)) + w * (i % (64 / w)) := by
    conv_lhs => rw [← Nat.div_add_mod i (64 / w)]
    rw [Nat.mul_add, ← Nat.mul_assoc, hpos.2]
  rw [decide_eq_true (by omega : w * (i % (64 / w)) + k < 64), Bool.true_and]
  exact congrArg x.getLsbD (by omega)

/-- A lane of a vector register. -/
theorem Frame.lane_rdV (f : Frame) (r : VReg) (w i : Nat) (hw : w ∈ laneWidths) (hi : i < 512 / w) :
    lane (f.rdV r) w i = ((f.rdE r (i / (64 / w))).extractLsb' (w * (i % (64 / w))) w).toNat := by
  rw [lane_eq_elem _ w i hw, Frame.extract_rdV]
  simp only [laneWidths, List.mem_cons, List.not_mem_nil, or_false] at hw
  rcases hw with rfl | rfl | rfl | rfl | rfl <;> omega

/-- What a lane write leaves in each lane of its register: the new value where the lane is selected, else the value it
had (R234). -/
theorem Frame.lane_wrLanes (f : Frame) (w : Nat) (d : VReg) (on : Nat → Bool) (l : Nat → Nat) (i : Nat)
    (hw : w ∈ laneWidths) (hi : i < 512 / w) :
    lane ((f.wrLanes w d on l).rdV d) w i = if on i then l i % 2 ^ w else lane (f.rdV d) w i := by
  have hpos : 0 < 64 / w ∧ w * (512 / w) = 512 ∧ i / (64 / w) < 8 := by
    simp only [laneWidths, List.mem_cons, List.not_mem_nil, or_false] at hw
    rcases hw with rfl | rfl | rfl | rfl | rfl <;> refine ⟨by decide, by decide, by omega⟩
  have hlt : lane (f.rdV d) w i % 2 ^ w = lane (f.rdV d) w i := Nat.mod_eq_of_lt (BitVec.isLt _)
  rw [Frame.lane_rdV _ d w i hw hi, Frame.wrLanes, Frame.rdE_wrEs _ _ _ _ _ hpos.2.2]
  split
  · rw [← lane_eq_elem _ w i hw, lane_ofLanes w _ _ i hi (by omega)]
    split
    · rfl
    · exact hlt
  · rename_i h
    rw [if_neg, Frame.lane_rdV _ d w i hw hi]
    intro hon
    apply h
    unfold unitWritten
    rw [List.any_eq_true]
    refine ⟨i % (64 / w), List.mem_range.mpr (Nat.mod_lt _ hpos.1), ?_⟩
    rw [Nat.div_add_mod']
    exact hon

end Sys2Proof.Machine
end

