-- ==== Sys2Proof/Laws/Ops.lean ====
section
/-! SUPPORT. Laws/Ops.lean: what the shared operations do: issue with its three outcomes (R60), the frame at issue, the
register forms, and going on. -/

namespace Sys2Proof.Machine

/-! ## Issue -/

theorem State.issue_go {s : State} {srcs : List Src} (h : s.goes srcs) (k : State → State) : s.issue srcs k = k s.issued := by
  unfold State.issue
  rw [show s.me.check srcs = .go from h]
  rfl

theorem State.issue_trap {s : State} {srcs : List Src} {c : Byte} {t : Word} (h : s.me.check srcs = .trap c t) (k : State → State) :
    s.issue srcs k = s.trap c t := by unfold State.issue; rw [h]

theorem State.issue_block {s : State} {srcs : List Src} (h : s.me.check srcs = .block) (k : State → State) :
    s.issue srcs k = s.block (.presence srcs) := by unfold State.issue; rw [h]

/-- Everything that issuing an instruction with these sources can do. -/
theorem State.issue_cases (s : State) (srcs : List Src) (k : State → State) :
    (s.goes srcs ∧ s.issue srcs k = k s.issued) ∨
    (s.me.check srcs = .block ∧ s.issue srcs k = s.block (.presence srcs)) ∨
    (∃ c t, s.me.check srcs = .trap c t ∧ s.issue srcs k = s.trap c t) := by
  cases h : s.me.check srcs with
  | go => exact .inl ⟨h, State.issue_go h k⟩
  | block => exact .inr (.inl ⟨rfl, State.issue_block h k⟩)
  | trap c t => exact .inr (.inr ⟨c, t, rfl, State.issue_trap h k⟩)

/-- An instruction without sources always issues (R60). -/
@[simp] theorem State.goes_nil (s : State) : s.goes [] := rfl

/-! ## The frame at issue -/

@[simp] theorem State.me_issued (s : State) : s.issued.me = s.me.unblock := by simp [State.issued]
@[simp] theorem State.rdG_issued (s : State) (r : GReg) : s.issued.me.rdG r = s.me.rdG r := by rw [State.me_issued]; rfl
@[simp] theorem State.rdE_issued (s : State) (r : VReg) (e : Nat) : s.issued.me.rdE r e = s.me.rdE r e := by rw [State.me_issued]; rfl
@[simp] theorem State.rdV_issued (s : State) (r : VReg) : s.issued.me.rdV r = s.me.rdV r := by rw [State.me_issued]; rfl
@[simp] theorem State.rdM_issued (s : State) (r : MReg) : s.issued.me.rdM r = s.me.rdM r := by rw [State.me_issued]; rfl
@[simp] theorem State.svc_issued (s : State) : s.issued.me.svc = s.me.svc := by rw [State.me_issued]; rfl
@[simp] theorem State.taskId_issued (s : State) : s.issued.me.taskId = s.me.taskId := by rw [State.me_issued]; rfl
@[simp] theorem State.job_issued (s : State) : s.issued.me.job = s.me.job := by rw [State.me_issued]; rfl
@[simp] theorem State.wordAddr_issued (s : State) : s.issued.me.wordAddr = s.me.wordAddr := by rw [State.me_issued]; rfl
@[simp] theorem State.rc_issued (s : State) : s.issued.me.rc = s.me.rc := by rw [State.me_issued]; rfl
@[simp] theorem State.mem_issued (s : State) : s.issued.mem = s.mem := rfl
@[simp] theorem State.net_issued (s : State) : s.issued.net = s.net := rfl
@[simp] theorem State.clk_issued (s : State) : s.issued.clk = s.clk := rfl
@[simp] theorem State.run_issued (s : State) : s.issued.run = s.run := rfl
@[simp] theorem State.cores_issued (s : State) : s.issued.cores = s.cores := rfl
@[simp] theorem State.tiles_issued (s : State) : s.issued.tiles = s.tiles := rfl
@[simp] theorem State.arrays_issued (s : State) : s.issued.arrays = s.arrays := rfl
@[simp] theorem State.myCore_issued (s : State) : s.issued.myCore = s.myCore := by
  unfold State.myCore; rw [State.me_issued]; rfl
@[simp] theorem State.myTile_issued (s : State) : s.issued.myTile = s.myTile := by simp [State.myTile]

/-! ## The state an instruction leaves -/

@[simp] theorem State.me_does (s : State) (u : Frame → Frame) : (s.does u).me = (u s.issued.me).advance := by simp [State.does]
theorem State.onlyMe_does (s : State) (u : Frame → Frame) : s.onlyMe (s.does u) := by
  simp [State.onlyMe, State.does, State.issued, State.updMe]
theorem State.sameBytes_does (s : State) (u : Frame → Frame) : s.sameBytes (s.does u) := fun p => by cases p <;> rfl
theorem State.retG_issued (s : State) (d : GReg) (v : Word) : s.issued.retG d v = s.gives d v := rfl
theorem State.next_issued (s : State) : s.issued.next = s.does fun f => f := rfl
theorem State.upd_issued (s : State) (u : Frame → Frame) : (s.issued.updMe fun f => (u f).advance) = s.does u := rfl

/-! ## Going on -/

theorem Frame.advance_eq (f : Frame) : f.advance = { f with pc := f.advance.pc, rpt := f.advance.rpt } := by
  unfold Frame.advance
  split
  · rename_i h; rw [h]
  · split
    · rfl
    · split <;> rfl

theorem Frame.advance_pc (f : Frame) (h : f.rpt = none) : f.advance.pc = f.pc + 4 ∧ f.advance.rpt = none := by
  simp [Frame.advance, h]

@[simp] theorem Frame.genReg_advance (f : Frame) (r : GReg) : f.advance.genReg r = f.genReg r := by rw [Frame.advance_eq]; rfl
@[simp] theorem Frame.vecReg_advance (f : Frame) (r : VReg) (e : Nat) : f.advance.vecReg r e = f.vecReg r e := by rw [Frame.advance_eq]; rfl
@[simp] theorem Frame.maskReg_advance (f : Frame) (r : MReg) : f.advance.maskReg r = f.maskReg r := by rw [Frame.advance_eq]; rfl
@[simp] theorem Frame.specials_advance (f : Frame) : f.advance.specials = f.specials := by rw [Frame.advance_eq]; rfl
@[simp] theorem Frame.vfx_advance (f : Frame) : f.advance.vfx = f.vfx := by rw [Frame.advance_eq]
@[simp] theorem Frame.rdG_advance (f : Frame) (r : GReg) : f.advance.rdG r = f.rdG r := by rw [Frame.advance_eq]; rfl
@[simp] theorem Frame.rdE_advance (f : Frame) (r : VReg) (e : Nat) : f.advance.rdE r e = f.rdE r e := by rw [Frame.advance_eq]; rfl
@[simp] theorem Frame.rdV_advance (f : Frame) (r : VReg) : f.advance.rdV r = f.rdV r := by rw [Frame.advance_eq]; rfl
@[simp] theorem Frame.rdM_advance (f : Frame) (r : MReg) : f.advance.rdM r = f.rdM r := by rw [Frame.advance_eq]; rfl

/-! ## Forms -/

theorem State.alu_go {s : State} {a b : GReg} {ka kb : Bool} (h : s.goes [.g a ka, .g b kb]) (op : Word → Word → Word) (d : GReg) :
    s.alu op d a b ka kb = s.gives d (op (s.me.rdG a) (s.me.rdG b)) := by
  unfold State.alu
  rw [State.issue_go h, State.rdG_issued, State.rdG_issued, State.retG_issued]

theorem State.alu1_go {s : State} {a : GReg} {ka : Bool} (h : s.goes [.g a ka]) (op : Word → Word) (d : GReg) :
    s.alu1 op d a ka = s.gives d (op (s.me.rdG a)) := by
  unfold State.alu1
  rw [State.issue_go h, State.rdG_issued, State.retG_issued]

theorem State.branch_go {s : State} {a b : GReg} (h : s.goes [.g a false, .g b false]) (taken : Word → Word → Bool) (o : BitVec 13) :
    s.branch taken a b o = if taken (s.me.rdG a) (s.me.rdG b)
      then s.issued.updMe fun f => { f with pc := f.wordAddr + sext64 o * 4 } else s.does fun f => f := by
  unfold State.branch
  rw [State.issue_go h, State.rdG_issued, State.rdG_issued, State.next_issued]

theorem State.vec2_go {s : State} {d a b : VReg} {m : MReg} {ka kb : Bool} (h : s.goes (vSrcs (masked m) d a m ka [.v b kb]))
    (op : Nat → Nat → Nat → Nat) (w : BitVec 2) :
    s.vec2 op w d a b m ka kb = s.does fun f => f.wrLanes (laneBits w) d (fun i => (f.rdM m).getLsbD i)
      fun i => op (laneBits w) (lane (f.rdV a) (laneBits w) i) (lane (f.rdV b) (laneBits w) i) := by
  unfold State.vec2
  rw [State.issue_go h]
  rfl

theorem State.vec1_go {s : State} {d a : VReg} {m : MReg} {ka : Bool} (h : s.goes (vSrcs (masked m) d a m ka []))
    (op : Nat → Nat → Nat) (w : BitVec 2) :
    s.vec1 op w d a m ka = s.does fun f => f.wrLanes (laneBits w) d (fun i => (f.rdM m).getLsbD i)
      fun i => op (laneBits w) (lane (f.rdV a) (laneBits w) i) := by
  unfold State.vec1
  rw [State.issue_go h]
  rfl

/-- Outside service mode a privileged form traps with PERM; in it, it has its effect (R66, R68). -/
theorem State.privileged_svc {s : State} (h : s.me.svc = true) (k : State → State) : s.privileged k = k s := by
  simp [State.privileged, h]
theorem State.privileged_user {s : State} (h : s.me.svc = false) (k : State → State) :
    s.privileged k = s.trap Cause.PERM s.me.wordAddr := by simp [State.privileged, h]

/-- An entry that a property does not hold of adds nothing to those it holds of. -/
theorem Tab.filter_put_le {α : Type} (p : Nat × α → Bool) (k : Nat) (v : α) (h : p (k, v) = false) :
    ∀ t : Table α, ((Tab.put t k v).filter p).length ≤ (t.filter p).length
  | [] => by simp [Tab.put, h]
  | (i, w) :: t => by
    have ih := Tab.filter_put_le p k v h t
    unfold Tab.put
    split
    · simp [List.filter_cons, h]
    · split
      · rw [List.filter_cons_of_neg (by simp [h]), List.filter_cons]
        split <;> simp
      · simp only [List.filter_cons]
        split <;> simp <;> omega

/-- A frame that is not resident at a core takes no slot of it (R164). -/
theorem State.residents_setFrame_le {s : State} {k c : Nat} {f : Frame} (h : f.resident = false ∨ f.coreAt k ≠ c) :
    ((s.setFrame k f).residents c).length ≤ (s.residents c).length := by
  simp only [State.residents, List.length_map]
  exact Tab.filter_put_le _ k f (by rcases h with h | h <;> simp [h]) s.frames
end Sys2Proof.Machine
end

