-- ==== Sys2Proof/Laws/Units.lean ====
section
/-! SUPPORT. Laws/Units.lean: for each update of the fabric, the front end and the root of trust, each field after it; reading back the
entry it wrote; what waking a core leaves alone, and what the root of trust does with a request that it does not take. -/

namespace Sys2Proof.Machine

/-! ## `setPort` -/

@[simp] theorem State.setPort_clk (s : State) (p : Nat) (x : Port) : (s.setPort p x).clk = s.clk := rfl
@[simp] theorem State.setPort_run (s : State) (p : Nat) (x : Port) : (s.setPort p x).run = s.run := rfl
@[simp] theorem State.setPort_mem (s : State) (p : Nat) (x : Port) : (s.setPort p x).mem = s.mem := rfl
@[simp] theorem State.setPort_frames (s : State) (p : Nat) (x : Port) : (s.setPort p x).frames = s.frames := rfl
@[simp] theorem State.setPort_cores (s : State) (p : Nat) (x : Port) : (s.setPort p x).cores = s.cores := rfl
@[simp] theorem State.setPort_tiles (s : State) (p : Nat) (x : Port) : (s.setPort p x).tiles = s.tiles := rfl
@[simp] theorem State.setPort_arrays (s : State) (p : Nat) (x : Port) : (s.setPort p x).arrays = s.arrays := rfl
@[simp] theorem State.setPort_engines (s : State) (p : Nat) (x : Port) : (s.setPort p x).engines = s.engines := rfl
@[simp] theorem State.setPort_net (s : State) (p : Nat) (x : Port) : (s.setPort p x).net = s.net := rfl
@[simp] theorem State.setPort_dies (s : State) (p : Nat) (x : Port) : (s.setPort p x).dies = s.dies := rfl
@[simp] theorem State.setPort_parks (s : State) (p : Nat) (x : Port) : (s.setPort p x).parks = s.parks := rfl
@[simp] theorem State.setPort_chip (s : State) (p : Nat) (x : Port) : (s.setPort p x).chip = s.chip := rfl
@[simp] theorem State.setPort_fe (s : State) (p : Nat) (x : Port) : (s.setPort p x).fe = s.fe := rfl
@[simp] theorem State.setPort_fab (s : State) (p : Nat) (x : Port) : (s.setPort p x).fab = { s.fab with ports := Tab.put s.fab.ports p x } := rfl
@[simp] theorem State.setPort_sec (s : State) (p : Nat) (x : Port) : (s.setPort p x).sec = s.sec := rfl
@[simp] theorem State.setPort_dbg (s : State) (p : Nat) (x : Port) : (s.setPort p x).dbg = s.dbg := rfl
@[simp] theorem State.setPort_pwr (s : State) (p : Nat) (x : Port) : (s.setPort p x).pwr = s.pwr := rfl

/-! ## `setStream` -/

@[simp] theorem State.setStream_clk (s : State) (c : BitVec 11) (x : PairStream) : (s.setStream c x).clk = s.clk := rfl
@[simp] theorem State.setStream_run (s : State) (c : BitVec 11) (x : PairStream) : (s.setStream c x).run = s.run := rfl
@[simp] theorem State.setStream_mem (s : State) (c : BitVec 11) (x : PairStream) : (s.setStream c x).mem = s.mem := rfl
@[simp] theorem State.setStream_frames (s : State) (c : BitVec 11) (x : PairStream) : (s.setStream c x).frames = s.frames := rfl
@[simp] theorem State.setStream_cores (s : State) (c : BitVec 11) (x : PairStream) : (s.setStream c x).cores = s.cores := rfl
@[simp] theorem State.setStream_tiles (s : State) (c : BitVec 11) (x : PairStream) : (s.setStream c x).tiles = s.tiles := rfl
@[simp] theorem State.setStream_arrays (s : State) (c : BitVec 11) (x : PairStream) : (s.setStream c x).arrays = s.arrays := rfl
@[simp] theorem State.setStream_engines (s : State) (c : BitVec 11) (x : PairStream) : (s.setStream c x).engines = s.engines := rfl
@[simp] theorem State.setStream_net (s : State) (c : BitVec 11) (x : PairStream) : (s.setStream c x).net = s.net := rfl
@[simp] theorem State.setStream_dies (s : State) (c : BitVec 11) (x : PairStream) : (s.setStream c x).dies = s.dies := rfl
@[simp] theorem State.setStream_parks (s : State) (c : BitVec 11) (x : PairStream) : (s.setStream c x).parks = s.parks := rfl
@[simp] theorem State.setStream_chip (s : State) (c : BitVec 11) (x : PairStream) : (s.setStream c x).chip = s.chip := rfl
@[simp] theorem State.setStream_fe (s : State) (c : BitVec 11) (x : PairStream) : (s.setStream c x).fe = s.fe := rfl
@[simp] theorem State.setStream_fab (s : State) (c : BitVec 11) (x : PairStream) :
    (s.setStream c x).fab = { s.fab with streams := Tab.put s.fab.streams c.toNat x } := rfl
@[simp] theorem State.setStream_sec (s : State) (c : BitVec 11) (x : PairStream) : (s.setStream c x).sec = s.sec := rfl
@[simp] theorem State.setStream_dbg (s : State) (c : BitVec 11) (x : PairStream) : (s.setStream c x).dbg = s.dbg := rfl
@[simp] theorem State.setStream_pwr (s : State) (c : BitVec 11) (x : PairStream) : (s.setStream c x).pwr = s.pwr := rfl

/-! ## `setQueue` -/

@[simp] theorem State.setQueue_clk (s : State) (q : Nat) (x : Queue) : (s.setQueue q x).clk = s.clk := rfl
@[simp] theorem State.setQueue_run (s : State) (q : Nat) (x : Queue) : (s.setQueue q x).run = s.run := rfl
@[simp] theorem State.setQueue_mem (s : State) (q : Nat) (x : Queue) : (s.setQueue q x).mem = s.mem := rfl
@[simp] theorem State.setQueue_frames (s : State) (q : Nat) (x : Queue) : (s.setQueue q x).frames = s.frames := rfl
@[simp] theorem State.setQueue_cores (s : State) (q : Nat) (x : Queue) : (s.setQueue q x).cores = s.cores := rfl
@[simp] theorem State.setQueue_tiles (s : State) (q : Nat) (x : Queue) : (s.setQueue q x).tiles = s.tiles := rfl
@[simp] theorem State.setQueue_arrays (s : State) (q : Nat) (x : Queue) : (s.setQueue q x).arrays = s.arrays := rfl
@[simp] theorem State.setQueue_engines (s : State) (q : Nat) (x : Queue) : (s.setQueue q x).engines = s.engines := rfl
@[simp] theorem State.setQueue_net (s : State) (q : Nat) (x : Queue) : (s.setQueue q x).net = s.net := rfl
@[simp] theorem State.setQueue_dies (s : State) (q : Nat) (x : Queue) : (s.setQueue q x).dies = s.dies := rfl
@[simp] theorem State.setQueue_parks (s : State) (q : Nat) (x : Queue) : (s.setQueue q x).parks = s.parks := rfl
@[simp] theorem State.setQueue_chip (s : State) (q : Nat) (x : Queue) : (s.setQueue q x).chip = s.chip := rfl
@[simp] theorem State.setQueue_fe (s : State) (q : Nat) (x : Queue) :
    (s.setQueue q x).fe = { s.fe with queues := Tab.put s.fe.queues q x } := rfl
@[simp] theorem State.setQueue_fab (s : State) (q : Nat) (x : Queue) : (s.setQueue q x).fab = s.fab := rfl
@[simp] theorem State.setQueue_sec (s : State) (q : Nat) (x : Queue) : (s.setQueue q x).sec = s.sec := rfl
@[simp] theorem State.setQueue_dbg (s : State) (q : Nat) (x : Queue) : (s.setQueue q x).dbg = s.dbg := rfl
@[simp] theorem State.setQueue_pwr (s : State) (q : Nat) (x : Queue) : (s.setQueue q x).pwr = s.pwr := rfl

/-! ## `setPart` -/

@[simp] theorem State.setPart_clk (s : State) (j : BitVec 12) (l : BitVec 11) (p : LoadIn) : (s.setPart j l p).clk = s.clk := rfl
@[simp] theorem State.setPart_run (s : State) (j : BitVec 12) (l : BitVec 11) (p : LoadIn) : (s.setPart j l p).run = s.run := rfl
@[simp] theorem State.setPart_mem (s : State) (j : BitVec 12) (l : BitVec 11) (p : LoadIn) : (s.setPart j l p).mem = s.mem := rfl
@[simp] theorem State.setPart_frames (s : State) (j : BitVec 12) (l : BitVec 11) (p : LoadIn) : (s.setPart j l p).frames = s.frames := rfl
@[simp] theorem State.setPart_cores (s : State) (j : BitVec 12) (l : BitVec 11) (p : LoadIn) : (s.setPart j l p).cores = s.cores := rfl
@[simp] theorem State.setPart_tiles (s : State) (j : BitVec 12) (l : BitVec 11) (p : LoadIn) : (s.setPart j l p).tiles = s.tiles := rfl
@[simp] theorem State.setPart_arrays (s : State) (j : BitVec 12) (l : BitVec 11) (p : LoadIn) : (s.setPart j l p).arrays = s.arrays := rfl
@[simp] theorem State.setPart_engines (s : State) (j : BitVec 12) (l : BitVec 11) (p : LoadIn) : (s.setPart j l p).engines = s.engines := rfl
@[simp] theorem State.setPart_net (s : State) (j : BitVec 12) (l : BitVec 11) (p : LoadIn) : (s.setPart j l p).net = s.net := rfl
@[simp] theorem State.setPart_dies (s : State) (j : BitVec 12) (l : BitVec 11) (p : LoadIn) : (s.setPart j l p).dies = s.dies := rfl
@[simp] theorem State.setPart_parks (s : State) (j : BitVec 12) (l : BitVec 11) (p : LoadIn) : (s.setPart j l p).parks = s.parks := rfl
@[simp] theorem State.setPart_chip (s : State) (j : BitVec 12) (l : BitVec 11) (p : LoadIn) : (s.setPart j l p).chip = s.chip := rfl
@[simp] theorem State.setPart_fe (s : State) (j : BitVec 12) (l : BitVec 11) (p : LoadIn) :
    (s.setPart j l p).fe = { s.fe with parts := Tab.put s.fe.parts (j.toNat * 2 ^ 11 + l.toNat) p } := rfl
@[simp] theorem State.setPart_fab (s : State) (j : BitVec 12) (l : BitVec 11) (p : LoadIn) : (s.setPart j l p).fab = s.fab := rfl
@[simp] theorem State.setPart_sec (s : State) (j : BitVec 12) (l : BitVec 11) (p : LoadIn) : (s.setPart j l p).sec = s.sec := rfl
@[simp] theorem State.setPart_dbg (s : State) (j : BitVec 12) (l : BitVec 11) (p : LoadIn) : (s.setPart j l p).dbg = s.dbg := rfl
@[simp] theorem State.setPart_pwr (s : State) (j : BitVec 12) (l : BitVec 11) (p : LoadIn) : (s.setPart j l p).pwr = s.pwr := rfl

/-! ## `setSec` -/

@[simp] theorem State.setSec_clk (s : State) (x : Security) : (s.setSec x).clk = s.clk := rfl
@[simp] theorem State.setSec_run (s : State) (x : Security) : (s.setSec x).run = s.run := rfl
@[simp] theorem State.setSec_mem (s : State) (x : Security) : (s.setSec x).mem = s.mem := rfl
@[simp] theorem State.setSec_frames (s : State) (x : Security) : (s.setSec x).frames = s.frames := rfl
@[simp] theorem State.setSec_cores (s : State) (x : Security) : (s.setSec x).cores = s.cores := rfl
@[simp] theorem State.setSec_tiles (s : State) (x : Security) : (s.setSec x).tiles = s.tiles := rfl
@[simp] theorem State.setSec_arrays (s : State) (x : Security) : (s.setSec x).arrays = s.arrays := rfl
@[simp] theorem State.setSec_engines (s : State) (x : Security) : (s.setSec x).engines = s.engines := rfl
@[simp] theorem State.setSec_net (s : State) (x : Security) : (s.setSec x).net = s.net := rfl
@[simp] theorem State.setSec_dies (s : State) (x : Security) : (s.setSec x).dies = s.dies := rfl
@[simp] theorem State.setSec_parks (s : State) (x : Security) : (s.setSec x).parks = s.parks := rfl
@[simp] theorem State.setSec_chip (s : State) (x : Security) : (s.setSec x).chip = s.chip := rfl
@[simp] theorem State.setSec_fe (s : State) (x : Security) : (s.setSec x).fe = s.fe := rfl
@[simp] theorem State.setSec_fab (s : State) (x : Security) : (s.setSec x).fab = s.fab := rfl
@[simp] theorem State.setSec_sec (s : State) (x : Security) : (s.setSec x).sec = x := rfl
@[simp] theorem State.setSec_dbg (s : State) (x : Security) : (s.setSec x).dbg = s.dbg := rfl
@[simp] theorem State.setSec_pwr (s : State) (x : Security) : (s.setSec x).pwr = s.pwr := rfl

/-! ## Reading back -/

@[simp] theorem State.port_setPort (s : State) (p : Nat) (x : Port) : (s.setPort p x).port p = x := by simp [State.port]
@[simp] theorem State.stream_setStream (s : State) (c : BitVec 11) (x : PairStream) : (s.setStream c x).stream c = x := by simp [State.stream]
@[simp] theorem State.queueOf_setQueue (s : State) (q : Nat) (x : Queue) : (s.setQueue q x).queueOf q = x := by simp [State.queueOf]
@[simp] theorem State.partOf_setPart (s : State) (j : BitVec 12) (l : BitVec 11) (p : LoadIn) : (s.setPart j l p).partOf j l = p := by
  simp [State.partOf]

/-! ## Clock gating (R506) -/

/-- Waking a core changes that core at most: its gate and the start of its idle time. -/
theorem State.rouse_only (s : State) (c : Nat) : s.rouse c = { s with cores := (s.rouse c).cores } := by
  unfold State.rouse
  split <;> rfl

/-- After it the core runs. -/
theorem State.rouse_gated (s : State) (c : Nat) : ((s.rouse c).core c).gated = false := by
  unfold State.rouse
  split
  · simp
  · next h => simpa using h

/-- A resident context that leaves a core moves the start of its idle time, and nothing else. -/
theorem State.leaves_core (s : State) (c : Nat) : (s.leaves c).core c = { s.core c with idleAt := s.clk.cycle } := by simp [State.leaves]

/-! ## Requests to the root of trust (R476, R480) -/

/-- After a boot that stopped, and while a dissolve is being served, a request has no effect. -/
theorem State.booted_stopped (s k : State) (h : s.sec.failed.isSome ∨ s.sec.dissolving.isSome) : s.booted k = s := if_pos h

/-- Otherwise it is handled. -/
theorem State.booted_taken (s k : State) (h : ¬(s.sec.failed.isSome ∨ s.sec.dissolving.isSome)) : s.booted k = k := if_neg h

/-- An answer is the newest of the replies, and nothing else changes. -/
@[simp] theorem State.reply_sec (s : State) (r : Reply) : (s.reply r).sec = { s.sec with replies := r :: s.sec.replies } := rfl

end Sys2Proof.Machine
end

