-- ==== Sys2Proof/Tests/Lab.lean ====
section
/-! SUPPORT. Tests/Lab.lean: small states for tests and witnesses, built from the state after reset. -/

namespace Sys2Proof.Tests

set_option Elab.async false

open Sys2Proof Sys2Proof.Machine

/-- The state that an outcome gives, if it gives one. -/
def nextOf (o : Host.Outcome State Fault Refusal) : Option State :=
  match o with
  | .next s => some s
  | .fault _ => none
  | .refused _ => none

/-- What a function reads of the next state. -/
def after {α : Type} (i : Instr) (s : State) (f : State → α) : Option α := (nextOf (exec i s)).map f

/-- A frame that runs in a slot, its program counter at 0x1000. -/
def runner : Frame := { Frame.reset with state := .running, resident := true, pc := 0x1000 }

/-- One task runs in frame 0 of core 0 of tile 0; nothing else differs from reset. -/
def lab : State := State.reset.setFrame 0 runner

/-- The lab with a change of its task. -/
def labWith (u : Frame → Frame) : State := lab.updMe u

/-- The lab's task with two general registers g1 and g2. -/
def labG (x y : Word) : State := labWith fun f => (f.wrG 1 x).wrG 2 y

/-- The lab's task in service mode. -/
def labSvc : State := labWith fun f => { f with tstat := 0x4000000000000000 }

/-- The lab's task in a repeat of a body of two words, run three times, at body word j of iteration k. -/
def labRpt (k j : Nat) : State :=
  labWith fun f => { f with rpt := some { base := 0x1000, body := [0x02000000, 0x02000001], k := k, j := j, n := 3, sd := 0, sa := 0, sb := 0 } }

/-- The lab's task with one 64 KiB page of device memory at 0x10000, at 0x140000: readable, writable, executable, owned by its
job; the first word there is w, zero words follow; no turn is listed. -/
def labPage (w : Nat) : State :=
  let leaf : Word := at64 3 62 + at64 7 57 + at64 (placedPa / 0x10000 + 4) 16
  ({ lab.withFetchWord 32 w with run := Sched.reset }).plant .device (placedPa + 0x30008) (leBytes leaf.toNat 8)

/-- The lab's page, an open scratchpad bank 0 on tiles 0 and 1, and an open scratchpad on core 0 and on core 32. -/
def labMem : State :=
  let s := labPage 0x1FE
  let s := (s.setTile 0 { Tile.reset with mode := 0xFFFFFE }).setTile 1 { Tile.reset with mode := 0xFFFFFE }
  (s.setCore 0 { Core.reset with split := 4 }).setCore 32 { Core.reset with split := 4 }

/-- The same with g1 and g2. -/
def labMemG (x y : Word) : State := labMem.updMe fun f => (f.wrG 1 x).wrG 2 y

theorem next_of {o : Host.Outcome State Fault Refusal} (h : (nextOf o).isSome = true) : ∃ t, o = .next t := by
  cases o <;> simp_all [nextOf]

theorem pair_of {α β : Type} {x : α × β} {b : β} (h : x.2 = b) : ∃ u, x = (u, b) := ⟨x.1, by rw [← h]⟩

end Sys2Proof.Tests
end

