-- ==== Sys2Proof/Tests/Words.lean ====
section
/-! SUPPORT. Tests/Words.lean: for every constructor a word written out from the encoding that the spec gives its row
(bits 31:25 the major, the fields with values that tell them apart, the function number), and the words that the
spec's own text works out. Each decodes to the instruction it stands for, and is what the encoder gives. -/

namespace Sys2Proof.Tests

set_option Elab.async false

open Sys2Proof

def decodesTo (p : IWord × Instr) : Bool := decide (decode p.1 = .ok p.2)
def encodesTo (p : IWord × Instr) : Bool := decide (encode p.2 = some p.1)

/-- Words of the rows ADD to ANDI. -/
def words_scalar : List (IWord × Instr) :=
  [(0x03AD4DE0, .add 53 42 27 true true),
   (0x03AD4DE1, .sub 53 42 27 true true),
   (0x03AD4DE2, .mul 53 42 27 true true),
   (0x03AD4DE3, .mulh 53 42 27 true true),
   (0x03AD4DE4, .mulhu 53 42 27 true true),
   (0x03AD4DE5, .div 53 42 27 true true),
   (0x03AD4DE6, .divu 53 42 27 true true),
   (0x03AD4DE7, .rem 53 42 27 true true),
   (0x03AD4DE8, .remu 53 42 27 true true),
   (0x03AD4DE9, .and 53 42 27 true true),
   (0x03AD4DEA, .or 53 42 27 true true),
   (0x03AD4DEB, .xor 53 42 27 true true),
   (0x03AD4DEC, .andn 53 42 27 true true),
   (0x03AD4DED, .shl 53 42 27 true true),
   (0x03AD4DEE, .shr 53 42 27 true true),
   (0x03AD4DEF, .sar 53 42 27 true true),
   (0x03AD4DF0, .min 53 42 27 true true),
   (0x03AD4DF1, .max 53 42 27 true true),
   (0x03AD4DF2, .minu 53 42 27 true true),
   (0x03AD4DF3, .maxu 53 42 27 true true),
   (0x03AD4DF4, .seq 53 42 27 true true),
   (0x03AD4DF5, .sne 53 42 27 true true),
   (0x03AD4DF6, .slt 53 42 27 true true),
   (0x03AD4DF7, .sltu 53 42 27 true true),
   (0x03AD4DF8, .movz 53 42 27 true true),
   (0x03AD4DF9, .movn 53 42 27 true true),
   (0x03AD4DFA, .bfx 53 42 27 true true),
   (0x03AD4DFB, .bfxs 53 42 27 true true),
   (0x03AD405C, .clz 53 42 true),
   (0x03AD405D, .ctz 53 42 true),
   (0x03AD405E, .popc 53 42 true),
   (0x03AD405F, .bswap 53 42 true),
   (0x05AD5AD3, .addi 53 42 true 2771),
   (0x07AD5AD3, .andi 53 42 true 2771)]

theorem test_decode_scalar : words_scalar.all decodesTo = true := by decide +kernel
theorem test_encode_scalar : words_scalar.all encodesTo = true := by decide +kernel

/-- Words of the rows SHLI to AMO_SWAP. -/
def words_scalar_memory : List (IWord × Instr) :=
  [(0x09AD5013, .shli 53 42 true 19),
   (0x09AD5053, .shri 53 42 true 19),
   (0x09AD5093, .sari 53 42 true 19),
   (0x09AD50D3, .roli 53 42 true 19),
   (0x0BAF1AD3, .li 53 465619),
   (0x0DAF1AD3, .lim 53 465619),
   (0x0FAF1AD3, .lih 53 465619),
   (0x11537AD3, .beq 42 27 6867),
   (0x13537AD3, .bne 42 27 6867),
   (0x15537AD3, .blt 42 27 6867),
   (0x17537AD3, .bge 42 27 6867),
   (0x19537AD3, .bltu 42 27 6867),
   (0x1B537AD3, .bgeu 42 27 6867),
   (0x1D671AD3, .jal 23534291),
   (0x1FAD5AD3, .jalr 53 42 true 2771),
   (0x21AD5AD3, .ld8 53 42 true 2771),
   (0x23AD5AD3, .ld16 53 42 true 2771),
   (0x25AD5AD3, .ld32 53 42 true 2771),
   (0x27AD5AD3, .ld64 53 42 true 2771),
   (0x29AD5AD3, .st8 53 42 true 2771),
   (0x2BAD5AD3, .st16 53 42 true 2771),
   (0x2DAD5AD3, .st32 53 42 true 2771),
   (0x2FAD5AD3, .st64 53 42 true 2771),
   (0x30054DE3, .lnd 42 27 true true 3),
   (0x30054DE4, .lndV 42 27 true true),
   (0x32054DE0, .rput 42 27 true true),
   (0x32054F61, .rputV 42 30 true true),
   (0x35AD4DE3, .pst 53 42 27 true true 3),
   (0x36000000, .fenceP),
   (0x36000006, .fenceR 2),
   (0x36000009, .fenceA 1),
   (0x38155AD3, .pf 2 42 true 2771),
   (0x43AD4DE3, .amoAlu true 53 42 27 true true 3),
   (0x43AD4DE8, .amoSwap true 53 42 27 true true)]

theorem test_decode_scalar_memory : words_scalar_memory.all decodesTo = true := by decide +kernel
theorem test_encode_scalar_memory : words_scalar_memory.all encodesTo = true := by decide +kernel

/-- Words of the rows AMO_CAS to VMINU. -/
def words_tasks_vector : List (IWord × Instr) :=
  [(0x43AD4DE9, .amoCas true 53 42 27 true true),
   (0x43AD404A, .amoIncw true 53 42 true),
   (0x43AD4DEB, .amoAddb true 53 42 27 true true),
   (0x41AD4DEC, .amoFadd 53 42 27 true true),
   (0x44054DE3, .cadd 42 27 true true 3),
   (0x45AD4DE7, .cfadd 53 42 27 true true 3),
   (0x45AD4DEA, .cwait 53 42 27 true true 2),
   (0x45AD4DEF, .cpoll 53 42 27 true true 3),
   (0x45AD4050, .cread 53 42 true),
   (0x45AD4DF4, .cset 53 42 27 true true),
   (0x61AD4DE3, .send 53 42 27 true true 3),
   (0x63AD4DE3, .sendg 53 42 27 true true 3),
   (0x65AD4DE0, .spawn 53 42 27 true true),
   (0x67AD4DE0, .bind 53 42 27 true true),
   (0x67AD4041, .unbind 53 42 true),
   (0x67AD4DE2, .clsmask 53 42 27 true true),
   (0x68054040, .armG 42 true),
   (0x68054DE1, .armV 42 27 true true),
   (0x68054042, .armM 42 true),
   (0x6A054042, .live 42 true 2),
   (0x6DAAA10D, .myaddr 53 21 2 1 5),
   (0x6E000000, .yield),
   (0x6E000001, .endTask),
   (0x70DB0D31, .rpt 3 3 3 211 1),
   (0x73AD4DE0, .fol 53 42 27 true true),
   (0x74000000, .unfol),
   (0x87556F30, .vadd 3 21 10 27 6 true true),
   (0x87556F31, .vsub 3 21 10 27 6 true true),
   (0x87556F32, .vmul 3 21 10 27 6 true true),
   (0x87556F33, .vmulh 3 21 10 27 6 true true),
   (0x87556F34, .vmulhu 3 21 10 27 6 true true),
   (0x87556F35, .vmin 3 21 10 27 6 true true),
   (0x87556F36, .vmax 3 21 10 27 6 true true),
   (0x87556F37, .vminu 3 21 10 27 6 true true)]

theorem test_decode_tasks_vector : words_tasks_vector.all decodesTo = true := by decide +kernel
theorem test_encode_tasks_vector : words_tasks_vector.all encodesTo = true := by decide +kernel

/-- Words of the rows VMAXU to VFLT. -/
def words_float_compare : List (IWord × Instr) :=
  [(0x87556F38, .vmaxu 3 21 10 27 6 true true),
   (0x87556F39, .vadds 3 21 10 27 6 true true),
   (0x87556F3A, .vaddsu 3 21 10 27 6 true true),
   (0x87556F3B, .vsubs 3 21 10 27 6 true true),
   (0x87556F3C, .vsubsu 3 21 10 27 6 true true),
   (0x8755032D, .vabs 3 21 10 6 true),
   (0x8F556F30, .vand 3 21 10 27 6 true true),
   (0x8F556F31, .vor 3 21 10 27 6 true true),
   (0x8F556F32, .vxor 3 21 10 27 6 true true),
   (0x8F556F33, .vandn 3 21 10 27 6 true true),
   (0x8F556F34, .vshl 3 21 10 27 6 true true),
   (0x8F556F35, .vshr 3 21 10 27 6 true true),
   (0x8F556F36, .vsar 3 21 10 27 6 true true),
   (0x96556F30, .veq 3 5 10 27 6 true true),
   (0x96556F31, .vne 3 5 10 27 6 true true),
   (0x96556F32, .vlt 3 5 10 27 6 true true),
   (0x96556F33, .vltu 3 5 10 27 6 true true),
   (0x96556F34, .vle 3 5 10 27 6 true true),
   (0x96556F35, .vleu 3 5 10 27 6 true true),
   (0x9F556F70, .vfadd 3 21 10 27 6 true true true),
   (0x9F556F71, .vfsub 3 21 10 27 6 true true true),
   (0x9F556F72, .vfmul 3 21 10 27 6 true true true),
   (0x9F556F73, .vfdiv 3 21 10 27 6 true true true),
   (0x9F550364, .vfsqrt 3 21 10 6 true true),
   (0x9F556F75, .vfmin 3 21 10 27 6 true true true),
   (0x9F556F76, .vfmax 3 21 10 27 6 true true true),
   (0x9F556F77, .vfma 3 21 10 27 6 true true true),
   (0x9F556F78, .vfms 3 21 10 27 6 true true true),
   (0x9F556F79, .vfnma 3 21 10 27 6 true true true),
   (0x9F556F7A, .vfnms 3 21 10 27 6 true true true),
   (0x9F55036B, .vfabs 3 21 10 6 true true),
   (0x9F55036C, .vfneg 3 21 10 6 true true),
   (0xA6556F70, .vfeq 3 5 10 27 6 true true true),
   (0xA6556F71, .vflt 3 5 10 27 6 true true true)]

theorem test_decode_float_compare : words_float_compare.all decodesTo = true := by decide +kernel
theorem test_encode_float_compare : words_float_compare.all encodesTo = true := by decide +kernel

/-- Words of the rows VFLE to MLEASE. -/
def words_vector_memory : List (IWord × Instr) :=
  [(0xA6556F72, .vfle 3 5 10 27 6 true true true),
   (0xA6556F73, .vfun 3 5 10 27 6 true true true),
   (0xA9550F6B, .vcvt 21 10 3 6 true true 11),
   (0xAB556F33, .vperm 21 10 27 6 true true 3),
   (0xAB556F37, .vslide 21 10 27 6 true true 3),
   (0xAB556F38, .vmerge 21 10 27 6 true true),
   (0xAC510C30, .mand 5 2 3 true true),
   (0xAC510C31, .mor 5 2 3 true true),
   (0xAC510C32, .mxor 5 2 3 true true),
   (0xAC510C33, .mandn 5 2 3 true true),
   (0xAC510024, .mnot 5 2 true),
   (0xAF550363, .vrsum 21 10 6 true true 3),
   (0xAF550364, .vrminF32 21 10 6 true true),
   (0xAF550365, .vrmaxF32 21 10 6 true true),
   (0xAF550326, .vrminI32 21 10 6 true),
   (0xAF550327, .vrmaxI32 21 10 6 true),
   (0xB1650460, .vqntMxe4 22 10 1 true true),
   (0xB1650C61, .vqntMxf4 22 10 3 true true),
   (0xB1653C62, .vqntK4 22 10 3 3 true true),
   (0xB1652C63, .vdqnt 22 10 2 3 true true),
   (0xB356F6D3, .vld 21 27 6 true 723),
   (0xB556F6D3, .vst 21 27 6 true 723),
   (0xB766F6D3, .vgath 22 27 6 true 723),
   (0xB966F6D3, .vscat 22 27 6 true 723),
   (0xBAAD4043, .vsplat 21 42 true 3),
   (0xBBAAADE4, .vget 53 21 27 true true),
   (0xBAAD4DE5, .vput 21 42 27 true true),
   (0xBBA8A046, .mget 53 5 true),
   (0xBA2D4047, .mput 5 42 true),
   (0xBD500320, .vfxrd 21 6 true),
   (0xBC050321, .vfxwr 10 6 true),
   (0xBC000322, .vfxclr 6 true),
   (0xD3820000, .mma 9 3 1),
   (0xD66AD800, .mlease 53 27)]

theorem test_decode_vector_memory : words_vector_memory.all decodesTo = true := by decide +kernel
theorem test_encode_vector_memory : words_vector_memory.all encodesTo = true := by decide +kernel

/-- Words of the rows MREL to DBGSYNC. -/
def words_units_system : List (IWord × Instr) :=
  [(0xD6000001, .mrel),
   (0xD7800002, .mzero 3),
   (0xD7800003, .mfree 3),
   (0xD6D4DA64, .mldA true 42 27 19),
   (0xD6D4DA65, .mldB true 42 27 19),
   (0xD7D4D806, .mdrain 3 42 27),
   (0xD66AD807, .merr 53 27),
   (0xD9AD4DE0, .xcopy 53 42 27 true true),
   (0xD9AD4DE1, .xcopyg 53 42 27 true true),
   (0xDBAD4DE0, .xgath 53 42 27 true true),
   (0xDBAD4DE1, .xscat 53 42 27 true true),
   (0xDDAD4DE0, .xred 53 42 27 true true),
   (0xDFAD4040, .xstat 53 42 true),
   (0xDFAD4041, .xcancel 53 42 true),
   (0xE1A8013F, .csrr 53 319),
   (0xE3AD513F, .csrw 53 42 true 319),
   (0xE5AD513F, .csrset 53 42 true 319),
   (0xE7AD513F, .csrclr 53 42 true 319),
   (0xE8054040, .svc 42 true),
   (0xE8000001, .tret),
   (0xEA054DE0, .tlbinv 42 27 true true),
   (0xEA054041, .tlbinvAll 42 true),
   (0xEBAD4DE2, .tlbprobe 53 42 27 true true),
   (0xEA000003, .tlbreplayAll),
   (0xF1671AD3, .brk 23534291),
   (0xF2054DE0, .trc 42 27 true true),
   (0xF5AD4040, .seerd 53 42 true),
   (0xF5AD4041, .seerdC 53 42 true),
   (0xF7A80000, .dbgsync 53)]

theorem test_decode_units_system : words_units_system.all decodesTo = true := by decide +kernel
theorem test_encode_units_system : words_units_system.all encodesTo = true := by decide +kernel

/-- Words that the text of the spec works out: R73, R70, R57, R188, R189, R191, R194, R195, R209, R218, R219, R225, R226, R229,
R246, R252, R256, R257, R270, R275, R288, R311, R341, R356, R417, R436, R453, R503. -/
def words_of_the_spec : List (IWord × Instr) :=
  [(0x0239049A, .bfx 7 8 9 false false), (0x02188281, .sub 3 4 5 false false), (0x0828C083, .sari 5 6 false 3),
   (0x1C000100, .jal 0x100), (0x1E012002, .jalr 0 9 false 2), (0x2628C002, .ld64 5 6 false 2), (0x2C48E002, .st32 9 7 false 2),
   (0x30014583, .lnd 10 11 false false 3), (0x32016600, .rput 11 12 false false), (0x34494583, .pst 9 10 11 false false 3),
   (0xB2319001, .vld 3 6 2 false 1), (0x3810C002, .pf 2 6 false 2), (0x94321482, .vlt 2 3 4 5 1 false false),
   (0xA861040A, .vcvt 6 2 1 0 false false 10), (0xAE740002, .vrsum 7 8 0 false false 2), (0xBA112001, .vsplat 2 9 false 1),
   (0xB0441402, .vqntK4 4 8 1 1 false false), (0xB0A22403, .vdqnt 10 4 2 1 false false), (0x12481FFD, .bne 9 0 0x1FFD),
   (0x9C321507, .vfma 2 3 4 5 2 false false false),
   (0xD8A14480, .xcopy 20 10 9 false false), (0xD8A14481, .xcopyg 20 10 9 false false), (0xDC014480, .xred 0 10 9 false false),
   (0xDEAA8000, .xstat 21 20 false), (0xD6165000, .mlease 11 10), (0xD6000001, .mrel), (0xD6800002, .mzero 1), (0xD6800003, .mfree 1),
   (0xD6986804, .mldA true 12 13 0), (0xD61C7805, .mldB false 14 15 0),
   (0xD6208806, .mdrain 0 16 17), (0xD6249807, .merr 18 19), (0xC1020000, .mma 0 2 1), (0xD0000000, .mma 8 0 0),
   (0x44014582, .cadd 10 11 false false 2), (0x44714584, .cfadd 14 10 11 false false 0), (0x4401870A, .cwait 0 12 14 false false 2),
   (0x4479458F, .cpoll 15 10 11 false false 3), (0x44794010, .cread 15 10 false), (0x44794594, .cset 15 10 11 false false),
   (0x4228C380, .amoAlu true 5 6 7 false false 0), (0x4028C38B, .amoAddb false 5 6 7 false false), (0x4228C00A, .amoIncw true 5 6 false),
   (0xE1E80021, .csrr 61 0x021), (0xE207A021, .csrw 0 61 false 0x021), (0xE8000001, .tret), (0xF0000005, .brk 5),
   (0xF2012500, .trc 9 10 false false), (0xF461A001, .seerdC 12 13 false), (0xF6480000, .dbgsync 9),
   (0x6C728080, .myaddr 14 20 1 0 0), (0x6001E700, .send 0 15 14 false false 0), (0x70010040, .rpt 0 0 1 4 0),
   (0x36000000, .fenceP), (0x36000004, .fenceR 0), (0x36000006, .fenceR 2), (0x36000008, .fenceA 0), (0x3600000A, .fenceA 2),
   (0xBA684004, .vget 13 2 0 false false), (0xB4058000, .vst 0 22 0 false 0)]

theorem test_decode_spec : words_of_the_spec.all decodesTo = true := by decide +kernel
theorem test_encode_spec : words_of_the_spec.all encodesTo = true := by decide +kernel

/-- R65, R66: major 0; a unary form with a b field or kb set (the word of R57's example); a constant shift beyond the four;
a mask register above 7; a reserved scope; each is refused. -/
theorem test_illegal_words :
    ([0x00000000, 0x0228C39C, 0x08000100, 0xBA400007, 0x36000007, 0xFE000000] : List IWord).all
      (fun w => match decode w with | .ok _ => false | .error _ => true) = true := by decide +kernel

end Sys2Proof.Tests
end

