-- ==== Sys2Proof/Tests/Slice0.lean ====
section
/-! SUPPORT. Tests/Slice0.lean: an ill-formed term for each check of WellFormed, and small runs of one instruction whose
results come from the spec's worked examples and tables. -/

namespace Sys2Proof.Tests

set_option Elab.async false

open Sys2Proof Sys2Proof.Machine

/-! ## WellFormed refuses -/

/-- One value beyond the range of each form that has a range (R65, R71–R76, R79, R130, R217–R230, R250, R255–R270, R311,
R341). -/
def ill_formed : List Instr :=
  [.rputV 1 32 false false, .fenceR 3, .fenceA 3, .pf 3 1 false 0, .cwait 1 2 3 false false 0, .send 59 1 2 false false 0,
   .sendg 59 1 2 false false 0, .spawn 59 1 2 false false, .live 1 false 3, .myaddr 1 2 0 0 1, .myaddr 1 32 0 1 0, .myaddr 1 4 0 2 0,
   .myaddr 1 0 0 2 1, .myaddr 1 2 0 3 0, .rpt 0 0 0 0 1, .vgath 1 1 0 false 0, .vscat 1 1 0 false 0, .vcvt 1 2 2 0 false false 0,
   .vcvt 1 2 1 0 false false 6, .vcvt 1 2 0 0 true false 14, .vrsum 1 2 0 true false 1, .vqntMxe4 1 2 0 false false,
   .vqntMxe4 2 1 0 false false, .vqntMxe4 2 4 2 false false, .vqntMxf4 1 2 0 false false, .vqntMxf4 2 1 0 false false,
   .vqntK4 1 2 0 0 false false, .vqntK4 2 1 0 0 false false, .vdqnt 1 2 1 0 false false, .vdqnt 2 1 1 0 false false,
   .vdqnt 2 4 3 0 false false, .vdqnt 2 4 0 2 false false, .vsplat 32 1 false 0, .vget 1 32 2 false false, .vput 32 1 2 false false,
   .mget 1 8 false, .mput 8 1 false, .mma 11 0 0, .mma 0 0 2, .xcopy 1 0 2 false false, .xcopyg 1 60 2 false false,
   .xgath 1 0 2 false false, .xscat 1 60 2 false false, .xred 1 0 2 false false, .csrr 1 0x003, .csrw 1 2 false 0x140,
   .csrset 1 2 false 0x0FF, .csrclr 1 2 false 0x042]

theorem test_ill_formed_refused : ill_formed.all (fun i => !i.wf) = true := by decide +kernel

/-- An ill-formed term has a word, and decoding refuses it by name. -/
theorem test_range_refused : decode 0x32003001 = .error .range := by decide +kernel

/-! ## Scalar results -/

/-- R187's table of divisions. -/
theorem test_division :
    ([(.div 3 1 2 false false, 7, -2, -3), (.rem 3 1 2 false false, 7, -2, 1), (.div 3 1 2 false false, -7, 2, -3),
      (.rem 3 1 2 false false, -7, 2, -1), (.divu 3 1 2 false false, 0xFFFFFFFFFFFFFFF9, 2, 0x7FFFFFFFFFFFFFFC),
      (.remu 3 1 2 false false, 0xFFFFFFFFFFFFFFF9, 2, 1), (.div 3 1 2 false false, 5, 0, 0xFFFFFFFFFFFFFFFF),
      (.rem 3 1 2 false false, 5, 0, 5), (.div 3 1 2 false false, 0x8000000000000000, -1, 0x8000000000000000),
      (.rem 3 1 2 false false, 0x8000000000000000, -1, 0)] : List (Instr × Word × Word × Word)).all
      (fun p => after p.1 (labG p.2.1 p.2.2.1) (fun t => t.me.rdG 3) == some p.2.2.2) = true := by decide +kernel

/-- R188's table of bit fields of 0x00F3_5A00. -/
theorem test_bit_fields :
    ([(0x0C08, 0x35A, 0x35A), (0x0A08, 0x35A, 0xFFFFFFFFFFFFFF5A), (0x4034, 0, 0), (0x0008, 0, 0)] : List (Word × Word × Word)).all
      (fun p => after (.bfx 3 1 2 false false) (labG 0xF35A00 p.1) (fun t => t.me.rdG 3) == some p.2.1 &&
        after (.bfxs 3 1 2 false false) (labG 0xF35A00 p.1) (fun t => t.me.rdG 3) == some p.2.2) = true := by decide +kernel

/-- R189's product of 128 bits: all ones times 2. -/
theorem test_products :
    after (.mul 3 1 2 false false) (labG 0xFFFFFFFFFFFFFFFF 2) (fun t => t.me.rdG 3) = some 0xFFFFFFFFFFFFFFFE ∧
    after (.mulhu 3 1 2 false false) (labG 0xFFFFFFFFFFFFFFFF 2) (fun t => t.me.rdG 3) = some 1 ∧
    after (.mulh 3 1 2 false false) (labG 0xFFFFFFFFFFFFFFFF 2) (fun t => t.me.rdG 3) = some 0xFFFFFFFFFFFFFFFF := by decide +kernel

/-- R189: `movz` whose condition fails leaves an empty g3 empty; one whose condition holds fills it. -/
theorem test_movz :
    after (.movz 3 1 2 false false) ((labG 20 1).updMe fun f => f.emptyG 3) (fun t => t.me.gFull.getLsbD 3) = some false ∧
    after (.movz 3 1 2 false false) ((labG 20 0).updMe fun f => f.emptyG 3) (fun t => (t.me.gFull.getLsbD 3, t.me.rdG 3)) = some (true, 20) := by
  decide +kernel

/-- R190: `andi` with −64 clears A[5:0]; R191: `sari` by 3, `roli` by 60 rotates right by 4. -/
theorem test_immediates :
    after (.andi 3 1 false 0xFC0) (labG 0xFFFFFFFFFFFFFFFF 0) (fun t => t.me.rdG 3) = some 0xFFFFFFFFFFFFFFC0 ∧
    after (.sari 3 1 false 3) (labG 0x8000000000000000 0) (fun t => t.me.rdG 3) = some 0xF000000000000000 ∧
    after (.roli 3 1 false 60) (labG 0x1 0) (fun t => t.me.rdG 3) = some 0x1000000000000000 := by decide +kernel

/-- R73's chain: `li`, `lim` and `lih` reach 0x00AB_CDEF_1234_5678. -/
theorem test_long_immediate :
    after (.lim 3 0x5E246) (labWith fun f => f.wrG 3 (BitVec.ofInt 64 (0x45678 - 0x80000))) (fun t => t.me.rdG 3) = some 0xFFFFFFEF12345678 ∧
    after (.lih 3 0x2AF37) (labWith fun f => f.wrG 3 0xFFFFFFEF12345678) (fun t => t.me.rdG 3) = some 0x00ABCDEF12345678 := by decide +kernel

/-- R193: a branch to itself; R195's example: `jalr g0, g9, 2` with g9 = 0x10_0000 traps with ALIGN, `tval` 0x10_0002. -/
theorem test_transfers :
    after (.beq 0 0 0) lab (fun t => t.me.pc) = some 0x1000 ∧
    after (.bne 0 0 0x1FFF) lab (fun t => t.me.pc) = some 0x1004 ∧
    after (.jalr 0 1 false 2) (labG 0x100000 0) (fun t => (t.me.cause, t.me.tval)) = some (3, 0x100002) := by decide +kernel

/-- R60's order: the poisoned source traps with its stored cause although the other is empty. -/
theorem test_poison_before_empty :
    after (.add 3 1 2 false false) ((labG 0 0).updMe fun f => (f.emptyG 1).poisonG 2 6) (fun t => t.me.cause) = some 6 := by decide +kernel

/-! ## Atomics, vectors, numbers -/

/-- R357's table for 32 bits. -/
theorem test_atomic_values :
    amoNew .incw 32 3 0 7 = some 4 ∧ amoNew .incw 32 9 0 7 = some 0 ∧ amoNew .incw 32 5 0 0 = some 0 ∧
    amoNew .incw 32 0xFFFFFFFF 0 0xFFFFFFFF = some 0 ∧ amoNew .addb 32 5 10 8 = some 8 ∧ amoNew .addb 32 8 1 8 = none ∧
    amoNew .addb 32 3 5 0 = none ∧ amoNew .addb 32 0xFFFFFFF0 0x20 0xFFFFFFFF = some 0xFFFFFFFF := by decide +kernel

/-- R246: `vlt.i32` writes bits 0–15 and clears bits 16–63. -/
theorem test_vlt :
    after (.vlt 2 3 4 5 0 false false) (labWith fun f => ((f.wrV 4 0).wrV 5 (BitVec.ofNat 512 (2 ^ 64 - 1))).wrM 3 (BitVec.allOnes 64))
      (fun t => t.me.rdM 3) = some 0 ∧
    after (.vlt 2 3 5 4 0 false false) (labWith fun f => ((f.wrV 4 0).wrV 5 (BitVec.ofNat 512 (2 ^ 64 - 1))).wrM 3 (BitVec.allOnes 64))
      (fun t => t.me.rdM 3) = some 3 := by decide +kernel

/-- R244: `vabs` keeps −128, `vadds` clamps at 127. -/
theorem test_saturation :
    after (.vabs 0 3 4 0 false) (labWith fun f => f.wrV 4 0x80) (fun t => lane (t.me.rdV 3) 8 0) = some 0x80 ∧
    after (.vadds 0 3 4 5 0 false false) (labWith fun f => (f.wrV 4 0x7F).wrV 5 0x01) (fun t => lane (t.me.rdV 3) 8 0) = some 0x7F := by decide +kernel

/-! ## Traps and control registers -/

/-- R435: `svc` saves the next word's address; R429: without a vector it is fatal. -/
theorem test_svc :
    after (.svc 1 false) ((labG 9 0).setTile 0 { Tile.reset with tvec := 0x8000000000002000 }) (fun t => (t.me.pc, t.me.epc, t.me.cause, t.me.tval)) =
      some (0x2000, 0x1004, 0x0E, 9) ∧
    after (.svc 1 false) (labG 9 0) (fun t => t.me.wait) = some .halted := by decide +kernel

/-- R436: outside a handler `tret` is illegal; in one it goes to `epc`. -/
theorem test_tret :
    after .tret labSvc (fun t => t.me.cause) = some 1 ∧
    after .tret (labWith fun f => { f with tstat := 0xC000000000000000, epc := 0x3000 }) (fun t => (t.me.pc, t.me.tstat)) = some (0x3000, 0) := by
  decide +kernel

/-- R237: an rm of 5 leaves rm, and fz is written. -/
theorem test_fcsr : after (.csrw 3 1 false 0x000) (labG 0xD 0) (fun t => (t.me.rdG 3, t.me.fcsr)) = some (0, 8) := by decide +kernel

/-! ## A step -/

/-- The word placed by `withFetchWord` is what the next step runs: `sub g3, g4, g5` (R189), and it is at 0x1_0000. -/
theorem test_step_runs_the_word :
    (nextOf (step ((lab.updMe fun f => (f.wrG 4 9).wrG 5 2).withFetchWord 32 0x02188281))).map (fun t => (t.me.rdG 3, t.me.pc)) =
      some (7, 0x10004) := by decide +kernel

/-- And from the state after reset, `li g1, -1`. -/
theorem test_first_instruction :
    (nextOf (step (State.reset.withFetchWord 32 0x0A0FFFFF))).map (fun t => t.me.rdG 1) = some 0xFFFFFFFFFFFFFFFF := by decide +kernel

end Sys2Proof.Tests
end

