-- ==== Sys2Proof/Tests/WitnessDevice.lean ====
section
/-! SUPPORT. Tests/WitnessDevice.lean: for the statements about the fabric, security, debug and power, states that meet their
hypotheses, clause by clause. -/

namespace Sys2Proof.Tests

set_option Elab.async false

open Sys2Proof Sys2Proof.Machine

/-! ## The fabric -/

/-- Port 63, whose entry of transit 1 names chip 5 and its port 9, and the guard before that transit. -/
def labPort (x : Port) : State :=
  { lab with clk := { lab.clk with dtime := 3980 }, fab := { lab.fab with ports := [(63, x)], almanac := [(64 + 63, 0x80000000 + 9 * 2 ^ 11 + 5)] } }

/-- The word that the peer sends there. -/
def peerWord : Word := at64 1 61 + at64 5 50 + at64 9 44 + at64 1 39 + at64 0xF 35

/-- A packet from chip 5 to this one, next on its link and in its stream, whose key is that of job 0; a circuit that expects it. -/
def packetOf (kind : BitVec 4) (body : Body) : Packet :=
  { dest := 0, src := 5, job := 0, bulk := false, kind := kind, seq := 0, rly := false, lack := 0, lseq := 0, crc := true, key := 7, body := body }
def circuitOf : Circuit := { peer := 5, lanes := 0xF, occ := 0, txNext := 0, rxNext := 0, sent := [] }
def labCircuit : State :=
  let s := labPort { Port.reset with circuit := some circuitOf }
  { s with clk := { s.clk with dtime := 3599 }, sec := { s.sec with linkKeys := [(0, 7)] }, fab := { s.fab with relay := [(5, [packetOf 0 .withdrawn])] } }

/-- Nine of sixteen copies are enough; none are not. -/
theorem witness_FabricEvents_heard :
    heard (List.replicate 9 (peerWord, true) ++ List.replicate 7 (peerWord, false)) peerWord ∧ ∀ v, ¬heard [] v :=
  ⟨by unfold heard; decide +kernel, fun v => by simp [heard]⟩

theorem witness_FabricEvents :
    (let s := labPort Port.reset
     63 ≤ 63 ∧ 3980 ≤ s.transitAt.2 ∧ (s.port 63).guardAt ≠ some s.transitNo ∧ s.pwr.fatal = false ∧ (s.port 63).circuit = none ∧ (s.port 63).dying = false ∧ (s.port 63).state = 1 ∧
       (s.port 63).trim = none ∧ entryValid (s.almanac ((s.transitAt.1 + 1) % 24) 63) = true ∧ entryLoop (s.almanac ((s.transitAt.1 + 1) % 24) 63) = false ∧
       s.agrees 63 ((s.transitAt.1 + 1) % 24) peerWord = true ∧ s.agrees 63 ((s.transitAt.1 + 1) % 24) 0 = false ∧ (s.port 63).mstreak ≠ 2 ∧ (s.port 63).lanes.getLsbD 3 = true) ∧
    labCircuit.transitAt.2 < 3980 ∧
    ((labPort { Port.reset with mstreak := 2 }).port 63).mstreak = 2 ∧
    ((labPort { Port.reset with state := 2 }).port 63).state ≠ 1 ∧
    (let s := labCircuit
     (s.port 63).circuit = some circuitOf ∧ circuitOf.lanes.getLsbD 3 = true ∧ s.pwr.fatal = false ∧ Tab.get s.fab.relay circuitOf.peer.toNat [] = [packetOf 0 .withdrawn] ∧
       (s.picks circuitOf).length ≤ circuitOf.slots - circuitOf.used ∧ s.inDwell 63 = true ∧
       s.pickOn circuitOf (fun r => decide ((s.port 63).share r.job = (s.port 63).share 0)) =
         some { dest := 5, from_ := .relay, idx := 0, q := packetOf 0 .withdrawn }) ∧
    (let s := labPort { Port.reset with circuit := some circuitOf, dying := true }
     s.inDwell 63 = false ∧ (s.port 63).circuit = some circuitOf ∧ (s.port 63).dying = true ∧ (s.port 63).guardAt ≠ some s.transitNo ∧ s.pwr.fatal = false) ∧
    (let q := { packetOf 1 (.msg (.read lab.me.taskId 0 (.dev 0) 8 (.g 1))) with dest := 9, rly := true }
     q.dest ≠ labCircuit.chip.chipNo ∧ labCircuit.relayRefuses circuitOf q = false ∧ labCircuit.keyOk q = true ∧
       ({ labCircuit with fab := { labCircuit.fab with quota := [(0, 1)] } } : State).relayRefuses circuitOf q = true) ∧
    ({ packetOf 0 .withdrawn with crc := false }.crc = false ∧ { packetOf 0 .withdrawn with lseq := 0x7FFF }.lseq ≠ circuitOf.rxNext) ∧
    (let q := packetOf 1 (.msg (.read lab.me.taskId 0 (.dev 0) 8 (.g 1)))
     q.crc = true ∧ q.lseq = circuitOf.rxNext ∧ q.dest = lab.chip.chipNo ∧ q.kind ≠ 9 ∧ q.kind ≠ 10 ∧ q.bulk = false ∧ labCircuit.keyOk q = true ∧
       q.seq = (labCircuit.stream 5).rxNext ∧ { q with seq := 1 }.seq ≠ (labCircuit.stream 5).rxNext ∧ labCircuit.keyOk { q with key := 8 } = false) ∧
    (let q := packetOf 9 (.acks 0 0 0)
     labCircuit.keyOk q = true ∧ (labCircuit.stream 5).ackSeq = none) := by decide +kernel

/-! ## Security -/

/-- Session 3 of port 0 with a requester, of port 1 without, session 4 not open; job 0xFFF exists and belongs to that requester, with
no key of its own or four; job 5 to another. -/
def labSec (keys : Nat) : State :=
  { lab with
    sec := { lab.sec with
      versioned := [true, true], negotiated := [true, false], owners := [(5, 2), (0xFFF, 1)],
      sessions := [{ port := false, id := 3, open_ := true, peer := some 1 }, { port := true, id := 3, open_ := true, peer := none },
        { port := false, id := 4, open_ := false, peer := none }],
      rollback := [(0, 6)], linkKeys := [(0, 7)], ifaces := [(3, { Iface.reset with st := .locked, qhi := 127 })] },
    chip := { lab.chip with jpol := [(5, 0x8000000000000000), (0xFFF, at64 1 63 + at64 keys 54)] } }

/-- Records of a job key and of a device key. -/
def recordOf (job kind : Nat) : BitVec 1536 := BitVec.ofNat 1536 (job + kind * 2 ^ 16)

/-- Job 0xFFF is being dissolved for its owner's session; it holds an image. -/
def labDissolves : State := { labSec 0 with sec := { (labSec 0).sec with dissolving := some (false, 3, 0xFFF) } }
def labImage : State := { labSec 0 with chip := { (labSec 0).chip with jobs := [(0xFFF, { Job.reset with image := true, state := 1 })] } }

/-- The requester of session 4 holds its secret, and authenticates with no key. -/
theorem witness_SecurityEvents_finish (x : Session) (_h : (labSec 0).opening false 4 = some x) :
    let pr : Proof := { mac := Config.finishMac x.draw x.th, sig := [] }
    pr.mac = Config.finishMac x.draw x.th ∧ ∀ k, (none : Option (BitVec 1064)) = some k → Config.ecdsaOk k x.th pr.sig = true :=
  ⟨rfl, fun k e => absurd e.symm (Option.some_ne_none k)⟩

theorem witness_SecurityEvents :
    (({ lab with sec := { lab.sec with failed := some 2 } } : State).sec.failed ≠ none ∧ lab.sec.dissolving = none ∧
      labDissolves.sec.dissolving = some (false, 3, 0xFFF) ∧ labImage.imageBusy 0xFFF = true ∧ (labImage.job 0xFFF).state ≠ 4) ∧
    ((labSec 0).opening false 4 = some { port := false, id := 4, open_ := false, peer := none } ∧ lab.opening false 4 = none) ∧
    (lab.sec.failed = none ∧ lab.sec.versioned.length = 2 ∧ lab.sec.negotiated.length = 2 ∧ lab.negotiated true = false ∧ (labSec 0).negotiated false = true ∧
      (labSec 0).versioned true = true) ∧
    (labSec 0).session false 4 = none ∧
    ((labSec 0).session true 3 = some { port := true, id := 3, open_ := true, peer := none } ∧ Tab.get (labSec 0).sec.rollback 0 0 < 7 ∧
      6 ≤ Tab.get (labSec 0).sec.rollback 0 0 ∧ lab.sec.ifaces = []) ∧
    ((labSec 0).session false 3 = some { port := false, id := 3, open_ := true, peer := some 1 } ∧ (labSec 0).jobExists 0xFFF = true ∧
      (labSec 0).jobExists 0xFFE = false ∧ (labSec 0).jobExists 0 = false ∧ (labSec 0).jobExists 5 = true ∧ Tab.get? (labSec 0).sec.owners 5 ≠ some 1 ∧
      Tab.get? (labSec 0).sec.owners 0xFFF = some 1 ∧ ((labSec 4).jpol 0xFFF).toNat / 2 ^ 54 % 8 = 4 ∧ ((labSec 3).jpol 0xFFF).toNat / 2 ^ 54 % 8 < 4 ∧
      ((labSec 0).job 0xFFF).state ≠ 4 ∧ (labSec 0).imageBusy 0xFFF = false) ∧
    (recKind (recordOf 0xFFF 1) = 1 ∧ recJob (recordOf 0xFFF 1) = 0xFFF ∧ ((labSec 0).jpol 0xFFF).getLsbD 57 = false ∧ recReserved (recordOf 0xFFF 1) = false ∧
      recReserved (recordOf 0x1000 1) = true) ∧
    (recKind (recordOf 0 2) = 2 ∧ recJob (recordOf 0 2) = 0 ∧ (labSec 0).linkKey 0 ≠ none ∧ recJob (recordOf 1 2) ≠ 0) ∧
    (((labSec 0).iface false 63).st = .unlocked ∧ ((labSec 0).iface false 3).st = .locked) := by decide +kernel

/-! ## Debug -/

/-- Debug is open for job 0, traced or not, the lab's page pinned and the lines of its first records written by the device. -/
def labEye (d : Debug) : State := { labPage 0 with dbg := { d with open_ := true, base := 1 } }
def rec0 : Rec := { w0 := 1, w1 := 2, w2 := 3, w3 := 4 }
def tracing : Debug := { Debug.reset with open_ := true, on := true, base := 1, pins := [(1, 0x140000, 16)], queue := [rec0] }
/-- The page may be written by the tracer: the leaf with the write bit that R440 gives. -/
def labWritable : State :=
  let leaf : Word := at64 3 62 + at64 3 57 + at64 (placedPa / 0x10000 + 4) 16
  (labEye Debug.reset).plant .device (placedPa + 0x30008) (leBytes leaf.toNat 8)

theorem witness_DebugEvents_stop :
    ((0x8000000000000FFF : Word).getLsbD 63 = true ∧ lab.dbg.open_ = false ∧ (lab.jpol 0xFFF).getLsbD 60 = false ∧
      (({ lab with chip := { lab.chip with jpol := [(0xFFF, 0x9000000000000000)] } } : State).jpol 0xFFF).getLsbD 60 = true) ∧
    ((labEye Debug.reset).dbg.open_ = true ∧ (0x8000000000000000 : Word).getLsbD 62 = false ∧ (labEye Debug.reset).dbg.job = (0x8000000000000000 : Word).extractLsb' 0 12 ∧
      (labEye Debug.reset).dbg.state = 0) ∧
    ((labEye { Debug.reset with state := 1 }).dbg.state = 1 ∧
      (let s := (labEye { Debug.reset with state := 1, on := true }).updMe fun f => { f with state := .waiting }
       s.stopRun = 0 ∧ s.dbg.on = true ∧ s.dbg.queue = []) ∧
      (labEye { Debug.reset with state := 1 }).stopRun ≠ 0 ∧ ((labEye Debug.reset).frame 0).resident = true ∧ ((labEye Debug.reset).frame 0).job = 0 ∧
      ((labEye Debug.reset).frame 0).state = .running) := by decide +kernel

theorem witness_DebugEvents_trace :
    (let d := labWritable.dbg
     d.open_ = true ∧ d.on = false ∧ d.base.toNat % 2 ^ d.lgSize = 0 ∧ ∀ i ∈ List.range (2 ^ d.lgSize), labWritable.pinPage (d.base.toNat + i) ≠ none) ∧
    (let s := labEye { Debug.reset with lg := 1 }
     ¬(s.dbg.base.toNat % 2 ^ s.dbg.lgSize = 0)) ∧
    (let s : State := labEye tracing
     s.dbg.on = true ∧ s.dbg.queue = [rec0] ∧ s.dbg.head.toNat < s.dbg.capacity ∧
       Tab.get? s.dbg.pins (s.dbg.base.toNat + 32 * (s.dbg.head.toNat % s.dbg.capacity) / 0x10000) = some (0x140000, 16) ∧ 0x140000 % 64 = 0 ∧
       0x140000 + 32 * (s.dbg.head.toNat % s.dbg.capacity) % 0x10000 < Config.devBytes ∧ s.ownerCheck (tagOf s.dbg.job) (s.lineOwner (0x140000 + 32 * (s.dbg.head.toNat % s.dbg.capacity) % 0x10000)) = .served) ∧
    (let s : State := labEye { tracing with head := 2048 }
     s.dbg.wrap = false ∧ s.dbg.capacity ≤ s.dbg.head.toNat) ∧
    (let s : State := { lab with dbg := { tracing with samp := true, queue := [] } }
     s.dbg.samp = true ∧ s.dbg.on = true ∧ s.dbg.open_ = true ∧ s.dbg.queue = [] ∧ s.dbg.sampNext ≤ s.dbg.period s.clk.cycle ∧ s.frames = [(0, runner)] ∧
       runner.resident = true ∧ runner.job = s.dbg.job ∧ s.dbg.sampling = true) ∧
    ({ tracing with on := false, forced := true, samp := true } : Debug).sampling = true := by
  decide +kernel

/-! ## Power -/

/-- Limit 2 of the whole chip stands at 5, below the 6 from before a throttle that is not over. -/
def limited : ThrottlePlace := { die := 0, tile := 0, qty := 2 }
def labLimited : State := { lab with pwr := { lab.pwr with limits := [(limited, 5)], before := [(limited, 6)] } }

/-- What is needed of the stages of a boot can be met only by keys and signatures whose functions are uninterpreted; without a stage
slot 2 is the one that fails. -/
theorem witness_PowerEvents_boot : lab.bootFails [] = some 2 := by decide +kernel

/-- The first byte of the relay region. -/
theorem witness_PowerEvents_relay :
    let pa := 2 ^ 39 + 2 ^ 20 * (Config.relayMiB % 2 ^ 18)
    Config.inRelay pa = true ∧ Config.reserved pa = true ∧ lab.pwr.fatal = false := by
  have h : Config.inRelay (2 ^ 39 + 2 ^ 20 * (Config.relayMiB % 2 ^ 18)) = true := by
    simp only [Config.inRelay, le_refl, decide_true, Bool.true_and, decide_eq_true_eq]
    omega
  exact ⟨h, by simp only [Config.reserved, h, Bool.true_or, Bool.and_true, decide_eq_true_eq]; omega, rfl⟩

theorem witness_PowerEvents :
    (limited.qty ≤ 2 ∧ (3 : BitVec 4) < 4 ∧ (4 : BitVec 24) < labLimited.limit limited ∧ ¬(5 : BitVec 24) < labLimited.limit limited ∧
      restored limited 6 labLimited.pwr.before = some [] ∧ restored limited 7 labLimited.pwr.before = none ∧ (4 : BitVec 4) < 5 ∧ (2 : BitVec 4) < 3) ∧
    (Config.reserved (2 ^ 39 - 1) && Config.inRelay (2 ^ 39 - 1)) = false ∧ 2 ^ 39 - 1 < Config.devBytes ∧
    (let s : State := { lab with clk := { lab.clk with cycle := 65536 } }
     30 % 32 ≠ 31 ∧ s.residents 30 = [] ∧ (s.core 30).queue = [] ∧ 65536 ≤ s.clk.cycle - (s.core 30).idleAt) ∧
    (lab.residents 0 ≠ [] ∧ lab.clk.cycle - (lab.core 30).idleAt < 65536) ∧ Config.devBytes - 1 < Config.devBytes ∧ lab.pwr.fatal = false ∧
    ({ lab with pwr := { lab.pwr with fatal := true } } : State).pwr.fatal = true := by decide +kernel

end Sys2Proof.Tests
end

