-- ==== Sys2Proof/Tests/WitnessHomes.lean ====
section
/-! SUPPORT. Tests/WitnessHomes.lean: for the statements about events at the homes of memory, at frames, journals and counters,
states that meet their hypotheses, clause by clause. -/

namespace Sys2Proof.Tests

set_option Elab.async false

open Sys2Proof Sys2Proof.Machine

/-- The identity of the lab's task, a journal entry of its core, and that entry in use by it. -/
def labId : TaskId := lab.me.taskId
def entry0 : Sender := .core 0 0 63
def entryOf (state : BitVec 3) : JEntry :=
  { kind := 0, state := state, task := labId, dest := 0, reason := 0, bounces := 0, copies := 1, bounced := [], write := true, job := 0, ctr := none }

/-- Every bank of tile 0 is a scratchpad, that of core 0 is whole, port 0 owns the host, entry 63 of core 0 is in use; lines 1
to 4 of device memory: of the device, of the device and marked uncorrectable, of job 5, of job 6 that exists. -/
def labQuiet : State :=
  let s := (lab.setTile 0 { Tile.reset with mode := 0 }).setCore 0 { Core.reset with split := 4, journal := [(63, entryOf 1)] }
  { s with
    fe := { s.fe with hlease := 0x4000000000000000 }, chip := { s.chip with jpol := [(6, 0x8000000000000000)], jobs := [(7, { Job.reset with removed := true })] },
    mem := { s.mem with owner := [(1, .device), (2, .device), (3, .job 5), (4, .job 6)], bad := [2] } }

/-- The same with one message in flight. -/
def labHome (m : Msg) : State := { labQuiet with net := [m] }

/-- What the homes of the lab find for job 0 at the last bytes of a bank, of a scratchpad and of lines 1 to 4: each clause of
`atHome` that lets the operation be done, is met; and for each that refuses it, a bank in way mode on tile 1, the scratchpad of core 1
with split 0, a line that another job owns, an uncorrectable line, and the removed job 7. -/
def homesReady (s : State) : Bool :=
  !(s.job 0).removed && (s.tile 0).bankOpen (0x2FFFF8 / 0x20000) &&
  decide (0xFFF8 < (s.core 0).split.toNat * 0x4000) && s.hostUp && decide (0x78 < Config.devBytes) &&
  decide (s.ownerCheck (tagOf 0) (s.lineOwner 0x78) = .served) && !s.mem.bad.contains 1 &&
  decide (s.ownerCheck (tagOf 0) (s.lineOwner 0xB8) = .served) && s.mem.bad.contains 2 &&
  decide (s.ownerCheck (tagOf 0) (s.lineOwner 0xF8) = .refused) && decide (s.ownerCheck (tagOf 6) (s.lineOwner 0xF8) = .stale) &&
  decide (s.ownerCheck (tagOf 5) (s.lineOwner 0x138) = .refused) && !(s.tile 1).bankOpen 0 && decide ((s.core 1).split.toNat * 0x4000 ≤ 0) &&
  (s.job 7).removed && decide (pubOf 0x78 = none) && !s.localBad (.bank 0 0x2FFFF8) 8 && !s.localBad (.sram 0 0xFFF8) 8

theorem homesReady_net (s : State) (n : List Msg) : homesReady { s with net := n } = homesReady s := rfl

theorem homes_ready (m : Msg) : homesReady (labHome m) = true := (homesReady_net labQuiet [m]).trans (by decide +kernel)

/-- A bank that neither changes nor wakes nor is gated lets an access proceed. -/
theorem touch_open {s : State} {k off : Nat} (hc : (s.tile k).changing = []) (hw : (s.tile k).waking = []) (hg : (s.tile k).gate = 0) :
    s.touch (.bank k off) = (s, true) := by simp [State.touch, State.bankTouch, hc, hw, hg]

theorem touch_ready (m : Msg) : (labHome m).touch (.bank 0 0x2FFFF8) = (labHome m, true) := touch_open rfl rfl rfl

/-- The only message in flight is delivered. -/
theorem deliverable_one (m : Msg) : (labHome m).deliverable 0 = some m := rfl

/-- A host that nobody owns. -/
theorem host_down : State.reset.hostUp = false := by decide +kernel

theorem witness_HomeReads (p : Place) (op : AmoOp) (wn : WNo) :
    (labId.chip = (labHome (.marker labId)).chip.chipNo ∧ (labHome (.marker labId)).wayHit labId 0 (.dev 0x78) 8 [] = none ∧
      homesReady (labHome (.read labId 0 (.dev 0x78) 8 (.g 1) [])) = true) ∧
    (labHome (.read labId 0 p 8 (.g 1) [])).deliverable 0 = some (.read labId 0 p 8 (.g 1) []) ∧
    (labHome (.lndRead entry0 labId 0 p 64 { chip := 0, die := 0, tile := 0, core := 0, frame := 0, gen := 0, cls := 1, reg := 31, elem := 0, ctr := 0 } [])).deliverable 0 =
      some (.lndRead entry0 labId 0 p 64 { chip := 0, die := 0, tile := 0, core := 0, frame := 0, gen := 0, cls := 1, reg := 31, elem := 0, ctr := 0 } []) ∧
    (labHome (.atomic none labId 0 p true op 1 2 (.g 1) wn)).deliverable 0 = some (.atomic none labId 0 p true op 1 2 (.g 1) wn) ∧
    (labHome (.atomic (some entry0) labId 0 p true op 1 2 (.g 1) wn)).deliverable 0 = some (.atomic (some entry0) labId 0 p true op 1 2 (.g 1) wn) ∧
    (0x78 % 8 = 0 ∧ 0x2FFFF8 + 8 ≤ 0x300000 ∧ 0xFFF8 + 8 ≤ 0x10000 ∧ AmoOp.add.byHost = true ∧ AmoOp.and.byHost = false) :=
  ⟨⟨by decide +kernel, by decide +kernel, homes_ready _⟩, rfl, rfl, rfl, rfl, by decide⟩

/-- The last doubleword of bank 0 of tile 0 has two writes on record, the later of which the task knows; one is a counter. -/
def labPast : State :=
  let w (id : Nat) (after : List Nat) : Write := { id := id, at_ := .bank 0 0x2FFFF8, off := 0, bytes := List.replicate 8 1, after := after, atom := false }
  { labQuiet with mem := { labQuiet.mem with past := [w 1 [], w 2 [1]], counters := [.bank 0 0x2FFFF0], badBank := [0x2FFFC0 / 64], badSram := [0xFFC0 / 64] } }

theorem witness_HomeReads_values :
    (unrecorded labQuiet (.bank 0 0x2FFFF8) 8) ∧ (Place.peer 5 0).word = none ∧ (Place.bank 0 0x2FFFFF).word = some (.bank 0 0x2FFFF8, 7) ∧ 7 + 1 ≤ 8 ∧
    (labPast.mem.counters.contains (labPast.located (.bank 0 0x2FFFF0)) = true ∧ (Place.bank 0 0x2FFFF0).word = some (.bank 0 0x2FFFF0, 0)) ∧
    (∃ y ∈ labPast.mem.past, y.at_ = labPast.located (.bank 0 0x2FFFF8) ∧ y.id ∈ ([2] : List Nat) ∧ y.off = 0 ∧ y.bytes.length = 8 ∧ y.id ∉ y.after ∧
      ∀ z ∈ labPast.mem.past, z.at_ = labPast.located (.bank 0 0x2FFFF8) → z ≠ y → z.id ∈ y.after ∧ y.id ∉ z.after ∧ z.off < 8 ∧ z.bytes ≠ []) ∧
    (labPast.localBad (.bank 0 0x2FFFF8) 8 = true ∧ labPast.localBad (.sram 0 0xFFF8) 8 = true) ∧
    noCounter labQuiet (.bank 0 0x2FFFF8) 8 ∧
    (∀ l : LandAddr, l.chip = 0 → l.chip = labQuiet.chip.chipNo) :=
  ⟨fun _ _ _ h => by rw [(by rfl : labQuiet.mem.past = [])] at h; exact absurd h (by simp), rfl, by decide, by decide, by decide +kernel, by decide +kernel,
   by decide +kernel, fun _ h => by rw [(by rfl : labQuiet.mem.counters = [])] at h; exact absurd h (by simp), fun _ h => h⟩

theorem witness_HomeStores (p : Place) (pst : Bool) (ctr : Option Place) (wn : WNo) :
    labId.chip = (labHome (.marker labId)).chip.chipNo ∧
    (labHome (.store entry0 labId 0 p (List.replicate 8 0xFF) pst ctr wn)).deliverable 0 = some (.store entry0 labId 0 p (List.replicate 8 0xFF) pst ctr wn) ∧
    homesReady (labHome (.store entry0 labId 0 p (List.replicate 8 0xFF) pst ctr wn)) = true ∧ 0x2FFFF8 + 8 ≤ 0x300000 ∧ 0xFFF8 + 8 ≤ 0x10000 ∧ 0x78 % 64 + 8 ≤ 64 :=
  ⟨by decide +kernel, rfl, homes_ready _, by decide, by decide, by decide⟩

/-! ## Frames and the journal -/

/-- A landing in g63 of the lab's task. -/
def labLand : LandAddr := { chip := 0, die := 0, tile := 0, core := 0, frame := 0, gen := 0, cls := 0, reg := 63, elem := 0, ctr := 3 }

/-- The lab with its frame changed and a message in flight. -/
def labFrame (u : Frame → Frame) (m : Msg) : State := (labHome m).updMe u

theorem witness_FrameArrivals :
    (∀ job, (labHome (.landing entry0 labId job labLand [5] none)).deliverable 0 = some (.landing entry0 labId job labLand [5] none)) ∧
    (let m : Msg := .landing entry0 labId 0 labLand [5] none
     (labHome m).fate labLand.key labLand.gen (some 0) = .apply 0 ∧ (labHome m).fate labLand.key labLand.gen (some 9) = .refused ∧
     (labFrame (fun f => { f with gen := 1 }) m).fate labLand.key labLand.gen (some 0) = .dead ∧
     (labFrame (fun f => { f with state := .migrating }) m).fate labLand.key labLand.gen (some 0) = .held ∧
     (labFrame (fun f => { f with transfer := some true }) m).fate labLand.key labLand.gen (some 0) = .transfer 0) ∧
    ((labHome (.reply labId (.g 63) (.err 6) (some (.domain, [])) none)).deliverable 0 = some (.reply labId (.g 63) (.err 6) (some (.domain, [])) none) ∧
     (labHome (.reply labId (.g 63) (.err 6) (some (.domain, [])) none)).fate labId.key labId.gen none = .apply 0) ∧
    ((labFrame (fun f => { f with transfer := some true }) (.marker labId)).frame 0).transfer = some true ∧
    (labFrame (fun f => { f with transfer := some true }) (.marker labId)).mem.badArena = [] ∧
    (let s := labFrame (fun f => { f with transfer := some true, gLive := 0x8000000000000000 }) (.marker labId)
     let s : State := { s with mem := { s.mem with badArena := [7] } }
     (s.frame 0).transfer = some true ∧ (s.frame 0).heldMsgs = [] ∧ (s.frame 0).gLive.getLsbD 63 = true ∧ s.localBad (.image 0 (8 * 63)) 8 = true) :=
  ⟨fun _ => rfl, by decide +kernel, by decide +kernel, by decide +kernel, by decide +kernel, by decide +kernel⟩

/-- Entry 63 of core 0 with a bounced envelope whose wait is over. -/
def labBounced (e : Env) : State :=
  (labHome (.marker labId)).setCore 0 { Core.reset with journal := [(63, { entryOf 2 with bounced := [(e, 0)] })] }

/-- The entry of a `vst` of which one element was refused before, or none. -/
theorem witness_JournalEvents_vst (m : Msg) (told : Bool) :
    let j : JEntry := { entryOf 1 with kind := JKind.vst, told := told }
    let s := (labHome m).setJournal 0 63 (some j)
    s.journal 0 63 = some j ∧ j.kind = JKind.vst ∧ j.told = told ∧ s.net[0]? = some m ∧ (entryOf 1).kind ≠ JKind.vst :=
  ⟨rfl, rfl, rfl, rfl, by decide⟩

theorem witness_JournalEvents (m : Msg) (e : Env) :
    ((labHome m).journal 0 63 = some (entryOf 1) ∧ (labHome m).net[0]? = some m) ∧
    (labHome (.marker labId)).taskLive (entryOf 1).task = true ∧ (labHome (.marker labId)).removing (entryOf 1).job = false ∧
    (labFrame (fun f => { f with gen := 1 }) (.marker labId)).taskLive (entryOf 1).task = false ∧
    ((labHome (.marker labId)).core 0).deadtrap = false ∧ (((labHome (.marker labId)).setCore 0 { Core.reset with deadtrap := true }).core 0).deadtrap = true ∧
    (∃ j, (labBounced e).journal 0 63 = some j ∧ j.bounced.find? (fun b => decide (b.2 ≤ (labBounced e).clk.cycle)) = some (e, 0)) :=
  ⟨⟨rfl, rfl⟩, by decide +kernel, by decide +kernel, by decide +kernel, by decide +kernel, by decide +kernel, ⟨_, rfl, rfl⟩⟩

/-! ## Counters -/

/-- The landing address of frame counter 3 of the lab's task. -/
def labCtr : LandAddr := { chip := 0, die := 0, tile := 0, core := 0, frame := 0, gen := 0, cls := 2, reg := 3, elem := 0, ctr := 0 }

theorem wordAt_bank : wordAt (.bank 0 0x2FFFF8) ∧ wordAt (.dev 0x78) ∧ wordAt (.sram 0 0xFFF8) := by
  refine ⟨⟨?_, ?_, ?_⟩, ⟨?_, ?_, ?_⟩, ⟨?_, ?_, ?_⟩⟩ <;> intros <;> simp_all <;> omega

theorem witness_CounterHomes (b : Adder) (k : ObsKind) (p : Place) :
    (addHere (labHome (.marker labId)) (.posted entry0) ∧ addHere (labHome (.marker labId)) (.pst entry0) ∧
      addHere (labHome (.marker labId)) (.value labId (.g 1)) ∧ addHere (labHome (.marker labId)) (.front 0 0)) ∧
    ((labHome (.add b (some labId) 0 p 1 none)).deliverable 0 = some (.add b (some labId) 0 p 1 none) ∧ homesReady (labHome (.add b (some labId) 0 p 1 none)) = true) ∧
    wordAt (.bank 0 0x2FFFF8) ∧ wordAt (.dev 0x78) ∧ wordAt (.sram 0 0xFFF8) ∧
    (labHome (.marker labId)).removing 0 = false ∧
    { labHome (.marker labId) with chip := { (labHome (.marker labId)).chip with jobs := [(0, { Job.reset with state := 4 })] } }.removing 0 = true ∧
    (labCtr.chip = (labHome (.marker labId)).chip.chipNo ∧ (labHome (.marker labId)).fate labCtr.key labCtr.gen (some 0) = .apply 0 ∧
      (labHome (.marker labId)).fate labCtr.key labCtr.gen (some 9) = .refused ∧
      (labFrame (fun f => { f with gen := 1 }) (.marker labId)).fate labCtr.key labCtr.gen (some 0) = .dead) ∧
    ((labHome (.observe labId 0 p k 2 (.g 1))).deliverable 0 = some (.observe labId 0 p k 2 (.g 1)) ∧ labId.chip = (labHome (.marker labId)).chip.chipNo) ∧
    ((labHome (.marker labId)).hasWaiter (.dev 0x78) = false ∧
      (labFrame (fun f => { f with wait := .poll (.dev 0x78) 1 .chip (.g 1) 0 }) (.marker labId)).hasWaiter (.dev 0x78) = true) ∧
    (reaches 5 5 ∧ reaches 0x7FFFFFFFFFFFFFFF 0 ∧ ¬reaches 0x8000000000000000 0 ∧ ¬reaches 4 5) :=
  ⟨⟨Or.inl ⟨0, 63, Or.inl rfl⟩, Or.inl ⟨0, 63, Or.inr rfl⟩, Or.inr (Or.inl ⟨_, _, rfl, rfl⟩), Or.inr (Or.inr ⟨0, rfl⟩)⟩, ⟨rfl, homes_ready _⟩,
   wordAt_bank.1, wordAt_bank.2.1, wordAt_bank.2.2, by decide +kernel, by decide +kernel, by decide +kernel, ⟨rfl, by decide +kernel⟩, by decide +kernel,
   by unfold reaches; decide⟩

/-- The waiter of the lab's task with ticket 9; the lab with its task in that wait; with 256 waiters on tile 0; polling since 512 cycles. -/
def labWaiter : Waiter := .task labId .domain (.g 5) 9
def labWaits (m : Msg) : State := labFrame (fun f => { f with state := .waiting, wait := .wake 9 (.bank 0 0) }) m
def labBusy (m : Msg) : State :=
  (labWaits m).setTile 0 { Tile.reset with mode := 0, waiters := List.replicate 256 { job := 0, p := .bank 0 0, thr := 1, w := labWaiter } }
def labPolls : State :=
  let s := labFrame (fun f => { f with state := .waiting, wait := .poll (.bank 0 0x2FFFF8) 1 .domain (.g 5) 0 }) (.marker labId)
  { s with clk := { s.clk with cycle := 512 } }

theorem witness_CounterWaits (p : Place) :
    labId.chip = (labWaits (.marker labId)).chip.chipNo ∧
    ((labWaits (.cwait labWaiter 0 p 1 none)).deliverable 0 = some (.cwait labWaiter 0 p 1 none) ∧ homesReady (labHome (.cwait labWaiter 0 p 1 none)) = true) ∧
    (((labWaits (.marker labId)).tile 0).waiters.length < 256 ∧ (labWaits (.marker labId)).chip.spilled = [] ∧
      256 ≤ ((labBusy (.marker labId)).tile 0).waiters.length ∧ ((labBusy (.marker labId)).frame ((labBusy (.marker labId)).homeOf labId.key)).wait.isWake 9 = true) ∧
    ((labHome (.cwait labWaiter 0 p 1 (some 0))).deliverable 0 = some (.cwait labWaiter 0 p 1 (some 0)) ∧ 512 ≤ labPolls.clk.cycle - 0 ∧
      homesReady (labHome (.cwait labWaiter 0 p 1 (some 0))) = true) ∧
    (labWaits (.toWake [(labWaiter, 0)] 3 [])).net[0]? = some (.toWake [(labWaiter, 0)] 3 []) ∧
    ((labWaits (.wake labWaiter (.ok 3) [])).deliverable 0 = some (.wake labWaiter (.ok 3) []) ∧
      (labWaits (.wake labWaiter (.ok 3) [])).fate labId.key labId.gen none = .apply 0 ∧ ((labWaits (.wake labWaiter (.ok 3) [])).frame 0).wait.isWake 9 = true ∧
      ((labHome (.wake labWaiter (.ok 3) [])).frame 0).wait.isWake 9 = false) ∧
    ((labPolls.frame 0).wait = .poll (.bank 0 0x2FFFF8) 1 .domain (.g 5) 0 ∧ 512 ≤ labPolls.clk.cycle - 0 ∧
      (labPolls.frame 0).state = .waiting ∧ (labPolls.frame 0).transfer = none ∧
      homesReady labPolls = true) :=
  ⟨by decide +kernel, ⟨rfl, homes_ready _⟩, by decide +kernel, ⟨rfl, by decide +kernel, homes_ready _⟩, rfl, ⟨rfl, by decide +kernel⟩, by decide +kernel⟩

end Sys2Proof.Tests
end

