-- ==== Sys2Proof/Tests/WitnessHost.lean ====
section
/-! SUPPORT. Tests/WitnessHost.lean: for the statements about the host's ports, commands and jobs, states that meet their
hypotheses, clause by clause. -/

namespace Sys2Proof.Tests

set_option Elab.async false

open Sys2Proof Sys2Proof.Machine

/-- Command 9 of queue block 127, as fetched or running, of job 0. -/
def cmdOf (op : Byte) (phase : CPhase) (a0 a1 a2 a3 : Word) : Cmd :=
  { id := 9, q := 127, k := 0, op := op, flags := 0, job := 0, resv := false, tag := 0, arg0 := a0, arg1 := a1, arg2 := a2, arg3 := a3,
    uses := [0xC005, 0, 0, 0, 0, 0], hostctr := 0, cbase := 0x4000, lent := 4, msix := 0, phase := phase, status := 0, detail := 0, sent := 0, out := 0,
    asked := false, ctr := some (.bank 1 0x1FFF8), seen := none, epoch := 0, bounced := [] }

/-- The lab's page and no page behind it, tile 1 all scratchpad, 64 host bytes at 0, port 0 owns the host, queue block 127 serves job 0 whose policy lets it run, and a command. -/
def labHost (c : Cmd) : State :=
  let s := ((labPage 0).setTile 1 { Tile.reset with mode := 0 }).plant .device (placedPa + 0x30010) (List.replicate 24 0)
  let q : Queue := { Queue.reset with en := true, lent := 4, pub := 1 }
  { s with
    mem := { s.mem with host := (List.range 64).map fun i => (i, BitVec.ofNat 8 i) },
    chip := { s.chip with jpol := [(0, 0xCC00000000000000)] },
    fe := { s.fe with hlease := 0x4000000000000001, queues := [(127, q)], cmds := [c] } }

/-- The job's handles and state. -/
def withJob (s : State) (x : Job) : State := { s with chip := { s.chip with jobs := [(0, x)] } }
def handleOf (flipping : Bool) : Job :=
  { Job.reset with handles := [(5, { base := 0x10000, len := 0x10000, hostOwned := false, flipping := flipping, lastHost := false })] }

/-- The same where port 0 delivers nothing. -/
def portDown (s : State) : State := { s with fe := { s.fe with lost0 := true } }

/-- A WAIT for the last doubleword of bank 0 of tile 1. -/
def fetchedCmd : Cmd := { cmdOf 0x07 .fetched 0x01FF00010001FFF8 0 0 0 with uses := [0, 0, 0, 0, 0, 0] }

theorem witness_HostPorts_lease :
    (lab.sec.failed = none ∧ lab.fe.hlease.toNat % 2 ^ 62 ≤ lab.clk.dtime.toNat % 2 ^ 62) ∧
    ((127 < 256 ∧ (false = true ↔ 128 ≤ 127)) ∧ (128 < 256 ∧ (true = true ↔ 128 ≤ 128))) ∧
    ((0x7FFFFFFFFFFFFFFF : Word).toNat < 2 ^ 63 ∧ 2 ^ 63 ≤ (0x8000000000000000 : Word).toNat) ∧
    (∀ y, Tab.get? lab.sec.ifaces (ifaceKey true (0x3FFFFFFFF / 2 ^ 34)) ≠ some y) ∧ lab.windowVa true (0x3FFFFFFFF / 2 ^ 34) (0x3FFFFFFFF % 2 ^ 34) 8 = none ∧
    (HostWr.read ≠ .write 0 ∧ ∀ v w, HostWr.fetchAdd v ≠ .write w) :=
  ⟨by decide +kernel, by decide, by decide, fun _ => by simp [lab, Tab.get?, State.reset, Security.reset, State.setFrame], by decide +kernel, by decide,
    fun _ _ => nofun⟩

/-- A running interface 63 of port 1 with all its queue blocks accepts stream 7 with the T bit, a locked one whatever comes. -/
def labIface (st : IfState) : State :=
  { lab with sec := { lab.sec with ifaces := [(ifaceKey true 63, { Iface.reset with st := st, qlo := 128, qhi := 255, stream := 7 })] } }
def onStream (t : Bool) : Via := { port := true, stream := some 7, tbit := t }

theorem witness_HostPorts_interfaces :
    (lab.frozen 128 = false ∧ lab.trusted (onStream false) 128 = true) ∧
    ((labIface .run).trusted (onStream false) 128 = false ∧ (labIface .run).trusted (onStream true) 128 = true) ∧
    ((63 * 2 ^ 34) / 2 ^ 34 < 64 ∧ 64 ≤ (64 * 2 ^ 34) / 2 ^ 34 ∧ ∃ y, Tab.get? (labIface .run).sec.ifaces (ifaceKey true 63) = some y ∧
      y.accepts (onStream false) = false ∧ y.accepts (onStream true) = true) :=
  ⟨by decide +kernel, by decide +kernel, by decide, by decide, _, rfl, by decide +kernel, by decide +kernel⟩

/-- The bytes that the window reads for the job of the lab's page: its first eight. -/
theorem witness_HostPorts_window :
    (labPage 0).ownBytes 0 0x10000 8 = some ((List.range 8).map fun i => 0x140000 + i) ∧
    (labPage 0).gatherBytes (tagOf 0) ((List.range 8).map fun i => 0x140000 + i) = .bytes (List.replicate 8 0) := by decide +kernel

theorem witness_HostPorts_commands :
    (let s := labHost (cmdOf 0 .running 0 0 0 0)
     s.served 127 = true ∧ s.portUp 127 = true ∧ reached (s.queueOf 127).pub (BitVec.ofNat 64 ((s.queueOf 127).fetch + 1)) = true ∧
      ∀ d ∈ s.fe.cmds, d.k + 2 ^ (s.queueOf 127).lent.toNat ≠ (s.queueOf 127).fetch) ∧
    (let s := labHost fetchedCmd
     (s.cmd 9 = some fetchedCmd ∧ fetchedCmd.phase = .fetched ∧ s.mayStart fetchedCmd = true ∧ s.pwr.fatal = false) ∧
     ((s.check116 fetchedCmd).2.1 = 0 ∧ (s.check116 fetchedCmd).1.fe = s.fe)) ∧
    (let c := cmdOf 0x0E .fetched 0 0 0 0
     (labHost c).cmd 9 = some c ∧ 0x0D < c.op.toNat ∧ (labHost c).mayStart c = true ∧ ((labHost c).check116 c).2.1 ≠ 0) ∧
    (let c := { cmdOf 0x0A .fetched 0 0 0 0 with job := 4095 }
     (labHost c).cmd 9 = some c ∧ c.op = 0x0A ∧ c.flags.toNat < 4 ∧ c.uses = [0xC005, 0, 0, 0, 0, 0] ∧ c.job ≠ ((labHost c).queueOf c.q).job) ∧
    (let c := cmdOf 0x07 .ended 0 0 0 0
     (labHost c).cmd 9 = some c ∧ (labHost c).portUp c.q = true ∧ c.hostctr = 0 ∧ c.epoch = ((labHost c).queueOf c.q).epoch ∧
       c.cbase.toNat + 32 * (c.k % 2 ^ c.lent.toNat) + 32 ≤ 2 ^ 64 ∧ c.hostctr.toNat + 8 ≤ 2 ^ 64 ∧ (portDown (labHost c)).portUp c.q = false) ∧
    (let c := { cmdOf 0x07 .ended 0 0 0 0 with hostctr := 0x3FF8 }
     (labHost c).cmd 9 = some c ∧ (labHost c).portUp c.q = true ∧ c.hostctr ≠ 0 ∧ c.hostctr.toNat + 8 ≤ c.cbase.toNat + 32 * (c.k % 2 ^ c.lent.toNat)) :=
  ⟨by decide +kernel, by decide +kernel, by decide +kernel, by decide +kernel, by decide +kernel, by decide +kernel⟩

/-! ## Commands -/

/-- What a running command finds. -/
def runs (s : State) (c : Cmd) : Prop := s.cmd 9 = some c ∧ c.phase = .running ∧ s.pwr.fatal = false ∧ c.asked = false ∧ c.ctr = some (.bank 1 0x1FFF8)

def launch1 (c : Cmd) : Prop :=
  let s := labHost c
  c.bounced = [] ∧ c.sent < c.arg1.toNat ∧ s.fe.out < 64 ∧ s.portUp c.q = true

/-- The same in a domain of 57 chips. -/
def wide (s : State) : State := { s with chip := { s.chip with nChips := 57 } }

/-- The first word of the envelope at host address 0 names chip 56, tile 0x60; at 8, a tile that does not exist. -/
theorem witness_CommandEvents_runs :
    (∀ op ∈ ([1, 2, 3, 4, 5, 6, 7, 8, 9, 10] : List Byte), runs (labHost (cmdOf op .running 0 1 64 0)) (cmdOf op .running 0 1 64 0) ∧
      (cmdOf op .running 0 1 64 0).op = op) ∧
    ((labHost (cmdOf 1 .running 0 1 64 0)).imageBusy 0 = true ∧ (labHost (cmdOf 1 .running 0 1 64 0)).portUp 127 = true ∧
      (cmdOf 1 .running 0 1 64 0).load = none) := by
  simp only [runs]
  decide +kernel

/-- A LOAD that goes on: one that waits for chip 5, one whose stage failed, one whose last stage ended. -/
theorem witness_CommandEvents_load (r : LoadRun)
    (h : r ∈ [({ step := 3, wait := [5], code := 0, free := [] } : LoadRun), { step := 3, wait := [], code := 0x10, free := [] }, { step := 12, wait := [], code := 0, free := [] }]) :
    let c := { cmdOf 1 .running 0 1 64 0 with load := some r }
    runs (labHost c) c ∧ c.op = 1 ∧ (labHost c).portUp c.q = true ∧ (r.wait ≠ [] ∨ (r.wait = [] ∧ r.step ≠ 4 ∧ r.code ≠ 0) ∨ (r.wait = [] ∧ r.step = 12 ∧ r.code = 0)) := by
  simp only [List.mem_cons, List.not_mem_nil, or_false] at h
  rcases h with rfl | rfl | rfl <;> (simp only [runs]; decide +kernel)

theorem witness_CommandEvents_launch :
    launch1 (cmdOf 2 .running 0 1 0 0) ∧ launch1 (cmdOf 2 .running 8 1 0 0) ∧
    (let s := wide (labHost (cmdOf 2 .running 0 1 0 0))
     let w := leWord (s.portBytes false 0 8)
     s.cmd 9 = some (cmdOf 2 .running 0 1 0 0) ∧ s.fe.out < 64 ∧ s.portUp 127 = true ∧
       w.toNat / 2 ^ 44 % 256 ≤ 175 ∧ w.extractLsb' 53 11 ≠ 0x7FF ∧ (w.extractLsb' 53 11).toNat < s.chip.nChips) ∧
    (let w := leWord ((labHost (cmdOf 2 .running 8 1 0 0)).portBytes false 8 8)
     175 < w.toNat / 2 ^ 44 % 256) := by
  simp only [launch1]
  decide +kernel

/-- 64 bytes between host address 0 and the page; a range with no page; a port that is down. -/
def copies (c : Cmd) : State := labHost c
def cmdIn (dst : Word) : Cmd := cmdOf 3 .running 0 dst 64 0
def cmdOut (src : Word) : Cmd := cmdOf 4 .running src 0 64 0

theorem witness_CommandEvents_copies :
    ((copies (cmdIn 0x10000)).portUp 127 = true ∧ (0x10000 : Word).toNat % 64 + 64 ≤ 64 ∧ 0x140000 % 64 + 64 ≤ 64 ∧ 0x140000 < Config.devBytes) ∧
    (∃ u, (copies (cmdIn 0x10000)).fePlace 0 .write 0x10000 = (u, .inl 0x140000) ∧ u.ownerCheck (tagOf 0) (u.lineOwner 0x140000) = .served) ∧
    (∃ u, (copies (cmdIn 0x30000)).fePlace 0 .write 0x30000 = (u, .inr Cause.XLATE)) ∧
    (∃ u, (copies (cmdOut 0x10000)).fePlace 0 .read 0x10000 = (u, .inl 0x140000) ∧ u.devRead (tagOf 0) 0x140000 64 = .bytes (List.replicate 64 0)) ∧
    (∃ u, (copies (cmdOut 0x30000)).fePlace 0 .read 0x30000 = (u, .inr Cause.XLATE)) :=
  ⟨by decide +kernel,
   ⟨((copies (cmdIn 0x10000)).fePlace 0 .write 0x10000).1, by rw [← (by decide +kernel : ((copies (cmdIn 0x10000)).fePlace 0 .write 0x10000).2 = .inl 0x140000)], by decide +kernel⟩,
   pair_of (by decide +kernel),
   ⟨((copies (cmdOut 0x10000)).fePlace 0 .read 0x10000).1, by rw [← (by decide +kernel : ((copies (cmdOut 0x10000)).fePlace 0 .read 0x10000).2 = .inl 0x140000)], by decide +kernel⟩,
   pair_of (by decide +kernel)⟩

/-- Handles: none, handle 5 of the page, the same flipping with and without an access to it in flight. -/
theorem witness_CommandEvents_handles :
    (let c := cmdOf 5 .running 0x10000 0x10000 4095 0
     c.arg0.toNat % 0x10000 = 0 ∧ c.arg1.toNat % 0x10000 = 0 ∧ (labHost c).handle 0 4095 = none ∧ (labHost c).allOwn 0 c.arg0 c.arg1 = true) ∧
    (cmdOf 5 .running 0x1FFFF 0x10000 4095 0).arg0.toNat % 0x10000 ≠ 0 ∧
    (let c := cmdOf 6 .running 0 0 5 0
     (labHost c).handle 0 5 = none ∧ (withJob (labHost c) (handleOf false)).handle 0 5 ≠ none) ∧
    (let c := cmdOf 9 .running 0 0 0 0
     (c.uses.headD 0).toNat % 4096 = 5 ∧ (labHost c).handle 0 5 = none ∧
      (∃ h, (withJob (labHost c) (handleOf false)).handle 0 5 = some h ∧ h.flipping = false) ∧
      (∃ h, (withJob (labHost c) (handleOf true)).handle 0 5 = some h ∧ h.flipping = true ∧ (withJob (labHost c) (handleOf true)).accessesTo 0 h.base h.len = false ∧
        ({ withJob (labHost c) (handleOf true) with net := [.read lab.me.taskId 0 (.dev 0x14FFF8) 8 (.g 1)] } : State).accessesTo 0 h.base h.len = true)) :=
  ⟨by decide +kernel, by decide +kernel, by decide +kernel, by decide +kernel, by decide +kernel, ⟨_, rfl, rfl⟩, ⟨_, rfl, rfl, by decide +kernel, by decide +kernel⟩⟩

/-! ## Jobs -/

/-- The job in a state and a step of its removal. -/
def labJob (c : Cmd) (state : BitVec 3) (step : BitVec 4) : State := withJob (labHost c) { Job.reset with state := state, step := step }

/-- A journal entry of the job. -/
def ended : JEntry :=
  { kind := 1, state := 1, task := lab.me.taskId, dest := 0, reason := 0, bounces := 0, copies := 1, bounced := [], write := false, job := 0, ctr := none }

theorem witness_JobEvents :
    (∀ op ∈ ([0x0B, 0x0C, 0x0D] : List Byte), let c := cmdOf op .running 0 0 0 0
      (labJob c 1 0).cmd 9 = some c ∧ c.phase = .running ∧ (labJob c 1 0).pwr.fatal = false ∧ c.op = op ∧ c.asked = false ∧ ((labJob c 1 0).job c.job).state = 1) ∧
    (let c := cmdOf 0x0D .running 0 0 0 0
     ((labJob c 0 0).job 0).state = 0 ∧ (((labJob c 3 0).job 0).state = 3 ∧ ((labJob c 3 0).frames.any fun p => decide (p.2.job = 0)) = true) ∧ ((labJob c 4 2).job 0).state = 4 ∧
      (((labJob c 4 2).setCore 0 { Core.reset with journal := [(0, ended)] }).inflight 0 ≠ 0 ∧ (labJob c 4 7).inflight 0 = 0 ∧ ((labJob c 4 7).job 0).step = 7 ∧ (labJob c 4 6).inflight 0 = 0 ∧ ((labJob c 4 6).job 0).step ≠ 7) ∧
      (((labJob c 4 5).job 0).step = 5 ∧ ((labJob c 4 5).toPeer 5 0 false 0 .withdrawn).packetsLeft 0 = true) ∧ ∀ p ∈ (labJob c 1 0).fe.parts, p.1 / 2 ^ 11 ≠ 0) ∧
    (∀ cause v, ({ labJob (cmdOf 0 .running 0 0 0 0) 1 0 with net := [.fatal 0 cause v] } : State).net[0]? = some (.fatal 0 cause v)) :=
  ⟨by decide +kernel, by decide +kernel, fun _ _ => rfl⟩

end Sys2Proof.Tests
end

