-- ==== Sys2Proof/Tests/WitnessIssue.lean ====
section
/-! SUPPORT. Tests/WitnessIssue.lean: for the statements about memory, counter, envelope and task instructions as they issue,
states and operands that meet their hypotheses, clause by clause. -/

namespace Sys2Proof.Tests

set_option Elab.async false

open Sys2Proof Sys2Proof.Machine

/-- Last doubleword of the own bank 0, of the own scratchpad, of the page of device memory, and of tile 1's bank 0. -/
def ownBank : Word := 0x01FF00FF0001FFF8
def ownSram : Word := 0x01FF00FF0100FFF8
def devWord : Word := 0x1FFF8
def farBank : Word := 0x01FF00010001FFF8

/-- The task's access to an address of n bytes goes to a place. -/
def reachesPlace (s : State) (a : Word) (n : Nat) (use : Use) (p : Place) : Prop := ∃ u, s.issued.target a n use = (u, .ok p)

/-- A local place is ready: its bank is awake, nothing in flight overlaps and no fill of the bytes is queued. -/
def localReady (s : State) (a : Word) (n : Nat) (use : Use) (p : Place) : Prop :=
  ∃ u, s.issued.target a n use = (u, .ok p) ∧ openNow s u p n ∧ u.fillPending p n = false ∧ noCounter s p n

theorem ready_of {s : State} {a : Word} {n : Nat} {use : Use} {p : Place} (h : (s.issued.target a n use).2 = .ok p)
    (ht : (s.issued.target a n use).1.touch p = ((s.issued.target a n use).1, true))
    (hp : (s.issued.target a n use).1.pending p n = false) (hl : p.isLocal s.myCore = true)
    (hf : (s.issued.target a n use).1.fillPending p n = false) (hc : s.mem.counters = []) : localReady s a n use p :=
  ⟨_, by rw [← h], ⟨hl, ht, hp⟩, hf, by simp [noCounter, hc]⟩

/-- A place elsewhere: no fill of the bytes is queued. -/
def farReady (s : State) (a : Word) (n : Nat) (use : Use) (p : Place) : Prop :=
  ∃ u, s.issued.target a n use = (u, .ok p) ∧ p.isLocal s.myCore = false ∧ u.fillPending p n = false

theorem far_of {s : State} {a : Word} {n : Nat} {use : Use} {p : Place} (h : (s.issued.target a n use).2 = .ok p)
    (hl : p.isLocal s.myCore = false) (hf : (s.issued.target a n use).1.fillPending p n = false) : farReady s a n use p := ⟨_, by rw [← h], hl, hf⟩

/-- The lab's memory with a fill of the task queued that reads the last line of the own bank 0 and the last of the page. -/
def labFilling (x : Word) : State :=
  let f : AOp := .fill false false 0 false [(0x01FF00FF0001FFC0, .bank 0 0x1FFC0), (0x1FFC0, .dev 0x14FFC0)] []
  (labMemG x 0).setArray 0 { TArray.reset with queue := [{ op := f, task := labMem.me.origin.key, gen := 0, core := 0, job := 0, draining := false }] }

theorem witness_Loads :
    (labMemG ownBank 0).goes [.g 1 false] ∧ (labMemG ownBank 0).acquiring = false ∧
    localReady (labMemG ownBank 0) ownBank 8 (plainUse .read 8) (.bank 0 0x1FFF8) ∧ localReady (labMemG ownSram 0) ownSram 8 (plainUse .read 8) (.sram 0 0xFFF8) ∧
    farReady (labMemG devWord 0) devWord 8 (plainUse .read 8) (.dev 0x14FFF8) ∧ farReady (labMemG farBank 0) farBank 8 (plainUse .read 8) (.bank 1 0x1FFF8) ∧
    (∃ u, (labFilling devWord).issued.target devWord 8 (plainUse .read 8) = (u, .ok (.dev 0x14FFF8)) ∧ u.fillPending (.dev 0x14FFF8) 8 = true) ∧
    ((labMemG ownBank 0).localBad (.bank 0 0x1FFF8) 8 = false ∧ unrecorded (labMemG ownBank 0) (.bank 0 0x1FFF8) 8) ∧
    (({ labMem with mem := { labMem.mem with badSram := [0xFFC0 / 64] } } : State).localBad (.sram 0 0xFFF8) 8 = true) :=
  ⟨by decide +kernel, by decide +kernel, ready_of (by decide +kernel) (by decide +kernel) (by decide +kernel) (by decide +kernel) (by decide +kernel) rfl,
   ready_of (by decide +kernel) (by decide +kernel) (by decide +kernel) (by decide +kernel) (by decide +kernel) rfl,
   far_of (by decide +kernel) (by decide +kernel) (by decide +kernel), far_of (by decide +kernel) (by decide +kernel) (by decide +kernel),
   ⟨((labFilling devWord).issued.target devWord 8 (plainUse .read 8)).1,
     by rw [← (by decide +kernel : ((labFilling devWord).issued.target devWord 8 (plainUse .read 8)).2 = .ok (.dev 0x14FFF8))], by decide +kernel⟩,
   ⟨by decide +kernel, fun _ _ _ h => by rw [(by rfl : (labMemG ownBank 0).mem.past = [])] at h; exact absurd h (by simp)⟩, by decide +kernel⟩

/-- The lab's memory with every journal entry of core 0 in use. -/
def labFull : State :=
  let e : JEntry :=
    { kind := 0, state := 1, task := { chip := 0, key := 0, gen := 0 }, dest := 0, reason := 0, bounces := 0, copies := 1, bounced := [], write := true, job := 0, ctr := none }
  labMem.setCore 0 { labMem.core 0 with journal := (List.range 64).map fun i => (i, e) }

theorem witness_Stores :
    ((labMemG ownBank 0).goes [.g 2 true, .g 1 true] ∧ labMem.acquiring = false ∧ labFull.acquiring = false) ∧
    localReady (labMemG ownBank 0) ownBank 8 (plainUse .write 8) (.bank 0 0x1FFF8) ∧ localReady (labMemG ownSram 0) ownSram 8 (plainUse .write 8) (.sram 0 0xFFF8) ∧
    farReady (labMemG devWord 0) devWord 8 (plainUse .write 8) (.dev 0x14FFF8) ∧ (labMem.core labMem.myCore).freeEntries ≠ [] ∧
    (labFull.core labFull.myCore).freeEntries = [] ∧
    (labMemG devWord 0).goes [.g 3 true, .g 1 true, .g 2 true] ∧ reachesPlace (labMemG devWord 0) devWord 8 (formUse .write 8) (.dev 0x14FFF8) ∧
    (labMemG devWord 0).me.rdG 2 = 0 ∧ (labMemG devWord farBank).me.rdG 2 ≠ 0 ∧
    ∃ v, ((labMemG devWord farBank).issued.target devWord 8 (formUse .write 8)).1.counter farBank .add = (v, .ok (.bank 1 0x1FFF8)) :=
  ⟨by decide +kernel, ready_of (by decide +kernel) (by decide +kernel) (by decide +kernel) (by decide +kernel) (by decide +kernel) rfl,
   ready_of (by decide +kernel) (by decide +kernel) (by decide +kernel) (by decide +kernel) (by decide +kernel) rfl,
   far_of (by decide +kernel) (by decide +kernel) (by decide +kernel), by decide +kernel, by decide +kernel, by decide +kernel, pair_of (by decide +kernel), by decide +kernel, by decide +kernel,
   pair_of (by decide +kernel)⟩

/-- Landing addresses of the task's g63, and of the whole of its v31; one of class 2; one of a tile that does not exist. -/
def landG : Word := LandAddr.toWord { chip := 0, die := 0, tile := 0, core := 0, frame := 0, gen := 0, cls := 0, reg := 63, elem := 0, ctr := 3 }
def landV : Word := LandAddr.toWord { chip := 0x7FF, die := 1, tile := 175, core := 30, frame := 255, gen := 255, cls := 1, reg := 31, elem := 0, ctr := 0 }
def landC : Word := LandAddr.toWord { chip := 0, die := 0, tile := 0, core := 0, frame := 0, gen := 0, cls := 2, reg := 1, elem := 0, ctr := 0 }
def landT : Word := LandAddr.toWord { chip := 0, die := 0, tile := 176, core := 0, frame := 0, gen := 0, cls := 0, reg := 1, elem := 0, ctr := 0 }

theorem witness_Landings :
    (labMemG devWord landG).goes [.g 1 true, .g 2 true] ∧ (labMemG devWord landG).acquiring = false ∧
    (beyond devWord = false ∧ devWord.toNat % 2 ^ (3#2).toNat = 0 ∧ labMem.landValid landC false = false ∧ labMem.landValid landT false = false ∧
      labMem.landValid landG true = false) ∧
    (labMem.landValid landG false = true ∧ labMem.landValid landV false = true ∧ labMem.landValid landV true = true) ∧
    farReady (labMemG devWord landG) devWord 8 (formUse .read 8) (.dev 0x14FFF8) ∧ farReady (labMemG 0x1FFC0 landV) 0x1FFC0 64 (formUse .read 64) (.dev 0x14FFC0) ∧
    (labMem.core labMem.myCore).freeEntries ≠ [] ∧ (labMemG landV 0).goes [.g 1 true, .v 31 true] :=
  ⟨by decide +kernel, by decide +kernel, by decide +kernel, by decide +kernel, far_of (by decide +kernel) (by decide +kernel) (by decide +kernel),
   far_of (by decide +kernel) (by decide +kernel) (by decide +kernel), by decide +kernel, by decide +kernel⟩

theorem witness_AddressTraps :
    lab.acquiring = false ∧
    (.ld64 3 1 true 0, [.g 1 true], (labG 0x0200000000000000 0).me.rdG 1 + BitVec.ofInt 64 (BitVec.toInt (0#12) * 8), 8) ∈
      addressForms (labG 0x0200000000000000 0) 3 1 2 3 1 true true true 0 0 3 ∧
    (labG 0x0200000000000000 0).goes [.g 1 true] ∧
    ((labG 0x0200000000000000 0).me.rdG 1 + BitVec.ofInt 64 (BitVec.toInt (0#12) * 8)).toNat / 2 ^ 57 ≠ 0 ∧
    (labG 0x01FFFFFFFFFFFFFF 0).goes [.g 1 true] ∧
    ((0x01FFFFFFFFFFFFFF : Word).toNat / 2 ^ 57 = 0 ∧ (0x01FFFFFFFFFFFFFF : Word).toNat % 8 ≠ 0) := by decide +kernel

/-- The last line of tile 1's bank 0, and the addresses of its elements 0 to 7. -/
def farLine : Word := 0x01FF00010001FFC0
def lineUses : List (Nat × Word) := (List.range 8).map fun i => (i, farLine + BitVec.ofNat 64 (8 * i))

/-- Where the targets of elements that were checked lie. -/
def places (es : List (Nat × Word × Target)) : List (Option Place) := es.map fun e => e.2.2.place?

theorem witness_VectorMemory :
    labMem.acquiring = false ∧ (labMemG farLine 0).goes [.m 0 true, .g 1 true] ∧ (labMemG farLine 0).goes [.v 4 true, .v (4 + 1) true, .m 1 true, .g 1 true] ∧
    (labMemG farLine 0).goes [.v 4 true, .m 0 true, .g 1 true] ∧
    ((farLine : Word).toNat / 2 ^ 57 = 0 ∧ (farLine : Word).toNat % 64 = 0) ∧
    ((List.range 8).filter fun i => (labMem.me.rdM 0).getLsbD i) = List.range 8 ∧
    places ((labMemG farLine 0).issued.targets (vmUse .read) lineUses).2 = (List.range 8).map (fun i => some (.bank 1 (0x1FFC0 + 8 * i))) ∧
    places ((labMemG farLine 0).issued.targets (vmUse .write) lineUses).2 = (List.range 8).map (fun i => some (.bank 1 (0x1FFC0 + 8 * i))) ∧
    (∀ i, (Place.bank 1 (0x1FFC0 + 8 * i)).isLocal labMem.myCore = false) ∧ (labMem.core labMem.myCore).freeEntries ≠ [] ∧
    8 ≤ (labMem.core labMem.myCore).freeEntries.length :=
  ⟨by decide +kernel, by decide +kernel, by decide +kernel, by decide +kernel, by decide +kernel, by decide +kernel, by decide +kernel, by decide +kernel,
   fun _ => by simp [Place.isLocal, labMem]; decide, by decide +kernel, by decide +kernel⟩

/-- A line in the own bank 0, and a host-owned page. -/
def ownLine : Word := 0x01FF00FF0001FFC0
def labOwned : State := labMem.setHo 0 0x10000 0x10000 true
def twoOf (base : Word) : List (Nat × Word) := [(0, base), (7, base + 56)]
/-- The task's v5 with the offsets of two elements, the mask m1 of lanes 0 and 7; and of none. -/
def twoOn (s : State) (o : Word) : State := s.updMe fun f => ((((f.wrV 5 (BitVec.ofNat 512 (o.toNat + 56 * 2 ^ 448))).wrV 4 0).wrM 1 0x81).wrG 1 0).wrM 2 0

/-- What a vector access finds of its elements: each in the own tile and ready, each elsewhere, each on a host-owned page. -/
def bothLocal (s : State) (r : State × List (Nat × Word × Target)) : Bool :=
  r.2.all fun e => match e.2.2 with
    | .ok p => p.isLocal s.myCore && decide (r.1.touch p = (r.1, true)) && !r.1.pending p 8 && !r.1.fillPending p 8
    | _ => false
def bothFar (s : State) (r : State × List (Nat × Word × Target)) : Bool :=
  r.2.all fun e => match e.2.2 with
    | .ok p => !p.isLocal s.myCore && !r.1.fillPending p 8
    | _ => false
def bothOwned (s : State) (r : State × List (Nat × Word × Target)) : Bool :=
  r.2.all fun e => match e.2.2 with
    | .own p => !p.isLocal s.myCore
    | _ => false

theorem witness_VectorMemory_clauses :
    (((List.range 8).filter fun i => ((twoOn labMem 0).me.rdM 1).getLsbD i) = [0, 7] ∧ ((List.range 8).filter fun i => ((twoOn labMem 0).me.rdM 2).getLsbD i) = []) ∧
    bothLocal labMem (labMem.issued.targets (vmUse .read) (twoOf ownLine)) = true ∧ bothLocal labMem (labMem.issued.targets (vmUse .write) (twoOf ownLine)) = true ∧
    bothFar labMem (labMem.issued.targets (vmUse .read) (twoOf farLine)) = true ∧ bothFar labMem (labMem.issued.targets (vmUse .write) (twoOf farLine)) = true ∧
    bothOwned labOwned (labOwned.issued.targets (vmUse .write) [(7, 0x1FFF8)]) = true ∧ (labOwned.core labOwned.myCore).freeEntries ≠ [] ∧
    (firstTrap (labMem.issued.targets (vmUse .read) (twoOf 0x01FF00FF0003FFC0)).2 = some (Cause.PERM, 0x01FF00FF0003FFC0) ∧
      firstTrap (labMem.issued.targets (vmUse .write) [(0, 0x1FFC1)]).2 = some (Cause.ALIGN, 0x1FFC1)) ∧
    ((labFilling 0).issued.targets (vmUse .read) [(7, 0x1FFF8)]).1.fillPending (.dev 0x14FFF8) 8 = true ∧
    ((labFull.core labFull.myCore).freeEntries.length < 2 ∧ labFull.acquiring = false) ∧
    ((twoOn labMem ownLine).goes [.v 4 true, .v (4 + 1) true, .m 1 true, .g 1 true] ∧ ((twoOn labMem ownLine).me.rdE 5 0, (twoOn labMem ownLine).me.rdE 5 7) = (ownLine, 56)) := by
  decide +kernel

/-- The lab's task that acquired at chip scope; the full journal is of its own writes. -/
theorem witness_FencesAndPrefetch :
    lab.entriesOf lab.me.taskId = false ∧ labFull.entriesOf labFull.me.taskId = true ∧ lab.writesDone lab.me.taskId = true ∧
    labFull.writesDone labFull.me.taskId = false ∧ (lab.acquiring = false ∧ lab.me.acq = none) ∧
    ((labWith fun f => { f with acq := some .chip }).acquiring = false ∧ (labWith fun f => { f with acq := some .chip }).me.acq ≠ none) ∧
    lab.goes [.g 63 true] := by decide +kernel

theorem witness_Atomics :
    labMem.acquiring = false ∧ (labMemG devWord 0).goes [.g 1 true, .g 2 true] ∧ (labMemG devWord 0).goes [.g 3 true, .g 1 true, .g 2 true] ∧
    (labMemG devWord 0).goes [.g 3 true, .g 1 true] ∧
    (AmoForm.mk (.amoSwap true 0 1 2 true true) [.g 1 true, .g 2 true] .swap true ((labMemG devWord 0).me.rdG 2) 0) ∈ amoForms (labMemG devWord 0) true 0 1 2 true true 7 ∧
    farReady (labMemG devWord 0) devWord 8 (formUse .both 8) (.dev 0x14FFF8) ∧ (∀ c off, Place.dev 0x14FFF8 = .sram c off → c ≠ labMem.myCore) ∧
    (labMem.core labMem.myCore).freeEntries ≠ [] ∧
    (∃ u, (labMemG ownSram 0).issued.target ownSram 8 (formUse .both 8) = (u, .ok (.sram 0 0xFFF8)) ∧ u.pending (.sram 0 0xFFF8) 8 = false ∧ u.fillPending (.sram 0 0xFFF8) 8 = false ∧ u.localBad (.sram 0 0xFFF8) 8 = false) ∧ 0xFFF8 + 8 ≤ 0x10000 ∧
    ((32 : Nat) = 32 ∨ (32 : Nat) = 64) ∧ ((64 : Nat) = 32 ∨ (64 : Nat) = 64) :=
  ⟨by decide +kernel, by decide +kernel, by decide +kernel, by decide +kernel, by simp [amoForms], far_of (by decide +kernel) (by decide +kernel) (by decide +kernel), by simp, by decide +kernel,
   ⟨((labMemG ownSram 0).issued.target ownSram 8 (formUse .both 8)).1, by rw [← (by decide +kernel : ((labMemG ownSram 0).issued.target ownSram 8 (formUse .both 8)).2 = .ok (.sram 0 0xFFF8))], by decide +kernel⟩,
   by decide, by decide, by decide⟩

theorem witness_CountersIssue :
    labMem.acquiring = false ∧ (labMemG farBank 0x8000000000000000).goes [.g 1 true, .g 2 true] ∧
    (∀ use ∈ ([.add, .fadd, .wait] : List CtrUse), ∃ u, (labMemG farBank 1).issued.counter farBank use = (u, .ok (.bank 1 0x1FFF8))) ∧
    2 ^ 63 ≤ ((labMemG farBank 0x8000000000000000).me.rdG 2).toNat ∧ ((labMemG farBank 0x7FFFFFFFFFFFFFFF).me.rdG 2).toNat < 2 ^ 63 ∧
    (labMem.writesDone labMem.me.taskId = true ∧ labMem.readsDone labMem.me.taskId = true) ∧ (labMem.core labMem.myCore).freeEntries ≠ [] ∧
    (let s := (labMemG farBank 1).updMe fun f => { f with tstat := 0x4000000000000000 }
     s.me.svc = true ∧ s.goes [.g 1 true, .g 2 true] ∧ ∃ u, s.issued.counter farBank .set = (u, .ok (.bank 1 0x1FFF8))) :=
  ⟨by decide +kernel, by decide +kernel, by
    intro use h
    simp only [List.mem_cons, List.not_mem_nil, or_false] at h
    obtain rfl | rfl | rfl := h <;> exact pair_of (by decide +kernel),
   by decide +kernel, by decide +kernel, by decide +kernel, by decide +kernel, by decide +kernel, by decide +kernel, pair_of (by decide +kernel)⟩

/-- Headers: tile 175 with core 30; tile 176; a service core. -/
def hdr175 : Word := at64 175 44 + at64 30 39
def hdr176 : Word := at64 176 44
def hdrSvc : Word := at64 31 39

/-- The lab with group 0 current: core 0 and core 1 of tile 0. -/
def labGroup : State := lab.setGroup 0 { GroupEntry.reset with cv := true, cur := 1, curM := [(0, 0), (0, 1)] }

theorem witness_Sending :
    (labG hdr175 0).goes [.g 1 true, .g 2 true] ∧
    (labG hdr175 0).goes ((List.range 6).map (fun i => Src.g (58 + BitVec.ofNat 6 i) true) ++ [.g 1 true, .g 2 true]) ∧
    ((hdr175.toNat / 2 ^ 44 % 256 ≤ 175 ∧ (0 : BitVec 11).toNat < lab.chip.nChips) ∧ (hdr175.toNat / 2 ^ 39 % 32 = 31 → lab.me.svc = true)) ∧
    ¬(hdr176.toNat / 2 ^ 44 % 256 ≤ 175) ∧ ¬(hdrSvc.toNat / 2 ^ 39 % 32 = 31 → lab.me.svc = true) ∧
    (lab.group 0).cv = false ∧ (labGroup.group 0).cv = true ∧ (lab.core lab.myCore).freeEntries ≠ [] ∧ lab.acquiring = false ∧
    lab.writesDone lab.me.taskId = true := by decide +kernel

/-- A template with a preset of g9 behind it, at the start of the own bank 0. -/
def presetBytes : List Byte :=
  0xFE :: 3 :: List.replicate 24 0 ++ [1, 0, 0x30, 0, 0, 0] ++ List.replicate 16 0 ++ 9 :: List.replicate 15 (7 : Byte)
def labPreset : State := (labMemG 0x1F000 0x01FF00FF0000003C).bankPut 0 0 presetBytes

theorem witness_HandlerTable_presets :
    let u := (labPreset.issued.target 0x01FF00FF00000000 8 (formUse .read 8)).1
    let tm := Template.ofBytes (presetBytes.take 48)
    (labPreset.issued.target 0x01FF00FF00000000 8 (formUse .read 8)).2 = .ok (.bank 0 0) ∧ u.placeBytes labPreset.me.job (.bank 0 0) 48 = .bytes (presetBytes.take 48) ∧
    (tm.npre.toNat = 1 ∧ tm.preoff = 0x30 ∧ tm.ok [9] = true ∧ tm.pinned = false) ∧
    (u.targets (formUse .read 8) [(0, 0x01FF00FF00000030)]).2 = [(0, 0x01FF00FF00000030, .ok (.bank 0 0x30))] ∧
    (u.targets (formUse .read 8) [(0, 0x01FF00FF00000030)]).1.placeBytes labPreset.me.job (.bank 0 0x30) 16 = .bytes (9 :: List.replicate 15 7) := by decide +kernel

/-- The lab's page with a template of no presets at its start and an entry at 0x1F000. -/
theorem witness_HandlerTable :
    let s := labMemG 0x1F000 0x1003C
    let bs := 0xFE :: 1 :: List.replicate 46 (0 : Byte)
    let tm := Template.ofBytes bs
    s.goes [.g 1 true, .g 2 true] ∧ s.acquiring = false ∧ (labMemG 0x1F002 0).me.rdG 1 &&& 3 ≠ 0 ∧ (s.me.rdG 1).toNat % 4 = 0 ∧
    reachesPlace s (0x1003C &&& ~~~63#64) 8 (formUse .read 8) (.dev 0x140000) ∧ (s.issued.target 0x10000 8 (formUse .read 8)).1.placeBytes s.me.job (.dev 0x140000) 48 = .bytes bs ∧
    tm.npre.toNat ≤ 55 ∧ tm.ok [] = true ∧ tm.pinned = false ∧ s.goes [.g 1 true] :=
  ⟨by decide +kernel, by decide +kernel, by decide +kernel, by decide +kernel, pair_of (by decide +kernel), by decide +kernel, by decide +kernel, by decide +kernel,
   by decide +kernel, by decide +kernel⟩

theorem witness_TaskControl :
    lab.goes [.g 63 true] ∧ lab.goes [.g 1 true, .g 2 true] ∧ (labG 0x8000000000000001 0).goes [.g 1 true] ∧
    (lab.me.guest = false ∧ lab.me.atSvc = false) ∧ ((labWith fun f => { f with guest := true }).me.guest = true) ∧
    ((labWith fun f => { f with atSvc := true }).me.atSvc = true) ∧
    ((labWith fun f => { f with guest := true, atSvc := true, origin := { f.origin with core := 1 } }).me.origin.key ≠ lab.run.cur) ∧
    (((labWith fun f => { f with guest := true }).setFrame 0 { runner with guest := true, origin := { lab.me.origin with core := 1 } }).me.origin.key ≠ lab.run.cur) ∧
    (lab.jobHeld 0 = false ∧ ({ lab with chip := { lab.chip with jobs := [(0, { Job.reset with state := 2 })] } } : State).jobHeld 0 = true) := by
  decide +kernel

/-- The lab's page with `add g20, g20, g10` (R175) or a word of zero at 0x10000, and `rpt` in front of it. -/
def labBody (w : Nat) : State := (labPage w).updMe fun f => { f with pc := 0xFFFC }

theorem witness_Repeats :
    (∃ u, (labBody 0x02A28500).issued.capture 255 0 0 0 1 (0xFFFC + 4) [] = (u, .inl [0x02A28500])) ∧
    (∃ u, (labBody 0).issued.capture 1 0 0 0 1 (0xFFFC + 4) [] = (u, .inr (0x10000, .word 0))) ∧
    (∃ r, (labRpt 0 0).me.rpt = some r ∧ r.j + 1 < r.body.length) ∧
    (∃ r, (labRpt 1 1).me.rpt = some r ∧ r.j + 1 = r.body.length ∧ r.k + 1 < r.n) ∧
    (∃ r, (labRpt 2 1).me.rpt = some r ∧ r.j + 1 = r.body.length ∧ r.k + 1 = r.n) :=
  ⟨pair_of (by decide +kernel), pair_of (by decide +kernel), ⟨_, rfl, by decide⟩, ⟨_, rfl, by decide, by decide⟩, ⟨_, rfl, by decide, by decide⟩⟩

/-- A leader runs in frame 255 of core 30; with another stream holder the status is 2, without a leader 1. -/
def labLead : State := lab.setFrame (30 * 256 + 255) runner

theorem witness_Following :
    lab.goes [.g 1 true, .g 2 true] ∧ labLead.folStatus 30 255 = 0 ∧ lab.folStatus 30 255 = 1 ∧
    (labLead.setCore 30 { Core.reset with stream := some (0, 0) }).folStatus 30 255 = 2 := by decide +kernel

end Sys2Proof.Tests
end

