-- ==== Sys2Proof/Tests/WitnessMachines.lean ====
section
/-! SUPPORT. Tests/WitnessMachines.lean: for the statements about events at engines, arrays and registers, states that meet their
hypotheses, clause by clause. -/

namespace Sys2Proof.Tests

set_option Elab.async false

open Sys2Proof Sys2Proof.Machine

/-! ## Engines -/

/-- Command 5 of core 0 of tile 0: bytes from the end of bank 0 to its start; form, size word and completion counter as given. -/
def command (st : EState) (w2 : Word) : ECmd :=
  { handle := engHandle 0 0 5, job := 0, task := lab.me.taskId, svc := false, form := 0, w0 := 0x01FF00FF0001FFC0, w1 := 0x01FF00FF00000000, w2 := w2,
    w3 := 0x01FF00FF00001000, w4 := 0x01FF00FF00002000, ctr := some (.bank 1 0x1FFF8), each := false, ver := 0, members := [0], state := st, cause := 0,
    counted := 0, segs := [], begun := [], parked := [], sent := [], got := [], asked := [] }

/-- The lab's tile 0 with that command and what waits in its pairing unit. -/
def labCmd (c : ECmd) (pairing resend : List Half) : State :=
  labMem.setEngine 0 { Engine.reset with cmds := [c], pairing := pairing, resend := resend }

def copy8 : ECmd := command .active 8
/-- 64 bytes with side-band blocks of 16. -/
def copySide : ECmd := command .active (at64 1 56 + 64)

/-- The value of a step of a segment, if it has one. -/
def okOf {α : Type} (x : Eng α) : Option α :=
  match x.2 with
  | .ok a => some a
  | .error _ => none

theorem eng_of {α : Type} {x : Eng α} {s : State} {a : α} (h1 : x.1 = s) (h2 : okOf x = some a) : x = (s, .ok a) := by
  obtain ⟨t, r⟩ := x
  cases r <;> simp_all [okOf]

def half (scale : Bool) (len : Nat) : Half := { dest := 1, handle := engHandle 0 0 5, seg := 0, scale := scale, len := len, since := 0, writes := [] }

/-- The side-band copy with a half in flight and the destination's pairing unit as given. -/
def labHalf (h : Half) (pairing : List Half) : State :=
  { (labCmd copySide [] []).setEngine 1 { Engine.reset with pairing := pairing } with net := [.half h] }

/-- The side-band copy at cycle 65536, with a half that waits for its partner and one to be sent again. -/
def labTimed : State := { labCmd copySide [half true 4] [half false 64] with clk := { labMem.clk with cycle := 65536 } }

def lab8 : State := labCmd copy8 [] []
def write8 : WNo := { id := segWriteNo 0 copy8.handle 0, knows := copy8.knows }
/-- The states in which the segment has read its words, and in which it has written them. -/
def read8 : State := (lab8.moveWords copy8 0 (copy8.moves 0 [])).1
def words8 : List (Place × List Byte) := [(.bank 0 0, List.replicate 8 0)]
def wrote8 : State := ((read8.beginSeg copy8.handle 0).engPuts write8 0 ((runsOf words8).filter fun p => !p.1.isPeer)).1

/-- Bytes of a copy engine of chip 1 for tile 0, at an offset of it, and for the group of which it is the one member tile here. -/
def copyIn (off : Nat) : Copy := { handle := 0, seg := 0, tile := some 0, g := 0, ver := 0, svc := false, off := off, bytes := [1, 2], part := none }
def copyAll (ver : BitVec 16) : Copy := { copyIn 0 with tile := none, ver := ver }
def labCopies (c : Copy) : State :=
  { labMem.setGroup 0 { labMem.group 0 with cv := true, curM := [(0, 0)] } with net := [.copies 1 0 0 c] }

/-- A half of chip 1's that found no room there, to be sent again from here. -/
def halfFar : Half := { half false 64 with origin := some (1, 0, []) }

theorem witness_EngineEvents :
    (let s := labCmd (command .queued 8) [] []
     ((s.engine 0).cmds.find? (fun c => decide (c.state = .queued)) = some (command .queued 8) ∧
      ((s.engine 0).cmds.filter fun c => decide (c.state ≠ .queued)).length < 8 ∧ s.removing 0 = false)) ∧
    (((lab8.engine 0).cmds.find? (fun c => decide (c.handle = engHandle 0 (0 : BitVec 5).toNat (5 : BitVec 27).toNat)) = some copy8 ∧ copy8.state = .active ∧
        copy8.hasSeg 0 = true ∧ copy8.segs.contains 0 = false ∧ copy8.parked.contains 0 = false ∧ copy8.sent.contains 0 = false ∧ lab8.removing 0 = false ∧
        ¬(copy8.form = 1 ∧ 2 ^ 20 ≤ copy8.member 0) ∧ ¬(copy8.form = 4 ∧ ∃ m ∈ copy8.members, 2 ^ 20 ≤ m)) ∧
      lab8.engGets copy8 0 4 (copy8.idxVas 0) = (lab8, .ok []) ∧ lab8.moveWords copy8 0 (copy8.moves 0 []) = (read8, .ok words8) ∧ copy8.block = 0 ∧
      read8.engAwake (runsOf words8) = (read8, true) ∧ (runsOf words8).filter (fun p => p.1.isPeer) = [] ∧
      (read8.beginSeg copy8.handle 0).engPuts write8 copy8.job ((runsOf words8).filter fun p => !p.1.isPeer) = (wrote8, .ok ())) ∧
    (let s := labHalf (half true 4) []
     (s.net[0]? = some (.half (half true 4)) ∧ (half true 4).origin = none ∧
      (s.engine 0).cmds.find? (fun c => decide (c.handle = engHandle 0 0 5)) = some copySide ∧ s.removing copySide.job = false ∧
      copySide.segs.contains 0 = false ∧ copySide.hasSeg 0 = true ∧ copySide.segLen 0 / copySide.block = 4 ∧ copySide.segLen 0 = 64 ∧
      (s.engine 1).pairing.find? (half true 4).partner = none ∧ (s.engine 1).pairing.length < 16)) ∧
    16 ≤ ((labHalf (half true 4) (List.replicate 16 (half true 4))).engine 1).pairing.length ∧
    ((labHalf (half true 4) (List.replicate 16 (half true 4))).engine 1).pairing.find? (half true 4).partner = none ∧
    (((labHalf (half true 4) [half false 64]).engine 1).pairing.find? (half true 4).partner = some (half false 64) ∧
      (labHalf (half true 4) [half false 64]).engAwake [] = (labHalf (half true 4) [half false 64], true)) ∧
    ((labTimed.engine 0).resend[0]? = some (half false 64) ∧ 256 ≤ labTimed.clk.cycle - (half false 64).since ∧
      (labTimed.engine 0).pairing[0]? = some (half true 4) ∧ 65536 ≤ labTimed.clk.cycle - (half true 4).since) ∧
    (labMem.classify 0 0 = .later ∧ (labCopies (copyAll 0)).classify 0 0 = .members [0] ∧ (labCopies (copyAll 0x8000)).classify 0 0x8000 = .stale ∧
      (labCopies (copyAll 0)).net[0]? = some (.copies 1 0 0 (copyAll 0)) ∧ (copyAll 0).tile = none ∧
      ((labCopies (copyAll 0)).dropMsg 0).heldFor 1 0 (tileOfCore 0) = false) ∧
    ((labCopies (copyIn 0)).net[0]? = some (.copies 1 0 0 (copyIn 0)) ∧ (copyIn 0).tile = some 0 ∧ (copyIn 0).part = none ∧
      (labCopies (copyIn 0x300000)).copyPlace 0 (copyIn 0x300000) = none) ∧
    ((labCopies (copyIn 0)).copyPlace 0 (copyIn 0) = some (.bank 0 0) ∧
      ∃ w, (labCopies (copyIn 0)).engWrite { id := segWriteNo 1 0 0, knows := [] } 0 (.bank 0 0) (copyIn 0).bytes = (w, .ok ())) ∧
    (let s : State := { labCmd copySide [] [halfFar] with clk := { labMem.clk with cycle := 256 } }
     (s.engine 0).resend[0]? = some halfFar ∧ 256 ≤ s.clk.cycle - halfFar.since ∧ halfFar.origin = some (1, 0, [])) ∧
    (∀ stop hd, ({ labMem with net := [.engQuery lab.me.taskId 0 hd stop (.g 1)] } : State).deliverable 0 = some (.engQuery lab.me.taskId 0 hd stop (.g 1))) ∧
    ((at64 175 32).toNat / 2 ^ 32 % 256 ≤ 175 ∧ 175 < (at64 176 32).toNat / 2 ^ 32 % 256) :=
  ⟨by decide +kernel,
   ⟨by decide +kernel, rfl, eng_of rfl (by decide +kernel), by decide +kernel, by decide +kernel, by decide +kernel, eng_of rfl (by decide +kernel)⟩,
   by decide +kernel, by decide +kernel, by decide +kernel, by decide +kernel, by decide +kernel, by decide +kernel, by decide +kernel,
   ⟨by decide +kernel, _, eng_of rfl (by decide +kernel)⟩, by decide +kernel, fun _ _ => rfl, by decide +kernel⟩

/-! Bytes of own memory and of a bank, for the memory that an engine works on. -/

def bankAt : Place := .bank 1 0x1FF00
def pageAt : Place := .dev (placedPa + 0x40000)

theorem witness_EngineEvents_memory :
    (0 + 64 ≤ 0x300000 ∧ (labMem.tile 1).bankOpen (0x1FF00 / 0x20000) = true ∧ labMem.touch bankAt = (labMem, true)) ∧
    (placedPa + 0x40000 < Config.devBytes ∧ labMem.ownerCheck (tagOf copy8.job) (labMem.lineOwner (placedPa + 0x40000)) = .served) ∧
    (labMem.engPlace copy8 false copy8.w0 = (labMem, .ok (.bank 0 0x1FFC0)) ∧ copy8.touched = [] ∧ unrecorded labMem (.bank 0 0x1FFC0) 8 ∧
      labMem.localBad (.bank 0 0x1FFC0) 8 = false ∧ labMem.mem.bad = []) ∧
    noCounter labMem bankAt 8 ∧ (labMem.job copy8.job).removed = false ∧
    (let s : State := { labMem with chip := { labMem.chip with jobs := [(0, { Job.reset with removed := true })] } }
     (s.job copy8.job).removed = true ∧ (s.tile 1).bankOpen (0x1FF00 / 0x20000) = true ∧ s.touch bankAt = (s, true)) :=
  ⟨by decide +kernel, by decide +kernel, ⟨by decide +kernel, rfl, by unfold unrecorded; decide +kernel, by decide +kernel, rfl⟩, by unfold noCounter; decide +kernel,
   by decide +kernel, by decide +kernel⟩

theorem witness_EngineEvents_segment :
    lab8.removing copy8.job = false ∧ copy8.segLen 0 ≠ 0 ∧ copy8.each = false ∧ copy8.ctr = some (.bank 1 0x1FFF8) ∧ copy8.touched = [] ∧
    ({ copy8 with each := true } : ECmd).member 0 < 2 ^ 20 := by
  decide +kernel

/-! ## Arrays -/

def arrayCmd (op : AOp) : ACmd := { op := op, task := 0, gen := 0, core := 0, job := 0, draining := false }
def labQueue (op : AOp) : State := labMem.setArray 0 { TArray.reset with queue := [arrayCmd op] }
def request (task : Nat) : LeaseReq := { task := task, gen := 0, core := 0, bound := 8 }
def bounded : Lease := { task := 0, gen := 0, core := 0, frame := 0, job := 0, count := 8, bound := 8, quiet := 0 }

/-- The lease's holder, frame 0, waits since cycle 0, another task asks, and it is cycle 4096. -/
def labLeased : State :=
  let s := (labMem.updMe fun f => { f with state := .waiting, wait := .presence [] }).setArray 0 { TArray.reset with lease := some bounded, reqs := [request 5] }
  { s with clk := { s.clk with cycle := 4096 } }

/-- A fill of side B, latch 1, of one column with two bytes of scales. -/
def fillB : AOp := .fill true true 1 false [(0x01FF00FF00000000, .bank 0 0)] [(0x01FF00FF0001FFFE, .bank 0 0x1FFFE)]

/-- The same with only its scale bytes unread. -/
def labFillB : State :=
  labMem.setArray 0 { TArray.reset with queue := [{ arrayCmd fillB with read := List.range 8 }] }

theorem witness_ArrayEvents_fill :
    (labFillB.array 0).head = some (0, { arrayCmd fillB with read := List.range 8 }) ∧
      (∃ x, x < 8 * 1 + 1 ∧ (List.range 8).contains x = false) ∧ labFillB.fillNext 0 = some 8 ∧
      labFillB.fillPlace 0 0 false 0x01FF00FF0001FFFE (.bank 0 0x1FFFE) = (labFillB, some (.bank 0 0x1FFFE)) ∧ labFillB.touch (.bank 0 0x1FFFE) = (labFillB, true) := by
  refine ⟨by decide +kernel, ⟨8, by decide⟩, ?_, by decide +kernel, by decide +kernel⟩
  have h : (labFillB.array 0).head = some (0, { arrayCmd fillB with read := List.range 8 }) := by decide +kernel
  have l : (List.range (8 * 1 + 1)).filter (fun w => !(List.range 8).contains w) = [8] := by decide
  simp only [State.fillNext, h, arrayCmd, fillB, List.length_cons, List.length_nil, Nat.zero_add, l, Nat.mod_one, List.getElem?_cons_zero]

theorem witness_ArrayEvents :
    (let s := labMem.setArray 0 { TArray.reset with reqs := [request 0, request 5] }
     (s.array 0).lease = none ∧ (s.array 0).queue = [] ∧ s.nextReq (s.array 0) = some (request 0) ∧ (s.array 0).reqs ≠ []) ∧
    ((labLeased.array 0).lease = some bounded ∧ bounded.bound ≤ bounded.count ∧ (labLeased.array 0).reqs ≠ [] ∧
      (labLeased.frame (labLeased.homeOf bounded.task)).counted = false ∧ (labLeased.frame (labLeased.homeOf bounded.task)).state = .waiting ∧
      (labLeased.frame (labLeased.homeOf bounded.task)).wait ≠ .array ∧ 4096 ≤ labLeased.clk.cycle - bounded.quiet) ∧
    (((labQueue fillB).array 0).head = some (0, arrayCmd fillB) ∧
      fillWordAt [(0x01FF00FF00000000, .bank 0 0)] [(0x01FF00FF0001FFFE, .bank 0 0x1FFFE)] 1 7 = some (0x01FF00FF00000038, .bank 0 0x38, 8) ∧
      fillWordAt [(0x01FF00FF00000000, .bank 0 0)] [(0x01FF00FF0001FFFE, .bank 0 0x1FFFE)] 1 8 = some (0x01FF00FF0001FFFE, .bank 0 0x1FFFE, 2) ∧
      (arrayCmd fillB).read.contains 8 = false) ∧
    ((labQueue (.mma 10 3 true)).array 0).head = some (0, arrayCmd (.mma 10 3 true)) ∧ ((labQueue (.mzero 3)).array 0).head = some (0, arrayCmd (.mzero 3)) ∧
    ((labQueue (.mdrain 3 15 none [0] 7)).array 0).head = some (0, arrayCmd (.mdrain 3 15 none [0] 7)) ∧
    ((labMem.setArray 0 { TArray.reset with acc3 := { Acc.reset with drain := some [] } }).array 0).acc 3 = { Acc.reset with drain := some [] } ∧
    (let a := (labMem.setArray 0 { TArray.reset with acc3 := { Acc.reset with freeing := true } }).array 0
     (a.acc 3).freeing = true ∧ (a.acc 3).drain = none ∧ a.queue = []) ∧
    ((TArray.reset.log.length < 8) ∧ 8 ≤ ({ TArray.reset with log := List.replicate 8 0 } : TArray).log.length) := by
  decide +kernel

/-! ## Registers -/

/-- Bank 23 of tile 0 wakes since cycle 0; it is cycle 1500. Die 1 has a fault to tell its pager, at tile 175. -/
def labWakes : State := { lab.setTile 0 { Tile.reset with waking := [(23, 0)] } with clk := { lab.clk with cycle := 1500 } }
def labFaulted : State := lab.setDie 1 { Die.reset with pgEn := true, pgTile := 175, pgClass := 15, dropped := true }

theorem witness_RegisterEvents :
    ((5 : Word).toNat % 8 > 4 ∧ (4 : Word).toNat % 8 ≤ 4 ∧ (4 : Word).toNat % 8 ≠ (lab.core 0).split.toNat) ∧
    (lab.bankBusy 0 23 = false ∧
      (lab.setTile 0 { Tile.reset with waiters := [{ job := 0, p := .bank 0 0x2FFFF8, thr := 1, w := .front 0 0 }] }).bankBusy 0 23 = true) ∧
    (labWakes.tile 0).waking.find? (fun w => decide (w.1 = 23)) = some (23, 0) ∧ 1500 ≤ labWakes.clk.cycle - 0 ∧
    ((labFaulted.die 1).pgEn = true ∧ (labFaulted.die 1).notif = false ∧ (labFaulted.die 1).dropped = true ∧ (labFaulted.die 1).pgTile.toNat ≤ 175) := by
  decide +kernel

end Sys2Proof.Tests
end

