-- ==== Sys2Proof/Tests/WitnessQueues.lean ====
section
/-! SUPPORT. Tests/WitnessQueues.lean: for the statements about envelopes, activation, frames and groups, states that meet their
hypotheses, clause by clause. -/

namespace Sys2Proof.Tests

set_option Elab.async false

open Sys2Proof Sys2Proof.Machine

/-- An envelope of class 15 for core 30 of tile 0, or for chip 5, from entry 63 of core 0, that may be stolen. -/
def envTo (chip : Nat) : Env :=
  { hdr := at64 chip 53 + at64 30 39 + at64 15 35 + at64 1 34, w1 := 7, pl := [1, 2, 3, 4, 5, 6], sender := .core 0 0 63, task := some lab.me.taskId,
    job := 0, rel := none, svc := false, stamp := none, row := none, stolen := none }

def queued (st : Stored) (n : Nat) : QEnv := { env := envTo 0, prio := 0, base := 0, arrival := n, cycle := 0, stored := st }

/-- A handler for class 15 in frame 255 of its core, entry 0x1000, no presets. -/
def handler15 : Handler :=
  { Handler.reset with bound := true, entry := 0x1000, tmpl := { Template.reset with glive := 0x1FE, pin := 0x80FF } }

/-- Core 30 runs job 0, with or without that handler, with a queue and a held list. -/
def labCore (bound : Bool) (q held : List QEnv) : State :=
  lab.setCore 30 { Core.reset with job := some 0, handlers := if bound then [(15, handler15)] else [], queue := q, held := held }

/-- The same with one message in flight. -/
def labSent (s : State) (m : Msg) : State := { s with net := [m] }

/-- A full inbox and a full spill area. -/
def fullQueue : List QEnv := List.replicate 64 (queued .inbox 0) ++ List.replicate 128 (queued .spill 0)

def journalled : JEntry :=
  { kind := 1, state := 1, task := lab.me.taskId, dest := 0, reason := 0, bounces := 0, copies := 1, bounced := [], write := false, job := 0, ctr := none }

theorem witness_EnvelopeArrivals :
    ((labSent lab (.env (envTo 5))).deliverable 0 = some (.env (envTo 5)) ∧ (envTo 5).chip ≠ lab.chip.chipNo) ∧
    ((labSent lab (.env (envTo 0))).deliverable 0 = some (.env (envTo 0)) ∧ (envTo 0).chip = lab.chip.chipNo ∧ (envTo 0).stolen = none ∧
      (envTo 0).sender = .core 0 0 63 ∧ (envTo 0).core = 30) ∧
    ((envTo 0).due ≤ lab.clk.cycle ∧ lab.clk.cycle < { envTo 0 with due := 256 }.due) ∧
    ((lab.job (envTo 0).job).state ≠ 4 ∧ ({ lab with chip := { lab.chip with jobs := [(0, { Job.reset with state := 4 })] } } : State).job 0 = { Job.reset with state := 4 }) ∧
    lab.takes 30 (envTo 0) = false ∧ (labCore false [] []).takes 30 (envTo 0) = true ∧
    ((((labCore false [] []).core 30).handler 15).bound = false ∧ ((labCore false [] (List.replicate 15 (queued .held 0))).core 30).heldPlaces < 16 ∧
      16 ≤ ((labCore false [] (List.replicate 16 (queued .held 0))).core 30).heldPlaces) ∧
    ((labCore true [] []).takes 30 (envTo 0) = true ∧ (((labCore true [] []).core 30).handler 15).bound = true ∧ (labCore true [] []).room 30 = some .inbox ∧
      (labCore true (List.replicate 64 (queued .inbox 0)) []).room 30 = some .spill ∧ (labCore true fullQueue []).room 30 = none) ∧
    ((labCore true fullQueue []).setCore 0 { Core.reset with journal := [(63, journalled)] }).journal 0 63 = some journalled := by decide +kernel

/-- Two cores of a job, the first idle. -/
def labThief : State := (labCore true [queued .inbox 0] []).setCore 29 { Core.reset with job := some 0 }
/-- The same job suspended; the same at cycle 16384. -/
def labHeld : State := { labThief with chip := { labThief.chip with jobs := [(0, { Job.reset with state := 2 })] } }
def labAged : State := { labThief with clk := { labThief.clk with cycle := 16384 } }

/-- A preset of g9 behind a template in the own bank 0, as the binding has it. -/
def handler9 : Handler :=
  { handler15 with taddr := 0x01FF00FF00000000, tmpl := { handler15.tmpl with npre := 1, preoff := 0x30 }, presets := [(9, 0x0707070707070707)] }
def labPresets : State :=
  (labMem.setCore 30 { Core.reset with job := some 0, handlers := [(15, handler9)], queue := [queued .inbox 0] }).bankPut 0 0x30 (9 :: List.replicate 15 7)

theorem witness_Activations_presets :
    labPresets.nextEnv 30 = some (queued .inbox 0) ∧ (labPresets.readPresets 30 0 [0x01FF00FF00000030]).2 = .inl handler9.presets ∧
    ((handler9.presets.map (·.1)).Nodup ∧ ∀ p ∈ handler9.presets, 9 ≤ p.1 ∧ p.1 ≤ 63) := by decide +kernel

theorem witness_Activations :
    (labThief.pwr.fatal = false ∧ labThief.nextEnv 30 = some (queued .inbox 0) ∧ ((labThief.core 30).handler 15).bound = true ∧
      handler15.tmpl.pinned = true ∧ handler15.tmpl.pinFrame = 255 ∧ handler15.tmpl.npre = 0 ∧ (queued .inbox 0).env.row = none) ∧
    labThief.readPresets 30 0 [] = (labThief, .inl []) ∧ (labCore true [] []).lowestFree 30 = some 0 ∧
    ((labCore false [queued .inbox 0] []).nextEnv 30 = some (queued .inbox 0) ∧ (((labCore false [queued .inbox 0] []).core 30).handler 15).bound = false ∧
      (((labCore false [queued .inbox 0] []).core 30).without (queued .inbox 0)).heldPlaces < 16) ∧
    ((labAged.core 30).queue[0]? = some (queued .inbox 0) ∧ (queued .inbox 0).prio < 3 ∧
      16384 * ((queued .inbox 0).prio - (queued .inbox 0).base + 1) ≤ labAged.clk.cycle - (queued .inbox 0).cycle ∧ labAged.agingStopped 0 = false) ∧
    ((labThief.core 29).job = some 0 ∧ (labThief.core 30).job = some 0 ∧ 29 % 32 ≠ 31 ∧ 30 % 32 ≠ 31 ∧ stealDomain (labThief.job 0).steal 29 30 = true ∧
      labThief.idle 29 = true ∧ (labThief.core 29).gated = false ∧ (labThief.core 29).stealOut = false ∧ (labThief.core 29).stealAt ≤ labThief.clk.cycle ∧
      labThief.agingStopped 0 = false) ∧
    ((labSent labThief (.stealReq 29 30 0x8000 0)).net[0]? = some (.stealReq 29 30 0x8000 0) ∧
      labThief.tailEnv 30 0x8000 0 = some (queued .inbox 0) ∧ labHeld.agingStopped 0 = true ∧ labThief.tailEnv 30 0x7FFF 0 = none) ∧
    ((labSent labThief (.stealAns 29 none)).net[0]? = some (.stealAns 29 none) ∧
      (labSent labThief (.stealAns 29 (some (envTo 0)))).net[0]? = some (.stealAns 29 (some (envTo 0)))) :=
  ⟨by decide +kernel, rfl, by decide +kernel, by decide +kernel, by decide +kernel, by decide +kernel, by decide +kernel, ⟨rfl, rfl⟩⟩

/-! ## Frames -/

def ready : Frame := { Frame.reset with state := .ready, gen := 3, origin := { Frame.reset.origin with frame := 5 } }

/-- A ready frame 5 on core 0; the same with eight residents of core 0 that wait; at cycle 65536. -/
def labReady : State := lab.setFrame 5 ready
def labFull8 : State :=
  let w : Frame := { Frame.reset with state := .waiting, resident := true }
  { labReady with frames := [(0, w), (1, w), (2, w), (3, w), (4, w), (5, ready), (6, w), (7, w), (8, w)] }
def labLate (u : Frame → Frame) : State := { lab.setFrame 5 (u ready) with clk := { lab.clk with cycle := 65536 } }
def labJoins : State := labLate fun f => { f with state := .waiting, wait := .join, follow := some (8, 1, false) }

/-- A move of frame 5 to core 30, in progress; a move word to core 31. -/
def moveWord : Word := at64 1 63 + at64 30 27 + 5
def labMoves : State := (labReady.setFrame (30 * 256) ready).setCore 0 { Core.reset with mig := some { frame := 5, src := 5, guest := 30 * 256 + 1, left := .ready } }
/-- Line 7 of device memory is written and sound. -/
def labLine : State := { lab with mem := { lab.mem with owner := [(7, .device)] } }

theorem witness_FrameEvents :
    (labReady.bestReady 0 = some 5 ∧ (labReady.residents 0).length < slotsOf 0) ∧
    (labFull8.bestReady 0 = some 5 ∧ slotsOf 0 ≤ (labFull8.residents 0).length ∧ labFull8.victim 0 (labFull8.frame 5).curPrio = some 0 ∧ 0 ≠ 5) ∧
    (((labLate id).frame 5).state = .ready ∧ ((labLate id).frame 5).curPrio < 3 ∧ (labLate id).agingStopped ((labLate id).frame 5).job = false ∧
      4096 * (((labLate id).frame 5).curPrio - ((labLate id).frame 5).prio.toNat + 1) ≤
        (labLate id).clk.cycle - max ((labLate id).frame 5).lastIssue ((labLate id).frame 5).since) ∧
    ((labJoins.frame 5).follow = some (8, 1, false) ∧ (labJoins.frame 5).wait = .join ∧ 65536 ≤ labJoins.clk.cycle - (labJoins.frame 5).since) ∧
    (64 * 7 < Config.devBytes ∧ (labLine.lineOwner (64 * 7)).isSome = true ∧ labLine.mem.bad.contains 7 = false) ∧
    ({ labReady with net := [.notice 5 3] }.deliverable 0 = some (.notice 5 3) ∧ (labReady.frame 5).gen = 3) ∧
    (moveWord.getLsbD 63 = true ∧ (labReady.core 0).mig = none ∧ labReady.moveCheck 0 moveWord = .inl 2 ∧
      (labReady.setFrame (30 * 256) ready).moveCheck 0 moveWord = .inr (30 * 256 + 1)) ∧
    ((labMoves.core 0).mig = some { frame := 5, src := 5, guest := 30 * 256 + 1, left := .ready } ∧ 30 * 256 + 1 ≠ 5 ∧ 5 / 256 = 0) := by decide +kernel

/-! ## Groups -/

/-- A member list of one word, core 30 of logical tile 0, at line 1 of device memory, with the entry of group 255. -/
def labList (x : GroupEntry) : State :=
  let s := lab.plant .device 64 [0, 0, 0, 0x3C]
  ({ s with chip := { s.chip with jobs := [(0, { Job.reset with tiles := [(0, (0, 0))] })] } }).setGroup 255 x
def listed : GroupEntry := { GroupEntry.reset with saddr := 1, count := 1 }

/-- The bytes read and the members they name. -/
def listBytes (s : State) : Got := s.devReads .device (1 / 8 + 1) 64 4

theorem witness_GroupEvents :
    ((labList GroupEntry.reset).group 255).count.toNat = 0 ∧
    ((labList listed).group 255 = listed ∧ listed.saddr.toNat * 64 + 4 * listed.count.toNat ≤ Config.devBytes ∧
      ((labList listed).job 0).tiles.any (fun p => decide (p.2.1 = lab.chip.chipNo)) = true ∧ listBytes (labList listed) = .bytes [0, 0, 0, 0x3C] ∧
      expandMembers [(0, (0, 0))] [0x3C000000] = some [(0, 30)]) ∧
    ((labList listed).group 255).shv = false ∧
    (let x := { listed with shv := true, shadow := [(0, 30)] }
     ((labList x).group 255).shv = true ∧ ((labList x).group 255).busy = false ∧ (labList x).tooMany 255 = false ∧ ((labList x).group 255).sv = false) ∧
    (let x := { listed with shv := true, sv := true, cv := true, nver := 5, cur := 5 }
     ((labList x).group 255).shv = true ∧ ((labList x).group 255).busy = false ∧ ((labList x).group 255).sv = true ∧ ((labList x).group 255).cv = true ∧
       ¬(1 ≤ (x.nver - x.cur).toNat ∧ (x.nver - x.cur).toNat ≤ 32767)) ∧
    (((labList { listed with busy := true }).group 255).busy = true ∧ (labList { listed with busy := true }).stamped 255 0 = false) := by decide +kernel

end Sys2Proof.Tests
end

