-- ==== Sys2Proof/Tests/WitnessTasks.lean ====
section
/-! SUPPORT. Tests/WitnessTasks.lean: for the statements about encoding, steps, registers, scalar and vector instructions, states
and operands that meet their hypotheses, clause by clause, at the ends of their ranges. -/

namespace Sys2Proof.Tests

set_option Elab.async false

open Sys2Proof Sys2Proof.Machine

theorem witness_DecodeEncode :
    (Instr.wf (.jal 0x1FFFFFF) ∧ encode (.jal 0x1FFFFFF) = some 0x1DFFFFFF) ∧
    (Instr.wf (.send 58 63 0 true false 3) ∧ encode (.send 58 63 0 true false 3) = some 0x61D7E043) := by decide +kernel

/-- The lab about to issue `sub g3, g4, g5`. -/
def labSub : State := (lab.updMe fun f => (f.wrG 4 9).wrG 5 2).withFetchWord 32 0x02188281

theorem witness_StepRunsDecoded :
    let r : Sched := { labSub.tick.run with agenda := [] }
    let s1 : State := { labSub.tick with run := r }
    let s2 := s1.asTask 0
    let s3 := s2.updMe Frame.rerun
    let v := (currentOf 0x02188281).done (s3.fetchWord s3.me.pc).1
    labSub.run.agenda = .issue 0 :: [] ∧ s2.asyncDue 0 = false ∧ s2.me.wait ≠ .fwdEntry ∧ s2.me.waitsOut = false ∧ s2.mayIssue 0 = true ∧
      s2.chosen 0 = true ∧ s3.me.rpt = none ∧ s3.me.stream = [] ∧
      (∃ u, s3.fetchWord s3.me.pc = (u, .word 0x02188281)) ∧ decode 0x02188281 = .ok (.sub 3 4 5 false false) ∧
      v.leads v.run.cur = false ∧ v.enginesQuiet = true ∧ (∃ t, exec (.sub 3 4 5 false false) v = .next t) :=
  ⟨rfl, by decide +kernel, by decide +kernel, by decide +kernel, by decide +kernel, by decide +kernel, by decide +kernel, by decide +kernel,
    pair_of (by decide +kernel), by decide +kernel, by decide +kernel, by decide +kernel, next_of (by decide +kernel)⟩

theorem witness_IssueKeepsMemories :
    labSub.run.agenda = .issue 0 :: [] ∧ labSub.mem.wf = true ∧ ∃ t, step labSub = .next t :=
  ⟨rfl, by decide +kernel, next_of (by decide +kernel)⟩

/-- The presence of g1 and g63 as `add g3, g1, g63` looks at it: bits of poison and empty. -/
def looks (f : Frame) : Bool × Bool × Bool × Bool :=
  (f.gPoison.getLsbD 1, f.gPoison.getLsbD 63, !f.gFull.getLsbD 1, !f.gFull.getLsbD 63)

theorem witness_PresenceOrder :
    looks (lab.me.poisonG 1 6) = (true, false, false, false) ∧ looks (lab.me.poisonG 63 6) = (false, true, false, false) ∧
    looks (lab.me.emptyG 1) = (false, false, true, false) ∧ looks (lab.me.emptyG 63) = (false, false, false, true) ∧
    looks lab.me = (false, false, false, false) ∧ (63 : GReg) ≠ 0 := by decide +kernel

theorem witness_RegisterWrite : (63 : GReg) ≠ 0 ∧ (1 : GReg) ≠ 63 ∧ lab.me.rpt = none := by decide +kernel

theorem witness_ScalarArithmetic :
    (labG 0x8000000000000000 (-1)).goes [.g 1 true, .g 2 false] ∧
    (((labG 0x8000000000000000 (-1)).me.rdG 1).toInt = -2 ^ 63 ∧ ((labG 0x8000000000000000 (-1)).me.rdG 2).toInt = -1) ∧
    (labG 5 0).me.rdG 2 = 0 ∧ (labG (-7) 2).me.rdG 2 ≠ 0 ∧ ¬(((labG (-7) 2).me.rdG 1).toInt = -2 ^ 63 ∧ ((labG (-7) 2).me.rdG 2).toInt = -1) := by
  decide +kernel

theorem witness_ScalarUnaryAndImmediate :
    (labG 0 0).goes [.g 1 true] ∧ (labG 0 0).goes [.g 1 true, .g 2 false] ∧ (labG 1 0).goes [.g 1 false] ∧ (labG 0 0).goes [.g 63 false] ∧
    (labG 0 0).goes [.g 0 false] := by decide +kernel

theorem witness_Transfers :
    (labG 0x1003 0).me.rpt = none ∧ (labG 0x1003 0).goes [.g 1 false, .g 2 false] ∧ (labG 0x1003 0).goes [.g 1 true] ∧
    (0x1003 + BitVec.ofInt 64 (BitVec.toInt (1#12)) : Word).toNat % 4 = 0 ∧ (0x1003 + BitVec.ofInt 64 (BitVec.toInt (2#12)) : Word).toNat % 4 ≠ 0 := by
  decide +kernel

theorem witness_ScalarFrame :
    (.add 3 1 2 false true, [.g 1 false, .g 2 true]) ∈ scalarForms 3 1 2 false true 0 0 0 ∧ (labG 1 2).goes [.g 1 false, .g 2 true] ∧
    (∃ t, exec (.add 3 1 2 false true) (labG 1 2) = .next t) ∧
    (.lih 3 0, [.g 3 false]) ∈ scalarForms 3 1 2 false true 0 0 0 ∧ (∃ t, exec (.lih 3 0) (labG 1 2) = .next t) :=
  ⟨by decide +kernel, by decide +kernel, next_of (by decide +kernel), by decide +kernel, next_of (by decide +kernel)⟩

/-- A task with v4, v5 and a mask m1 of lane 0 and lane 63. -/
def labV : State := labWith fun f => ((f.wrV 4 0x80).wrV 5 1).wrM 1 0x8000000000000001

theorem witness_VectorFrame :
    labV.goes (vecSrcs2 true 3 4 5 1 false false) ∧ labV.goes (vecSrcs2 false 3 4 5 0 true true) ∧
    (∃ t, exec (.vadd 0 3 4 5 1 false false) labV = .next t) ∧
    (∀ i, i < lanesOf 8 → i / (64 / 8) = 1 → (labV.me.rdM 1).getLsbD i = false) ∧
    ((0 : Nat) < lanesOf 8 ∧ 0 / (64 / 8) = 0 ∧ (labV.me.rdM 1).getLsbD 0 = true) ∧ (63 < lanesOf 8 ∧ 63 / (64 / 8) = 7 ∧ (labV.me.rdM 1).getLsbD 63 = true) :=
  ⟨by decide +kernel, by decide +kernel, next_of (by decide +kernel), by decide +kernel, by decide +kernel, by decide +kernel⟩

theorem witness_VectorCompareAndMasks :
    labV.goes (vecSrcs2 false 0 4 5 1 false true) ∧ (7 : MReg) ≠ 0 ∧ labV.goes [.m 1 true, .m 0 true] ∧ labV.goes [.m 7 false] ∧ labV.goes [.g 63 true] := by
  decide +kernel

theorem witness_VectorResults :
    labV.goes (vecSrcs2 true 3 4 5 1 false false) ∧ labV.goes (vecSrcs1 true 31 4 7 true) ∧ labV.goes (vecSrcs1 false 31 4 0 true) ∧
    labV.goes (vecSrcs2 false 3 4 5 1 false false) ∧ labV.goes [.g 63 true] ∧ labV.goes [.v 31 true, .g 63 false] ∧
    labV.goes [.v 31 true, .g 1 true, .g 2 false] := by decide +kernel

theorem witness_VectorFloat :
    labV.goes (vecSrcs2 true 3 4 5 1 false false) ∧ labV.goes (vecSrcs2 false 3 4 5 0 false false) ∧ labV.goes (vecSrcs2 true 3 4 5 0 true true) ∧
    labV.goes (vecSrcs1 true 3 4 1 false) := by decide +kernel

/-- A quiet NaN, a signalling NaN and 1.0 in binary32. -/
theorem witness_FloatCompareAndNans :
    let r (x : Nat) : FV := Fmt.f32.operand false x
    labV.goes (vecSrcs2 false 0 4 5 7 false true) ∧
    ((r 0x7FC00000).isNan = true ∧ (r 0x7FC00000).isSig = false) ∧ ((r 0x7F800001).isNan = true ∧ (r 0x7F800001).isSig = true) ∧
    (r 0x3F800000).isNan = false := by decide +kernel

theorem witness_ConversionResults :
    ((3#2).toNat * (512 / max (cvtRow 11).1 (cvtRow 11).2.1) < 512 / min (cvtRow 11).1 (cvtRow 11).2.1) ∧
    (¬(1#2).toNat * (512 / max (cvtRow 6).1 (cvtRow 6).2.1) < 512 / min (cvtRow 6).1 (cvtRow 6).2.1) ∧ (cvtRow 10).2.1 < (cvtRow 10).1 ∧
    labV.goes (vecSrcs1 true 3 4 0 true) ∧ labV.goes (vecSrcs1 false 3 4 0 true) := by decide +kernel

theorem witness_ReductionsAndScales :
    labV.goes (vecSrcs1 false 3 4 1 true) ∧ (30 : VReg).toNat % 2 = 0 ∧ (1#2).toNat < 2 ∧ labV.goes [.v (30 + 1) true, .v 4 true, .v (4 + 1) true] ∧
    labV.goes [.v 4 true, .v (4 + 1) true] := by decide +kernel

theorem witness_StickyFlags :
    labV.goes [.v 3 true, .m 1 true] ∧ labV.goes [.m 0 true] ∧ labV.goes [.v 31 true, .m 0 true] ∧ labV.goes [.m 7 true] := by decide +kernel

end Sys2Proof.Tests
end

