-- ==== Sys2Proof/Tests/WitnessUnits.lean ====
section
/-! SUPPORT. Tests/WitnessUnits.lean: for the statements about the array, the engines, control registers, traps, translation and
debug as a task drives them, states and operands that meet their hypotheses, clause by clause. -/

namespace Sys2Proof.Tests

set_option Elab.async false

open Sys2Proof Sys2Proof.Machine

/-- An address of the page of device memory, the last doubleword of the own bank 0, and of tile 1's. -/
def pageWord : Word := 0x1FFF8
def bankWord : Word := 0x01FF00FF0001FFF8
def tile1Word : Word := 0x01FF00010001FFF8

/-! ## The array -/

/-- A lease of the task whose origin the lab's runner has, and of another. -/
def leaseOf (task : Nat) : Lease := { task := task, gen := 0, core := 0, frame := 0, job := 0, count := 0, bound := 8, quiet := 0 }
def ownerOf (key : Nat) : AccOwner := { job := 0, core := 0, frame := 0, gen := 0, key := key }
def latchOf (n : BitVec 2) : Latch := { Latch.reset with st := .loading, n := n }

/-- The lab's task holds the lease, both latch 1 sides load with two scale bytes a row; it owns accumulator 3, another 2. -/
def labArray : State :=
  labMem.setArray 0 { TArray.reset with
    lease := some (leaseOf labMem.me.origin.key),
    a1 := latchOf 1, b1 := latchOf 1,
    acc3 := { Acc.reset with owner := some (ownerOf labMem.me.origin.key) }, acc2 := { Acc.reset with owner := some (ownerOf 77) } }

/-- The same where another task holds the lease. -/
def labOther : State := labArray.setArray 0 { labArray.array 0 with lease := some (leaseOf 77) }

/-- The array with a group whose members are core 0 and core 1, and g1 = a group, class 15. -/
def labDrain : State :=
  (labArray.setGroup 255 { GroupEntry.reset with cv := true, cur := 1, curM := [(0, 0), (0, 1)] }).updMe fun f => f.wrG 1 0x1FFF

/-- The array with a full queue. -/
def labQueued : State :=
  let c : ACmd := { op := .mzero 3, task := labMem.me.origin.key, gen := 0, core := 0, job := 0, draining := false }
  labArray.setArray 0 { labArray.array 0 with queue := List.replicate 8 c }

theorem witness_ArrayInstructions_commands :
    (labArray.holds = true ∧ (labArray.array labArray.myTile).queue.length < 8 ∧ labArray.ownedByOther 3 = false ∧ labArray.ownedByOther 0 = false) ∧
    (((labArray.array labArray.myTile).latch true false).st ≠ .empty ∧ ((labArray.array labArray.myTile).latch true true).st ≠ .empty ∧
      ((pairOf 9).sa = true ∧ ((labArray.array labArray.myTile).latch true false).n = needN (pairOf 9).k) ∧ (pairOf 9).sb = false ∧
      (pairOf 6).sb = true ∧ ((labArray.array labArray.myTile).latch true true).n = needN (pairOf 6).k) ∧
    (labArray.ownedByMe 3 = true ∧ labArray.goes [.g 1 false, .g 2 false] ∧ (labArray.me.rdG 1).getLsbD 4 = false) ∧
    (labDrain.holds = true ∧ labDrain.ownedByMe 3 = true ∧ (labDrain.me.rdG 1).getLsbD 4 = true ∧ (labDrain.group 255).cv = true ∧
      labDrain.membersHere (labDrain.group 255).curM ≠ []) ∧
    (labOther.holds = false ∧ labOther.me.tstat.getLsbD 60 = false) ∧ labArray.ownedByOther 2 = true ∧ labArray.ownedByMe 2 = false ∧
    (labQueued.holds = true ∧ 8 ≤ (labQueued.array labQueued.myTile).queue.length ∧ labQueued.ownedByOther 3 = false ∧ labQueued.me.counted = false) := by
  decide +kernel

/-- The task has lost its lease to another. -/
def labLost : State := labOther.updMe fun f => { f with tstat := setBit f.tstat 60 true }

theorem witness_ArrayInstructions_stops :
    (labLost.holds = false ∧ labLost.me.tstat.getLsbD 60 = true ∧ labLost.goes [] ∧ labLost.goes [.g 1 false, .g 2 false] ∧
      labLost.goes ([.g 1 false, .g 2 false] ++ [.g 3 false])) ∧
    (labQueued.ownedByMe 3 = true ∧ labQueued.goes [.g 1 false, .g 2 false] ∧ (labQueued.me.rdG 1).getLsbD 4 = false ∧
      ((labQueued.array labQueued.myTile).latch true false).st ≠ .empty ∧ ((labQueued.array labQueued.myTile).latch true true).st ≠ .empty) := by
  decide +kernel

theorem witness_ArrayInstructions_leases :
    labMem.goes [.g 1 false] ∧ labArray.holds = true ∧ labMem.agingStopped labMem.me.job = false ∧
    ((labMem.array 0).lease = none ∧ (labMem.array 0).reqs = [] ∧ (labMem.array 0).queue = [] ∧ (labMem.fwdOf labMem.me.origin.key).isNone ∧
      labMem.me.origin.key = labMem.run.cur) ∧
    ((labOther.array 0).lease ≠ none ∧ labOther.holds = false ∧ (labOther.me.rdG 1).getLsbD 0 = false ∧
      ((labOther.updMe fun f => f.wrG 1 1).me.rdG 1).getLsbD 0 = true) ∧
    (((labMem.updMe fun f => f.wrG 1 0x28).me.rdG 1).toNat % 32 = 8 ∧ ((labMem.updMe fun f => f.wrG 1 0x28).me.rdG 1).getLsbD 5 = true) ∧
    (labMem.me.rdG 1).toNat % 32 ≠ 8 ∧
    (∃ l, (labArray.array (coreOfFrame labArray.run.cur / 32)).lease = some l ∧ l.task = labArray.me.origin.key ∧ l.gen = labArray.me.origin.gen) :=
  ⟨by decide +kernel, by decide +kernel, by decide +kernel, by decide +kernel, by decide +kernel, by decide +kernel, by decide +kernel,
   ⟨leaseOf labMem.me.origin.key, by decide +kernel⟩⟩

/-- g1 the start of the own bank, g2 a layout with stride 1 and two scale bytes a row at a scale stride of 2, no index vector,
g3 the scale bytes behind the rows. -/
def labFill (n : Nat) (index : Nat) : State :=
  labArray.updMe fun f => ((f.wrG 1 0x01FF00FF00000000).wrG 2 (at64 1 48 + at64 n 46 + at64 2 32 + at64 index 0)).wrG 3 0x01FF00FF00010000

/-- The addresses of rows and scale bytes. -/
def rowVas (m : Nat) : List Word := (List.range m).map fun i => (0x01FF00FF00000000 : Word) + BitVec.ofNat 64 (i * 64 * 1)
def scaleVas (m : Nat) : List Word := (List.range m).map fun i => (0x01FF00FF00010000 : Word) + BitVec.ofNat 64 (i * 2)

/-- Every target is a place. -/
def allPlaces (ts : List (Word × Target)) : Bool := ts.all fun e => e.2.place?.isSome

theorem places_of {ts : List (Word × Target)} (h : allPlaces ts = true) : ∀ e ∈ ts, ∃ p, e.2 = .ok p := by
  intro e he
  have := List.all_eq_true.1 h e he
  cases hp : e.2 <;> simp_all [Target.place?]

/-- Both sides with their scale bytes, and side A by an index vector of zeros in the own bank. -/
theorem witness_ArrayInstructions_fills :
    ((labFill 1 0xFFFFFFFF).goes ([.g 1 false, .g 2 false] ++ [.g 3 false]) ∧ (labFill 1 0xFFFFFFFF).acquiring = false ∧ (labFill 1 0xFFFFFFFF).holds = true ∧
      ((labFill 1 0xFFFFFFFF).me.rdG 1).toNat % 64 = 0 ∧ ((labFill 1 0xFFFFFFFF).me.rdG 2).extractLsb' 46 2 = 1 ∧
      (labFill 1 0xFFFFFFFF).writesDone (labFill 1 0xFFFFFFFF).me.taskId = true ∧ (labFill 1 0xFFFFFFFF).loadsDone (labFill 1 0xFFFFFFFF).me.taskId = true) ∧
    (∃ idx, ((labFill 0 0).issued.indexVector 0).2 = .inl idx ∧ idx.length = 128) ∧
    (labFill 0 0).issued.touchAll (((labFill 0 0).issued.indexLines 0).filterMap Prod.snd) = ((labFill 0 0).issued, true) ∧
    ((((labFill 0 0).issued.indexLines 0).filterMap Prod.snd).all fun p => !(labFill 0 0).issued.pending p 64) = true ∧
    (∀ e ∈ ((labFill 1 0xFFFFFFFF).issued.fillTargets false 64 (rowVas 128)).2, ∃ p, e.2 = .ok p) ∧
    (∀ e ∈ (((labFill 1 0xFFFFFFFF).issued.fillTargets false 64 (rowVas 128)).1.fillTargets false 2 (scaleVas 128)).2, ∃ p, e.2 = .ok p) ∧
    (∀ e ∈ ((labFill 1 0xFFFFFFFF).issued.fillTargets true 64 (rowVas 64)).2, ∃ p, e.2 = .ok p) ∧
    (∀ e ∈ (((labFill 1 0xFFFFFFFF).issued.fillTargets true 64 (rowVas 64)).1.fillTargets true 2 (scaleVas 64)).2, ∃ p, e.2 = .ok p) :=
  ⟨by decide +kernel, ⟨List.replicate 128 0, by decide +kernel⟩, by decide +kernel, by decide +kernel, places_of (by decide +kernel), places_of (by decide +kernel),
   places_of (by decide +kernel), places_of (by decide +kernel)⟩

/-! ## Engines -/

/-- Descriptors in g10–g14 with g15 a counter: a copy of 8 bytes; a reduction of 64. -/
def labEngine (w0 w1 w2 w3 w4 : Word) : State :=
  (labMem.setGroup 255 { GroupEntry.reset with cv := true, cur := 1, curM := [(0, 0), (0, 32)] }).updMe fun f =>
    (((((f.wrG 10 w0).wrG 11 w1).wrG 12 w2).wrG 13 w3).wrG 14 w4).wrG 15 tile1Word

/-- What a command form finds. -/
def atEngine (s : State) (form : BitVec 3) : Prop :=
  s.goes ((List.range 5).map (fun i => Src.g (10 + BitVec.ofNat 6 i) true) ++ [.g 15 true]) ∧ s.acquiring = false ∧ s.writesDone s.me.taskId = true ∧
  s.readsDone s.me.taskId = true ∧
  (s.engine s.myTile).cmds.length < 32 ∧
  descCheck form 10 s.myTile (s.me.rdG 10) (s.me.rdG 11) (s.me.rdG 12) (s.me.rdG 13) (s.me.rdG 14) = none ∧
  (s.engGroup form (s.me.rdG 12)).isSome = true

theorem witness_EngineCommands :
    atEngine (labEngine pageWord bankWord 8 0 0) 0 ∧ atEngine (labEngine pageWord bankWord (at64 255 40 + at64 0x100000000 0) 0 0) 1 ∧
    atEngine (labEngine pageWord bankWord 1 0x10000 0) 2 ∧ atEngine (labEngine pageWord bankWord (at64 9 52 + 1) 0x10000 0) 3 ∧
    atEngine (labEngine bankWord pageWord (at64 255 40 + at64 7 48 + 0x100000) 0 0) 4 ∧
    (∃ u, (labEngine pageWord bankWord 8 0 0).issued.counter tile1Word .add = (u, .ok (.bank 1 0x1FFF8))) ∧ (labEngine 0 0 0 0 0).me.rdG 16 = 0 ∧
    (labEngine 0 0 0 0 0).acquiring = false ∧ (labG (at64 175 32) 0).me.rdG 1 = at64 175 32 ∧ 175 < ((labG (at64 176 32) 0).me.rdG 1).toNat / 2 ^ 32 % 256 :=
  ⟨by unfold atEngine; decide +kernel, by unfold atEngine; decide +kernel, by unfold atEngine; decide +kernel, by unfold atEngine; decide +kernel,
   by unfold atEngine; decide +kernel, pair_of (by decide +kernel), by decide +kernel, by decide +kernel, by decide +kernel, by decide +kernel⟩

/-! ## Control registers, traps, privilege -/

theorem witness_ControlRegisters :
    lab.goes [.g 1 true] ∧ labSvc.goes [.g 1 true] ∧ labSvc.me.svc = true ∧ lab.me.svc = false := by decide +kernel

/-- The lab with a valid trap vector; the same with an asynchronous trap pending; the same in a handler. -/
def labTrap : State := lab.setTile 0 { Tile.reset with tvec := 0x8000000000002000 }
def labPend : State := labTrap.updMe fun f => { f with pend := [{ cause := Cause.REFUSED, tval := 5, entry := none }] }
def labHandler : State := labTrap.updMe fun f => { f with tstat := 0xC000000000000000 }

theorem witness_Traps :
    (mayTrap labTrap ∧ labTrap.goes [.g 1 true] ∧ coreOfFrame labTrap.run.cur % 32 ≠ 31 ∧ (labTrap.residents 31).length < 16) ∧ (mayTrap labPend ∧ labPend.asyncDue labPend.run.cur = true ∧ labPend.me.pend ≠ []) ∧
    labHandler.me.handling = true ∧ (lab.tile (coreOfFrame lab.run.cur / 32)).tvec.getLsbD 63 = false :=
  ⟨⟨⟨by decide +kernel, by decide +kernel, by decide +kernel, by decide +kernel⟩, by decide +kernel, by decide +kernel⟩,
   ⟨⟨by decide +kernel, by decide +kernel, by decide +kernel, by decide +kernel⟩, by decide +kernel, by decide +kernel⟩,
   by decide +kernel, by decide +kernel⟩

theorem witness_TrapReturn :
    (labHandler.me.svc = true ∧ labHandler.me.handling = true ∧ (labHandler.me.atSvc = true → coreOfFrame labHandler.run.cur % 32 ≠ 31) ∧
      labHandler.me.atSvc = false ∧ ((labHandler.updMe fun f => { f with atSvc := true }).residents 0).length < 8) ∧
    labSvc.me.svc = true ∧ labSvc.me.handling = false := by decide +kernel

theorem witness_Privilege : lab.me.svc = false := by decide +kernel

/-! ## Translation control and debug -/

/-- A read of the lab's job is on its way; an invalidation waits; a task is parked under XLATE at the own die, another at die 1. -/
def labReading : State := { labSvc with net := [.read lab.me.taskId 0 (.dev 0) 8 (.g 1) []] }
def labMarked : State := { labSvc with net := [.marker labSvc.me.taskId] }
def labParked : State :=
  let p : Park := { va := 0x10000, job := 0, die := 0, own := false, who := .task 256 }
  ({ labSvc with parks := [p, { p with die := 1, who := .task 512 }] }.setFrame 256 { runner with state := .parked, wait := .xlate })

theorem witness_TranslationControl :
    labSvc.me.svc = true ∧ labSvc.writesDone labSvc.me.taskId = true ∧ labSvc.net.contains (.marker labSvc.me.taskId) = false ∧
    (labSvc.unperformed (.page 0x01FFFFFFFFFFFFFF 0xFFF) = false ∧ labSvc.unperformed .all = false ∧ labSvc.unperformed (.job 0xFFF) = false) ∧
    (labReading.writesDone labReading.me.taskId = true ∧ labReading.net.contains (.marker labReading.me.taskId) = false ∧ labReading.unperformed .all = true) ∧
    (labMarked.net.contains (.marker labMarked.me.taskId) = true ∧ labMarked.unperformed .all = false) ∧
    labSvc.goes [.g 1 true, .g 2 true] ∧ labSvc.goes [.g 63 true] ∧
    (labParked.me.svc = true ∧ labParked.writesDone labParked.me.taskId = true ∧ labParked.parks.map (fun p => decide (p.own = false ∧ p.die = labParked.myDie)) = [true, false] ∧
      labParked.parks.map (fun p => p.who) = [.task 256, .task 512]) := by decide +kernel

/-- Debug is open and traced for the lab's job; the same with a record of the lab's task queued. -/
def labDbg : State := { lab with dbg := { Debug.reset with open_ := true, on := true, job := lab.me.job } }
def labDbgQueued : State := { labDbg with dbg := { labDbg.dbg with queue := [{ w0 := 0, w1 := 0, w2 := 0, w3 := 0 }] } }

theorem witness_DebugInstructions :
    (lab.goes [.g 1 true, .g 2 true] ∧ lab.dbg.open_ = false) ∧
    (labDbg.goes [.g 1 true, .g 2 true] ∧ labDbg.dbg.open_ = true ∧ labDbg.dbg.on = true ∧ labDbg.dbg.job = labDbg.me.job ∧ labDbg.dbg.queue = []) ∧
    (∃ r ∈ labDbgQueued.dbg.queue, r.w0.toNat / 2 ^ 27 % 256 = labDbgQueued.me.origin.frame.toNat ∧
      r.w1.toNat / 2 ^ 56 % 256 = labDbgQueued.me.origin.gen.toNat) := by decide +kernel

end Sys2Proof.Tests
end

section
/-! # O4: every turn keeps the canonical form of the byte memories (log 6)

A follower's stream may hold any instruction, so a turn of a task can run every arm of `exec`, and an arm can call
almost every operation of the model. The proof goes bottom up: `State.Canonical s` says that the byte memories of `s`
are in canonical form, and each operation `State.f` that yields a state has a lemma `State.Canonical.f`, that it keeps
the predicate. A lemma's proof names the operations that the definition applies, in their order, with `.ite` or `split`
where the definition branches; it turns on `Mem.wf_put`, `Mem.wf_puts`, `Mem.wf_clear` and `Mem.wf_filter` in the few
operations that write bytes, and on nothing where an operation leaves the memories alone. `Kept` is the same for what an
instruction leaves, `Kept.exec` joins the arms, and the turn and the step follow. -/

namespace Sys2Proof.Machine

/-- Every byte memory of the state is in its canonical form (log 6). -/
abbrev State.Canonical (s : State) : Prop := s.mem.wf = true

/-- If an instruction goes on to a next state, that state's byte memories are in canonical form. -/
def Kept (o : Host.Outcome State Fault Refusal) : Prop := ∀ t, o = .next t → t.Canonical

/-- The five byte memories, which are all that the canonical form speaks of. -/
def Memories.bytes (m : Memories) : List Host.Cell × List Host.Cell × List Host.Cell × List Host.Cell × List Host.Cell :=
  (m.dev, m.bank, m.sram, m.arena, m.host)

theorem Memories.wf_iff {m : Memories} : m.wf = true ↔
    Mem.wf none m.dev = true ∧ Mem.wf (some 0) m.bank = true ∧ Mem.wf (some 0) m.sram = true ∧
      Mem.wf (some 0) m.arena = true ∧ Mem.wf none m.host = true := by
  simp [Memories.wf, and_assoc]

namespace State.Canonical
variable {s t : State} {α β : Type}

/-! ### The canonical form, memory by memory -/

theorem dev (h : s.Canonical) : Mem.wf none s.mem.dev = true := by
  obtain ⟨dev, -, -, -, -⟩ := Memories.wf_iff.mp h
  exact dev

theorem bank (h : s.Canonical) : Mem.wf (some 0) s.mem.bank = true := by
  obtain ⟨-, bank, -, -, -⟩ := Memories.wf_iff.mp h
  exact bank

theorem sram (h : s.Canonical) : Mem.wf (some 0) s.mem.sram = true := by
  obtain ⟨-, -, sram, -, -⟩ := Memories.wf_iff.mp h
  exact sram

theorem arena (h : s.Canonical) : Mem.wf (some 0) s.mem.arena = true := by
  obtain ⟨-, -, -, arena, -⟩ := Memories.wf_iff.mp h
  exact arena

theorem host (h : s.Canonical) : Mem.wf none s.mem.host = true := by
  obtain ⟨-, -, -, -, host⟩ := Memories.wf_iff.mp h
  exact host

theorem of_parts (dev : Mem.wf none s.mem.dev = true) (bank : Mem.wf (some 0) s.mem.bank = true)
    (sram : Mem.wf (some 0) s.mem.sram = true) (arena : Mem.wf (some 0) s.mem.arena = true)
    (host : Mem.wf none s.mem.host = true) : s.Canonical := Memories.wf_iff.mpr ⟨dev, bank, sram, arena, host⟩

/-! ### How the form passes through branches, folds and results -/

theorem of_mem (h : s.Canonical) (e : t.mem = s.mem) : t.Canonical := by
  unfold Canonical
  rw [e]
  exact h

theorem of_bytes (h : s.Canonical) (e : t.mem.bytes = s.mem.bytes) : t.Canonical := by
  simp only [Memories.bytes, Prod.mk.injEq] at e
  obtain ⟨dev, bank, sram, arena, host⟩ := e
  exact of_parts (dev ▸ h.dev) (bank ▸ h.bank) (sram ▸ h.sram) (arena ▸ h.arena) (host ▸ h.host)

/-- For `match f s with | (t, x) => …`: what `f` keeps, the branch starts with. -/
theorem of_fst {p : State × α} {x : α} (e : p = (t, x)) (h : p.1.Canonical) : t.Canonical := by
  rw [e] at h
  exact h

theorem of_next {o : Host.Outcome State Fault Refusal} (e : o = .next t) (h : Kept o) : t.Canonical := h t e

theorem getD {o : Option State} (ho : ∀ t, o = some t → t.Canonical) (h : s.Canonical) : (o.getD s).Canonical := by
  cases o with
  | none => exact h
  | some t => exact ho t rfl

theorem ite {c : Prop} [Decidable c] (h : s.Canonical) (k : t.Canonical) : (if c then s else t).Canonical := by
  split <;> assumption

theorem ite_fst {c : Prop} [Decidable c] {p q : State × α} (h : p.1.Canonical) (k : q.1.Canonical) :
    (if c then p else q).1.Canonical := by
  split <;> assumption

theorem foldl {f : State → α → State} {l : List α} (h : s.Canonical) (hf : ∀ t x, t.Canonical → (f t x).Canonical) :
    (l.foldl f s).Canonical := by
  induction l generalizing s with
  | nil => exact h
  | cons x l ih => exact ih (hf s x h)

theorem foldl_fst {f : State × β → α → State × β} {l : List α} {p : State × β} (h : p.1.Canonical)
    (hf : ∀ p x, p.1.Canonical → (f p x).1.Canonical) : (l.foldl f p).1.Canonical := by
  induction l generalizing p with
  | nil => exact h
  | cons x l ih => exact ih (hf p x h)

/-! ### Writes to one byte memory that the operations write out as updates of the record -/

theorem devPuts {a bs} (h : s.Canonical) :
    { s with mem := { s.mem with dev := Mem.puts none s.mem.dev a bs } }.Canonical :=
  .of_parts (Mem.wf_puts _ _ h.dev) h.bank h.sram h.arena h.host

theorem arenaPuts {a bs} (h : s.Canonical) :
    { s with mem := { s.mem with arena := Mem.puts (some 0) s.mem.arena a bs } }.Canonical :=
  .of_parts h.dev h.bank h.sram (Mem.wf_puts _ _ h.arena) h.host

theorem devClear {lo hi} (h : s.Canonical) :
    { s with mem := { s.mem with dev := Tab.clear s.mem.dev lo hi } }.Canonical :=
  .of_parts (Mem.wf_clear _ _ h.dev) h.bank h.sram h.arena h.host

theorem sramClear {lo hi} (h : s.Canonical) :
    { s with mem := { s.mem with sram := Tab.clear s.mem.sram lo hi } }.Canonical :=
  .of_parts h.dev h.bank (Mem.wf_clear _ _ h.sram) h.arena h.host

theorem hostClear {lo hi} (h : s.Canonical) :
    { s with mem := { s.mem with host := Tab.clear s.mem.host lo hi } }.Canonical :=
  .of_parts h.dev h.bank h.sram h.arena (Mem.wf_clear _ _ h.host)

theorem withPwr {x} (h : s.Canonical) : { s with pwr := x }.Canonical := h

/-! ### Reset (Machine/State.lean) -/

theorem reset : State.reset.Canonical :=
  .of_parts Memories.reset_dev Memories.reset_bank Memories.reset_sram Memories.reset_arena Memories.reset_host

/-! ### Frames, cores, traps and issue (Machine/Ops.lean) -/

theorem setFrame {k f} (h : s.Canonical) : (s.setFrame k f).Canonical := h
theorem setCore {c x} (h : s.Canonical) : (s.setCore c x).Canonical := h
theorem setTile {t x} (h : s.Canonical) : (s.setTile t x).Canonical := h
theorem setArray {t x} (h : s.Canonical) : (s.setArray t x).Canonical := h
theorem setEngine {t x} (h : s.Canonical) : (s.setEngine t x).Canonical := h
theorem setDie {d x} (h : s.Canonical) : (s.setDie d x).Canonical := h
theorem setJob {j x} (h : s.Canonical) : (s.setJob j x).Canonical := h
theorem setGroup {g x} (h : s.Canonical) : (s.setGroup g x).Canonical := h
theorem send {m} (h : s.Canonical) : (s.send m).Canonical := h
theorem sendAll {ms} (h : s.Canonical) : (s.sendAll ms).Canonical := h
theorem setMe {f} (h : s.Canonical) : (s.setMe f).Canonical := .setFrame h
theorem updMe {u} (h : s.Canonical) : (s.updMe u).Canonical := .setMe h
theorem fresh (h : s.Canonical) : s.fresh.Canonical := h
theorem block {w} (h : s.Canonical) : (s.block w).Canonical := .updMe h
theorem record {r} (h : s.Canonical) : (s.record r).Canonical := .ite (.ite (.fresh h) h) (.ite h h)
theorem trace {kind core f tag payload} (h : s.Canonical) : (s.trace kind core f tag payload).Canonical :=
  .ite (.of_mem (.record h) rfl) h
theorem leaves {c} (h : s.Canonical) : (s.leaves c).Canonical := .setCore h
theorem rouse {c} (h : s.Canonical) : (s.rouse c).Canonical := .ite (.setCore h) h
theorem loseFollowers {k gone} (h : s.Canonical) : (s.loseFollowers k gone).Canonical := h
theorem evict {k} (h : s.Canonical) : (s.evict k).Canonical := .loseFollowers h

theorem makeRoom {c p} (h : s.Canonical) : (s.makeRoom c p).Canonical := by
  unfold State.makeRoom
  refine .ite h ?_
  split
  · exact .evict h
  · exact h

theorem endLease {k lost} (h : s.Canonical) : (s.endLease k lost).Canonical := by
  unfold State.endLease
  dsimp only
  split
  · exact .ite (.ite (.setFrame (.setArray h)) (.setArray h)) h
  · exact h

theorem dropLeaseReq {k} (h : s.Canonical) : (s.dropLeaseReq k).Canonical := .setArray h
theorem withdraw {k} (h : s.Canonical) : (s.withdraw k).Canonical := h
theorem unfollow {k} (h : s.Canonical) : (s.unfollow k).Canonical := .ite (.setCore (.setFrame h)) (.setFrame h)
theorem endFollow {k} (h : s.Canonical) : (s.endFollow k).Canonical := .loseFollowers (.unfollow h)
theorem flushL1 {c} (h : s.Canonical) : (s.flushL1 c).Canonical := h
theorem setFwd {o gen host} (h : s.Canonical) : (s.setFwd o gen host).Canonical := .setCore h
theorem dropFwd {o} (h : s.Canonical) : (s.dropFwd o).Canonical := .setCore h
theorem fatalFault {job cause image} (h : s.Canonical) : (s.fatalFault job cause image).Canonical := .send h

theorem trapInstall (h : s.Canonical) : s.trapInstall.Canonical := by
  unfold State.trapInstall
  extract_lets k f c t svc enter install s1
  have installed {t : State} (ht : t.Canonical) : (install t).Canonical := .updMe (.flushL1 (.makeRoom ht))
  have h1 : s1.Canonical := .leaves h
  exact .ite (.ite (.updMe h) (installed h)) (.ite (installed (.setFwd h1)) (.ite (installed (.setFwd h1)) (.updMe h1)))

theorem trapAt {cause tval epc async} (h : s.Canonical) : (s.trapAt cause tval epc async).Canonical := by
  unfold State.trapAt
  have traced {k f tag v u} : ((s.updMe u).trace 5 k f tag v).Canonical := .trace (.updMe h)
  exact .ite (.fatalFault (.updMe (.withdraw (.endFollow traced))))
    (.trapInstall (.endLease (.updMe (.withdraw (.endFollow (.arenaPuts traced))))))

theorem trap {cause tval} (h : s.Canonical) : (s.trap cause tval).Canonical := .trapAt h
theorem asTask {k} (h : s.Canonical) : (s.asTask k).Canonical := h

theorem issue {srcs k} (h : s.Canonical) (hk : ∀ t, t.Canonical → (k t).Canonical) : (s.issue srcs k).Canonical := by
  unfold State.issue
  split
  · exact .trap h
  · exact .block h
  · exact hk _ (.updMe h)

theorem privileged {k} (h : s.Canonical) (hk : ∀ t, t.Canonical → (k t).Canonical) : (s.privileged k).Canonical :=
  .ite (hk _ h) (.trap h)
theorem next (h : s.Canonical) : s.next.Canonical := .updMe h
theorem retG {r v} (h : s.Canonical) : (s.retG r v).Canonical := .updMe h

theorem tret (h : s.Canonical) : s.tret.Canonical := by
  unfold State.tret
  extract_lets k f ts freed back r ts1 ts2 ts3 ts4 s1 s2 fits s3
  have hfreed : (freed s).Canonical := by
    unfold freed
    split
    · exact .setCore h
    · exact h
  have h1 : s1.Canonical := .ite (.ite (.setFwd hfreed) (.dropFwd hfreed)) hfreed
  have h2 : s2.Canonical := .ite (.flushL1 (.makeRoom h1)) h1
  exact .ite (.endLease (.updMe h2)) (.updMe h2)

/-! ### Device memory writes and translation (Machine/Xlate.lean) -/

theorem devWrite {t : State} {tag pa bs} (h : s.Canonical) (e : s.devWrite tag pa bs = some t) : t.Canonical := by
  have old {lo hi} : Mem.wf none (match s.ownerCheck tag (s.lineOwner pa) with
      | .served => s.mem.dev
      | _ => Tab.clear s.mem.dev lo hi) = true := by
    split
    · exact h.dev
    · exact Mem.wf_clear _ _ h.dev
  unfold State.devWrite at e
  dsimp only at e
  split at e
  · cases e; exact h
  · split at e
    · cases e
    · cases e
      exact .of_parts (Mem.wf_puts _ _ old) h.bank h.sram h.arena h.host

theorem devWrites {tag n pa bs} (h : s.Canonical) : (s.devWrites tag n pa bs).1.Canonical := by
  induction n generalizing s pa bs with
  | zero => exact h
  | succ n ih =>
    unfold State.devWrites
    split
    · exact h
    · dsimp only
      split
      · exact ih (.devWrite h ‹_›)
      · exact ih h

theorem portPut {port a bs} (h : s.Canonical) : (s.portPut port a bs).Canonical :=
  .of_parts h.dev h.bank h.sram h.arena (Mem.wf_puts _ _ h.host)
theorem hostPut {a bs} (h : s.Canonical) : (s.hostPut a bs).Canonical := .portPut h
theorem tlbFill {levels job va leaf lg} (h : s.Canonical) : (s.tlbFill levels job va leaf lg).Canonical := h

theorem translate {levels job svc acc va} (h : s.Canonical) : (s.translate levels job svc acc va).1.Canonical := by
  unfold State.translate
  split
  · exact .fresh (.tlbFill h)
  · split
    · exact h
    · exact .fresh (.tlbFill h)

theorem parkXlate {who kind tile core job va level svc} (h : s.Canonical) :
    (s.parkXlate who kind tile core job va level svc).Canonical := h
theorem parkOwn {who tile job va svc} (h : s.Canonical) : (s.parkOwn who tile job va svc).Canonical := h
theorem parkMe {own} (h : s.Canonical) : (s.parkMe own).Canonical := .updMe h
theorem taskParkXlate {kind va level} (h : s.Canonical) : (s.taskParkXlate kind va level).Canonical := .parkMe (.parkXlate h)
theorem taskParkOwn {va} (h : s.Canonical) : (s.taskParkOwn va).Canonical := .parkMe (.parkOwn h)

theorem target {va align u} (h : s.Canonical) : (s.target va align u).1.Canonical := by
  unfold State.target
  refine .ite_fst h (.ite_fst h (.ite_fst ?_ ?_))
  · split <;> exact h
  · split <;> exact .of_fst ‹_› (.translate h)

theorem access {va align u k} (h : s.Canonical) (hk : ∀ t x, t.Canonical → (k t x).Canonical) :
    (s.access va align u k).Canonical := by
  unfold State.access
  split
  · exact .trap (.of_fst ‹_› (.target h))
  · exact .taskParkXlate (.of_fst ‹_› (.target h))
  · exact .taskParkOwn (.of_fst ‹_› (.target h))
  · exact hk _ _ (.of_fst ‹_› (.target h))

/-! ### Scalar forms (Machine/Operands.lean) -/

theorem alu {op d a b ka kb} (h : s.Canonical) : (s.alu op d a b ka kb).Canonical := .issue h fun _ ht => .retG ht
theorem alu1 {op d a ka} (h : s.Canonical) : (s.alu1 op d a ka).Canonical := .issue h fun _ ht => .retG ht
theorem movIf {c d a b ka kb} (h : s.Canonical) : (s.movIf c d a b ka kb).Canonical :=
  .issue h fun _ ht => .ite (.retG ht) (.next ht)
theorem branch {taken a b o} (h : s.Canonical) : (s.branch taken a b o).Canonical :=
  .issue h fun _ ht => .ite (.updMe ht) (.next ht)

/-! ### Journal entries and cached lines (Machine/Net.lean) -/

theorem dropMsg {n} (h : s.Canonical) : (s.dropMsg n).Canonical := h
theorem swapMsg {n m} (h : s.Canonical) : (s.swapMsg n m).Canonical := h
theorem setJournal {c e x} (h : s.Canonical) : (s.setJournal c e x).Canonical := .setCore h
theorem enter {e kind dest copies write} (h : s.Canonical) : (s.enter e kind dest copies write).Canonical := .setJournal h

theorem enterCtr {e ctr} (h : s.Canonical) : (s.enterCtr e ctr).Canonical := by
  unfold State.enterCtr
  split
  · exact .setJournal h
  · exact h

theorem withEntry {k} (h : s.Canonical) (hk : ∀ t x, t.Canonical → (k t x).Canonical) : (s.withEntry k).Canonical := by
  unfold State.withEntry
  split
  · exact .block h
  · exact hk _ _ h

theorem patchL1 {c pa bs} (h : s.Canonical) : (s.patchL1 c pa bs).Canonical := by
  unfold State.patchL1
  split <;> exact h

theorem patchWay {t pa bs} (h : s.Canonical) : (s.patchWay t pa bs).Canonical := by
  unfold State.patchWay
  split <;> exact h

theorem patchCopies {pa bs} (h : s.Canonical) : (s.patchCopies pa bs).Canonical := h
theorem dropCopies {line} (h : s.Canonical) : (s.dropCopies line).Canonical := h
theorem dropL1 {c pa} (h : s.Canonical) : (s.dropL1 c pa).Canonical := h
theorem flushWay {t} (h : s.Canonical) : (s.flushWay t).Canonical := h

theorem acquireAt {c sc} (h : s.Canonical) : (s.acquireAt c sc).Canonical := by
  unfold State.acquireAt
  split
  · exact .flushL1 h
  · exact .flushWay (.flushL1 h)

theorem fillL1 {c pa l} (h : s.Canonical) : (s.fillL1 c pa l).Canonical := .ite h h
theorem fillWay {t pa l} (h : s.Canonical) : (s.fillWay t pa l).Canonical := .ite h h
theorem renew {c pa} (h : s.Canonical) : (s.renew c pa).Canonical := .ite (.fillWay (.ite (.fillL1 h) h)) (.ite (.fillL1 h) h)

/-! ### Retirement and residency (Machine/Frames.lean) -/

theorem freeRefused {id} (h : s.Canonical) : (s.freeRefused id).Canonical := h

theorem retire (h : s.Canonical) : s.retire.Canonical := by
  unfold State.retire
  extract_lets k f o t s1 s2 s3 s4 s5
  have h3 : s3.Canonical := .endLease (.leaves (.withdraw (.endFollow (.trace h))))
  have h4 : s4.Canonical := .freeRefused (.setArray h3)
  have freed {g} : (s4.setFrame k g).Canonical := .setFrame h4
  exact .ite (.send (.setFrame (.ite (.send freed) freed))) (.ite (.send freed) freed)

theorem loadSlot {k} (h : s.Canonical) : (s.loadSlot k).Canonical := .setFrame h

theorem residency {c} (h : s.Canonical) : (s.residency c).Canonical := by
  unfold State.residency
  split
  · exact h
  · refine .ite (.loadSlot h) ?_
    split
    · exact h
    · exact .loadSlot (.setFrame (.evict h))

theorem migrateStart {c v} (h : s.Canonical) : (s.migrateStart c v).Canonical := by
  unfold State.migrateStart
  refine .ite h ?_
  split
  · exact .setCore h
  · exact .setFrame (.setFrame (.endLease (.leaves (.withdraw (.endFollow (.setCore h))))))

theorem noticeAt {o gen} (h : s.Canonical) : (s.noticeAt o gen).Canonical := .ite (.setFrame (.dropFwd h)) h

/-! ### The record of writes (Machine/Order.lean) -/

theorem recorded {t w atom p bs} (h : t.Canonical) : (s.recorded t w atom p bs).Canonical := h
theorem newWrite (h : s.Canonical) : s.newWrite.1.Canonical := .updMe h
theorem look {who known p bs} (h : s.Canonical) : (s.look who known p bs).1.Canonical := h

theorem lookGot {who known p g} (h : s.Canonical) : (s.lookGot who known p g).1.Canonical := by
  unfold State.lookGot
  split
  · exact .look h
  · exact h

theorem sawLast {who p n} (h : s.Canonical) : (s.sawLast who p n).Canonical := h
theorem dropReleases {p} (h : s.Canonical) : (s.dropReleases p).Canonical := h

theorem releases {p r} (h : s.Canonical) : (s.releases p r).Canonical := by
  unfold State.releases
  split <;> exact h

/-! ### Loads, stores, landings and fences (Machine/MemOps.lean) -/

theorem bankPut {t off bs} (h : s.Canonical) : (s.bankPut t off bs).Canonical :=
  .of_parts h.dev (Mem.wf_puts _ _ h.bank) h.sram h.arena h.host
theorem sramPut {c off bs} (h : s.Canonical) : (s.sramPut c off bs).Canonical :=
  .of_parts h.dev h.bank (Mem.wf_puts _ _ h.sram) h.arena h.host
theorem bankTouch {t n} (h : s.Canonical) : (s.bankTouch t n).1.Canonical := .ite_fst h (.ite_fst (.setTile h) h)

theorem touch {p} (h : s.Canonical) : (s.touch p).1.Canonical := by
  unfold State.touch
  split
  · exact .bankTouch h
  · exact h

theorem localPut {p bs} (h : s.Canonical) : (s.localPut p bs).Canonical := by
  unfold State.localPut
  split
  · exact .of_bytes (.bankPut h) rfl
  · exact .of_bytes (.sramPut h) rfl
  · exact h

theorem noteCounter {p} (h : s.Canonical) : (s.noteCounter p).Canonical := by
  unfold State.noteCounter
  dsimp only
  split
  · exact .ite h h
  · exact .ite h h
  · exact .ite h h
  · exact h

theorem spoilOne {p} (h : s.Canonical) : (s.spoilOne p).Canonical := by
  unfold State.spoilOne
  split
  · exact .fresh (.patchCopies (.devPuts h))
  · exact .fresh (.bankPut h)
  · exact .of_parts h.dev h.bank h.sram h.arena (Mem.wf_puts _ _ h.host)
  · exact h

theorem spoil {p n} (h : s.Canonical) : (s.spoil p n).Canonical := by
  unfold State.spoil
  split
  · exact .foldl h fun _ _ ht => .fresh (.setFrame ht)
  · exact .foldl h fun _ _ ht => .spoilOne ht

theorem localStore {w p bs} (h : s.Canonical) : (s.localStore w p bs).Canonical := .spoil (.recorded (.localPut h))

theorem whenLocal {p n k} (h : s.Canonical) (hk : ∀ t, t.Canonical → (k t).Canonical) : (s.whenLocal p n k).Canonical := by
  unfold State.whenLocal
  split
  · exact .block (.of_fst ‹_› (.touch h))
  · exact .ite (.block (.of_fst ‹_› (.touch h))) (hk _ (.of_fst ‹_› (.touch h)))

theorem startRead {p n d} (h : s.Canonical) : (s.startRead p n d).Canonical := by
  unfold State.startRead
  extract_lets id job ks x r
  have hr : r.1.Canonical := by
    refine .ite_fst (.lookGot h) ?_
    split
    · exact .look h
    · exact h
  exact .fresh (.send (.updMe hr))

theorem afterAcquire {k} (h : s.Canonical) (hk : ∀ t, t.Canonical → (k t).Canonical) : (s.afterAcquire k).Canonical :=
  .ite (.block h) (hk _ h)
theorem afterFills {p n k} (h : s.Canonical) (hk : ∀ t, t.Canonical → (k t).Canonical) : (s.afterFills p n k).Canonical :=
  .ite (.block h) (hk _ h)

theorem load {size d a ka i} (h : s.Canonical) : (s.load size d a ka i).Canonical :=
  .issue h fun _ ht =>
    .afterAcquire ht fun _ hu =>
      .access hu fun _ _ hv =>
        .afterFills hv fun _ hw => .ite (.whenLocal hw fun _ hx => .next (.startRead hx)) (.next (.startRead hw))

theorem accessStore {va align u k} (h : s.Canonical) (hk : ∀ t x y, t.Canonical → (k t x y).Canonical) :
    (s.accessStore va align u k).Canonical := by
  unfold State.accessStore
  split
  · exact .trap (.of_fst ‹_› (.target h))
  · exact .taskParkXlate (.of_fst ‹_› (.target h))
  · exact hk _ _ _ (.of_fst ‹_› (.target h))
  · exact hk _ _ _ (.of_fst ‹_› (.target h))

theorem post {va parked m} (h : s.Canonical) : (s.post va parked m).Canonical := .ite (.parkOwn h) (.send h)

theorem storeL1 {p bs} (h : s.Canonical) : (s.storeL1 p bs).Canonical := by
  unfold State.storeL1
  split
  · exact .patchL1 h
  · exact h

theorem store {size d a ka i} (h : s.Canonical) : (s.store size d a ka i).Canonical :=
  .issue h fun _ ht =>
    .afterAcquire ht fun _ hu =>
      .accessStore hu fun _ _ _ hv =>
        .ite (.whenLocal hv fun _ hw => .next (.localStore (.newWrite hw)))
          (.withEntry hv fun _ _ hw => .next (.post (.ite (.enter (.newWrite hw)) (.storeL1 (.enter (.newWrite hw))))))

theorem lnd {size whole a b ka kb} (h : s.Canonical) : (s.lnd size whole a b ka kb).Canonical :=
  .issue h fun _ ht =>
    .afterAcquire ht fun _ hu =>
      .ite (.trap hu)
        (.ite (.trap hu)
          (.ite (.trap hu)
            (.access hu fun _ _ hv => .afterFills hv fun _ hw => .withEntry hw fun _ _ hx => .next (.send (.enter hx)))))

theorem rput {whole src vals a ka} (h : s.Canonical) : (s.rput whole src vals a ka).Canonical :=
  .issue h fun _ ht => .ite (.trap ht) (.withEntry ht fun _ _ hu => .next (.send (.enter hu)))

theorem counter {va u} (h : s.Canonical) : (s.counter va u).1.Canonical := by
  unfold State.counter
  refine .ite_fst (.ite_fst h (.ite_fst h h)) (.ite_fst h (.ite_fst h ?_))
  split
  · exact .of_fst ‹_› (.target h)
  · exact .of_fst ‹_› (.target h)
  · exact .ite_fst (.of_fst ‹_› (.target h)) (.of_fst ‹_› (.target h))
  · exact .ite_fst (.of_fst ‹_› (.target h)) (.ite_fst (.of_fst ‹_› (.target h)) (.of_fst ‹_› (.target h)))
  · exact .target h

theorem withCounter {va u k} (h : s.Canonical) (hk : ∀ t x, t.Canonical → (k t x).Canonical) :
    (s.withCounter va u k).Canonical := by
  unfold State.withCounter
  split
  · exact .trap (.of_fst ‹_› (.counter h))
  · exact .taskParkXlate (.of_fst ‹_› (.counter h))
  · exact .taskParkOwn (.of_fst ‹_› (.counter h))
  · exact hk _ _ (.of_fst ‹_› (.counter h))

theorem pst {size d a b ka kb} (h : s.Canonical) : (s.pst size d a b ka kb).Canonical := by
  unfold State.pst
  refine .issue h fun _ ht => .afterAcquire ht fun _ hu => ?_
  extract_lets ea bs B go
  have gone {t p parked c} (ht : t.Canonical) : (go t p parked c).Canonical :=
    .withEntry ht fun _ _ hv =>
      .next (.post (.ite (.enterCtr (.enter (.newWrite hv))) (.storeL1 (.enterCtr (.enter (.newWrite hv))))))
  exact .accessStore hu fun _ _ _ hv => .ite (gone hv) (.withCounter hv fun _ _ hw => gone hw)

theorem targets {u es} (h : s.Canonical) : (s.targets u es).1.Canonical := by
  induction es generalizing s with
  | nil => exact h
  | cons e es ih => exact ih (.target h)

theorem elements {u es loads k} (h : s.Canonical) (hk : ∀ t x, t.Canonical → (k t x).Canonical) :
    (s.elements u es loads k).Canonical := by
  unfold State.elements
  dsimp only
  split
  · exact .trap (.targets h)
  · split
    · exact .taskParkXlate (.targets h)
    · split
      · exact .taskParkOwn (.targets h)
      · exact hk _ _ (.targets h)

theorem whenAllLocal {ps k} (h : s.Canonical) (hk : ∀ t, t.Canonical → (k t).Canonical) : (s.whenAllLocal ps k).Canonical := by
  induction ps generalizing s with
  | nil => exact hk _ h
  | cons p ps ih => exact .ite (.whenLocal h fun _ ht => ih ht) (ih h)

theorem vload {d m addr} (h : s.Canonical) : (s.vload d m addr).Canonical :=
  .elements h fun _ _ ht => .ite (.block ht) (.whenAllLocal ht fun _ hu => .next (.foldl hu fun _ _ hv => .startRead hv))
theorem vld {d b m ka o} (h : s.Canonical) : (s.vld d b m ka o).Canonical :=
  .issue h fun _ ht => .afterAcquire ht fun _ hu => .ite (.trap hu) (.ite (.trap hu) (.vload hu))
theorem vgath {d b m ka o} (h : s.Canonical) : (s.vgath d b m ka o).Canonical :=
  .issue h fun _ ht => .afterAcquire ht fun _ hu => .vload hu

theorem vst {d b m ka o} (h : s.Canonical) : (s.vst d b m ka o).Canonical := by
  unfold State.vst
  refine .issue h fun _ ht => .afterAcquire ht fun _ hu => .ite (.trap hu) (.ite (.trap hu) (.elements hu fun _ _ hv => ?_))
  split
  · exact .next hv
  · exact .ite (.whenAllLocal hv fun _ hw => .next (.foldl (.newWrite hw) fun _ _ hx => .localStore hx))
        (.withEntry hv fun _ _ hw => .next (.foldl (.enter (.newWrite hw)) fun _ _ hx => .post (.ite hx (.storeL1 hx))))

theorem vscat {d b m ka o} (h : s.Canonical) : (s.vscat d b m ka o).Canonical := by
  unfold State.vscat
  refine .issue h fun _ ht => .afterAcquire ht fun _ hu => .elements hu fun _ _ hv => .ite (.block hv) ?_
  refine .whenAllLocal hv fun _ hw => .next (.foldl hw fun _ _ hx => .ite (.localStore (.newWrite hx)) ?_)
  split
  · exact hx
  · exact .post (.ite (.enter (.newWrite hx)) (.storeL1 (.enter (.newWrite hx))))

theorem prefetch {d a ka i} (h : s.Canonical) : (s.prefetch d a ka i).Canonical := by
  unfold State.prefetch
  refine .issue h fun _ ht => .ite (.next ht) ?_
  split
  · exact .ite (.next (.of_fst ‹_› (.translate ht)))
        (.ite (.next (.fresh (.fillL1 (.renew (.of_fst ‹_› (.translate ht))))))
          (.ite (.next (.fresh (.fillWay (.of_fst ‹_› (.translate ht))))) (.next (.of_fst ‹_› (.translate ht)))))
  · exact .next (.of_fst ‹_› (.translate ht))

theorem release {k} (h : s.Canonical) (hk : ∀ t, t.Canonical → (k t).Canonical) : (s.release k).Canonical :=
  .ite (hk _ h) (.block h)
theorem releaseAdd {sc k} (h : s.Canonical) (hk : ∀ t, t.Canonical → (k t).Canonical) : (s.releaseAdd sc k).Canonical :=
  .ite (hk _ h) (.ite (hk _ h) (.block h))

/-! ### Frame images (Machine/Images.lean) -/

theorem imagePut1 {k off b} (h : s.Canonical) : (s.imagePut1 k off b).Canonical := by
  unfold State.imagePut1
  refine .ite (.ite (.of_parts h.dev h.bank h.sram (Mem.wf_put _ _ h.arena) h.host) h) (.ite h ?_)
  split
  · exact .setFrame h
  · exact h

theorem imageBytesPut {k off bs} (h : s.Canonical) : (s.imageBytesPut k off bs).Canonical := by
  induction bs generalizing s off with
  | nil => exact h
  | cons b bs ih => exact ih (.imagePut1 h)

theorem imagePut {k off bs} (h : s.Canonical) : (s.imagePut k off bs).Canonical := .of_bytes (.imageBytesPut h) rfl
theorem loadMarked {k} (h : s.Canonical) : (s.loadMarked k).Canonical := .ite h (.fatalFault (.setFrame h))

/-! ### The tile array (Machine/Array.lean) -/

theorem updArray {t u} (h : s.Canonical) : (s.updArray t u).Canonical := .setArray h
theorem needLease {k} (h : s.Canonical) (hk : ∀ t, t.Canonical → (k t).Canonical) : (s.needLease k).Canonical :=
  .ite (hk _ h) (.ite (.trap (.updMe h)) (.trap h))

theorem grant {t} (h : s.Canonical) : (s.grant t).Canonical := by
  unfold State.grant
  refine .ite h ?_
  split
  · exact h
  · dsimp only
    split
    · exact .setFrame (.setArray h)
    · exact .setArray h

theorem revoke {t} (h : s.Canonical) : (s.revoke t).Canonical := by
  unfold State.revoke
  split
  · exact h
  · exact .setFrame (.setArray h)

theorem watchLeases (h : s.Canonical) : s.watchLeases.Canonical := h
theorem countCmd (h : s.Canonical) : s.countCmd.Canonical := .ite h (.updMe (.updArray h))
theorem enqueue {op k} (h : s.Canonical) (hk : ∀ t, t.Canonical → (k t).Canonical) : (s.enqueue op k).Canonical :=
  .ite (.block (.countCmd h)) (hk _ (.updMe (.updArray (.countCmd h))))
theorem claim {n} (h : s.Canonical) : (s.claim n).Canonical := .updArray h

theorem mmaExecute {t} (h : s.Canonical) : (s.mmaExecute t).Canonical := by
  unfold State.mmaExecute
  dsimp only
  split
  · split
    · exact .setArray h
    · exact h
  · exact h

theorem mma {pr acc lt} (h : s.Canonical) : (s.mma pr acc lt).Canonical :=
  .issue h fun _ ht =>
    .needLease ht fun _ hu =>
      .ite (.trap hu) (.ite (.trap hu) (.ite (.trap hu) (.ite (.trap hu) (.enqueue (.claim hu) fun _ hv => .next hv))))

theorem fillTarget {sideB va align} (h : s.Canonical) : (s.fillTarget sideB va align).1.Canonical := by
  unfold State.fillTarget
  refine .ite_fst h (.ite_fst h (.ite_fst h ?_))
  split
  · exact .ite_fst (.of_fst ‹_› (.target h)) (.of_fst ‹_› (.target h))
  · exact .ite_fst (.of_fst ‹_› (.target h)) (.of_fst ‹_› (.target h))
  · exact .ite_fst (.of_fst ‹_› (.target h)) (.of_fst ‹_› (.target h))
  · exact .of_fst ‹_› (.target h)
  · exact .of_fst ‹_› (.target h)
  · exact .target h

theorem fillTargets {sideB align vas} (h : s.Canonical) : (s.fillTargets sideB align vas).1.Canonical := by
  induction vas generalizing s with
  | nil => exact h
  | cons va vas ih => exact ih (.fillTarget h)

theorem whenFill {ts k} (h : s.Canonical) (hk : ∀ t, t.Canonical → (k t).Canonical) : (s.whenFill ts k).Canonical := by
  unfold State.whenFill
  split
  · exact .trap h
  · split
    · exact .taskParkXlate h
    · exact .taskParkOwn h
    · exact hk _ h

theorem touchAll {ps} (h : s.Canonical) : (s.touchAll ps).1.Canonical := by
  induction ps generalizing s with
  | nil => exact h
  | cons p ps ih =>
    unfold State.touchAll
    split
    · exact .of_fst ‹_› (.touch h)
    · exact ih (.of_fst ‹_› (.touch h))

theorem mld {sideB l a b sc} (h : s.Canonical) : (s.mld sideB l a b sc).Canonical := by
  unfold State.mld
  refine .issue h fun _ ht => .needLease ht fun t hu => .ite (.block hu) ?_
  extract_lets ga lay gs n stride sstride indexed lines r w
  refine .ite (.trap hu) (.ite (.trap hu) ?_)
  have hw : w.1.Canonical := .ite_fst hu (.touchAll hu)
  clear_value w r
  split
  · exact .trap hu
  · refine .ite (.block hw) ?_
    refine .whenFill (.ite_fst (.fillTargets hu) (.fillTargets (.fillTargets hu))) fun _ hv => ?_
    exact .ite (.block hv) (.enqueue hv fun _ hx => .next (.updArray hx))

theorem fillPlace {t job svc va p} (h : s.Canonical) : (s.fillPlace t job svc va p).1.Canonical := by
  unfold State.fillPlace
  split
  · split <;> exact .of_fst ‹_› (.translate h)
  · exact h

theorem fillWord {t w} (h : s.Canonical) : (s.fillWord t w).Canonical := by
  unfold State.fillWord
  split
  · split
    · split
      · extract_lets r enter
        have hr : r.1.Canonical := .fillPlace h
        split
        · exact .updArray hr
        · split
          · exact .of_fst ‹_› (.touch hr)
          next u heq =>
            have hu : u.Canonical := .of_fst heq (.touch hr)
            extract_lets who read got u1 u2
            clear_value read
            have h1 : u1.Canonical := by
              unfold u1
              split
              · exact .look hu
              · exact hu
            have h2 : u2.Canonical := by
              unfold u2
              split
              · exact .renew h1
              · exact h1
            exact .fresh (.updArray h2)
      · exact h
    · exact h
  · exact h

theorem fillOne {t} (h : s.Canonical) : (s.fillOne t).Canonical := by
  unfold State.fillOne
  split
  · exact .fresh (.updArray (.fillWord h))
  · exact h

theorem mdrain {acc a b} (h : s.Canonical) : (s.mdrain acc a b).Canonical :=
  .issue h fun _ ht =>
    .needLease ht fun _ hu =>
      .ite (.trap hu) (.ite (.ite (.trap hu) (.enqueue hu fun _ hv => .next hv)) (.enqueue hu fun _ hv => .next hv))

theorem drainStart {t} (h : s.Canonical) : (s.drainStart t).Canonical := by
  unfold State.drainStart
  dsimp only
  split
  · split
    · exact .sendAll (.setArray h)
    · exact h
  · exact h

theorem mlease {d b} (h : s.Canonical) : (s.mlease d b).Canonical :=
  .issue h fun _ ht =>
    .ite (.retG (.updMe ht))
      (.ite (.retG (.grant (.updArray (.dropLeaseReq (.updMe ht)))))
        (.ite (.retG (.dropLeaseReq (.grant (.updArray (.dropLeaseReq (.updMe ht))))))
          (.block (.grant (.updArray (.dropLeaseReq (.updMe ht)))))))

theorem merr {d b} (h : s.Canonical) : (s.merr d b).Canonical := .issue h fun _ ht => .retG (.ite (.updArray ht) ht)

/-! ### Data atomics (Machine/Atomics.lean) -/

theorem amoFar {posted va id job p dbl op v d r} (h : s.Canonical) : (s.amoFar posted va id job p dbl op v d r).Canonical :=
  .ite (.withEntry h fun _ _ ht => .next (.send (.enter (.newWrite ht)))) (.next (.send (.updMe (.newWrite h))))

theorem amo {dbl op srcs posted v D d a} (h : s.Canonical) : (s.amo dbl op srcs posted v D d a).Canonical := by
  unfold State.amo
  refine .issue h fun _ ht => .afterAcquire ht fun _ hu => .access hu fun _ p hv => .afterFills hv fun t hw => ?_
  extract_lets id job t1
  have h1 : t1.Canonical := by
    unfold t1
    split
    · exact .dropL1 hw
    · exact hw
  split
  · refine .ite (.whenLocal h1 fun u hu => ?_) (.amoFar h1)
    extract_lets old bad w u1 u2 u3
    have h2 : u2.Canonical := .ite (.newWrite hu) (.sawLast (.newWrite hu))
    have h3 : u3.Canonical := by
      unfold u3
      split
      · exact .ite h2 (.recorded (.sramPut h2))
      · exact h2
    exact .ite (.next h3) (.next (.send (.updMe h3)))
  · exact .amoFar h1

/-! ### Counter instructions (Machine/Counters.lean) -/

theorem postedAdd {va p v rel} (h : s.Canonical) : (s.postedAdd va p v rel).Canonical :=
  .withEntry h fun _ _ ht => .next (.send (.enter ht))

theorem counterAdd {u d a b ka kb sc value} (h : s.Canonical) : (s.counterAdd u d a b ka kb sc value).Canonical :=
  .issue h fun _ ht =>
    .afterAcquire ht fun _ hu =>
      .withCounter hu fun _ _ hv => .ite (.trap hv) (.releaseAdd hv fun _ hw => .ite (.next (.send (.updMe hw))) (.postedAdd hw))

theorem cwait {sc d a b ka kb} (h : s.Canonical) : (s.cwait sc d a b ka kb).Canonical :=
  .issue h fun _ ht => .afterAcquire ht fun _ hu => .withCounter hu fun _ _ hv => .block (.send hv)
theorem observe {srcs u kind val d a} (h : s.Canonical) : (s.observe srcs u kind val d a).Canonical :=
  .issue h fun _ ht => .afterAcquire ht fun _ hu => .withCounter hu fun _ _ hv => .next (.send (.updMe hv))

/-! ### Envelopes, handlers and stealing (Machine/Envelopes.lean) -/

theorem setStream {chip x} (h : s.Canonical) : (s.setStream chip x).Canonical := h
theorem toPeer {dest job bulk kind body} (h : s.Canonical) : (s.toPeer dest job bulk kind body).Canonical := h
theorem answer {chip job kind m} (h : s.Canonical) : (s.answer chip job kind m).Canonical := .ite (.send h) (.toPeer h)
theorem releasing {rel k} (h : s.Canonical) (hk : ∀ t, t.Canonical → (k t).Canonical) : (s.releasing rel k).Canonical :=
  .ite (.afterAcquire h fun _ ht => .release ht fun _ hu => hk _ hu) (hk _ h)
theorem transmit {hdr w1 pl rel stamp raw n msgs} (h : s.Canonical) : (s.transmit hdr w1 pl rel stamp raw n msgs).Canonical :=
  .releasing h fun _ ht => .withEntry ht fun _ _ hu => .next (.sendAll (.enter hu))
theorem sendTask {d a b ka kb sc} (h : s.Canonical) : (s.sendTask d a b ka kb sc).Canonical :=
  .issue h fun _ ht => .ite (.trap ht) (.ite (.trap ht) (.transmit ht))
theorem spawnTask {d a b ka kb} (h : s.Canonical) : (s.spawnTask d a b ka kb).Canonical := .issue h fun _ ht => .transmit ht
theorem sendgTask {d a b ka kb sc} (h : s.Canonical) : (s.sendgTask d a b ka kb sc).Canonical :=
  .issue h fun _ ht => .ite (.trap ht) (.transmit ht)

theorem inboxFill {c n} (h : s.Canonical) : (s.inboxFill c n).Canonical := by
  induction n generalizing s with
  | zero => exact h
  | succ n ih =>
    unfold State.inboxFill
    dsimp only
    split
    · exact .ite (ih (.setCore h)) h
    · exact h

theorem spillFill {c n} (h : s.Canonical) : (s.spillFill c n).Canonical := by
  induction n generalizing s with
  | zero => exact h
  | succ n ih =>
    unfold State.spillFill
    dsimp only
    split
    · split
      · exact ih (.setCore h)
      · exact h
    · exact h

theorem refill {c} (h : s.Canonical) : (s.refill c).Canonical := .foldl (.inboxFill h) fun _ _ ht => .spillFill ht

theorem accept {e} (h : s.Canonical) : (s.accept e).1.Canonical := by
  unfold State.accept
  refine .ite_fst h (.ite_fst h (.ite_fst (.ite_fst (.rouse (.setCore h)) h) ?_))
  split
  · exact .setCore h
  · exact .rouse (.setCore h)

theorem failsLate {e cause} (h : s.Canonical) : (s.failsLate e cause).Canonical := by
  unfold State.failsLate
  split
  · exact .answer h
  · exact .answer h
  · exact .updArray h
  · exact .send h
  · exact h

theorem bouncedTo {c e env} (h : s.Canonical) : (s.bouncedTo c e env).Canonical := by
  unfold State.bouncedTo
  split
  · exact .fresh (.setJournal h)
  · exact h

theorem feFree {n} (h : s.Canonical) : (s.feFree n).Canonical := h
theorem bouncedToFront {cmd e} (h : s.Canonical) : (s.bouncedToFront cmd e).Canonical := .ite (.fresh h) (.feFree h)

theorem bounceEnv {e} (h : s.Canonical) : (s.bounceEnv e).Canonical := by
  unfold State.bounceEnv
  refine .ite (.fresh (.send h)) ?_
  split
  · exact .ite (.bouncedTo h) (.toPeer h)
  · exact .ite (.toPeer h) (.bouncedToFront h)
  · exact .fresh (.send h)

theorem tellSender {e kind m} (h : s.Canonical) : (s.tellSender e kind m).Canonical := .answer h

theorem settle {e v} (h : s.Canonical) : (s.settle e v).Canonical := by
  unfold State.settle
  split
  · exact .bounceEnv h
  · refine .ite h ?_
    split
    · exact .tellSender h
    · exact .tellSender h
    · exact h
  · refine .ite (.failsLate h) ?_
    split
    · exact .tellSender h
    · exact .tellSender h
    · exact .failsLate h
  · refine .ite (.failsLate h) ?_
    split
    · exact .tellSender h
    · exact .tellSender h
    · exact .failsLate h
  · split
    · exact .ite h (.tellSender h)
    · exact .ite h (.tellSender h)
    · exact .failsLate h
    · exact .failsLate h
    · exact h

theorem moreCopies {x job n} (h : s.Canonical) : (s.moreCopies x job n).Canonical := by
  unfold State.moreCopies
  split
  · refine .ite ?_ (.toPeer h)
    split
    · exact .setJournal h
    · exact h
  · exact h

theorem replicate {n e} (h : s.Canonical) : (s.replicate n e).Canonical := by
  unfold State.replicate
  split
  · exact h
  · split
    · exact h
    · exact .tellSender (.setGroup (.dropMsg h))
    · dsimp only
      split
      · exact .tellSender h
      · exact .moreCopies h

theorem envArrival {n} (h : s.Canonical) : (s.envArrival n).Canonical := by
  unfold State.envArrival
  split
  · exact .ite h (.ite (.toPeer (.dropMsg h)) (.settle (.accept (.dropMsg h))))
  · exact .ite (.toPeer (.dropMsg h)) (.replicate h)
  · exact h

theorem releaseHeld {c cls pr n} (h : s.Canonical) : (s.releaseHeld c cls pr n).Canonical := by
  induction n generalizing s with
  | zero => exact h
  | succ n ih =>
    unfold State.releaseHeld
    dsimp only
    split
    · exact h
    · exact ih (.setCore (.setCore h))

theorem bindReply {d v} (h : s.Canonical) : (s.bindReply d v).Canonical := .next (.fresh (.send (.updMe h)))

theorem bindWith {d entry cls pr t tm ps} (h : s.Canonical) : (s.bindWith d entry cls pr t tm ps).Canonical := by
  unfold State.bindWith
  dsimp only
  split
  · exact .bindReply h
  · exact .ite (.bindReply h) (.bindReply (.releaseHeld (.setCore h)))

theorem bind {d a b ka kb} (h : s.Canonical) : (s.bind d a b ka kb).Canonical := by
  unfold State.bind
  refine .issue h fun _ ht => .afterAcquire ht fun _ hu => .ite (.bindReply hu) (.access hu fun _ _ hv => ?_)
  split
  · exact .bindReply hv
  · dsimp only
    split
    · exact .trap (.targets hv)
    · exact .taskParkXlate (.targets hv)
    · exact .taskParkOwn (.targets hv)
    · exact .bindWith (.targets hv)

theorem unqueue {c q} (h : s.Canonical) : (s.unqueue c q).Canonical := .setCore h

theorem readPreset {c job va} (h : s.Canonical) : (s.readPreset c job va).1.Canonical := by
  unfold State.readPreset
  refine .ite_fst h ?_
  dsimp only
  split
  · refine .ite_fst h ?_
    split <;> exact .of_fst ‹_› (.translate h)
  · split
    · refine .fresh (.ite_fst h ?_)
      split <;> exact .of_fst ‹_› (.translate h)
    · refine .ite_fst h ?_
      split <;> exact .of_fst ‹_› (.translate h)

theorem readPresets {c job vas} (h : s.Canonical) : (s.readPresets c job vas).1.Canonical := by
  induction vas generalizing s with
  | nil => exact h
  | cons va vas ih =>
    unfold State.readPresets
    split
    · exact .of_fst ‹_› (.readPreset h)
    · split <;> exact .of_fst ‹_› (ih (.of_fst ‹_› (.readPreset h)))

theorem breakpoint {f} (h : s.Canonical) : (s.breakpoint f).Canonical := by
  unfold State.breakpoint
  split
  · exact h
  · exact .ite h (.ite h h)

theorem activateIn {c n q w presets} (h : s.Canonical) : (s.activateIn c n q w presets).Canonical := by
  unfold State.activateIn
  refine .breakpoint (.trace (.refill (.rouse (.unqueue (.setFrame ?_)))))
  dsimp only
  split
  · refine .acquireAt ?_
    split <;> exact h
  · split <;> exact h

theorem activate {c} (h : s.Canonical) : (s.activate c).Canonical := by
  unfold State.activate
  refine .ite h ?_
  split
  · exact h
  · refine .ite (.ite (.refill (.setCore (.unqueue h))) (.failsLate (.refill (.unqueue h)))) ?_
    dsimp only
    split
    · exact h
    · split
      · exact .fresh (.activateIn (.of_fst ‹_› (.readPresets h)))
      · exact .ite (.of_fst ‹_› (.readPresets h)) (.fatalFault (.of_fst ‹_› (.readPresets h)))

theorem stealRequest {c v} (h : s.Canonical) : (s.stealRequest c v).Canonical := by
  unfold State.stealRequest
  dsimp only
  split
  · exact .ite (.send (.setCore h)) h
  · exact h

theorem stealStep {n} (h : s.Canonical) : (s.stealStep n).Canonical := by
  unfold State.stealStep
  split
  · refine .ite (.rouse h) ?_
    split
    · exact .swapMsg (.refill (.unqueue (.rouse h)))
    · exact .swapMsg (.rouse h)
  · exact .setCore (.dropMsg h)
  · exact .setCore (.swapMsg h)
  · exact h

theorem groupLoad {g} (h : s.Canonical) : (s.groupLoad g).Canonical := by
  unfold State.groupLoad
  refine .ite (.setGroup h) ?_
  split
  · exact .setGroup h
  · split
    · exact .setGroup h
    · exact .fresh (.setGroup h)

theorem groupCommit {g} (h : s.Canonical) : (s.groupCommit g).Canonical := .ite (.setGroup h) (.ite (.setGroup h) (.setGroup h))

/-! ### Fetching and follow mode (Machine/Fetch.lean) -/

theorem fillIc {c pa l} (h : s.Canonical) : (s.fillIc c pa l).Canonical := h

theorem fetchDev {va pa} (h : s.Canonical) : (s.fetchDev va pa).1.Canonical := by
  unfold State.fetchDev
  split
  · exact .fresh h
  · split
    · exact h
    · exact .fresh (.fillIc h)

theorem fetchPeer {chip pa} (h : s.Canonical) : (s.fetchPeer chip pa).1.Canonical := by
  unfold State.fetchPeer
  dsimp only
  split
  · exact h
  · exact .updMe h
  · exact .ite_fst h (.send h)

theorem fetchHost {a} (h : s.Canonical) : (s.fetchHost a).1.Canonical := .ite_fst (.fresh h) (.fresh h)

theorem fetchWord {va} (h : s.Canonical) : (s.fetchWord va).1.Canonical := by
  unfold State.fetchWord
  refine .ite_fst h ?_
  split
  · exact .of_fst ‹_› (.translate h)
  · exact .of_fst ‹_› (.translate h)
  · exact .of_fst ‹_› (.translate h)
  · exact .fetchDev (.of_fst ‹_› (.translate h))
  · exact .fetchPeer (.of_fst ‹_› (.translate h))
  · exact .fetchHost (.of_fst ‹_› (.translate h))
  · exact .of_fst ‹_› (.translate h)

theorem capture {n sd sa sb m va ws} (h : s.Canonical) : (s.capture n sd sa sb m va ws).1.Canonical := by
  induction m generalizing s va ws with
  | zero => exact h
  | succ m ih =>
    unfold State.capture
    split
    · exact .ite_fst (ih (.of_fst ‹_› (.fetchWord h))) (.of_fst ‹_› (.fetchWord h))
    · exact .of_fst ‹_› (.fetchWord h)

theorem done {c} (h : s.Canonical) : (Current.done c s).Canonical := by
  unfold Current.done
  split
  · exact h
  · exact h
  · exact .updMe h

theorem ownWord (h : s.Canonical) : s.ownWord.1.Canonical := by
  unfold State.ownWord
  split
  · exact h
  · split
    · exact .done (.of_fst ‹_› (.fetchWord h))
    · exact .of_fst ‹_› (.fetchWord h)

theorem current (h : s.Canonical) : s.current.1.Canonical := by
  unfold State.current
  split
  · exact .ite_fst h (.ownWord (.updMe h))
  · exact .ownWord h

theorem fol {d a b ka kb} (h : s.Canonical) : (s.fol d a b ka kb).Canonical :=
  .issue h fun _ ht => .ite (.updMe (.retG ht)) (.updMe (.setCore (.retG ht)))
theorem streamWord {leader x} (h : s.Canonical) : (s.streamWord leader x).Canonical := h

/-! ### Integer vectors (Machine/Vector.lean) -/

theorem vec2 {op w d a b m ka kb} (h : s.Canonical) : (s.vec2 op w d a b m ka kb).Canonical := .issue h fun _ ht => .updMe ht
theorem vec1 {op w d a m ka} (h : s.Canonical) : (s.vec1 op w d a m ka).Canonical := .issue h fun _ ht => .updMe ht
theorem vcmp {op w d a b m ka kb} (h : s.Canonical) : (s.vcmp op w d a b m ka kb).Canonical := .issue h fun _ ht => .updMe ht
theorem vperm {w d a b m ka kb} (h : s.Canonical) : (s.vperm w d a b m ka kb).Canonical := .issue h fun _ ht => .updMe ht
theorem vslide {w d a b m ka kb} (h : s.Canonical) : (s.vslide w d a b m ka kb).Canonical := .issue h fun _ ht => .updMe ht
theorem vmerge {d a b m ka kb} (h : s.Canonical) : (s.vmerge d a b m ka kb).Canonical := .issue h fun _ ht => .updMe ht
theorem mop2 {op d a b ka kb} (h : s.Canonical) : (s.mop2 op d a b ka kb).Canonical := .issue h fun _ ht => .updMe ht
theorem mop1 {op d a ka} (h : s.Canonical) : (s.mop1 op d a ka).Canonical := .issue h fun _ ht => .updMe ht
theorem reduce {w levels combine empty d a m q ka} (h : s.Canonical) : (s.reduce w levels combine empty d a m q ka).Canonical :=
  .issue h fun _ ht => .updMe ht

/-! ### Copy engines (Machine/Engines.lean) -/

theorem updCmd {w u} (h : s.Canonical) : (s.updCmd w u).Canonical := .setEngine h
theorem enterCmd {d form w0 w1 w2 w3 w4 ctr p ver members} (h : s.Canonical) :
    (s.enterCmd d form w0 w1 w2 w3 w4 ctr p ver members).Canonical := .ite (.block h) (.retG (.setEngine (.setCore h)))

theorem engineCmd {form d a b ka kb} (h : s.Canonical) : (s.engineCmd form d a b ka kb).Canonical := by
  unfold State.engineCmd
  refine .issue h fun _ ht => .afterAcquire ht fun _ hu => ?_
  dsimp only
  split
  · exact .trap hu
  · refine .ite ?_ (.withCounter hu fun _ _ hv => ?_)
    · split
      · exact .trap hu
      · exact .releaseAdd hu fun _ hv => .enterCmd hv
    · split
      · exact .trap hv
      · exact .releaseAdd hv fun _ hw => .enterCmd hw

theorem engCount {c member n segs} (h : s.Canonical) : (s.engCount c member n segs).Canonical := by
  unfold State.engCount
  refine .ite h ?_
  dsimp only
  split
  · exact .updCmd h
  · exact .ite (.ite (.send h) (.toPeer h)) (.send h)

theorem undelivered {c} (h : s.Canonical) : (s.undelivered c).Canonical := .foldl h fun _ _ ht => .engCount ht
theorem engTrap {c cause} (h : s.Canonical) : (s.engTrap c cause).Canonical := .ite (.setFrame h) h

theorem engFail {w cause} (h : s.Canonical) : (s.engFail w cause).Canonical := by
  unfold State.engFail
  split
  · exact h
  · exact .ite (.ite (.undelivered (.updCmd h)) (.engTrap (.undelivered (.updCmd h)))) h

theorem engFails {w cause} (h : s.Canonical) : (s.engFails w cause).Canonical := by
  unfold State.engFails
  split
  · exact .engFail h
  · exact h

theorem engPlace {c write va} (h : s.Canonical) : (s.engPlace c write va).1.Canonical := by
  unfold State.engPlace
  refine .ite_fst h (.ite_fst ?_ ?_)
  · split <;> exact h
  · split <;> exact .of_fst ‹_› (.translate h)

theorem engOpen {p} (h : s.Canonical) : (s.engOpen p).1.Canonical := by
  unfold State.engOpen
  split
  · exact h
  · refine .ite_fst h ?_
    split <;> exact .of_fst ‹_› (.touch h)
  · exact .ite_fst h h
  · exact .ite_fst h h
  · exact h
  · exact h
  · exact h

theorem engRead {c seg p n} (h : s.Canonical) : (s.engRead c seg p n).1.Canonical := by
  unfold State.engRead
  split
  · exact .of_fst ‹_› (.engOpen h)
  · split
    · exact .of_fst ‹_› (.engOpen h)
    · split <;> exact .of_fst ‹_› (.engOpen h)
    · exact .of_fst ‹_› (.engOpen h)
    · exact .of_fst ‹_› (.engOpen h)
    · exact .of_fst ‹_› (.engOpen h)

theorem engGet {c seg va n} (h : s.Canonical) : (s.engGet c seg va n).1.Canonical := by
  unfold State.engGet
  split
  · exact .of_fst ‹_› (.engPlace h)
  · split
    · exact .ite_fst (.fresh (.of_fst ‹_› (.engRead (.of_fst ‹_› (.engPlace h)))))
          (.fresh (.of_fst ‹_› (.engRead (.of_fst ‹_› (.engPlace h)))))
    · exact .engRead (.of_fst ‹_› (.engPlace h))

theorem engGets {c seg n vas} (h : s.Canonical) : (s.engGets c seg n vas).1.Canonical := by
  induction vas generalizing s with
  | nil => exact h
  | cons va vas ih =>
    unfold State.engGets
    split
    · exact .of_fst ‹_› (.engGet h)
    · split <;> exact .of_fst ‹_› (ih (.of_fst ‹_› (.engGet h)))

theorem soil {job p} (h : s.Canonical) : (s.soil job p).Canonical := by
  unfold State.soil
  dsimp only
  split
  · exact .fresh (.sramPut h)
  · exact .fresh (.hostPut h)
  · exact .ite (.fresh (.imagePut h)) h
  · exact .ite (.spoilOne h) h
  · exact .spoilOne h

theorem soilVa {c va} (h : s.Canonical) : (s.soilVa c va).Canonical := by
  unfold State.soilVa
  split
  · exact .soil h
  · exact .soil h
  · exact h

theorem soilTouched {c} (h : s.Canonical) : (s.soilTouched c).Canonical := .foldl h fun _ _ ht => .soilVa ht

theorem touch1 {job tile va wr} (h : s.Canonical) : (s.touch1 job tile va wr).Canonical := by
  unfold State.touch1
  refine .foldl h fun _ _ ht => ?_
  dsimp only
  split
  · exact ht
  · exact .setEngine (.soilVa ht)

theorem settleCmd {w} (h : s.Canonical) : (s.settleCmd w).Canonical := by
  unfold State.settleCmd
  split
  · exact h
  · exact .setEngine (.ite (.soilTouched h) h)

theorem segEnd {w seg cause} (h : s.Canonical) : (s.segEnd w seg cause).Canonical := by
  unfold State.segEnd
  split
  · exact .engFails h
  · exact .ite (.settleCmd (.engFails h)) (.settleCmd (.engFails (.engCount (.updCmd h))))

theorem moveWord {c seg m} (h : s.Canonical) : (s.moveWord c seg m).1.Canonical := by
  unfold State.moveWord
  split
  · exact .of_fst ‹_› (.engGets h)
  · exact .ite_fst (.fresh (.of_fst ‹_› (.engGets h))) (.of_fst ‹_› (.engGets h))

theorem moveWords {c seg ms} (h : s.Canonical) : (s.moveWords c seg ms).1.Canonical := by
  induction ms generalizing s with
  | nil => exact h
  | cons m ms ih =>
    unfold State.moveWords
    split
    · exact .of_fst ‹_› (.moveWord h)
    · split
      · exact .of_fst ‹_› (.engPlace (.of_fst ‹_› (.moveWord h)))
      · split <;> exact .of_fst ‹_› (ih (.of_fst ‹_› (.engPlace (.of_fst ‹_› (.moveWord h)))))

theorem moveBytes {c seg ms} (h : s.Canonical) : (s.moveBytes c seg ms).1.Canonical := by
  induction ms generalizing s with
  | nil => exact h
  | cons m ms ih =>
    unfold State.moveBytes
    split
    · exact .of_fst ‹_› (.engGet h)
    · split
      · exact .of_fst ‹_› (.engPlace (.of_fst ‹_› (.engGet h)))
      · split <;> exact .of_fst ‹_› (ih (.of_fst ‹_› (.engPlace (.of_fst ‹_› (.engGet h)))))

theorem engSet {job p bs} (h : s.Canonical) : (s.engSet job p bs).1.Canonical := by
  unfold State.engSet
  refine .ite_fst h ?_
  split
  · exact .of_fst ‹_› (.engOpen h)
  · split
    · split <;> exact .of_fst ‹_› (.devWrites (.of_fst ‹_› (.engOpen h)))
    · exact .hostPut (.of_fst ‹_› (.engOpen h))
    · exact .imagePut (.of_fst ‹_› (.engOpen h))
    · exact .localPut (.of_fst ‹_› (.engOpen h))

theorem engPut {job p bs} (h : s.Canonical) : (s.engPut job p bs).1.Canonical := by
  unfold State.engPut
  split
  · exact .spoil (.of_fst ‹_› (.engSet h))
  · exact .engSet h

theorem engWrite {w job p bs} (h : s.Canonical) : (s.engWrite w job p bs).1.Canonical := by
  unfold State.engWrite
  split
  · exact .recorded (.of_fst ‹_› (.engPut h))
  · exact .engPut h

theorem engPuts {w job ws} (h : s.Canonical) : (s.engPuts w job ws).1.Canonical := by
  induction ws generalizing s with
  | nil => exact h
  | cons x ws ih =>
    unfold State.engPuts
    split <;> exact ih (.of_fst ‹_› (.engWrite h))

theorem showWrites {t ws} (h : s.Canonical) : (s.showWrites t ws).Canonical := by
  unfold State.showWrites
  refine .foldl h fun _ _ ht => ?_
  split
  · exact .patchWay ht
  · exact ht

theorem engAwake {ws} (h : s.Canonical) : (s.engAwake ws).1.Canonical := by
  induction ws generalizing s with
  | nil => exact h
  | cons x ws ih =>
    unfold State.engAwake
    split
    · exact .of_fst ‹_› (.engOpen h)
    · exact ih (.of_fst ‹_› (.engOpen h))

theorem beginSeg {w seg} (h : s.Canonical) : (s.beginSeg w seg).Canonical := .updCmd h
theorem segFar {c seg bs sc} (h : s.Canonical) : (s.segFar c seg bs sc).Canonical :=
  .updCmd (.fresh (.foldl (.foldl h fun _ _ ht => .beginSeg ht) fun _ _ ht => .toPeer ht))
theorem segHalves {c seg ws sc} (h : s.Canonical) : (s.segHalves c seg ws sc).Canonical :=
  .fresh (.sendAll (.updCmd (.beginSeg h)))

theorem segBytes {c seg} (h : s.Canonical) : (s.segBytes c seg).1.Canonical := by
  unfold State.segBytes
  split
  · exact .of_fst ‹_› (.engGets h)
  · split <;> exact .of_fst ‹_› (.engGets (.of_fst ‹_› (.engGets h)))

theorem markBulk {src seq} (h : s.Canonical) : (s.markBulk src seq).Canonical := .setStream h
theorem settleBulk {src} (h : s.Canonical) : (s.settleBulk src).Canonical := .setStream h
theorem awaitBulk {src seq tiles told} (h : s.Canonical) : (s.awaitBulk src seq tiles told).Canonical := .setStream h
theorem tileDone {src tile seq} (h : s.Canonical) : (s.tileDone src tile seq).Canonical := .settleBulk (.setStream h)
theorem tellBulk {src job seqs m} (h : s.Canonical) : (s.tellBulk src job seqs m).Canonical :=
  .foldl (.toPeer h) fun _ _ ht => .awaitBulk ht

theorem copyRefused {w seg chip tile cause} (h : s.Canonical) : (s.copyRefused w seg chip tile cause).Canonical := by
  unfold State.copyRefused
  split
  · exact h
  · exact .foldl h fun _ _ ht => .segEnd ht

theorem halfEnd {w cause} (h : s.Canonical) : (s.halfEnd w cause).Canonical := by
  unfold State.halfEnd
  split
  · exact .segEnd h
  · refine .foldl ?_ fun _ _ ht => .tileDone ht
    split
    · exact .tellBulk h
    · exact h

theorem pairEnd {w g cause} (h : s.Canonical) : (s.pairEnd w g cause).Canonical := .ite (.halfEnd (.halfEnd h)) (.halfEnd h)

theorem performPair {n job w g} (h : s.Canonical) : (s.performPair n job w g).Canonical := by
  unfold State.performPair
  split
  next t heq => exact .of_fst heq (.engAwake h)
  next t heq =>
    extract_lets x t1
    have h1 : t1.Canonical := .setEngine (.dropMsg (.of_fst heq (.engAwake h)))
    split
    next u hu =>
      have hu : u.Canonical := .of_fst hu (.engPuts h1)
      exact .pairEnd (.ite (.showWrites hu) hu)
    · exact .pairEnd (.of_fst ‹_› (.engPuts h1))
    · exact .pairEnd (.of_fst ‹_› (.engPuts h1))

theorem returnHalf {w} (h : s.Canonical) : (s.returnHalf w).Canonical := by
  unfold State.returnHalf
  split
  · exact .toPeer h
  · exact .setEngine h

theorem halfBack {w seg chip job scale} (h : s.Canonical) : (s.halfBack w seg chip job scale).Canonical := .setEngine h

theorem sendHalf {w} (h : s.Canonical) : (s.sendHalf w).Canonical := by
  unfold State.sendHalf
  split
  · exact .send h
  · exact .setStream h

theorem halfArrives {n} (h : s.Canonical) : (s.halfArrives n).Canonical := by
  unfold State.halfArrives
  split
  · split
    · exact .dropMsg h
    · refine .ite (.halfEnd (.dropMsg h)) ?_
      split
      · exact .halfEnd (.dropMsg h)
      · dsimp only
        split
        · exact .performPair h
        · exact .ite (.setEngine (.dropMsg h)) (.returnHalf (.dropMsg h))
  · exact h

theorem gather {src job t c scale len} (h : s.Canonical) : (s.gather src job t c scale len).Canonical :=
  .ite h (.ite (.halfEnd h) (.send h))
theorem spread {src seq job c} (h : s.Canonical) : (s.spread src seq job c).Canonical := .sendAll h

theorem copyStep {n} (h : s.Canonical) : (s.copyStep n).Canonical := by
  unfold State.copyStep
  split
  · split
    · split
      · exact h
      · exact .tellBulk (.setGroup (.dropMsg h))
      · exact .spread (.settleBulk (.awaitBulk (.dropMsg h)))
    · dsimp only
      split
      · exact .gather h
      · split
        · exact .tileDone (.tellBulk (.dropMsg h))
        · split
          · exact .tileDone (.dropMsg (.of_fst ‹_› (.engWrite h)))
          · exact .of_fst ‹_› (.engWrite h)
          · exact .tileDone (.tellBulk (.dropMsg (.of_fst ‹_› (.engWrite h))))
  · exact h

theorem engCancel {job w} (h : s.Canonical) : (s.engCancel job w).Canonical := by
  unfold State.engCancel
  split
  · exact h
  · exact .ite (.settleCmd (.undelivered (.updCmd h))) h

theorem engQuery {cancel d a ka} (h : s.Canonical) : (s.engQuery cancel d a ka).Canonical :=
  .issue h fun _ ht => .afterAcquire ht fun _ hu => .ite (.trap hu) (.next (.send (.updMe hu)))

/-! ### Control registers and replay (Machine/System.lean) -/

theorem lsplitWrite {c v} (h : s.Canonical) : (s.lsplitWrite c v).Canonical :=
  .ite h (.fresh (.setCore (.of_parts h.dev h.bank (Mem.wf_clear _ _ h.sram) h.arena h.host)))
theorem vgrpWrite {t v} (h : s.Canonical) : (s.vgrpWrite t v).Canonical := .setTile h
theorem bankClear {t n} (h : s.Canonical) : (s.bankClear t n).Canonical :=
  .of_parts h.dev (Mem.wf_clear _ _ h.bank) h.sram h.arena h.host
theorem wayLost {t} (h : s.Canonical) : (s.wayLost t).Canonical := .ite (.fresh h) (.flushWay h)
theorem bankWrite {t v n} (h : s.Canonical) : (s.bankWrite t v n).Canonical :=
  .ite h (.ite (.setTile h) (.ite (.wayLost (.bankClear (.setTile h))) (.setTile h)))
theorem tsctlWrite {t v} (h : s.Canonical) : (s.tsctlWrite t v).Canonical := .foldl (.setTile h) fun _ _ ht => .bankWrite ht

theorem csrWrite {c v} (h : s.Canonical) : (s.csrWrite c v).Canonical := by
  unfold State.csrWrite
  split
  · exact .updMe h
  · exact .updMe h
  · exact .updMe h
  · exact .lsplitWrite h
  · exact .vgrpWrite h
  · exact .updMe h
  · exact .updMe h
  · exact .updMe h
  · exact h
  · exact h
  · exact h
  · exact h
  · exact .setCore h

theorem csrRead {d c} (h : s.Canonical) : (s.csrRead d c).Canonical := .issue h fun _ ht => .retG ht
theorem csrOp {op d a ka c} (h : s.Canonical) : (s.csrOp op d a ka c).Canonical :=
  .issue h fun _ ht => .ite (.trap ht) (.retG (.csrWrite ht))
theorem fbclr {d v} (h : s.Canonical) : (s.fbclr d v).Canonical := .setDie h
theorem pagerNotify {d} (h : s.Canonical) : (s.pagerNotify d).Canonical := .ite (.send (.setDie h)) h
theorem invalidate {i} (h : s.Canonical) : (s.invalidate i).Canonical := h

theorem tlbinv {i} (h : s.Canonical) : (s.tlbinv i).Canonical :=
  .ite (.ite (.block h) (.next h))
    (.release h fun _ ht => .ite (.block (.send (.invalidate ht))) (.next (.of_mem (.invalidate ht) rfl)))

theorem replayStore {p m} (h : s.Canonical) : (s.replayStore p m).Canonical := by
  unfold State.replayStore
  split
  · dsimp only
    split
    · exact .send (.of_fst ‹_› (.translate h))
    · exact .parkOwn (.of_fst ‹_› (.translate h))
    · exact .parkXlate (.of_fst ‹_› (.translate h))
    · exact .answer (.of_fst ‹_› (.translate h))
  · exact .send h

theorem replay {d} (h : s.Canonical) : (s.replay d).Canonical := by
  unfold State.replay
  refine .foldl (.setDie h) fun _ _ ht => ?_
  split
  · exact .ite (.setFrame ht) ht
  · exact .replayStore ht
  · exact .updCmd ht

/-! ### Eyepiece, trace and debug stop (Machine/Debug.lean) -/

theorem setDbg {d} (h : s.Canonical) : (s.setDbg d).Canonical := h

theorem writeRec {r} (h : s.Canonical) : (s.writeRec r).Canonical := by
  unfold State.writeRec
  refine .ite (.setDbg (.setDbg h)) ?_
  dsimp only
  split
  · exact .setDbg h
  · split
    · exact .setDbg (.devWrite h ‹_›)
    · exact .setDbg h

theorem writeNext (h : s.Canonical) : s.writeNext.Canonical := by
  unfold State.writeNext
  split
  · exact h
  · exact .writeRec (.setDbg h)

theorem traceOff (h : s.Canonical) : s.traceOff.Canonical := .ite (.setDbg (.foldl h fun _ _ ht => .writeNext ht)) h
theorem traceForce (h : s.Canonical) : s.traceForce.Canonical := .ite (.setDbg h) h
theorem traceOn (h : s.Canonical) : s.traceOn.Canonical := .ite h (.ite (.setDbg h) (.fresh (.setDbg h)))

theorem trctlWrite {v} (h : s.Canonical) : (s.trctlWrite v).Canonical := by
  unfold State.trctlWrite
  extract_lets dbg s1 dbg1 s2
  have h2 : s2.Canonical := .setDbg (.setDbg h)
  exact .ite (.traceForce h2) (.ite (.traceOn h2) (.ite (.traceOff h2) h2))

theorem sample (h : s.Canonical) : s.sample.Canonical := .setDbg (.foldl h fun _ _ ht => .trace ht)
theorem traceSample (h : s.Canonical) : s.traceSample.Canonical := .ite (.sample h) h
theorem catchUp {cycle} (h : s.Canonical) : (s.catchUp cycle).Canonical := .ite (.foldl h fun _ _ ht => .sample ht) h
theorem stopDone {reason} (h : s.Canonical) : (s.stopDone reason).Canonical := .fresh (.record (.setDbg h))
theorem stopGo (h : s.Canonical) : s.stopGo.Canonical := .ite (.setDbg h) h
theorem stopRes (h : s.Canonical) : s.stopRes.Canonical := .ite (.setDbg h) h
theorem stopForce (h : s.Canonical) : s.stopForce.Canonical := .ite (.stopDone (.foldl h fun _ _ ht => .evict ht)) h

theorem eystopWrite {v} (h : s.Canonical) : (s.eystopWrite v).Canonical := by
  unfold State.eystopWrite
  extract_lets s1 s2
  have h1 : s1.Canonical := .ite (.stopGo h) h
  have h2 : s2.Canonical := .ite (.stopForce h1) h1
  exact .ite (.stopRes h2) h2

theorem eyClose (h : s.Canonical) : s.eyClose.Canonical := .ite (.setDbg (.traceOff (.stopRes h))) h
theorem eyOpen {j} (h : s.Canonical) : (s.eyOpen j).Canonical := h

theorem eyctlWrite {v} (h : s.Canonical) : (s.eyctlWrite v).Canonical := by
  unfold State.eyctlWrite
  extract_lets j dbg s1 closed
  have h1 : s1.Canonical := .ite (.setDbg h) h
  have h2 : closed.Canonical := .eyClose h1
  exact .ite (.setDbg h2) (.ite h1 (.ite (.eyOpen h2) (.setDbg h2)))

theorem chronograph {r} (h : s.Canonical) : (s.chronograph r).Canonical := .ite (.record (.setDbg h)) (.setDbg h)

/-! ### Throttling, power-on and scrubbing (Machine/Power.lean) -/

theorem throttle {p cause new} (h : s.Canonical) : (s.throttle p cause new).Canonical := by
  unfold State.throttle
  dsimp only
  split
  · exact h
  · exact .ite h (.fresh (.of_mem (.chronograph h) rfl))

theorem deviceFatal {reason} (h : s.Canonical) : (s.deviceFatal reason).Canonical := .ite h h
theorem powerOn {stages fuses} (h : s.Canonical) : (s.powerOn stages fuses).Canonical :=
  .of_parts reset.dev reset.bank reset.sram reset.arena h.host

theorem markLine {p} (h : s.Canonical) : (s.markLine p).Canonical := by
  unfold State.markLine
  dsimp only
  split
  · exact .ite (.deviceFatal h) (.ite (.dropCopies h) h)
  · exact h
  · exact h
  · exact h
  · exact .updArray h
  · exact h

/-! ### The Orrery ports (Machine/Fabric.lean) -/

theorem setPort {p x} (h : s.Canonical) : (s.setPort p x).Canonical := h
theorem returnPackets {ps} (h : s.Canonical) : (s.returnPackets ps).Canonical :=
  .foldl h fun _ _ ht => .ite (.ite (.setStream ht) ht) ht

theorem endCircuit {p final} (h : s.Canonical) : (s.endCircuit p final).Canonical := by
  unfold State.endCircuit
  refine .setPort ?_
  split
  · exact .returnPackets h
  · exact h

theorem mismatch {p} (h : s.Canonical) : (s.mismatch p).Canonical := .ite (.fresh h) (.setPort h)

theorem decide_ {p t w} (h : s.Canonical) : (s.decide_ p t w).Canonical := by
  unfold State.decide_
  split
  · exact .mismatch h
  · exact .ite (.setPort (.setPort h)) (.mismatch (.setPort h))

theorem guard {p copies} (h : s.Canonical) : (s.guard p copies).Canonical := by
  unfold State.guard
  extract_lets now fab s1 s2 t e port s3 port1 s4
  have h3 : s3.Canonical := .setPort (.endCircuit h)
  have h4 : s4.Canonical := .setPort h3
  exact .ite h (.ite h3 (.ite h4 (.decide_ (.setPort h4))))

theorem transmitOn {p c k} (h : s.Canonical) : (s.transmitOn p c k).Canonical := by
  unfold State.transmitOn
  refine .ite ?_ (.setPort ?_)
  · split <;> exact h
  · split
    · exact h
    · exact .setStream h
    · exact .setStream h

theorem sendSome {p f n} (h : s.Canonical) : (s.sendSome p f n).Canonical := by
  induction n generalizing s with
  | zero => exact h
  | succ n ih =>
    unfold State.sendSome
    split
    · exact h
    · refine .ite h ?_
      split
      · exact ih (.transmitOn h)
      · exact h

theorem sendAcks {p} (h : s.Canonical) : (s.sendAcks p).Canonical := by
  unfold State.sendAcks
  refine .foldl h fun _ _ ht => ?_
  dsimp only
  split
  · exact .ite (.setPort (.setStream ht)) ht
  · exact ht

theorem round {p} (h : s.Canonical) : (s.round p).Canonical := .foldl h fun _ _ ht => .sendSome ht

theorem rounds {p n} (h : s.Canonical) : (s.rounds p n).Canonical := by
  induction n generalizing s with
  | zero => exact h
  | succ n ih =>
    unfold State.rounds
    exact ih (.round h)

theorem goBack {p} (h : s.Canonical) : (s.goBack p).Canonical := by
  unfold State.goBack
  split
  · exact .ite (.fresh (.setPort h)) h
  · exact h

theorem dwell {p} (h : s.Canonical) : (s.dwell p).Canonical := by
  unfold State.dwell
  split
  · exact h
  · exact .ite (.sendSome (.rounds (.sendSome (.sendAcks (.goBack h))))) h

theorem forward {p} (h : s.Canonical) : (s.forward p).Canonical := by
  unfold State.forward
  split
  · exact h
  · split
    · exact .ite (.transmitOn h) h
    · exact h

theorem linkRefused {p lseq} (h : s.Canonical) : (s.linkRefused p lseq).Canonical := by
  unfold State.linkRefused
  split
  · exact h
  · split
    · exact h
    · exact .ite (.returnPackets (.setPort h)) (.setStream (.setPort h))

theorem deliver {m} (h : s.Canonical) : (s.deliver m).Canonical := by
  unfold State.deliver
  split
  · split
    · exact .updCmd h
    · exact h
  · split
    · exact .bouncedTo h
    · exact .bouncedToFront h
    · exact h
  · exact .moreCopies h
  · exact .updCmd h
  · exact .copyRefused h
  · exact .halfBack h
  · exact h
  · exact .send h

theorem relayTake {q} (h : s.Canonical) : (s.relayTake q).Canonical := .fresh h
theorem keyFailed {p j} (h : s.Canonical) : (s.keyFailed p j).Canonical := h
theorem dropPackets {j} (h : s.Canonical) : (s.dropPackets j).Canonical := h

theorem laneLoss {p lane} (h : s.Canonical) : (s.laneLoss p lane).Canonical := by
  unfold State.laneLoss
  refine .ite ?_ (.ite h (.mismatch (.setPort (.endCircuit h))))
  split
  · exact h
  · exact .ite (.ite (.setPort (.endCircuit h)) (.setPort (.endCircuit h))) h

theorem reenable {p} (h : s.Canonical) : (s.reenable p).Canonical := .ite h (.setPort h)

/-! ### Suspending and removing a job (Machine/Removal.lean) -/

theorem setHo {job base len b} (h : s.Canonical) : (s.setHo job base len b).Canonical := by
  unfold State.setHo
  refine .foldl h fun _ _ ht => .invalidate ?_
  split
  · exact .getD (fun _ hu => .devWrite ht hu) ht
  · exact ht

theorem suspendStep {j} (h : s.Canonical) : (s.suspendStep j).Canonical := by
  unfold State.suspendStep
  extract_lets job s1 s2 s3
  have h2 : s2.Canonical := .foldl (.setJob h) fun _ _ ht => .endLease ht
  have h3 : s3.Canonical := .foldl h2 fun _ _ ht => .ite (.evict ht) ht
  exact .ite (.ite h3 (.setJob h3)) h

theorem resumeAging {j} (h : s.Canonical) : (s.resumeAging j).Canonical := h
theorem resumeJob {j} (h : s.Canonical) : (s.resumeJob j).Canonical := .ite (.setJob (.resumeAging h)) h
theorem removeCommands {j} (h : s.Canonical) : (s.removeCommands j).Canonical := h

theorem settleEntry {c e n} (h : s.Canonical) : (s.settleEntry c e n).Canonical := by
  unfold State.settleEntry
  split
  · exact .setJournal h
  · exact h

theorem discarded {x} (h : s.Canonical) : (s.discarded x).Canonical := by
  unfold State.discarded
  split
  · exact .ite (.settleEntry h) h
  · exact .ite (.feFree h) h
  · exact h

theorem removeEnvelopes {j} (h : s.Canonical) : (s.removeEnvelopes j).Canonical := by
  unfold State.removeEnvelopes
  extract_lets s1 net cores s2
  have h1 : s1.Canonical := by
    refine .foldl h fun _ _ ht => ?_
    split
    · exact .ite (.discarded ht) ht
    · exact .ite (.discarded ht) ht
    · exact .ite (.discarded ht) ht
    · exact ht
  have h2 : s2.Canonical := .foldl (.of_mem h1 rfl) fun _ _ ht => .refill ht
  exact .foldl h2 fun _ _ ht => .foldl ht fun _ _ hu => .ite (.settleEntry (.setJournal hu)) hu

theorem removeParks {j} (h : s.Canonical) : (s.removeParks j).Canonical := by
  unfold State.removeParks
  refine .of_mem (.foldl h fun _ _ ht => .ite ?_ ht) rfl
  split
  · exact .discarded ht
  · exact ht

theorem failEntries {j} (h : s.Canonical) : (s.failEntries j).Canonical := h

theorem removeFrames {j} (h : s.Canonical) : (s.removeFrames j).Canonical := by
  unfold State.removeFrames
  extract_lets ks s1 s2
  have h1 : s1.Canonical := .foldl h fun _ _ ht => .endLease (.withdraw (.endFollow ht))
  have h2 : s2.Canonical := .foldl h1 fun _ _ ht => .setFrame (.ite (.leaves (.sendAll ht)) (.sendAll ht))
  exact .foldl (.failEntries h2) fun _ _ ht => .ite (.setCore (.sendAll ht)) ht

theorem removeTasks {j} (h : s.Canonical) : (s.removeTasks j).Canonical := .removeFrames (.removeParks (.removeEnvelopes h))
theorem releaseCores {j} (h : s.Canonical) : (s.releaseCores j).Canonical := h
theorem removeArrays {j} (h : s.Canonical) : (s.removeArrays j).Canonical := .foldl h fun _ _ ht => .updArray ht
theorem freeAccs {j} (h : s.Canonical) : (s.freeAccs j).Canonical := .foldl h fun _ _ ht => .updArray ht

theorem dropHeldCopies {j} (h : s.Canonical) : (s.dropHeldCopies j).Canonical := by
  unfold State.dropHeldCopies
  refine .of_mem (.foldl h fun _ _ ht => ?_) rfl
  split
  · split
    · exact .tileDone ht
    · exact .settleBulk (.awaitBulk ht)
  · exact ht

theorem removeEngines {j} (h : s.Canonical) : (s.removeEngines j).Canonical := by
  unfold State.removeEngines
  extract_lets s1 s2 gone back halves engines s3 parked s4 s5
  have h2 : s2.Canonical := .foldl (.dropHeldCopies h) fun _ _ ht => .setEngine ht
  have h3 : s3.Canonical := .foldl (.of_mem h2 rfl) fun _ _ ht => .halfEnd ht
  have h5 : s5.Canonical := by
    refine .foldl (.of_mem h3 rfl) fun _ _ ht => ?_
    split
    · exact .segEnd ht
    · exact ht
  exact .foldl h5 fun _ _ ht => .foldl ht fun _ _ hu => .ite (.setEngine hu) hu

theorem removeWaiters {j} (h : s.Canonical) : (s.removeWaiters j).Canonical := h
theorem forgetLines {j} (h : s.Canonical) : (s.forgetLines j).Canonical :=
  .of_parts (Mem.wf_filter _ h.dev) h.bank h.sram h.arena h.host

theorem freeImage {j} (h : s.Canonical) : (s.freeImage j).Canonical := by
  unfold State.freeImage
  extract_lets x s1 s2
  have h1 : s1.Canonical := by
    refine .foldl h fun _ _ ht => ?_
    split
    · exact .getD (fun _ hu => .devWrite ht hu) ht
    · exact ht
  have h2 : s2.Canonical := .ite h1 (.invalidate h1)
  exact .foldl h2 fun _ _ ht => .of_parts (Mem.wf_clear _ _ ht.dev) ht.bank ht.sram ht.arena ht.host

theorem removalEnd {j} (h : s.Canonical) : (s.removalEnd j).Canonical :=
  .of_mem (.foldl (.freeImage h) fun _ _ ht => .ite (.setHo ht) ht) rfl
theorem setPart {j lead p} (h : s.Canonical) : (s.setPart j lead p).Canonical := h
theorem dropPart {j lead} (h : s.Canonical) : (s.dropPart j lead).Canonical := h
theorem loadTell {j ks ms} (h : s.Canonical) : (s.loadTell j ks ms).Canonical :=
  .foldl h fun _ _ ht => .foldl ht fun _ _ hu => .toPeer hu

theorem loadUndo {j lead} (h : s.Canonical) : (s.loadUndo j lead).Canonical := by
  unfold State.loadUndo
  extract_lets s1 job s2
  have h1 : s1.Canonical := .ite h (.releaseCores h)
  have h2 : s2.Canonical := .ite h1 (.setJob (.freeImage (.removeFrames h1)))
  exact .dropPart h2

theorem removeLoads {j} (h : s.Canonical) : (s.removeLoads j).Canonical :=
  .foldl h fun _ _ ht => .loadUndo (.ite (.loadTell ht) ht)
theorem removalStart {j cause} (h : s.Canonical) : (s.removalStart j cause).Canonical :=
  .setJob (.removeLoads (.removeCommands h))

theorem removalAction {j step} (h : s.Canonical) : (s.removalAction j step).Canonical := by
  unfold State.removalAction
  split
  · exact .removeTasks h
  · exact .removeArrays (.releaseCores h)
  · exact .removeEngines (.freeAccs h)
  · exact .removeWaiters h
  · exact h

theorem removalStep {j} (h : s.Canonical) : (s.removalStep j).Canonical :=
  .ite h (.ite (.dropPackets h) (.ite (.ite (.failEntries h) h) (.ite (.removalEnd h) (.removalAction (.setJob h)))))

theorem fatalRemoval {n} (h : s.Canonical) : (s.fatalRemoval n).Canonical := by
  unfold State.fatalRemoval
  split
  · exact .ite (.dropMsg h) (.ite (.removalStep h) (.removalStart h))
  · exact h

/-! ### Register rows (Machine/Rows.lean) -/

theorem statusWrite {c reg v} (h : s.Canonical) : (s.statusWrite c reg v).Canonical := by
  unfold State.statusWrite
  dsimp only
  split
  · exact .setCore h
  · exact .setCore h
  · exact .setCore h
  · exact h

theorem groupWrite {g reg v} (h : s.Canonical) : (s.groupWrite g reg v).Canonical := by
  unfold State.groupWrite
  dsimp only
  split
  · exact .setGroup h
  · exact .setGroup h
  · exact .setGroup h
  · split
    · exact .groupLoad h
    · exact .groupCommit h
    · exact .setGroup h
    · exact h

theorem faultWrite {d off v} (h : s.Canonical) : (s.faultWrite d off v).Canonical :=
  .ite (.setDie h) (.ite (.setDie h) (.ite (.fbclr h) h))

theorem eyeWrite {off v} (h : s.Canonical) : (s.eyeWrite off v).Canonical :=
  .ite (.eyctlWrite h)
    (.ite (.eystopWrite h) (.ite (.setDbg h) (.ite (.trctlWrite h) (.ite (.setDbg h) (.ite (.setDbg h) (.ite (.setDbg h) h))))))

theorem fabWrite {off v} (h : s.Canonical) : (s.fabWrite off v).Canonical :=
  .ite h
    (.ite (.ite (.ite (.reenable h) h) (.setPort h)) (.ite h (.ite h (.ite h (.ite h (.ite h (.ite (.setPort h) (.ite h h))))))))

theorem rowWrite {t off v} (h : s.Canonical) : (s.rowWrite t off v).Canonical :=
  .ite (.statusWrite h)
    (.ite (.groupWrite h)
      (.ite (.tsctlWrite h)
        (.ite h
          (.ite (.faultWrite h)
            (.ite (.setTile h) (.ite (.ite (.migrateStart h) h) (.ite (.eyeWrite h) (.ite (.fabWrite h) h))))))))

/-! ### Messages where they arrive (Machine/Home.lean) -/

theorem acked {x job see} (h : s.Canonical) : (s.acked x job see).Canonical := by
  unfold State.acked
  split
  · exact h
  · exact h
  · exact h
  · exact .answer h

theorem refused {x job reason} (h : s.Canonical) : (s.refused x job reason).Canonical := by
  unfold State.refused
  split
  · exact h
  · exact h
  · exact .answer h

theorem seen {c see} (h : s.Canonical) : (s.seen c see).Canonical := by
  unfold State.seen
  split
  · exact h
  · refine .ite h ?_
    split <;> exact .fresh (.setCore h)

theorem patchOwn {who p bs} (h : s.Canonical) : (s.patchOwn who p bs).Canonical := by
  unfold State.patchOwn
  split
  · exact .ite (.patchWay (.patchL1 h)) h
  · exact h

theorem refreshL1 {c pa l} (h : s.Canonical) : (s.refreshL1 c pa l).Canonical := .ite (.fillL1 h) h

theorem renewFor {who p} (h : s.Canonical) : (s.renewFor who p).Canonical := by
  unfold State.renewFor
  split
  · exact .ite (.renew h) h
  · exact h

theorem unstore {x p} (h : s.Canonical) : (s.unstore x p).Canonical := by
  unfold State.unstore
  split
  · exact .ite (.dropL1 h) h
  · exact h

theorem refreshWay {t pa l} (h : s.Canonical) : (s.refreshWay t pa l).Canonical := .ite (.fillWay h) h

theorem homeOpen {job p} (h : s.Canonical) : (s.homeOpen job p).1.Canonical := by
  unfold State.homeOpen
  refine .ite_fst h ?_
  split
  · exact h
  · exact h
  · exact .engOpen h

theorem setQueue {q x} (h : s.Canonical) : (s.setQueue q x).Canonical := h

theorem homeGet {job p n} (h : s.Canonical) : (s.homeGet job p n).1.Canonical := by
  unfold State.homeGet
  split
  · exact .of_fst ‹_› (.homeOpen h)
  · split
    · split
      · exact .of_fst ‹_› (.homeOpen h)
      · split <;> exact .of_fst ‹_› (.homeOpen h)
    · exact .of_fst ‹_› (.homeOpen h)
    · exact .of_fst ‹_› (.homeOpen h)
    · exact .of_fst ‹_› (.homeOpen h)
    · exact .of_fst ‹_› (.homeOpen h)
    · exact .of_fst ‹_› (.homeOpen h)

theorem homeSet {job p bs} (h : s.Canonical) : (s.homeSet job p bs).1.Canonical := by
  unfold State.homeSet
  split
  · exact .of_fst ‹_› (.homeOpen h)
  · split
    · split
      · exact .ite_fst (.setQueue (.of_fst ‹_› (.homeOpen h))) (.of_fst ‹_› (.homeOpen h))
      · split
        · exact .devWrite (.of_fst ‹_› (.homeOpen h)) ‹_›
        · exact .of_fst ‹_› (.homeOpen h)
    · exact .hostPut (.of_fst ‹_› (.homeOpen h))
    · exact .imagePut (.of_fst ‹_› (.homeOpen h))
    · exact .rowWrite (.of_fst ‹_› (.homeOpen h))
    · exact .ite (.withPwr (.of_fst ‹_› (.homeOpen h))) (.of_fst ‹_› (.homeOpen h))
    · exact .localPut (.of_fst ‹_› (.homeOpen h))

theorem homePut {job p bs} (h : s.Canonical) : (s.homePut job p bs).1.Canonical := by
  unfold State.homePut
  split
  · split
    · split
      · exact .fresh (.setQueue (.of_fst ‹_› (.homeSet h)))
      · exact .spoil (.of_fst ‹_› (.homeSet h))
    · exact .spoil (.of_fst ‹_› (.homeSet h))
  · exact .homeSet h

theorem homeWrite {w atom job p bs} (h : s.Canonical) : (s.homeWrite w atom job p bs).1.Canonical := by
  unfold State.homeWrite
  split
  · exact .recorded (.of_fst ‹_› (.homePut h))
  · exact .homePut h

theorem replyAt {n who job dst v acq see} (h : s.Canonical) : (s.replyAt n who job dst v acq see).Canonical :=
  .ite (.swapMsg h) (.toPeer (.dropMsg h))
theorem departs {n chip job kind m stay} (h : s.Canonical) : (s.departs n chip job kind m stay).Canonical := .toPeer (.swapMsg h)

theorem refill2 {who job p} (h : s.Canonical) : (s.refill2 who job p).Canonical := by
  unfold State.refill2
  split
  · exact .ite (.refreshWay (.refreshL1 h)) h
  · exact h

theorem readView {who dst ks p bs} (h : s.Canonical) : (s.readView who dst ks p bs).1.Canonical := by
  unfold State.readView
  split
  · exact h
  · exact h
  · exact .look h

theorem awaitAdd {x} (h : s.Canonical) : (s.awaitAdd x).Canonical := by
  unfold State.awaitAdd
  split
  · refine .ite ?_ h
    split
    · exact .setJournal h
    · exact h
  · exact h

theorem stored {x who job p size ctr w} (h : s.Canonical) : (s.stored x who job p size ctr w).Canonical := by
  unfold State.stored
  split
  · exact .acked h
  · exact .answer (.awaitAdd h)

theorem unspill {sl n} (h : s.Canonical) : (s.unspill sl n).Canonical := by
  induction n generalizing s with
  | zero => exact h
  | succ n ih =>
    unfold State.unspill
    split
    · exact h
    · exact .ite (ih h) h

theorem tidy {p} (h : s.Canonical) : (s.tidy p).Canonical := by
  unfold State.tidy
  split
  · exact .unspill h
  · exact h

theorem wakeReached {p v} (h : s.Canonical) : (s.wakeReached p v).Canonical := by
  unfold State.wakeReached
  dsimp only
  split
  · exact .ite h (.send (.setTile h))
  · exact .ite (.tidy h) (.send (.tidy (.of_mem (.tidy h) rfl)))

theorem countDead {o} (h : s.Canonical) : (s.countDead o).Canonical := .setCore h
theorem holdAt {o m} (h : s.Canonical) : (s.holdAt o m).Canonical := .setCore h
theorem holdIn {k m} (h : s.Canonical) : (s.holdIn k m).Canonical := .setFrame h

theorem landAt {x who job la vs err} (h : s.Canonical) : (s.landAt x who job la vs err).Canonical := by
  unfold State.landAt
  dsimp only
  split
  · exact .refused (.rouse h)
  · exact .answer (.countDead (.rouse h))
  · exact .holdAt (.rouse h)
  · exact .holdIn (.rouse h)
  · exact .acked (.wakeReached (.setFrame (.rouse h)))

theorem landingArrives {n} (h : s.Canonical) : (s.landingArrives n).Canonical := by
  unfold State.landingArrives
  split
  · exact .ite (.ite (.departs h) (.toPeer (.dropMsg h))) (.landAt (.dropMsg h))
  · exact h

theorem notAway {x} (h : s.Canonical) : (s.notAway x).Canonical := h
theorem endCmd {id status detail} (h : s.Canonical) : (s.endCmd id status detail).Canonical := h

theorem launchDone {id} (h : s.Canonical) : (s.launchDone id).Canonical := by
  unfold State.launchDone
  split
  · refine .ite ?_ h
    split
    · exact .endCmd h
    · exact h
  · exact h

theorem updFe {id u} (h : s.Canonical) : (s.updFe id u).Canonical := h

theorem ackArrives {n} (h : s.Canonical) : (s.ackArrives n).Canonical := by
  unfold State.ackArrives
  split
  · dsimp only
    split
    · exact .settleEntry (.seen (.notAway (.dropMsg h)))
    · exact .launchDone (.feFree (.updFe (.notAway (.dropMsg h))))
    · exact .notAway (.dropMsg h)
  · exact h

theorem pendTrap {who p} (h : s.Canonical) : (s.pendTrap who p).Canonical := .rouse (.setFrame h)

theorem refuseEntry {c e cause reason} (h : s.Canonical) : (s.refuseEntry c e cause reason).Canonical := by
  unfold State.refuseEntry
  split
  · exact h
  · extract_lets core s1 s2
    have h1 : s1.Canonical := .ite (.setCore h) h
    have h2 : s2.Canonical := .settleEntry h1
    exact .ite (.ite (.setJournal h) (.settleEntry h)) (.ite (.ite (.setCore h2) h2) (.pendTrap (.setJournal h1)))

theorem failEntry {c e env cause} (h : s.Canonical) : (s.failEntry c e env cause).Canonical := by
  unfold State.failEntry
  dsimp only
  split
  · exact .pendTrap (.setJournal (.ite (.setCore h) h))
  · exact .setCore (.ite (.setCore h) h)

theorem refusalArrives {n} (h : s.Canonical) : (s.refusalArrives n).Canonical := by
  unfold State.refusalArrives
  split
  · split
    · exact .failEntry (.dropMsg h)
    · exact .endCmd (.dropMsg h)
    · exact .dropMsg h
  · dsimp only
    split
    · exact .refuseEntry (.notAway (.dropMsg h))
    · exact .endCmd (.feFree (.notAway (.dropMsg h)))
    · exact .setDie (.notAway (.dropMsg h))
    · exact .segEnd (.notAway (.dropMsg h))
    · exact .notAway (.dropMsg h)
  · exact h

theorem deadReport {n} (h : s.Canonical) : (s.deadReport n).Canonical := by
  unfold State.deadReport
  split
  · dsimp only
    split
    · split
      · exact .notAway (.dropMsg h)
      · exact .ite (.pendTrap (.settleEntry (.setCore (.notAway (.dropMsg h))))) (.settleEntry (.setCore (.notAway (.dropMsg h))))
    · exact .notAway (.dropMsg h)
  · exact h

theorem counterGet {job p} (h : s.Canonical) : (s.counterGet job p).1.Canonical := by
  unfold State.counterGet
  split
  · exact .noteCounter (.of_fst ‹_› (.homeGet h))
  · exact .of_fst ‹_› (.homeGet h)

theorem counterPut {job p v} (h : s.Canonical) : (s.counterPut job p v).Canonical := by
  unfold State.counterPut
  dsimp only
  split
  · exact .patchCopies (.homeSet h)
  · exact .homeSet h

theorem added {b job old v w} (h : s.Canonical) : (s.added b job old v w).Canonical := by
  unfold State.added
  split
  · exact .acked h
  · exact .acked h
  · exact .answer h
  · exact .ite (.updCmd h) (.toPeer h)
  · exact .answer h

theorem addRefused {b job c w} (h : s.Canonical) : (s.addRefused b job c w).Canonical := by
  unfold State.addRefused
  split
  · exact .refused h
  · exact .refused h
  · exact .answer h
  · exact h
  · exact .answer h

theorem addDead {b job w} (h : s.Canonical) : (s.addDead b job w).Canonical := by
  unfold State.addDead
  split
  · exact .answer h
  · exact .answer h
  · exact .answer h
  · exact .addRefused h

theorem addFrame {b who job la v rel} (h : s.Canonical) : (s.addFrame b who job la v rel).Canonical := by
  unfold State.addFrame
  dsimp only
  split
  · exact .addRefused (.rouse h)
  · exact .addDead (.countDead (.rouse h))
  · exact .holdAt (.rouse h)
  · exact .holdIn (.rouse h)
  · exact .added (.wakeReached (.setFrame (.releases (.rouse h))))

theorem pollInstead {n w job p thr} (h : s.Canonical) : (s.pollInstead n w job p thr).Canonical := by
  unfold State.pollInstead
  split
  · exact .ite (.ite (.setFrame (.dropMsg h)) h) (.swapMsg h)
  · exact .swapMsg h

theorem register {n w job p thr} (h : s.Canonical) : (s.register n w job p thr).Canonical := by
  unfold State.register
  dsimp only
  split
  · exact .ite (.setTile (.dropMsg h)) (.pollInstead h)
  · exact .ite (.of_mem (.tidy h) rfl) (.ite (.of_mem (.tidy h) rfl) (.pollInstead (.tidy h)))
  · exact h

theorem wakeFor {n w job v rels} (h : s.Canonical) : (s.wakeFor n w job v rels).Canonical := .answer (.dropMsg h)
theorem unwait {who p} (h : s.Canonical) : (s.unwait who p).Canonical := h

theorem waitHome {n w job p thr v poll} (h : s.Canonical) : (s.waitHome n w job p thr v poll).Canonical := by
  unfold State.waitHome
  refine .ite (.wakeFor h) ?_
  split
  · exact .register h
  · exact .swapMsg h

theorem wakeNext {n} (h : s.Canonical) : (s.wakeNext n).Canonical := by
  unfold State.wakeNext
  split
  · exact .dropMsg h
  · dsimp only
    split <;> exact .answer (.ite (.dropMsg h) (.swapMsg h))
  · exact h

theorem waitOver {k scope dst v rels} (h : s.Canonical) : (s.waitOver k scope dst v rels).Canonical := by
  unfold State.waitOver
  refine .rouse (.setFrame ?_)
  split
  · exact .acquireAt h
  · exact h

theorem wakeAt {w v rels} (h : s.Canonical) : (s.wakeAt w v rels).Canonical := by
  unfold State.wakeAt
  split
  · split
    · exact .ite (.waitOver h) h
    · exact .holdAt h
    · exact .holdIn h
    · exact h
  · split
    · exact h
    · dsimp only
      split
      · exact .ite (.launchDone (.updFe h)) (.endCmd h)
      · exact .endCmd h

theorem wakeArrives {n} (h : s.Canonical) : (s.wakeArrives n).Canonical := by
  unfold State.wakeArrives
  split
  · exact .wakeAt (.dropMsg h)
  · exact h

theorem fillAt {who dst v acq} (h : s.Canonical) : (s.fillAt who dst v acq).Canonical := by
  unfold State.fillAt
  split
  · refine .rouse (.setFrame ?_)
    split
    · exact .acquireAt h
    · exact h
  · exact .holdAt h
  · exact .holdIn h
  · exact h

theorem replyArrives {n} (h : s.Canonical) : (s.replyArrives n).Canonical := by
  unfold State.replyArrives
  split
  · exact .fillAt (.seen (.dropMsg h))
  · exact h

theorem applyHeld {m} (h : s.Canonical) : (s.applyHeld m).Canonical := by
  unfold State.applyHeld
  split
  · exact .landAt h
  · exact .addFrame h
  · exact .wakeAt h
  · exact .fillAt h
  · exact .send h

theorem releaseTraffic {k} (h : s.Canonical) : (s.releaseTraffic k).Canonical :=
  .foldl (.setFrame h) fun _ _ ht => .applyHeld ht

theorem transferEnd {k} (h : s.Canonical) : (s.transferEnd k).Canonical := by
  unfold State.transferEnd
  dsimp only
  split
  · exact .ite (.loadMarked h) h
  · exact .releaseTraffic (.setFrame (.ite (.loadMarked h) h))

theorem installWaiting (h : s.Canonical) : s.installWaiting.Canonical := .ite (.releaseTraffic (.trapInstall h)) h

theorem migrateCommit {c} (h : s.Canonical) : (s.migrateCommit c).Canonical := by
  unfold State.migrateCommit
  split
  · exact h
  · extract_lets f g moved new s1 s2 s3 x s4 dc s5
    have h2 : s2.Canonical := .ite (.setFrame (.setFrame h)) (.setFrame (.setFrame h))
    have h5 : s5.Canonical := .rouse (.acquireAt (.setCore (.setFwd h2)))
    exact .foldl (.trace h5) fun _ _ ht => .applyHeld ht

/-! ### The front ends and their commands (Machine/FrontEnd.lean) -/

theorem feBad (h : s.Canonical) : s.feBad.Canonical := h
theorem queueWrite {via q k} (h : s.Canonical) (hk : ∀ t, t.Canonical → (k t).Canonical) : (s.queueWrite via q k).Canonical :=
  .ite h (.ite (hk _ h) (.feBad h))
theorem qctl {q v} (h : s.Canonical) : (s.qctl q v).Canonical := .ite (.setQueue h) (.setQueue h)
theorem doorbell {q v} (h : s.Canonical) : (s.doorbell q v).Canonical := .ite (.feBad h) (.wakeReached (.setQueue h))
theorem ringWrite {q u} (h : s.Canonical) : (s.ringWrite q u).Canonical := .ite h (.setQueue h)

theorem controlWrite {via off size v} (h : s.Canonical) : (s.controlWrite via off size v).Canonical := by
  unfold State.controlWrite
  refine .ite h (.ite (.feBad h) (.ite h (.ite (.queueWrite h fun _ ht => ?_) h)))
  split
  · exact .qctl ht
  · exact .ringWrite ht
  · exact .ringWrite ht
  · exact .doorbell ht
  · exact ht

theorem answerHost {v} (h : s.Canonical) : (s.answerHost v).Canonical := h
theorem controlRead {via off size} (h : s.Canonical) : (s.controlRead via off size).Canonical :=
  .ite (.answerHost h) (.ite (.feBad (.answerHost h)) (.ite (.feBad (.answerHost h)) (.answerHost h)))
theorem leaseCas {port c sw} (h : s.Canonical) : (s.leaseCas port c sw).Canonical := .ite (.answerHost h) (.ite h (.answerHost h))
theorem fetchCmd {q} (h : s.Canonical) : (s.fetchCmd q).Canonical := .ite h (.fresh h)

theorem running {id op k} (h : s.Canonical) (hk : ∀ x, (k x).Canonical) : (s.running id op k).Canonical := by
  unfold State.running
  split
  · exact .ite (hk _) h
  · exact h

theorem feCounter {job va} (h : s.Canonical) : (s.feCounter job va).1.Canonical := by
  unfold State.feCounter
  refine .ite_fst h (.ite_fst h (.ite_fst (.ite_fst h ?_) ?_))
  · split <;> exact h
  · split <;> exact .of_fst ‹_› (.translate h)

theorem check116 {c} (h : s.Canonical) : (s.check116 c).1.Canonical := by
  unfold State.check116
  refine .ite_fst h (.ite_fst h (.ite_fst h (.ite_fst h ?_)))
  split
  · exact h
  · split <;> exact .of_fst ‹_› (.feCounter h)

theorem dropRange {job base len} (h : s.Canonical) : (s.dropRange job base len).Canonical := h

theorem startCmd {id} (h : s.Canonical) : (s.startCmd id).Canonical := by
  unfold State.startCmd
  split
  · exact h
  · refine .ite h ?_
    split
    next t st p heq =>
      have ht : t.Canonical := .of_fst heq (.check116 h)
      refine .ite (.updFe ht) (.fresh (.updFe (.foldl ht fun _ _ hu => ?_)))
      split
      · exact .ite (.dropRange hu) hu
      · exact hu

theorem askCounter {id m} (h : s.Canonical) : (s.askCounter id m).Canonical := by
  unfold State.askCounter
  split
  · split
    · exact .send (.updFe h)
    · exact h
  · exact h

theorem launchSend {c} (h : s.Canonical) : (s.launchSend c).Canonical := by
  unfold State.launchSend
  split
  · exact .send (.updFe h)
  · exact .ite h (.ite (.endCmd (.fresh h)) (.send h))

theorem fePlace {job acc va} (h : s.Canonical) : (s.fePlace job acc va).1.Canonical := by
  unfold State.fePlace
  split <;> exact .of_fst ‹_› (.translate h)

theorem copyIn {job port src dst up n fuel off} (h : s.Canonical) : (s.copyIn job port src dst up n fuel off).1.Canonical := by
  induction fuel generalizing s off with
  | zero => exact h
  | succ fuel ih =>
    unfold State.copyIn
    refine .ite_fst h (.ite_fst h ?_)
    split
    · exact .of_fst ‹_› (.fePlace h)
    · split
      · exact ih (.fresh (.devWrite (.of_fst ‹_› (.fePlace h)) ‹_›))
      · exact .of_fst ‹_› (.fePlace h)

theorem blank {job dst n fuel off} (h : s.Canonical) : (s.blank job dst n fuel off).Canonical := by
  induction fuel generalizing s off with
  | zero => exact h
  | succ fuel ih =>
    unfold State.blank
    refine .ite h (ih ?_)
    split
    · exact .ite (.devClear (.of_fst ‹_› (.fePlace h))) (.of_fst ‹_› (.fePlace h))
    · exact .of_fst ‹_› (.fePlace h)

theorem copyOut {job port src dst up n fuel off} (h : s.Canonical) : (s.copyOut job port src dst up n fuel off).1.Canonical := by
  induction fuel generalizing s off with
  | zero => exact h
  | succ fuel ih =>
    unfold State.copyOut
    refine .ite_fst h (.ite_fst (.hostClear h) ?_)
    split
    · exact .hostClear (.of_fst ‹_› (.fePlace h))
    · split
      · exact ih (.fresh (.portPut (.of_fst ‹_› (.fePlace h))))
      · exact .hostClear (.of_fst ‹_› (.fePlace h))

theorem runCopyIn {c} (h : s.Canonical) : (s.runCopyIn c).Canonical := by
  unfold State.runCopyIn
  dsimp only
  split
  · exact .endCmd (.of_fst ‹_› (.copyIn h))
  · exact .endCmd (.blank (.of_fst ‹_› (.copyIn h)))

theorem runCopyOut {c} (h : s.Canonical) : (s.runCopyOut c).Canonical := by
  unfold State.runCopyOut
  dsimp only
  split <;> exact .endCmd (.of_fst ‹_› (.copyOut h))

theorem setHandle {j w x} (h : s.Canonical) : (s.setHandle j w x).Canonical := .setJob h
theorem dropHandle {j w} (h : s.Canonical) : (s.dropHandle j w).Canonical := .setJob h
theorem hbind {c} (h : s.Canonical) : (s.hbind c).Canonical := .ite (.endCmd (.updFe h)) (.endCmd (.setHandle h))
theorem trapOwn {k va} (h : s.Canonical) : (s.trapOwn k va).Canonical :=
  .ite (.evict (.asTask (.trap (.asTask h)))) (.asTask (.trap (.asTask h)))

theorem failParks {ps} (h : s.Canonical) : (s.failParks ps).Canonical := by
  unfold State.failParks
  refine .foldl h fun _ _ ht => ?_
  split
  · exact .ite (.trapOwn ht) ht
  · exact .refused ht
  · exact ht
  · exact .segEnd ht

theorem replayParks {ps} (h : s.Canonical) : (s.replayParks ps).Canonical := by
  unfold State.replayParks
  refine .foldl h fun _ _ ht => ?_
  split
  · exact .ite (.setFrame ht) ht
  · exact .replayStore ht
  · exact .updCmd ht

theorem hrel {c} (h : s.Canonical) : (s.hrel c).Canonical := by
  unfold State.hrel
  dsimp only
  split
  · exact .endCmd h
  · exact .endCmd (.dropHandle (.ite (.setHo (.failParks h)) (.failParks h)))

theorem toHost {c} (h : s.Canonical) : (s.toHost c).Canonical := by
  unfold State.toHost
  split
  · exact .endCmd h
  · exact .ite h (.setHandle (.setHo h))

theorem toHostCommit {c} (h : s.Canonical) : (s.toHostCommit c).Canonical := by
  unfold State.toHostCommit
  split
  · exact h
  · exact .ite h (.endCmd (.setHandle (.dropRange h)))

theorem toDevice {c} (h : s.Canonical) : (s.toDevice c).Canonical := by
  unfold State.toDevice
  split
  · exact .endCmd h
  · exact .endCmd (.replayParks (.setHandle (.ite (.setHo h) h)))

theorem windowBad {wr} (h : s.Canonical) : (s.windowBad wr).Canonical := by
  unfold State.windowBad
  split
  · exact .feBad h
  · exact .feBad (.answerHost h)

theorem scatterBytes {tag ps} (h : s.Canonical) : (s.scatterBytes tag ps).Canonical := by
  induction ps generalizing s with
  | nil => exact h
  | cons p ps ih => exact ih (.getD (fun _ ht => .devWrite h ht) h)

theorem hostAdd {tag pas new} (h : s.Canonical) : (s.hostAdd tag pas new).Canonical :=
  .ite (.wakeReached (.noteCounter (.scatterBytes h))) (.spoil (.scatterBytes h))

theorem hostWindow {via off size wr} (h : s.Canonical) : (s.hostWindow via off size wr).Canonical := by
  unfold State.hostWindow
  refine .ite (.windowBad h) (.ite ?_ ?_)
  · split
    · exact .feBad h
    · exact .feBad (.answerHost h)
  · split
    · exact .windowBad h
    · split
      · exact .spoil (.scatterBytes h)
      · split <;> exact .answerHost h
      · split
        · exact .hostAdd (.answerHost h)
        · exact .answerHost h

theorem lastWriters {c} (h : s.Canonical) : (s.lastWriters c).Canonical := by
  unfold State.lastWriters
  refine .ite h (.foldl h fun _ _ ht => ?_)
  split
  · exact .setHandle ht
  · exact ht

theorem notices {c} (h : s.Canonical) : (s.notices c).Canonical := by
  unfold State.notices
  extract_lets port s1 s2
  have h1 : s1.Canonical := .portPut h
  have h2 : s2.Canonical := .ite h1 (.portPut h1)
  exact .ite (.ite (.of_mem h2 rfl) h2) h

theorem completeCmd {id} (h : s.Canonical) : (s.completeCmd id).Canonical := by
  unfold State.completeCmd
  split
  · exact h
  · extract_lets s1 q s2
    have h1 : s1.Canonical := .notices (.lastWriters h)
    have h2 : s2.Canonical := .ite (.setQueue h1) h1
    exact .ite h (.fresh (.of_mem h2 rfl))

theorem suspendCmd {c} (h : s.Canonical) : (s.suspendCmd c).Canonical := by
  unfold State.suspendCmd
  extract_lets s1 s2
  have h1 : s1.Canonical := .suspendStep (.updFe h)
  have h2 : s2.Canonical := .ite (.suspendStep h) h
  exact .ite (.ite h1 (.endCmd h1)) (.ite h2 (.endCmd h2))

theorem killCmd {c} (h : s.Canonical) : (s.killCmd c).Canonical := .ite (.endCmd h) (.ite (.removalStep h) (.removalStart h))

/-! ### LOAD (Machine/Loader.lean) -/

theorem takePage {p} (h : s.Canonical) : (s.takePage p).Canonical :=
  .of_parts (Mem.wf_clear _ _ h.dev) h.bank h.sram h.arena h.host
theorem fillMem {tag pa bs} (h : s.Canonical) : (s.fillMem tag pa bs).Canonical := .devWrites h

theorem subTable {entry next} (h : s.Canonical) : (s.subTable entry next).1.Canonical := by
  unfold State.subTable
  split
  · exact .ite_fst h (.fillMem (.fillMem (.takePage h)))
  · exact h

theorem mapPage {j next va leaf} (h : s.Canonical) : (s.mapPage j next va leaf).1.Canonical := by
  unfold State.mapPage
  extract_lets root zeroed chip r r1 r2 r3
  have hz : zeroed.Canonical := .fillMem (.takePage h)
  clear_value zeroed
  have hr : r.1.Canonical := .ite_fst h (.of_mem hz rfl)
  exact .fillMem (.subTable (.subTable (.subTable hr)))

theorem putImage {l w off bs} (h : s.Canonical) : (s.putImage l w off bs).Canonical :=
  .foldl h fun _ _ ht => .ite ht (.fillMem ht)

theorem loadMemory {l w ps} (h : s.Canonical) : (s.loadMemory l w ps).Canonical :=
  .foldl_fst (.fillMem (.foldl (.foldl h fun _ _ ht => .takePage ht) fun _ _ ht => .ite (.putImage ht) ht)) fun _ _ ht =>
    .mapPage ht

theorem reservePins {l} (h : s.Canonical) : (s.reservePins l).Canonical :=
  .foldl h fun _ _ ht => .ite ht (.setFrame (.setCore ht))

theorem initTile {l t} (h : s.Canonical) : (s.initTile l t).Canonical := by
  unfold State.initTile
  extract_lets uses scratch mode s1 tile s2 stays mem s3 s4
  have h2 : s2.Canonical := .setTile (.flushWay h)
  have h3 : s3.Canonical := .of_parts h2.dev (Mem.wf_clear _ _ h2.bank) h2.sram h2.arena h2.host
  have h4 : s4.Canonical := .foldl h3 fun _ _ ht => .ite (.bankPut ht) ht
  exact .foldl h4 fun _ _ ht => .setCore (.sramClear (.flushL1 ht))

theorem loadGroup {l r n v} (h : s.Canonical) : (s.loadGroup l r n v).Canonical := .groupCommit (.setGroup h)

theorem setCounters {l w} (h : s.Canonical) : (s.setCounters l w).Canonical := by
  unfold State.setCounters
  refine .foldl h fun _ _ ht => ?_
  split
  · exact ht
  · refine .ite (.foldl ht fun _ _ hu => .noteCounter (.bankPut hu)) ?_
    split
    · exact .ite (.putImage ht) (.noteCounter (.putImage ht))
    · exact ht

theorem bindHandlers {l} (h : s.Canonical) : (s.bindHandlers l).Canonical := by
  unfold State.bindHandlers
  refine .foldl h fun _ _ ht => ?_
  split
  · exact ht
  · exact .foldl ht fun _ _ hu => .releaseHeld (.setCore hu)

theorem joinCores {l} (h : s.Canonical) : (s.joinCores l).Canonical := .foldl h fun _ _ ht => .setCore ht
theorem loadSections {l w} (h : s.Canonical) : (s.loadSections l w).Canonical :=
  .reservePins (.setJob (.invalidate (.loadMemory h)))
theorem loadEnds {l} (h : s.Canonical) : (s.loadEnds l).Canonical := .bindHandlers (.setJob h)

theorem loadStage {j lead k} (h : s.Canonical) : (s.loadStage j lead k).1.Canonical := by
  unfold State.loadStage
  refine .ite_fst h ?_
  split
  · exact .ite_fst h (.setPart h)
  · exact h
  · exact h
  · exact h
  · exact h
  · exact .ite_fst h (.setPart h)
  · exact .ite_fst h (.ite_fst (.fresh h) (.fresh (.setPart (.joinCores h))))
  · exact h
  · exact .loadSections h
  · exact .foldl h fun _ _ ht => .initTile ht
  · exact .foldl h fun _ _ ht => .loadGroup ht
  · exact .setCounters h
  · exact .fresh (.dropPart (.loadEnds h))
  · exact h

theorem loadReport {id j m} (h : s.Canonical) : (s.loadReport id j m).Canonical := by
  unfold State.loadReport
  dsimp only
  split
  · exact .updFe h
  · exact .setPart h
  · exact h

theorem loadBegin {c k code} (h : s.Canonical) : (s.loadBegin c k code).Canonical :=
  .foldl (.updFe (.loadStage (.loadTell h))) fun _ _ ht => .loadReport ht
theorem loadReject {c code} (h : s.Canonical) : (s.loadReject c code).Canonical := .endCmd (.loadUndo (.loadTell h))

theorem loadGroups {c r} (h : s.Canonical) : (s.loadGroups c r).Canonical := by
  unfold State.loadGroups
  dsimp only
  split
  · exact .loadReject h
  · exact .loadBegin (.fresh (.loadTell (.setPart h)))

theorem loadNext {c r} (h : s.Canonical) : (s.loadNext c r).Canonical :=
  .ite h (.ite (.loadGroups h) (.ite (.loadReject h) (.ite (.endCmd h) (.loadBegin h))))
theorem loadStart {c} (h : s.Canonical) : (s.loadStart c).Canonical :=
  .ite (.endCmd (.fresh h)) (.loadBegin (.updFe (.of_mem (.loadTell (.fresh (.setPart h))) rfl)))

theorem loadRuns {id n} (h : s.Canonical) : (s.loadRuns id n).Canonical := by
  induction n generalizing s with
  | zero => exact h
  | succ n ih =>
    unfold State.loadRuns
    split
    · split
      · exact .ite (ih (.loadNext h)) h
      · exact h
    · exact h

theorem loadCmd {c} (h : s.Canonical) : (s.loadCmd c).Canonical := by
  unfold State.loadCmd
  split
  · exact .loadRuns (.loadNext h)
  · exact .ite (.loadRuns (.loadStart h)) h

theorem loadPart {j lead m} (h : s.Canonical) : (s.loadPart j lead m).Canonical := by
  unfold State.loadPart
  refine .ite ?_ ?_
  · split
    · exact .updFe h
    · exact .updFe h
    · exact .loadReport h
    · exact h
  · split
    · exact .setPart h
    · exact .setPart h
    · exact .setPart h
    · exact .foldl (.loadStage (.setPart h)) fun _ _ ht => .toPeer ht
    · exact .loadUndo h
    · exact h

theorem servePart (h : s.Canonical) : s.servePart.Canonical := by
  unfold State.servePart
  split
  · exact .loadPart (.dropMsg h)
  · exact h

/-! ### The root of trust (Machine/Security.lean) -/

theorem setSec {x} (h : s.Canonical) : (s.setSec x).Canonical := h
theorem reply {r} (h : s.Canonical) : (s.reply r).Canonical := .setSec h
theorem booted {k} (h : s.Canonical) (hk : k.Canonical) : (s.booted k).Canonical := .ite h hk

theorem inSession {port id k} (h : s.Canonical) (hk : ∀ x, (k x).Canonical) : (s.inSession port id k).Canonical := by
  unfold State.inSession
  refine .booted h ?_
  split
  · exact hk _
  · exact .reply h

theorem authed {port id k} (h : s.Canonical) (hk : ∀ x, (k x).Canonical) : (s.authed port id k).Canonical := by
  unfold State.authed
  refine .inSession h fun _ => ?_
  split
  · exact hk _
  · exact .reply h

theorem afterNegotiation {port k} (h : s.Canonical) (hk : k.Canonical) : (s.afterNegotiation port k).Canonical :=
  .booted h (.ite hk (.reply h))
theorem negotiate {port asym hash dhe aead} (h : s.Canonical) : (s.negotiate port asym hash dhe aead).Canonical :=
  .booted h (.reply (.setSec h))
theorem measurements {port nonce} (h : s.Canonical) : (s.measurements port nonce).Canonical := .ite h (.ite (.reply h) (.reply h))
theorem keyExchange {port exch} (h : s.Canonical) : (s.keyExchange port exch).Canonical :=
  .afterNegotiation h (.ite (.reply (.setSec h)) (.reply h))

theorem finish {port id peer proof} (h : s.Canonical) : (s.finish port id peer proof).Canonical := by
  unfold State.finish
  refine .booted h ?_
  split
  · exact .reply h
  · exact .ite (.reply (.setSec h)) (.reply (.setSec h))

theorem endSession {port id} (h : s.Canonical) : (s.endSession port id).Canonical := .inSession h fun _ => .reply (.setSec h)
theorem setJpol {j v} (h : s.Canonical) : (s.setJpol j v).Canonical := h
theorem owned {port id j k} (h : s.Canonical) (hk : k.Canonical) : (s.owned port id j k).Canonical :=
  .inSession h fun _ => .ite (.reply h) (.ite (.reply h) hk)

theorem jobCreate {port id j run sig dbg p0 p1 resv} (h : s.Canonical) :
    (s.jobCreate port id j run sig dbg p0 p1 resv).Canonical :=
  .authed h fun _ => .ite (.reply h) (.ite (.reply h) (.reply (.setSec (.setJpol h))))

theorem install {r salt k} (h : s.Canonical) (hk : ∀ t, t.Canonical → (k t).Canonical) : (s.install r salt k).Canonical := by
  unfold State.install
  refine .ite (.reply h) ?_
  split
  · exact .reply h
  · exact .reply (hk _ (.setSec h))

theorem linkKeyReq {port id r} (h : s.Canonical) : (s.linkKeyReq port id r).Canonical :=
  .ite (.authed h fun _ => .ite (.reply h) (.ite (.reply h) (.install h fun _ ht => ht)))
    (.owned h (.ite (.reply h) (.ite (.reply h) (.install h fun _ ht => .setJpol ht))))

theorem imageKey {port id j key} (h : s.Canonical) : (s.imageKey port id j key).Canonical :=
  .owned h (.ite (.reply h) (.ite (.reply h) (.reply (.setJpol (.setSec h)))))
theorem zeroise {j} (h : s.Canonical) : (s.zeroise j).Canonical := .setJob (.setJpol (.setSec (.forgetLines (.dropPackets h))))
theorem setDissolving {x} (h : s.Canonical) : (s.setDissolving x).Canonical := .setSec h
theorem dissolveStep {j} (h : s.Canonical) : (s.dissolveStep j).Canonical :=
  .ite (.removalStep h) (.ite (.removalStart h) (.reply (.setDissolving (.zeroise h))))
theorem dissolve {port id j} (h : s.Canonical) : (s.dissolve port id j).Canonical :=
  .ite (.dissolveStep h) (.owned h (.dissolveStep (.setDissolving h)))
theorem rollback {port id slot version sig} (h : s.Canonical) : (s.rollback port id slot version sig).Canonical :=
  .inSession h fun _ => .ite (.reply (.setSec h)) (.reply h)
theorem setIface {port t x} (h : s.Canonical) : (s.setIface port t x).Canonical := .setSec h
theorem lockIface {port t} (h : s.Canonical) : (s.lockIface port t).Canonical := .ite (.fresh (.setIface h)) h
theorem startIface {port t} (h : s.Canonical) : (s.startIface port t).Canonical := .ite (.setIface h) h
theorem stopIface {port t} (h : s.Canonical) : (s.stopIface port t).Canonical :=
  .ite h (.setIface (.foldl h fun _ _ ht => .setQueue ht))
theorem ideKey {port id stream key} (h : s.Canonical) : (s.ideKey port id stream key).Canonical :=
  .inSession h fun _ => .ite (.reply h) (.reply (.setSec h))

/-! ### Vector floating point (Machine/VecFp.lean) -/

theorem fp2 {op w d a b m q ka kb} (h : s.Canonical) : (s.fp2 op w d a b m q ka kb).Canonical := .issue h fun _ ht => .updMe ht
theorem fp1 {op w d a m q ka} (h : s.Canonical) : (s.fp1 op w d a m q ka).Canonical := .issue h fun _ ht => .updMe ht
theorem fp3 {negP negC w d a b m q ka kb} (h : s.Canonical) : (s.fp3 negP negC w d a b m q ka kb).Canonical :=
  .issue h fun _ ht => .updMe ht
theorem fpCmp {k w d a b m q ka kb} (h : s.Canonical) : (s.fpCmp k w d a b m q ka kb).Canonical :=
  .issue h fun _ ht => .updMe ht
theorem vcvt {d a p m q ka fn} (h : s.Canonical) : (s.vcvt d a p m q ka fn).Canonical := .issue h fun _ ht => .updMe ht
theorem vqnt {k d a p q ka} (h : s.Canonical) : (s.vqnt k d a p q ka).Canonical := .issue h fun _ ht => .updMe ht
theorem vdqnt {kind d a p q ka} (h : s.Canonical) : (s.vdqnt kind d a p q ka).Canonical := .issue h fun _ ht => .updMe ht

/-! ### Time and inputs (Machine/Turn.lean) -/

theorem tick (h : s.Canonical) : s.tick.Canonical := .watchLeases (.of_mem (.catchUp h) rfl)
theorem wentOn {k f i} (h : s.Canonical) : (s.wentOn k f i).Canonical := .ite h (.ite (.ite (.setFrame h) h) (.setFrame h))
theorem touchAllOf {i} (h : s.Canonical) : (s.touchAllOf i).Canonical :=
  .ite h (.foldl h fun _ _ ht => .foldl ht fun _ _ hu => .touch1 hu)
theorem before_ {t i} (h : s.Canonical) : (s.before_ t i).Canonical :=
  .ite (.streamWord (.ite (.touchAllOf h) h)) (.ite (.touchAllOf h) h)

theorem input {x} (h : s.Canonical) : (s.input x).Canonical := by
  unfold State.input
  split
  · exact .portPut h
  · exact h
  · exact .controlRead h
  · exact .ite h h
  · exact .linkRefused h
  · exact h
  · exact .withPwr h

end State.Canonical

namespace Kept
variable {s : State} {o p : Host.Outcome State Fault Refusal}

theorem next (h : s.Canonical) : Kept (.next s) := by
  intro t e
  cases e
  exact h

theorem ite {c : Prop} [Decidable c] (h : Kept o) (k : Kept p) : Kept (if c then o else p) := by
  split <;> assumption

/-! ### Retirement and residency (Machine/Frames.lean) -/

theorem execRetirementNotice {n} (h : s.Canonical) : Kept (execRetirementNotice n s) := by
  unfold Machine.execRetirementNotice
  refine .next ?_
  split
  · exact .noticeAt (.dropMsg h)
  · exact h

/-! ### Loads, stores, landings and fences (Machine/MemOps.lean) -/

theorem execFenceA {sc} (h : s.Canonical) : Kept (execFenceA sc s) := by
  unfold Machine.execFenceA
  refine .next (.issue h fun _ ht => .afterAcquire ht fun _ hu => ?_)
  split
  · exact .next hu
  · exact .next (.updMe (.acquireAt hu))

/-! ### The tile array (Machine/Array.lean) -/

theorem execArrayLeaseBoundEnd {tile} (h : s.Canonical) : Kept (execArrayLeaseBoundEnd tile s) := by
  unfold Machine.execArrayLeaseBoundEnd
  refine .next ?_
  split
  · exact .ite (.revoke h) h
  · exact h

theorem execArrayLeaseRevoke {tile} (h : s.Canonical) : Kept (execArrayLeaseRevoke tile s) := by
  unfold Machine.execArrayLeaseRevoke
  refine .next ?_
  split
  · exact .ite (.revoke h) h
  · exact h

theorem execArrayMzeroExecute {tile} (h : s.Canonical) : Kept (execArrayMzeroExecute tile s) := by
  unfold Machine.execArrayMzeroExecute
  refine .next ?_
  split
  · split
    · exact .setArray h
    · exact h
  · exact h

/-! ### Envelopes, handlers and stealing (Machine/Envelopes.lean) -/

theorem execBounceRetry {core entry} (h : s.Canonical) : Kept (execBounceRetry core entry s) := by
  unfold Machine.execBounceRetry
  refine .next ?_
  split
  · split
    · exact .send (.setJournal h)
    · exact h
  · exact h

theorem execEnvelopeAging {core idx} (h : s.Canonical) : Kept (execEnvelopeAging core idx s) := by
  unfold Machine.execEnvelopeAging
  refine .next ?_
  split
  · exact .ite (.setCore h) h
  · exact h

/-! ### Fetching and follow mode (Machine/Fetch.lean) -/

theorem fetchFailed {va r} (h : s.Canonical) : Kept (s.fetchFailed va r) := by
  unfold State.fetchFailed
  split
  · exact .next h
  · exact .next (.trapAt h)
  · exact .next (.taskParkXlate h)
  · exact .next (.taskParkOwn h)
  · exact .next h

theorem execRpt {sd sa sb n len} (h : s.Canonical) : Kept (execRpt sd sa sb n len s) := by
  unfold Machine.execRpt
  extract_lets s1 A got
  have h1 : s1.Canonical := .issue h fun _ ht => ht
  have hgot : got.1.Canonical := by
    unfold got
    split
    · exact h1
    · exact .capture h1
  clear_value got
  split
  · exact .next (.updMe hgot)
  · exact .next (.trapAt hgot)
  · exact .fetchFailed hgot

theorem execFollowJoinTimeout {task} (h : s.Canonical) : Kept (execFollowJoinTimeout task s) := by
  unfold Machine.execFollowJoinTimeout
  refine .next ?_
  split
  · exact .ite (.setFrame h) h
  · exact h

/-! ### Copy engines (Machine/Engines.lean) -/

theorem segStop {c seg e} (h : s.Canonical) : Kept (s.segStop c seg e) := by
  unfold State.segStop
  dsimp only
  split
  · exact .next (.segEnd (.beginSeg h))
  · exact .next (.parkXlate (.updCmd (.beginSeg h)))
  · exact .next (.parkOwn (.updCmd (.beginSeg h)))
  · exact .next h
  · exact .ite (.next h) (.next (.toPeer (.updCmd (.beginSeg h))))

theorem segWrite {c seg ws} (h : s.Canonical) : Kept (s.segWrite c seg ws) := by
  unfold State.segWrite
  extract_lets hd runs far
  split
  next t heq => exact .next (.of_fst heq (.engAwake h))
  next t heq =>
    have ht : (t.beginSeg hd seg).Canonical := .beginSeg (.of_fst heq (.engAwake h))
    split
    · exact .next (.segEnd (.of_fst ‹_› (.engPuts ht)))
    · exact .next (.of_fst ‹_› (.engPuts ht))
    next u heq =>
      have hu : (u.showWrites c.tile runs).Canonical := .showWrites (.of_fst heq (.engPuts ht))
      refine .ite (.next (.segEnd (.fresh hu))) (.next (.updCmd (.fresh (.foldl hu fun _ _ hv => ?_))))
      split
      · exact .toPeer hv
      · exact hv

theorem segRun {c seg} (h : s.Canonical) : Kept (s.segRun c seg) := by
  unfold State.segRun
  refine .ite (.next (.segEnd (.beginSeg h))) (.ite ?_ ?_)
  · split
    · exact .segStop (.of_fst ‹_› (.segBytes h))
    · exact .next (.segFar (.of_fst ‹_› (.segBytes h)))
  · split
    · exact .segStop (.of_fst ‹_› (.engGets h))
    next t idx heq =>
      have ht : t.Canonical := .of_fst heq (.engGets h)
      extract_lets ms
      split
      · exact .segStop (.of_fst ‹_› (.moveWords ht))
      next u ws heq =>
        have hu : u.Canonical := .of_fst heq (.moveWords ht)
        extract_lets ws
        split
        · exact .segStop (.of_fst ‹_› (.moveBytes hu))
        next v sc heq =>
          have hv : v.Canonical := .of_fst heq (.moveBytes hu)
          exact .ite (.segWrite hv) (.next (.segHalves hv))

theorem segment {tile w seg} (h : s.Canonical) : Kept (s.segment tile w seg) := by
  unfold State.segment
  split
  · exact .next h
  · exact .ite (.next h) (.ite (.next (.ite h (.segEnd h))) (.ite (.segRun h) (.next h)))

theorem execEngineCommandActivate {tile} (h : s.Canonical) : Kept (execEngineCommandActivate tile s) := by
  unfold Machine.execEngineCommandActivate
  refine .next ?_
  split
  · exact .ite (.updCmd h) h
  · exact h

theorem execSidebandHalfArrival {n} (h : s.Canonical) : Kept (execSidebandHalfArrival n s) := by
  unfold Machine.execSidebandHalfArrival
  refine .next ?_
  split
  · exact .copyStep h
  · exact .halfArrives h

theorem execSidebandHalfResend {tile idx} (h : s.Canonical) : Kept (execSidebandHalfResend tile idx s) := by
  unfold Machine.execSidebandHalfResend
  refine .next ?_
  split
  · exact .ite (.sendHalf (.setEngine h)) h
  · exact h

theorem execSidebandPairTimeout {tile idx} (h : s.Canonical) : Kept (execSidebandPairTimeout tile idx s) := by
  unfold Machine.execSidebandPairTimeout
  refine .next ?_
  split
  · exact .ite (.halfEnd (.setEngine h)) h
  · exact h

theorem execEngineStatusQuery {n} (h : s.Canonical) : Kept (execEngineStatusQuery n s) := by
  unfold Machine.execEngineStatusQuery
  refine .next ?_
  split
  · exact .ite (.engCancel (.swapMsg h)) (.swapMsg h)
  · exact h

/-! ### Control registers and replay (Machine/System.lean) -/

theorem execAsynchronousTrap (h : s.Canonical) : Kept (execAsynchronousTrap s) := by
  unfold Machine.execAsynchronousTrap
  refine .next (.ite ?_ h)
  split
  · exact .trapAt (.updMe h)
  · exact h

theorem execBankWakeDone {tile bank} (h : s.Canonical) : Kept (execBankWakeDone tile bank s) := by
  unfold Machine.execBankWakeDone
  refine .next ?_
  split
  · exact .ite (.setTile h) h
  · exact h

/-! ### The Orrery ports (Machine/Fabric.lean) -/

theorem effect {q ok} (h : s.Canonical) : Kept (s.effect q ok) := by
  unfold State.effect
  refine .ite ?_ ?_
  · split
    · exact .next (.ite (.tellBulk h) (.toPeer h))
    · exact .next (.ite (.markBulk h) h)
  · split
    · exact .next (.deliver h)
    · split
      · exact .next (.markBulk (.of_fst ‹_› (.engWrite h)))
      · exact .next (.tellBulk (.of_fst ‹_› (.engWrite h)))
    · exact .next (.copyStep (.send h))
    · exact .next (.ite (.markBulk h) h)

theorem sequence {q ok} (h : s.Canonical) : Kept (s.sequence q ok) := by
  unfold State.sequence
  refine .ite ?_ (.ite (.ite (.next h) (.ite ?_ (.effect h))) (.ite (.effect (.setStream h)) (.next h)))
  · split
    · exact .next (.ite (.fresh (.setStream h)) h)
    · exact .next h
  · split
    · exact .next (.ite (.spread h) h)
    · exact .next h

theorem receive {p q} (h : s.Canonical) : Kept (s.receive p q) := by
  unfold State.receive
  split
  · exact .next h
  · extract_lets known refusal port s1 ok s2 s3
    have h2 : s2.Canonical := .ite (.setPort h) (.keyFailed (.setPort h))
    have h3 : s3.Canonical := by
      unfold s3
      split
      · exact .toPeer h2
      · exact h2
    have taken : Kept (if ok then .next (s2.relayTake q) else .next (s3.relayTake (s3.withdrawn q))) :=
      .ite (.next (.relayTake h2)) (.next (.relayTake h3))
    exact .ite (.next h) (.ite (.next (.fresh (.setPort h))) (.ite (.sequence h2) (.ite (.next h2) taken)))

/-! ### Messages where they arrive (Machine/Home.lean) -/

theorem homeStop {t e fail} (h : s.Canonical) (ht : t.Canonical)
    (hfail : ∀ u c, u.Canonical → (fail u c).Canonical) : Kept (s.homeStop t e fail) := by
  unfold State.homeStop
  split
  · exact .next (.fresh (hfail _ _ ht))
  · exact .next ht
  · exact .next h

theorem readAt {n} (h : s.Canonical) : Kept (s.readAt n) := by
  unfold State.readAt
  split
  · split
    · exact .next (.departs h)
    · split
      · exact .next (.fresh (.refreshL1 (.replyAt (.look h))))
      · split
        · exact .homeStop h (.of_fst ‹_› (.homeGet h)) fun _ _ ht => .replyAt ht
        · exact .next (.fresh (.refill2 (.replyAt (.readView (.of_fst ‹_› (.homeGet h))))))
  · exact .next h

theorem storeAt {n wantPst} (h : s.Canonical) : Kept (s.storeAt n wantPst) := by
  unfold State.storeAt
  split
  · refine .ite (.next h) ?_
    split
    · exact .next (.toPeer (.dropMsg h))
    · split
      · exact .homeStop h (.of_fst ‹_› (.homeWrite h)) fun _ _ ht => .refused (.unstore (.dropMsg ht))
      · exact .next (.fresh (.stored (.patchOwn (.dropMsg (.of_fst ‹_› (.homeWrite h))))))
  · exact .next h

theorem lndReadAt {n} (h : s.Canonical) : Kept (s.lndReadAt n) := by
  unfold State.lndReadAt
  split
  · extract_lets land
    have landed {t vs e} (ht : t.Canonical) : (land t vs e).Canonical :=
      .ite (.swapMsg ht) (.ite (.departs ht) (.toPeer (.dropMsg ht)))
    split
    · exact .next (.departs h)
    · split
      · exact .homeStop h (.of_fst ‹_› (.homeGet h)) fun _ _ ht => landed ht
      · exact .next (.fresh (landed (.renewFor (.look (.of_fst ‹_› (.homeGet h))))))
  · exact .next h

theorem addAt {n} (h : s.Canonical) : Kept (s.addAt n) := by
  unfold State.addAt
  split
  · refine .ite (.next (.addRefused (.dropMsg h))) ?_
    split
    · refine .next (.toPeer ?_)
      dsimp only
      split
      · exact .swapMsg h
      · exact .dropMsg h
    · refine .ite (.next (.toPeer ?_)) (.next (.fresh (.addFrame (.dropMsg h))))
      dsimp only
      split
      · exact .swapMsg h
      · exact .dropMsg h
    · split
      · exact .homeStop h (.of_fst ‹_› (.counterGet h)) fun _ _ ht => .addRefused (.dropMsg ht)
      · exact .next (.fresh (.added (.wakeReached (.releases (.counterPut (.dropMsg (.of_fst ‹_› (.counterGet h))))))))
  · exact .next h

theorem cwaitAt {n} (h : s.Canonical) : Kept (s.cwaitAt n) := by
  unfold State.cwaitAt
  split
  · dsimp only
    split
    · exact .next (.toPeer (.dropMsg h))
    · refine .ite (.next (.toPeer (.dropMsg h))) ?_
      split
      · exact .next h
      · exact .next (.wakeFor h)
      · exact .next (.waitHome h)
    · refine .ite (.next h) ?_
      split
      · exact .homeStop h (.of_fst ‹_› (.counterGet h)) fun _ _ ht => .wakeFor ht
      · exact .next (.fresh (.waitHome (.of_fst ‹_› (.counterGet h))))
  · split
    · exact .next (.toPeer (.dropMsg h))
    · exact .next (.tidy (.unwait (.dropMsg h)))
  · exact .next h

theorem pollAt {k} (h : s.Canonical) : Kept (s.pollAt k) := by
  unfold State.pollAt
  dsimp only
  split
  · refine .ite (.next h) ?_
    split
    · exact .homeStop h (.of_fst ‹_› (.counterGet h)) fun _ _ ht => .waitOver ht
    · exact .next (.fresh (.ite (.waitOver (.of_fst ‹_› (.counterGet h))) (.setFrame (.of_fst ‹_› (.counterGet h)))))
  · exact .next h

theorem observeAt {n} (h : s.Canonical) : Kept (s.observeAt n) := by
  unfold State.observeAt
  split
  · dsimp only
    split
    · exact .next (.departs h)
    · split
      · exact .next h
      · exact .next (.replyAt h)
      · refine .next ?_
        split
        · exact .ite (.replyAt h) (.replyAt (.dropReleases (.setFrame h)))
        · exact .replyAt h
    · split
      · exact .homeStop h (.of_fst ‹_› (.counterGet h)) fun _ _ ht => .replyAt ht
      · refine .next (.fresh ?_)
        split
        · exact .ite (.replyAt (.of_fst ‹_› (.counterGet h)))
              (.replyAt (.dropReleases (.counterPut (.of_fst ‹_› (.counterGet h)))))
        · exact .replyAt (.of_fst ‹_› (.counterGet h))
  · exact .next h

theorem atomicAt {n} (h : s.Canonical) : Kept (s.atomicAt n) := by
  unfold State.atomicAt
  split
  · extract_lets size m fail onHost
    have failed {t c} (ht : t.Canonical) : (fail t c).Canonical := by
      unfold fail
      split
      · exact .refused (.dropMsg ht)
      · exact .replyAt ht
    split
    · refine .next ?_
      split
      · exact .toPeer (.dropMsg h)
      · exact .departs h
    · refine .ite (.next (failed h)) ?_
      split
      · exact .homeStop h (.of_fst ‹_› (.homeGet h)) fun _ _ ht => failed ht
      next t bs heq =>
        have ht : t.Canonical := .of_fst heq (.homeGet h)
        extract_lets old t1 t2 t3 see
        have h1 : t1.Canonical := .ite (.sawLast ht) ht
        have h2 : t2.Canonical := by
          unfold t2
          split
          · exact .homeWrite h1
          · exact h1
        have h3 : t3.Canonical := .renewFor h2
        refine .next (.fresh ?_)
        split
        · exact .acked (.dropMsg h3)
        · exact .replyAt h3
  · exact .next h

/-! ### The front ends and their commands (Machine/FrontEnd.lean) -/

theorem execRegisterWrite {at_ v} (h : s.Canonical) : Kept (execRegisterWrite at_ v s) := by
  unfold Machine.execRegisterWrite
  refine .next ?_
  split
  · exact .rowWrite h
  · exact .controlWrite h

/-! ### LOAD (Machine/Loader.lean) -/

theorem execLoad {id} (h : s.Canonical) : Kept (execLoad id s) := by
  unfold Machine.execLoad
  refine .next ?_
  split
  · exact .running h fun _ => .loadCmd h
  · exact .servePart h

/-! ### The instructions, the turn and the step (Machine/Dispatch.lean, Machine/Turn.lean, Machine/Step.lean) -/

/-- Every instruction and every event keeps the form, one arm for each row of the opcode table. -/
theorem exec {i} (h : s.Canonical) : Kept (Machine.exec i s) :=
  match i with
  | .add .. | .sub .. | .mul .. | .mulh .. | .mulhu .. | .div .. | .divu .. | .rem .. | .remu .. | .and .. | .or .. | .xor ..
  | .andn .. | .shl .. | .shr .. | .sar .. | .min .. | .max .. | .minu .. | .maxu .. | .seq .. | .sne .. | .slt .. | .sltu .. =>
    .next (.alu h)
  | .movz .. | .movn .. => .next (.movIf h)
  | .bfx .. | .bfxs .. => .next (.alu h)
  | .clz .. | .ctz .. | .popc .. | .bswap .. | .addi .. | .andi .. | .shli .. | .shri .. | .sari .. | .roli .. => .next (.alu1 h)
  | .li .. => .next (.issue h fun _ ht => .retG ht)
  | .lim .. | .lih .. => .next (.alu1 h)
  | .beq .. | .bne .. | .blt .. | .bge .. | .bltu .. | .bgeu .. => .next (.branch h)
  | .jal .. => .next (.issue h fun _ ht => .updMe ht)
  | .jalr .. => .next (.issue h fun _ ht => .ite (.trap ht) (.updMe ht))
  | .ld8 .. | .ld16 .. | .ld32 .. | .ld64 .. => .next (.load h)
  | .st8 .. | .st16 .. | .st32 .. | .st64 .. => .next (.store h)
  | .lnd .. | .lndV .. => .next (.lnd h)
  | .rput .. | .rputV .. => .next (.rput h)
  | .pst .. => .next (.pst h)
  | .fenceP => .next (.issue h fun _ ht => .ite (.block ht) (.next ht))
  | .fenceR .. => .next (.issue h fun _ ht => .release ht fun _ hu => .next hu)
  | .fenceA .. => .execFenceA h
  | .pf .. => .next (.prefetch h)
  | .amoAlu .. | .amoSwap .. | .amoCas .. | .amoIncw .. | .amoAddb .. | .amoFadd .. => .next (.amo h)
  | .cadd .. | .cfadd .. => .next (.counterAdd h)
  | .cwait .. => .next (.cwait h)
  | .cpoll .. | .cread .. => .next (.observe h)
  | .cset .. => .next (.privileged h fun _ ht => .observe ht)
  | .send .. => .next (.sendTask h)
  | .sendg .. => .next (.sendgTask h)
  | .spawn .. => .next (.spawnTask h)
  | .bind .. => .next (.bind h)
  | .unbind .. | .clsmask .. => .next (.issue h fun _ ht => .retG (.setCore ht))
  | .armG .. | .armV .. | .armM .. | .live .. => .next (.issue h fun _ ht => .updMe ht)
  | .myaddr .. => .next (.issue h fun _ ht => .retG ht)
  | .yield => .next (.issue h fun _ ht => .loseFollowers (.updMe ht))
  | .endTask => .next (.issue h fun _ ht => .retire ht)
  | .rpt .. => .execRpt h
  | .fol .. => .next (.fol h)
  | .unfol => .next (.issue h fun _ ht => .next (.unfollow ht))
  | .vadd .. | .vsub .. | .vmul .. | .vmulh .. | .vmulhu .. | .vmin .. | .vmax .. | .vminu .. | .vmaxu .. | .vadds ..
  | .vaddsu .. | .vsubs .. | .vsubsu .. => .next (.vec2 h)
  | .vabs .. => .next (.vec1 h)
  | .vand .. | .vor .. | .vxor .. | .vandn .. | .vshl .. | .vshr .. | .vsar .. => .next (.vec2 h)
  | .veq .. | .vne .. | .vlt .. | .vltu .. | .vle .. | .vleu .. => .next (.vcmp h)
  | .vfadd .. | .vfsub .. | .vfmul .. | .vfdiv .. => .next (.fp2 h)
  | .vfsqrt .. => .next (.fp1 h)
  | .vfmin .. | .vfmax .. => .next (.fp2 h)
  | .vfma .. | .vfms .. | .vfnma .. | .vfnms .. => .next (.fp3 h)
  | .vfabs .. | .vfneg .. => .next (.fp1 h)
  | .vfeq .. | .vflt .. | .vfle .. | .vfun .. => .next (.fpCmp h)
  | .vcvt .. => .next (.vcvt h)
  | .vperm .. => .next (.vperm h)
  | .vslide .. => .next (.vslide h)
  | .vmerge .. => .next (.vmerge h)
  | .mand .. | .mor .. | .mxor .. | .mandn .. => .next (.mop2 h)
  | .mnot .. => .next (.mop1 h)
  | .vrsum .. => .next (.ite (.reduce h) (.ite (.reduce h) (.ite (.reduce h) (.reduce h))))
  | .vrminF32 .. | .vrmaxF32 .. | .vrminI32 .. | .vrmaxI32 .. => .next (.reduce h)
  | .vqntMxe4 .. | .vqntMxf4 .. | .vqntK4 .. => .next (.vqnt h)
  | .vdqnt .. => .next (.vdqnt h)
  | .vld .. => .next (.vld h)
  | .vst .. => .next (.vst h)
  | .vgath .. => .next (.vgath h)
  | .vscat .. => .next (.vscat h)
  | .vsplat .. => .next (.issue h fun _ ht => .updMe ht)
  | .vget .. => .next (.issue h fun _ ht => .retG ht)
  | .vput .. => .next (.issue h fun _ ht => .updMe ht)
  | .mget .. => .next (.issue h fun _ ht => .retG ht)
  | .mput .. | .vfxrd .. | .vfxwr .. | .vfxclr .. => .next (.issue h fun _ ht => .updMe ht)
  | .mma .. => .next (.mma h)
  | .mlease .. => .next (.mlease h)
  | .mrel => .next (.issue h fun _ ht => .next (.endLease ht))
  | .mzero .. =>
    .next (.issue h fun _ ht => .needLease ht fun _ hu => .ite (.trap hu) (.enqueue (.claim hu) fun _ hv => .next hv))
  | .mfree .. => .next (.issue h fun _ ht => .ite (.next ht) (.block (.updArray ht)))
  | .mldA .. | .mldB .. => .next (.mld h)
  | .mdrain .. => .next (.mdrain h)
  | .merr .. => .next (.merr h)
  | .xcopy .. | .xcopyg .. | .xgath .. | .xscat .. | .xred .. => .next (.engineCmd h)
  | .xstat .. | .xcancel .. => .next (.engQuery h)
  | .csrr .. => .next (.csrRead h)
  | .csrw .. | .csrset .. | .csrclr .. => .next (.csrOp h)
  | .svc .. => .next (.issue h fun _ ht => .trapAt ht)
  | .tret => .next (.privileged h fun _ ht => .issue ht fun _ hu => .ite (.tret hu) (.trap hu))
  | .tlbinv .. | .tlbinvAll .. => .next (.privileged h fun _ ht => .issue ht fun _ hu => .tlbinv hu)
  | .tlbprobe .. => .next (.privileged h fun _ ht => .issue ht fun _ hu => .next (.fresh (.send (.updMe hu))))
  | .tlbreplayAll => .next (.privileged h fun _ ht => .issue ht fun _ hu => .release hu fun _ hv => .next (.replay hv))
  | .brk .. => .next (.issue h fun _ ht => .trap (.trace ht))
  | .trc .. => .next (.issue h fun _ ht => .next (.trace ht))
  | .seerd .. => .next (.issue h fun _ ht => .retG ht)
  | .seerdC .. => .next (.issue h fun _ ht => .retG (.setCore ht))
  | .dbgsync .. => .next (.issue h fun _ ht => .ite (.block ht) (.retG ht))
  | .asynchronousTrap => .execAsynchronousTrap h
  | .lsplitWrite .. => .next (.lsplitWrite h)
  | .vgrpWrite .. => .next (.vgrpWrite h)
  | .fcsrWrite .. => .next (.csrWrite h)
  | .tsctlWrite .. => .next (.tsctlWrite h)
  | .tsctlChangeDone .. => .next (.setTile h)
  | .bankWakeDone .. => .execBankWakeDone h
  | .registerWrite .. => .execRegisterWrite h
  | .hleaseCas .. => .next (.leaseCas h)
  | .hleaseOtherAtomic .. => .next (.answerHost h)
  | .hostLeaseExpiry => .next (.ite h h)
  | .qctlWrite .. => .next (.queueWrite h fun _ ht => .qctl ht)
  | .qdbl .. => .next (.queueWrite h fun _ ht => .doorbell ht)
  | .commandFetch .. => .next (.ite (.fetchCmd h) h)
  | .commandStart .. => .next (.startCmd h)
  | .load .. => .execLoad h
  | .launch .. => .next (.running h fun _ => .askCounter h)
  | .launchEnvelopeSend .. => .next (.running h fun _ => .launchSend h)
  | .copyin .. => .next (.running h fun _ => .runCopyIn h)
  | .copyout .. => .next (.running h fun _ => .runCopyOut h)
  | .hbind .. => .next (.running h fun _ => .hbind h)
  | .hrel .. => .next (.running h fun _ => .hrel h)
  | .wait .. | .signal .. => .next (.running h fun _ => .askCounter h)
  | .tohost .. => .next (.running h fun _ => .toHost h)
  | .tohostCommit .. => .next (.running h fun _ => .toHostCommit h)
  | .todevice .. => .next (.running h fun _ => .toDevice h)
  | .suspend .. => .next (.running h fun _ => .suspendCmd h)
  | .resume .. => .next (.running h fun _ => .endCmd (.resumeJob h))
  | .kill .. => .next (.running h fun _ => .killCmd h)
  | .fatalFaultRemoval .. => .next (.fatalRemoval h)
  | .commandComplete .. => .next (.completeCmd h)
  | .hostWindowAccess .. => .next (.fresh (.hostWindow h))
  | .envelopeArrival .. => .next (.envArrival h)
  | .bounceRetry .. => .execBounceRetry h
  | .activation .. => .next (.activate h)
  | .contextAging .. => .next (.ite (.setFrame h) h)
  | .envelopeAging .. => .execEnvelopeAging h
  | .stealRequest .. => .next (.stealRequest h)
  | .stealAnswer .. => .next (.stealStep h)
  | .frameResidency .. => .next (.residency h)
  | .slotTransferEnd .. => .next (.transferEnd h)
  | .icacheLineArrival .. => .next (.ite (.fillIc h) h)
  | .followJoinTimeout .. => .execFollowJoinTimeout h
  | .groupLoadShadow .. => .next (.groupLoad h)
  | .groupCommit .. => .next (.groupCommit h)
  | .groupDiscardShadow .. => .next (.setGroup h)
  | .groupPrevDrained .. => .next (.ite (.setGroup h) h)
  | .homeReadRequest .. => .readAt h
  | .replyArrival .. => .next (.replyArrives h)
  | .postedStorePerform .. => .storeAt h
  | .lndHomeRead .. => .lndReadAt h
  | .pstHome .. => .storeAt h
  | .landingArrival .. => .next (.landingArrives h)
  | .journalAck .. => .next (.ackArrives h)
  | .refusalReturn .. => .next (.refusalArrives h)
  | .deadlandReport .. => .next (.deadReport h)
  | .cwaitRegister .. => .cwaitAt h
  | .counterAddHome .. => .addAt h
  | .counterObserveHome .. => .observeAt h
  | .waiterWake .. => .next (.wakeNext h)
  | .wakeArrival .. => .next (.wakeArrives h)
  | .polledWaiterRead .. => .pollAt h
  | .atomicHome .. => .atomicAt h
  | .engineCommandActivate .. => .execEngineCommandActivate h
  | .engineSegmentComplete .. => .segment h
  | .sidebandHalfArrival .. => .execSidebandHalfArrival h
  | .sidebandHalfResend .. => .execSidebandHalfResend h
  | .sidebandPairTimeout .. => .execSidebandPairTimeout h
  | .arrayLeaseGrant .. => .next (.grant h)
  | .arrayLeaseBoundEnd .. => .execArrayLeaseBoundEnd h
  | .arrayLeaseRevoke .. => .execArrayLeaseRevoke h
  | .arrayFill .. => .next (.fillOne h)
  | .arrayMmaExecute .. => .next (.mmaExecute h)
  | .arrayMzeroExecute .. => .execArrayMzeroExecute h
  | .arrayDrainStart .. => .next (.drainStart h)
  | .arrayDrainComplete .. => .next (.updArray h)
  | .accumulatorFree .. => .next (.ite (.updArray h) h)
  | .arraySoftError .. => .next (.updArray h)
  | .pagerNotify .. => .next (.pagerNotify h)
  | .fbclrWrite .. => .next (.fbclr h)
  | .migrateStart .. => .next (.migrateStart h)
  | .migrationCommit .. => .next (.migrateCommit h)
  | .retirementNotice .. => .execRetirementNotice h
  | .transitGuard .. => .next (.guard h)
  | .dwellStart .. => .next (.dwell h)
  | .dwellEnd .. => .next (.ite (.endCircuit h) h)
  | .linkPacketReceive .. => .receive h
  | .ackReceive .. => .ite (.receive h) (.next h)
  | .laneLoss .. => .next (.laneLoss h)
  | .endMarkerReceive .. => .next (.ite (.endCircuit h) h)
  | .relayForward .. => .next (.forward h)
  | .portReenable .. => .next (.ite (.reenable h) h)
  | .domainTimeResync .. => .next h
  | .powerOnReset .. => .next (.powerOn h)
  | .getVersion .. => .next (.booted h (.reply (.setSec h)))
  | .getCapabilities .. => .next (.booted h (.reply h))
  | .negotiateAlgorithms .. => .next (.negotiate h)
  | .getDigests .. | .getCertificate .. | .challenge .. => .next (.afterNegotiation h (.reply h))
  | .getMeasurements .. => .next (.measurements h)
  | .keyExchange .. => .next (.keyExchange h)
  | .finish .. => .next (.finish h)
  | .heartbeat .. => .next (.inSession h fun _ => .reply h)
  | .endSession .. => .next (.endSession h)
  | .getWrapkey .. => .next (.authed h fun _ => .reply h)
  | .jobCreate .. => .next (.jobCreate h)
  | .linkKey .. => .next (.linkKeyReq h)
  | .imageKey .. => .next (.imageKey h)
  | .jobDissolve .. => .next (.dissolve h)
  | .rollbackAdvance .. => .next (.rollback h)
  | .tdispLockInterface .. => .next (.lockIface h)
  | .tdispStopInterface .. => .next (.stopIface h)
  | .eyctlWrite .. => .next (.eyctlWrite h)
  | .eystopGo => .next (.stopGo h)
  | .eystopRes => .next (.stopRes h)
  | .eystopForce => .next (.stopForce h)
  | .stopReached => .next (.ite (.stopDone h) h)
  | .traceEnable .. => .next (.trctlWrite h)
  | .traceDisable => .next (.ite (.traceOff h) h)
  | .traceForceRelease => .next (.traceForce h)
  | .traceRecordWrite => .next (.ite (.fresh (.writeNext h)) h)
  | .traceSample => .next (.traceSample h)
  | .throttleChange .. => .next (.throttle h)
  | .coreClockGate .. => .next (.ite (.setCore h) h)
  | .coreWake .. => .next (.setCore h)
  | .scrubLine .. => .next (.ite (.markLine h) h)
  | .pwrctlWrite .. => .next h
  | .deviceFatal .. => .next (.deviceFatal h)
  | .illegalInstruction .. => .next (.trap h)
  | .tdispStartInterface .. => .next (.startIface h)
  | .ideKmKeyProgramming .. => .next (.ideKey h)
  | .engineStatusQuery .. => .execEngineStatusQuery h

theorem perform {i} (h : s.Canonical) : Kept (s.perform i) := by
  unfold State.perform
  dsimp only
  split
  · split
    · exact .next (.wentOn (.of_next ‹_› (.exec (.before_ h))))
    · exact .exec (.before_ h)
  · exact .exec h

theorem reconsider {k} (h : s.Canonical) : Kept (s.reconsider k) := by
  unfold State.reconsider
  extract_lets f ready
  have hready : ready.Canonical := .setFrame h
  split
  next t i heq =>
    have ht : t.Canonical := .of_fst heq (.current (.setFrame h))
    split
    · exact .next (.ite h hready)
    · exact .exec ht
  · exact .next hready

theorem issueTurn {k} (h : s.Canonical) : Kept (s.issueTurn k) := by
  unfold State.issueTurn
  extract_lets s1 s2
  have h1 : s1.Canonical := .asTask h
  have h2 : s2.Canonical := .updMe h1
  refine .ite (.exec h1) (.ite (.next (.installWaiting h1)) (.ite (.reconsider h1) (.ite ?_ (.next h1))))
  split
  · exact .perform (.of_fst ‹_› (.current h2))
  · exact .exec (.of_fst ‹_› (.current h2))
  · exact .fetchFailed (.of_fst ‹_› (.current h2))

theorem turn {t} (h : s.Canonical) : Kept (s.turn t) := by
  unfold State.turn
  split
  · exact .issueTurn h
  · exact .ite (.exec h) (.next h)
  · exact .next (.input h)

theorem step (h : s.Canonical) : Kept (Machine.step s) := by
  unfold Machine.step
  dsimp only
  split
  · exact .turn (.of_mem (.tick h) rfl)
  · exact .turn (.tick h)

end Kept

/-- Settles O4: the canonical form is kept by every operation that a step is made of, so by the step, whatever is on
the agenda. -/
theorem issueKeepsMemories : Obligations.IssueKeepsMemories := by
  unfold Obligations.IssueKeepsMemories
  intro s t k ts _ hwf hstep
  exact Kept.step hwf t hstep

end Sys2Proof.Machine
end

section
/-! # O1: decoding an encoded instruction gives it back (R55–R76, R82)

Each format's word is split into its bits once (`getLsbD_rr` and its like), which gives back the major (`opOf_rr`) and the
fields (`onRR_rr`). `ReadBack i` says that formats, majors and functions yield `i` from its word; for each format
`ReadBack.rr` and its like ask for the function map of the major, and `readBack` names it for every instruction. -/

namespace Sys2Proof.Encoding
variable {α : Type}

/-! ### The bits, the major and the fields of the word of each format (R55) -/

theorem getLsbD_rr (op d a b ka kb fn) (k : Nat) : (rr op d a b ka kb fn).getLsbD k =
    if k < 5 then fn.getLsbD k else if k < 6 then kb else if k < 7 then ka else
    if k < 13 then b.getLsbD (k - 7) else if k < 19 then a.getLsbD (k - 13) else
    if k < 25 then d.getLsbD (k - 19) else op.getLsbD (k - 25) := by
  unfold rr
  change BitVec.getLsbD (w := 7 + 6 + 6 + 6 + 1 + 1 + 5) _ _ = _
  simp only [BitVec.getLsbD_append]
  grind

theorem opOf_rr (op d a b ka kb fn) : opOf (rr op d a b ka kb fn) = op := by grind [opOf, getLsbD_rr]

theorem onRR_rr (op d a b ka kb fn) (f) : onRR (α := α) (rr op d a b ka kb fn) f = f d a b ka kb fn := by
  unfold onRR
  congr 1 <;> grind [getLsbD_rr]

theorem getLsbD_ri (op d a ka im) (k : Nat) : (ri op d a ka im).getLsbD k =
    if k < 12 then im.getLsbD k else if k < 13 then ka else if k < 19 then a.getLsbD (k - 13) else
    if k < 25 then d.getLsbD (k - 19) else op.getLsbD (k - 25) := by
  unfold ri
  change BitVec.getLsbD (w := 7 + 6 + 6 + 1 + 12) _ _ = _
  simp only [BitVec.getLsbD_append]
  grind

theorem opOf_ri (op d a ka im) : opOf (ri op d a ka im) = op := by grind [opOf, getLsbD_ri]

theorem onRI_ri (op d a ka im) (f) : onRI (α := α) (ri op d a ka im) f = f d a ka im := by
  unfold onRI
  congr 1 <;> grind [getLsbD_ri]

theorem getLsbD_bf (op a b off) (k : Nat) : (bf op a b off).getLsbD k =
    if k < 13 then off.getLsbD k else if k < 19 then b.getLsbD (k - 13) else
    if k < 25 then a.getLsbD (k - 19) else op.getLsbD (k - 25) := by
  unfold bf
  change BitVec.getLsbD (w := 7 + 6 + 6 + 13) _ _ = _
  simp only [BitVec.getLsbD_append]
  grind

theorem opOf_bf (op a b off) : opOf (bf op a b off) = op := by grind [opOf, getLsbD_bf]

theorem onB_bf (op a b off) (f) : onB (α := α) (bf op a b off) f = f a b off := by
  unfold onB
  congr 1 <;> grind [getLsbD_bf]

theorem getLsbD_jf (op off) (k : Nat) : (jf op off).getLsbD k =
    if k < 25 then off.getLsbD k else op.getLsbD (k - 25) := by
  unfold jf
  change BitVec.getLsbD (w := 7 + 25) _ _ = _
  simp only [BitVec.getLsbD_append]

theorem opOf_jf (op off) : opOf (jf op off) = op := by grind [opOf, getLsbD_jf]

theorem onJ_jf (op off) (f) : onJ (α := α) (jf op off) f = f off := by
  unfold onJ
  congr 1; grind [getLsbD_jf]

theorem getLsbD_lif (op d im) (k : Nat) : (lif op d im).getLsbD k =
    if k < 19 then im.getLsbD k else if k < 25 then d.getLsbD (k - 19) else op.getLsbD (k - 25) := by
  unfold lif
  change BitVec.getLsbD (w := 7 + 6 + 19) _ _ = _
  simp only [BitVec.getLsbD_append]
  grind

theorem opOf_lif (op d im) : opOf (lif op d im) = op := by grind [opOf, getLsbD_lif]

theorem onLI_lif (op d im) (f) : onLI (α := α) (lif op d im) f = f d im := by
  unfold onLI
  congr 1 <;> grind [getLsbD_lif]

theorem getLsbD_vf (op d a b m q ka kb fn) (k : Nat) : (vf op d a b m q ka kb fn).getLsbD k =
    if k < 4 then fn.getLsbD k else if k < 5 then kb else if k < 6 then ka else if k < 7 then q else
    if k < 10 then m.getLsbD (k - 7) else if k < 15 then b.getLsbD (k - 10) else
    if k < 20 then a.getLsbD (k - 15) else if k < 25 then d.getLsbD (k - 20) else op.getLsbD (k - 25) := by
  unfold vf
  change BitVec.getLsbD (w := 7 + 5 + 5 + 5 + 3 + 1 + 1 + 1 + 4) _ _ = _
  simp only [BitVec.getLsbD_append]
  grind (splits := 20)

theorem opOf_vf (op d a b m q ka kb fn) : opOf (vf op d a b m q ka kb fn) = op := by grind [opOf, getLsbD_vf]

theorem onV_vf (op d a b m q ka kb fn) (f) : onV (α := α) (vf op d a b m q ka kb fn) f = f d a b m q ka kb fn := by
  unfold onV
  congr 1 <;> grind [getLsbD_vf]

theorem getLsbD_vmf (op d b m ka off) (k : Nat) : (vmf op d b m ka off).getLsbD k =
    if k < 10 then off.getLsbD k else if k < 11 then ka else if k < 14 then m.getLsbD (k - 11) else
    if k < 20 then b.getLsbD (k - 14) else if k < 25 then d.getLsbD (k - 20) else op.getLsbD (k - 25) := by
  unfold vmf
  change BitVec.getLsbD (w := 7 + 5 + 6 + 3 + 1 + 10) _ _ = _
  simp only [BitVec.getLsbD_append]
  grind

theorem opOf_vmf (op d b m ka off) : opOf (vmf op d b m ka off) = op := by grind [opOf, getLsbD_vmf]

theorem onVM_vmf (op d b m ka off) (f) : onVM (α := α) (vmf op d b m ka off) f = f d b m ka off := by
  unfold onVM
  congr 1 <;> grind [getLsbD_vmf]

theorem getLsbD_xf (op c a b s fn) (k : Nat) : (xf op c a b s fn).getLsbD k =
    if k < 5 then fn.getLsbD k else if k < 11 then s.getLsbD (k - 5) else if k < 17 then b.getLsbD (k - 11) else
    if k < 23 then a.getLsbD (k - 17) else if k < 25 then c.getLsbD (k - 23) else op.getLsbD (k - 25) := by
  unfold xf
  change BitVec.getLsbD (w := 7 + 2 + 6 + 6 + 6 + 5) _ _ = _
  simp only [BitVec.getLsbD_append]
  grind

theorem opOf_xf (op c a b s fn) : opOf (xf op c a b s fn) = op := by grind [opOf, getLsbD_xf]

theorem onX_xf (op c a b s fn) (f) : onX (α := α) (xf op c a b s fn) f = f c a b s fn := by
  unfold onX
  congr 1 <;> grind [getLsbD_xf]

theorem getLsbD_rptf (op sd sa sb z n l) (k : Nat) : (rptf op sd sa sb z n l).getLsbD k =
    if k < 4 then l.getLsbD k else if k < 12 then n.getLsbD (k - 4) else if k < 16 then z.getLsbD (k - 12) else
    if k < 19 then sb.getLsbD (k - 16) else if k < 22 then sa.getLsbD (k - 19) else
    if k < 25 then sd.getLsbD (k - 22) else op.getLsbD (k - 25) := by
  unfold rptf
  change BitVec.getLsbD (w := 7 + 3 + 3 + 3 + 4 + 8 + 4) _ _ = _
  simp only [BitVec.getLsbD_append]
  grind

theorem opOf_rptf (op sd sa sb z n l) : opOf (rptf op sd sa sb z n l) = op := by grind [opOf, getLsbD_rptf]

theorem onRpt_rptf (op sd sa sb z n l) (f) : onRpt (α := α) (rptf op sd sa sb z n l) f = f sd sa sb z n l := by
  unfold onRpt
  congr 1 <;> grind [getLsbD_rptf]

/-! ### Small fields inside a field of a format -/

theorem bits2_cases {p : BitVec 2 → Prop} (zero : p 0) (one : p 1) (two : p 2) (three : p 3) (x : BitVec 2) : p x := by
  obtain rfl | rfl | rfl | rfl : x = 0 ∨ x = 1 ∨ x = 2 ∨ x = 3 := by decide +revert
  all_goals assumption

theorem bits3_cases {p : BitVec 3 → Prop} (low : ∀ x : BitVec 2, p (0#1 ++ x)) (high : ∀ x : BitVec 2, p (1#1 ++ x))
    (x : BitVec 3) : p x := by
  obtain h | h : x = 0#1 ++ x.extractLsb' 0 2 ∨ x = 1#1 ++ x.extractLsb' 0 2 := by decide +revert
  · exact h ▸ low _
  · exact h ▸ high _

/-- A mask register in a field of five bits. -/
@[simp] theorem mask_high (d : BitVec 3) : (0#2 ++ d).extractLsb' 3 2 = 0#2 := by decide +revert
@[simp] theorem mask_low (d : BitVec 3) : (0#2 ++ d).extractLsb' 0 3 = d := by decide +revert
/-- A part in a field of five bits. -/
@[simp] theorem part_high (p : BitVec 2) : (0#3 ++ p).extractLsb' 2 3 = 0#3 := by decide +revert
@[simp] theorem part_low (p : BitVec 2) : (0#3 ++ p).extractLsb' 0 2 = p := by decide +revert

/-- A count under a sub-operation (R191), and the fields of `myaddr` (R76). -/
@[simp] theorem shift_high (k c : BitVec 6) : (k ++ c).extractLsb' 6 6 = k := by grind
@[simp] theorem shift_low (k c : BitVec 6) : (k ++ c).extractLsb' 0 6 = c := by grind
@[simp] theorem class_high (c : BitVec 2) : (0#4 ++ c).extractLsb' 2 4 = 0#4 := by decide +revert
@[simp] theorem class_low (c : BitVec 2) : (0#4 ++ c).extractLsb' 0 2 = c := by decide +revert
@[simp] theorem landing_high (s : BitVec 2) (e : BitVec 3) : (s ++ e).extractLsb' 3 2 = s := by decide +revert
@[simp] theorem landing_low (s : BitVec 2) (e : BitVec 3) : (s ++ e).extractLsb' 0 3 = e := by decide +revert

/-! ### From a format and a major to the instruction -/

/-- Formats, majors and functions give the instruction back from its word; ranges are not looked at. -/
def ReadBack (i : Instr) : Prop := ∀ w, encode i = some w → decodeRaw w = .ok i

namespace ReadBack
variable {i : Instr} {op : BitVec 7}

theorem of_event (h : encode i = none) : ReadBack i := fun _ e => nomatch h.symm.trans e

theorem of_word {w} (h : encode i = some w) (hd : decodeRaw w = .ok i) : ReadBack i := fun _ e => by
  obtain rfl : w = _ := Option.some.inj (h.symm.trans e)
  exact hd

theorem rr {d a b ka kb fn} (f) (he : encode i = some (rr op d a b ka kb fn)) (hf : f d a b ka kb fn = .ok i)
    (hop : ∀ w, opOf w = op → decodeRaw w = onRR w f := by intro w h; rw [decodeRaw, h]; rfl) : ReadBack i :=
  .of_word he ((hop _ (opOf_rr ..)).trans ((onRR_rr ..).trans hf))

theorem ri {d a ka im} (f) (he : encode i = some (ri op d a ka im)) (hf : f d a ka im = .ok i)
    (hop : ∀ w, opOf w = op → decodeRaw w = onRI w f := by intro w h; rw [decodeRaw, h]; rfl) : ReadBack i :=
  .of_word he ((hop _ (opOf_ri ..)).trans ((onRI_ri ..).trans hf))

theorem bf {a b off} (f) (he : encode i = some (bf op a b off)) (hf : f a b off = .ok i)
    (hop : ∀ w, opOf w = op → decodeRaw w = onB w f := by intro w h; rw [decodeRaw, h]; rfl) : ReadBack i :=
  .of_word he ((hop _ (opOf_bf ..)).trans ((onB_bf ..).trans hf))

theorem jf {off} (f) (he : encode i = some (jf op off)) (hf : f off = .ok i)
    (hop : ∀ w, opOf w = op → decodeRaw w = onJ w f := by intro w h; rw [decodeRaw, h]; rfl) : ReadBack i :=
  .of_word he ((hop _ (opOf_jf ..)).trans ((onJ_jf ..).trans hf))

theorem lif {d im} (f) (he : encode i = some (lif op d im)) (hf : f d im = .ok i)
    (hop : ∀ w, opOf w = op → decodeRaw w = onLI w f := by intro w h; rw [decodeRaw, h]; rfl) : ReadBack i :=
  .of_word he ((hop _ (opOf_lif ..)).trans ((onLI_lif ..).trans hf))

theorem vf {d a b m q ka kb fn} (f) (he : encode i = some (vf op d a b m q ka kb fn)) (hf : f d a b m q ka kb fn = .ok i)
    (hop : ∀ w, opOf w = op → decodeRaw w = onV w f := by intro w h; rw [decodeRaw, h]; rfl) : ReadBack i :=
  .of_word he ((hop _ (opOf_vf ..)).trans ((onV_vf ..).trans hf))

theorem vmf {d b m ka off} (f) (he : encode i = some (vmf op d b m ka off)) (hf : f d b m ka off = .ok i)
    (hop : ∀ w, opOf w = op → decodeRaw w = onVM w f := by intro w h; rw [decodeRaw, h]; rfl) : ReadBack i :=
  .of_word he ((hop _ (opOf_vmf ..)).trans ((onVM_vmf ..).trans hf))

theorem xf {c a b s fn} (f) (he : encode i = some (xf op c a b s fn)) (hf : f c a b s fn = .ok i)
    (hop : ∀ w, opOf w = op → decodeRaw w = onX w f := by intro w h; rw [decodeRaw, h]; rfl) : ReadBack i :=
  .of_word he ((hop _ (opOf_xf ..)).trans ((onX_xf ..).trans hf))

theorem rptf {sd sa sb z n l} (f) (he : encode i = some (rptf op sd sa sb z n l)) (hf : f sd sa sb z n l = .ok i)
    (hop : ∀ w, opOf w = op → decodeRaw w = onRpt w f := by intro w h; rw [decodeRaw, h]; rfl) : ReadBack i :=
  .of_word he ((hop _ (opOf_rptf ..)).trans ((onRpt_rptf ..).trans hf))

end ReadBack

/-! ### Majors that carry a field of the instruction -/

theorem decodeRaw_vecInt (x : BitVec 2) : ∀ w, opOf w = 16#5 ++ x → decodeRaw w = onV w (dec40 x) := by
  cases x using bits2_cases <;> (intro w h; rw [decodeRaw, h]; rfl)
theorem decodeRaw_vecLogic (x : BitVec 2) : ∀ w, opOf w = 17#5 ++ x → decodeRaw w = onV w (dec44 x) := by
  cases x using bits2_cases <;> (intro w h; rw [decodeRaw, h]; rfl)
theorem decodeRaw_vecCompare (x : BitVec 2) : ∀ w, opOf w = 18#5 ++ x → decodeRaw w = onV w (dec48 x) := by
  cases x using bits2_cases <;> (intro w h; rw [decodeRaw, h]; rfl)
theorem decodeRaw_vecFloat (x : BitVec 2) : ∀ w, opOf w = 19#5 ++ x → decodeRaw w = onV w (dec4C x) := by
  cases x using bits2_cases <;> (intro w h; rw [decodeRaw, h]; rfl)
theorem decodeRaw_vecFloatCompare (x : BitVec 2) : ∀ w, opOf w = 20#5 ++ x → decodeRaw w = onV w (dec50 x) := by
  cases x using bits2_cases <;> (intro w h; rw [decodeRaw, h]; rfl)

theorem decodeRaw_mma {p : BitVec 4} (hp : p.toNat ≤ 10) : ∀ w, opOf w = 6#3 ++ p → decodeRaw w =
    onX w fun c a b s fn => need (decide (b = 0) && decide (s = 0) && decide (fn = 0)) (.mma p c a) := by
  obtain ⟨n, hn, rfl⟩ : ∃ n ≤ 10, p = BitVec.ofNat 4 n := ⟨p.toNat, hp, by simp⟩
  interval_cases n <;> (intro w h; rw [decodeRaw, h]; rfl)

/-! ### Functions that carry a field of the instruction -/

theorem dec36_eq (d a b ka kb fn) : dec36 d a b ka kb fn = need (decide (b.extractLsb' 2 4 = 0) && !ka && !kb)
    (.myaddr d a (b.extractLsb' 0 2) (fn.extractLsb' 3 2) (fn.extractLsb' 0 3)) := by
  obtain ⟨n, hn, rfl⟩ : ∃ n < 32, fn = BitVec.ofNat 5 n := ⟨fn.toNat, fn.isLt, by simp⟩
  interval_cases n <;> rfl

theorem dec54_eq (d a b m q ka kb fn) : dec54 d a b m q ka kb fn =
    need (decide (b.extractLsb' 2 3 = 0) && !kb) (.vcvt d a (b.extractLsb' 0 2) m q ka fn) := by
  obtain ⟨n, hn, rfl⟩ : ∃ n < 16, fn = BitVec.ofNat 4 n := ⟨fn.toNat, fn.isLt, by simp⟩
  interval_cases n <;> rfl

theorem readBack (i : Instr) (hwf : i.wf) : ReadBack i := by
  cases i with
  | add | sub | mul | mulh | mulhu | div | divu | rem | remu | and | or | xor | andn | shl | shr | sar | min | max | minu
  | maxu | seq | sne | slt | sltu | movz | movn | bfx | bfxs | clz | ctz | popc | bswap => exact .rr dec01 rfl rfl
  | addi => exact .ri (.ok <| .addi · · · ·) rfl rfl
  | andi => exact .ri (.ok <| .andi · · · ·) rfl rfl
  | shli | shri | sari | roli => exact .ri dec04 rfl (by simp [dec04, Machine.fld])
  | li => exact .lif (.ok <| .li · ·) rfl rfl
  | lim => exact .lif (.ok <| .lim · ·) rfl rfl
  | lih => exact .lif (.ok <| .lih · ·) rfl rfl
  | beq => exact .bf (.ok <| .beq · · ·) rfl rfl
  | bne => exact .bf (.ok <| .bne · · ·) rfl rfl
  | blt => exact .bf (.ok <| .blt · · ·) rfl rfl
  | bge => exact .bf (.ok <| .bge · · ·) rfl rfl
  | bltu => exact .bf (.ok <| .bltu · · ·) rfl rfl
  | bgeu => exact .bf (.ok <| .bgeu · · ·) rfl rfl
  | jal => exact .jf (.ok <| .jal ·) rfl rfl
  | jalr => exact .ri (.ok <| .jalr · · · ·) rfl rfl
  | ld8 => exact .ri (.ok <| .ld8 · · · ·) rfl rfl
  | ld16 => exact .ri (.ok <| .ld16 · · · ·) rfl rfl
  | ld32 => exact .ri (.ok <| .ld32 · · · ·) rfl rfl
  | ld64 => exact .ri (.ok <| .ld64 · · · ·) rfl rfl
  | st8 => exact .ri (.ok <| .st8 · · · ·) rfl rfl
  | st16 => exact .ri (.ok <| .st16 · · · ·) rfl rfl
  | st32 => exact .ri (.ok <| .st32 · · · ·) rfl rfl
  | st64 => exact .ri (.ok <| .st64 · · · ·) rfl rfl
  | lnd _ _ _ _ s => exact .rr dec18 rfl (by cases s using bits2_cases <;> rfl)
  | lndV => exact .rr dec18 rfl rfl
  | rput | rputV => exact .rr dec19 rfl rfl
  | pst _ _ _ _ _ s => exact .rr dec1A rfl (by cases s using bits2_cases <;> rfl)
  | fenceP => exact .rr dec1B rfl rfl
  | fenceR s | fenceA s =>
    cases s using bits2_cases with
    | three => cases hwf
    | _ => exact .rr dec1B rfl rfl
  | pf => exact .ri (.ok <| .pf · · · ·) rfl rfl
  | amoAlu w _ _ _ _ _ o =>
    cases w with
    | false => exact .rr (dec20 false) rfl (by cases o using bits3_cases with | _ x => cases x using bits2_cases <;> rfl)
    | true => exact .rr (dec21 true) rfl (by cases o using bits3_cases with | _ x => cases x using bits2_cases <;> rfl)
  | amoSwap w | amoCas w | amoIncw w | amoAddb w =>
    cases w with
    | false => exact .rr (dec20 false) rfl rfl
    | true => exact .rr (dec21 true) rfl rfl
  | amoFadd => exact .rr (dec20 false) rfl rfl
  | cadd _ _ _ _ s | cfadd _ _ _ _ _ s | cpoll _ _ _ _ _ s => exact .rr dec22 rfl (by cases s using bits2_cases <;> rfl)
  | cwait _ _ _ _ _ s =>
    cases s using bits2_cases with
    | zero => cases hwf
    | _ => exact .rr dec22 rfl rfl
  | cread | cset => exact .rr dec22 rfl rfl
  | send _ _ _ _ _ s => exact .rr dec30 rfl (by cases s using bits2_cases <;> rfl)
  | sendg _ _ _ _ _ s => exact .rr dec31 rfl (by cases s using bits2_cases <;> rfl)
  | spawn => exact .rr dec32 rfl rfl
  | bind | unbind | clsmask => exact .rr dec33 rfl rfl
  | armG | armV | armM => exact .rr dec34 rfl rfl
  | live _ _ t =>
    cases t using bits2_cases with
    | three => cases hwf
    | _ => exact .rr dec35 rfl rfl
  | myaddr => exact .rr dec36 rfl (by simp [dec36_eq, need])
  | yield | endTask => exact .rr dec37 rfl rfl
  | rpt => exact .rptf (fun sd sa sb z n l => need (decide (z = 0)) (.rpt sd sa sb n l)) rfl rfl
  | fol => exact .rr dec39 rfl rfl
  | unfol => exact .rr dec3A rfl rfl
  | vadd x | vsub x | vmul x | vmulh x | vmulhu x | vmin x | vmax x | vminu x | vmaxu x | vadds x | vaddsu x | vsubs x
  | vsubsu x | vabs x => exact .vf (dec40 x) rfl rfl (decodeRaw_vecInt x)
  | vand x | vor x | vxor x | vandn x | vshl x | vshr x | vsar x => exact .vf (dec44 x) rfl rfl (decodeRaw_vecLogic x)
  | veq x | vne x | vlt x | vltu x | vle x | vleu x =>
    exact .vf (dec48 x) rfl (by simp [dec48, need]) (decodeRaw_vecCompare x)
  | vfadd x | vfsub x | vfmul x | vfdiv x | vfsqrt x | vfmin x | vfmax x | vfma x | vfms x | vfnma x | vfnms x | vfabs x
  | vfneg x => exact .vf (dec4C x) rfl rfl (decodeRaw_vecFloat x)
  | vfeq x | vflt x | vfle x | vfun x =>
    exact .vf (dec50 x) rfl (by simp [dec50, need]) (decodeRaw_vecFloatCompare x)
  | vcvt => exact .vf dec54 rfl (by simp [dec54_eq, need])
  | vperm _ _ _ _ _ _ x | vslide _ _ _ _ _ _ x => exact .vf dec55 rfl (by cases x using bits2_cases <;> rfl)
  | vmerge => exact .vf dec55 rfl rfl
  | mand | mor | mxor | mandn | mnot => exact .vf dec56 rfl (by simp [dec56, need])
  | vrsum _ _ _ _ _ t => exact .vf dec57 rfl (by cases t using bits2_cases <;> rfl)
  | vrminF32 | vrmaxF32 | vrminI32 | vrmaxI32 => exact .vf dec57 rfl rfl
  | vqntMxe4 | vqntMxf4 => exact .vf dec58 rfl (by simp [dec58, need])
  | vqntK4 _ _ t p | vdqnt _ _ t p =>
    exact .vf dec58 rfl (by cases t using bits2_cases <;> cases p using bits2_cases <;> rfl)
  | vld => exact .vmf (.ok <| .vld · · · · ·) rfl rfl
  | vst => exact .vmf (.ok <| .vst · · · · ·) rfl rfl
  | vgath => exact .vmf (.ok <| .vgath · · · · ·) rfl rfl
  | vscat => exact .vmf (.ok <| .vscat · · · · ·) rfl rfl
  | vsplat _ _ _ x => exact .rr dec5D rfl (by cases x using bits2_cases <;> rfl)
  | vget | vput | mget | mput => exact .rr dec5D rfl rfl
  | vfxrd | vfxwr | vfxclr => exact .vf dec5E rfl rfl
  | mma p c l =>
    have hp : p.toNat ≤ 10 := by simp [Instr.wf] at hwf; exact hwf.1
    exact .xf _ rfl rfl (decodeRaw_mma hp)
  | mlease | mrel | mzero | mfree | mdrain | merr => exact .xf dec6B rfl rfl
  | mldA l | mldB l => cases l <;> exact .xf dec6B rfl rfl
  | xcopy | xcopyg => exact .rr dec6C rfl rfl
  | xgath | xscat => exact .rr dec6D rfl rfl
  | xred => exact .rr dec6E rfl rfl
  | xstat | xcancel => exact .rr dec6F rfl rfl
  | csrr => exact .ri (fun d a ka im => need (decide (a = 0) && !ka) (.csrr d im)) rfl rfl
  | csrw => exact .ri (.ok <| .csrw · · · ·) rfl rfl
  | csrset => exact .ri (.ok <| .csrset · · · ·) rfl rfl
  | csrclr => exact .ri (.ok <| .csrclr · · · ·) rfl rfl
  | svc | tret => exact .rr dec74 rfl rfl
  | tlbinv | tlbinvAll | tlbprobe | tlbreplayAll => exact .rr dec75 rfl rfl
  | brk => exact .jf (.ok <| .brk ·) rfl rfl
  | trc => exact .rr dec79 rfl rfl
  | seerd | seerdC => exact .rr dec7A rfl rfl
  | dbgsync => exact .rr dec7B rfl rfl
  | _ => exact .of_event rfl

/-- Settles O1, format by format and major by major: `readBack` gives the instruction back, and it is in its ranges. -/
theorem decodeEncode : Obligations.DecodeEncode := by
  unfold Obligations.DecodeEncode
  intro i w hwf he
  rw [decode, readBack i hwf w he]
  exact if_pos hwf

end Sys2Proof.Encoding
end

section
/-! # O5, O6, O10, O37: presence, register writes, the frame of the scalar forms, privilege -/

namespace Sys2Proof.Machine

/-! ### A write of a general register (R61, R64) -/

@[simp] theorem Frame.vecReg_wrG (f : Frame) (d : GReg) (v : Word) (r : VReg) (e : Nat) :
    (f.wrG d v).vecReg r e = f.vecReg r e := by rw [Frame.wrG_eq]; rfl
@[simp] theorem Frame.maskReg_wrG (f : Frame) (d : GReg) (v : Word) (r : MReg) : (f.wrG d v).maskReg r = f.maskReg r := by
  rw [Frame.wrG_eq]; rfl
@[simp] theorem Frame.specials_wrG (f : Frame) (d : GReg) (v : Word) : (f.wrG d v).specials = f.specials := by
  rw [Frame.wrG_eq]; rfl
@[simp] theorem Frame.vfx_wrG (f : Frame) (d : GReg) (v : Word) : (f.wrG d v).vfx = f.vfx := by rw [Frame.wrG_eq]
@[simp] theorem Frame.gLive_wrG (f : Frame) (d : GReg) (v : Word) : (f.wrG d v).gLive = f.gLive := by rw [Frame.wrG_eq]
@[simp] theorem Frame.pc_wrG (f : Frame) (d : GReg) (v : Word) : (f.wrG d v).pc = f.pc := by rw [Frame.wrG_eq]
@[simp] theorem Frame.rpt_wrG (f : Frame) (d : GReg) (v : Word) : (f.wrG d v).rpt = f.rpt := by rw [Frame.wrG_eq]
@[simp] theorem Frame.state_wrG (f : Frame) (d : GReg) (v : Word) : (f.wrG d v).state = f.state := by rw [Frame.wrG_eq]

theorem Frame.genReg_wrG_ne (f : Frame) {d r : GReg} (v : Word) (h : r ≠ d) : (f.wrG d v).genReg r = f.genReg r := by
  simp only [Frame.genReg, f.rdG_wrG_ne v h, f.gFull_wrG_ne v h, f.gPoison_wrG_ne v h, Frame.gLive_wrG]

@[simp] theorem Frame.genReg_zero_wrG (f : Frame) (d : GReg) (v : Word) : (f.wrG d v).genReg 0#6 = f.genReg 0#6 := by
  by_cases h : d = 0
  · subst h; rfl
  · exact f.genReg_wrG_ne v (Ne.symm h)

/-! ### Going on and running leave the registers alone -/

@[simp] theorem Frame.gFull_advance (f : Frame) : f.advance.gFull = f.gFull := by rw [Frame.advance_eq]
@[simp] theorem Frame.gPoison_advance (f : Frame) : f.advance.gPoison = f.gPoison := by rw [Frame.advance_eq]
@[simp] theorem Frame.state_advance (f : Frame) : f.advance.state = f.state := by rw [Frame.advance_eq]
@[simp] theorem Frame.genReg_unblock (f : Frame) (r : GReg) : f.unblock.genReg r = f.genReg r := rfl
@[simp] theorem Frame.vecReg_unblock (f : Frame) (r : VReg) (e : Nat) : f.unblock.vecReg r e = f.vecReg r e := rfl
@[simp] theorem Frame.maskReg_unblock (f : Frame) (r : MReg) : f.unblock.maskReg r = f.maskReg r := rfl
@[simp] theorem Frame.specials_unblock (f : Frame) : f.unblock.specials = f.specials := rfl
@[simp] theorem Frame.vfx_unblock (f : Frame) : f.unblock.vfx = f.vfx := rfl
@[simp] theorem Frame.state_unblock (f : Frame) : f.unblock.state = .running := rfl

theorem Frame.wentOn_advance {f g : Frame} (hpc : g.pc = f.pc) (hrpt : g.rpt = f.rpt) : f.wentOn g.advance := by
  intro h
  rw [← hpc]
  exact g.advance_pc (hrpt.trans h)

/-! ### What changes when one general register is written -/

@[simp] theorem State.me_gives (s : State) (d : GReg) (v : Word) :
    (s.gives d v).me = (s.me.unblock.wrG d v).advance := by simp [State.gives]

/-- Registers but g d, special registers, sticky flags, other tasks and bytes are as before. -/
def State.onlyG (s t : State) (d : GReg) : Prop :=
  (∀ r, r ≠ d → t.me.genReg r = s.me.genReg r) ∧ t.me.genReg 0 = s.me.genReg 0 ∧
  (∀ r e, t.me.vecReg r e = s.me.vecReg r e) ∧ (∀ r, t.me.maskReg r = s.me.maskReg r) ∧
  t.me.specials = s.me.specials ∧ t.me.vfx = s.me.vfx ∧ s.onlyMe t ∧ s.sameBytes t

theorem State.onlyG_gives (s : State) (d : GReg) (v : Word) : s.onlyG (s.gives d v) d := by
  refine ⟨fun r h => ?_, by simp, by simp, by simp, by simp, by simp, s.onlyMe_does _, s.sameBytes_does _⟩
  simp [Frame.genReg_wrG_ne _ v h]

theorem State.onlyG_next (s : State) (d : GReg) : s.onlyG (s.does fun f => f) d :=
  ⟨by simp, by simp, by simp, by simp, by simp, by simp, s.onlyMe_does _, s.sameBytes_does _⟩

/-- Settles O6: reading back what `gives` writes, by the laws of `wrG`; the rest is `onlyG_gives`. -/
theorem registerWrite : Obligations.RegisterWrite := by
  unfold Obligations.RegisterWrite
  intro s d v
  obtain ⟨gen, zero, vec, mask, spec, vfx, me, bytes⟩ := s.onlyG_gives d v
  refine ⟨?_, fun h => ⟨?_, ?_⟩, gen, zero, vec, mask, spec, vfx, me, bytes, ?_, by simp⟩
  · simp [Frame.rdG_wrG]
  · simp [Frame.gFull_wrG _ d v h]
  · simp [Frame.gPoison_wrG _ d v h]
  · rw [State.me_gives]
    exact Frame.wentOn_advance (Frame.pc_wrG ..) (Frame.rpt_wrG ..)

/-! ### The scalar forms (R186–R192) -/

/-- With sources full the instruction writes g d, or only goes on. -/
def State.scalar (s : State) (i : Instr) (srcs : List Src) (d : GReg) : Prop :=
  s.goes srcs → (∃ v, exec i s = .next (s.gives d v)) ∨ exec i s = .next (s.does fun f => f)

namespace State.scalar
variable {s : State} {i : Instr} {d a b : GReg} {ka kb : Bool}

theorem alu {op} (h : exec i s = .next (s.alu op d a b ka kb)) : s.scalar i [.g a ka, .g b kb] d :=
  fun hgo => .inl ⟨_, h.trans (congrArg _ (State.alu_go hgo op d))⟩

theorem alu1 {op} (h : exec i s = .next (s.alu1 op d a ka)) : s.scalar i [.g a ka] d :=
  fun hgo => .inl ⟨_, h.trans (congrArg _ (State.alu1_go hgo op d))⟩

theorem movIf {c} (h : exec i s = .next (s.movIf c d a b ka kb)) : s.scalar i [.g a ka, .g b kb] d := by
  intro hgo
  rw [h, State.movIf, State.issue_go hgo]
  split
  · exact .inl ⟨_, rfl⟩
  · exact .inr rfl

theorem onlyG {srcs t} (h : s.scalar i srcs d) (hgo : s.goes srcs) (ht : exec i s = .next t) : s.onlyG t d := by
  obtain ⟨v, hv⟩ | hn := h hgo
  · cases ht.symm.trans hv
    exact s.onlyG_gives d v
  · cases ht.symm.trans hn
    exact s.onlyG_next d

end State.scalar

theorem scalarForms_scalar (s : State) (d a b : GReg) (ka kb : Bool) (i : BitVec 12) (c : BitVec 6) (j : BitVec 19) :
    ∀ p ∈ scalarForms d a b ka kb i c j, s.scalar p.1 p.2 d := by
  simp only [scalarForms, withSrcs, List.forall_mem_append, List.forall_mem_map, List.forall_mem_cons, List.not_mem_nil,
    false_implies, implies_true, and_true]
  refine ⟨⟨⟨?two, ?one⟩, ?li⟩, ?same⟩
  case two =>
    refine ⟨.alu rfl, .alu rfl, .alu rfl, .alu rfl, .alu rfl, .alu rfl, .alu rfl, .alu rfl, .alu rfl, .alu rfl, .alu rfl, .alu rfl,
    .alu rfl, .alu rfl, .alu rfl, .alu rfl, .alu rfl, .alu rfl, .alu rfl, .alu rfl, .alu rfl, .alu rfl, .alu rfl, .alu rfl,
    .movIf rfl, .movIf rfl, .alu rfl, .alu rfl⟩
  case one => exact ⟨.alu1 rfl, .alu1 rfl, .alu1 rfl, .alu1 rfl, .alu1 rfl, .alu1 rfl, .alu1 rfl, .alu1 rfl, .alu1 rfl, .alu1 rfl⟩
  case li => exact fun _ => .inl ⟨sext64 j, rfl⟩
  case same => exact ⟨.alu1 rfl, .alu1 rfl⟩

/-- Settles O10: every form writes g d or, a failed `movz` or `movn`, only goes on. -/
theorem scalarFrame : Obligations.ScalarFrame := by
  unfold Obligations.ScalarFrame
  intro s t d a b ka kb i c j p hp hgo ht
  exact (scalarForms_scalar s d a b ka kb i c j p hp).onlyG hgo ht

/-! ### The presence check (R60) -/

/-- The bits of a general register as a source; g0 is full and not poisoned (R64). -/
def Frame.poisoned (f : Frame) (r : GReg) : Bool := decide (r ≠ 0) && f.gPoison.getLsbD r.toNat
def Frame.emptied (f : Frame) (r : GReg) : Bool := decide (r ≠ 0) && !f.gFull.getLsbD r.toNat

theorem regTval_g (r : GReg) : regTval 0 r.toNat 0 = BitVec.ofNat 64 r.toNat := by simp [regTval]

theorem Frame.poisonOf_g (f : Frame) (r : GReg) (k : Bool) : f.poisonOf (.g r k) =
    if f.poisoned r then some ((f.rawG r.toNat).setWidth 8, BitVec.ofNat 64 r.toNat) else none := by
  simp [Frame.poisonOf, Frame.poisoned, regTval_g]

theorem Frame.emptyOf_g (f : Frame) (r : GReg) (k : Bool) : f.emptyOf (.g r k) =
    if f.emptied r then some (BitVec.ofNat 64 r.toNat) else none := by
  simp [Frame.emptyOf, Frame.emptied, regTval_g]

section
variable {f : Frame} {a b : GReg} {ka kb : Bool}

theorem Frame.check_poison_first (ha : f.poisoned a = true) : f.check [.g a ka, .g b kb] =
    .trap ((f.rawG a.toNat).setWidth 8) (BitVec.ofNat 64 a.toNat) := by
  simp [Frame.check, Frame.poisonOf_g, ha]

theorem Frame.check_poison_second (ha : f.poisoned a = false) (hb : f.poisoned b = true) : f.check [.g a ka, .g b kb] =
    .trap ((f.rawG b.toNat).setWidth 8) (BitVec.ofNat 64 b.toNat) := by
  simp [Frame.check, Frame.poisonOf_g, ha, hb]

/-- With no poison, the emptiness of the sources and their strict bits decide. -/
theorem Frame.check_unpoisoned (ha : f.poisoned a = false) (hb : f.poisoned b = false) : f.check [.g a ka, .g b kb] =
    if f.emptied a && ka then .trap Cause.EMPTY (BitVec.ofNat 64 a.toNat)
    else if f.emptied b && kb then .trap Cause.EMPTY (BitVec.ofNat 64 b.toNat)
    else if f.emptied a || f.emptied b then .block else .go := by
  cases ka <;> cases kb <;> cases ea : f.emptied a <;> cases eb : f.emptied b <;>
    simp [Frame.check, Frame.poisonOf_g, Frame.emptyOf_g, List.filter_cons, Src.strict, Cause.EMPTY, ha, hb, ea, eb]

end

/-- Settles O5: `add` issues by the check of its two sources, whose outcome `check_poison_first`,
`check_poison_second` and `check_unpoisoned` give. -/
theorem presenceOrder : Obligations.PresenceOrder := by
  unfold Obligations.PresenceOrder
  intro s d a b ka kb f poison empty tval
  have trap {c t} (h : s.me.check [.g a ka, .g b kb] = .trap c t) : exec (.add d a b ka kb) s = .next (s.trap c t) :=
    congrArg _ (State.issue_trap h _)
  refine ⟨fun ha => trap (Frame.check_poison_first ha), fun ha hb => trap (Frame.check_poison_second ha hb), fun ha hb => ?_⟩
  have check : s.me.check [.g a ka, .g b kb] = if empty a && ka then .trap Cause.EMPTY (tval a)
      else if empty b && kb then .trap Cause.EMPTY (tval b) else if empty a || empty b then .block else .go :=
    Frame.check_unpoisoned ha hb
  refine ⟨fun ea k => trap ?strictA, fun sa eb k => trap ?strictB, fun sa sb e => ?block, fun ea eb => ?go⟩
  case strictA => rw [check, ea, k]; rfl
  case strictB => rw [check, sa, eb, k]; rfl
  case block =>
    have hblock : s.me.check [.g a ka, .g b kb] = .block := by rw [check, sa, sb, e]; rfl
    refine ⟨s.block (.presence [.g a ka, .g b kb]), congrArg _ (State.issue_block hblock _), State.updMe_eq .., ?_⟩
    rw [State.block, State.me_updMe]
    exact ⟨rfl, rfl, rfl, fun r => rfl⟩
  case go =>
    have hgo : s.goes [.g a ka, .g b kb] := by rw [State.goes, check, ea, eb]; rfl
    exact congrArg _ (State.alu_go hgo Alu.add d)

/-- Settles O37: `privileged` looks at the service mode before anything else. -/
theorem privilege : Obligations.Privilege := by
  unfold Obligations.Privilege
  intro s d a b ka kb h i hi
  have key k : Host.Outcome.next (s.privileged k) = (.next (s.trap Cause.PERM s.me.wordAddr) : Out) :=
    congrArg _ (State.privileged_user h k)
  simp only [List.mem_cons, List.not_mem_nil, or_false] at hi
  obtain rfl | rfl | rfl | rfl | rfl | rfl := hi <;> exact key _

end Sys2Proof.Machine
end

section
/-! # O60: the state right after reset -/

namespace Sys2Proof.Machine

/-! ### No table of the reset state lists anything: what is read is the reset entry -/

@[simp] theorem State.frame_reset (k : Nat) : State.reset.frame k = Frame.reset := rfl
@[simp] theorem State.core_reset (c : Nat) : State.reset.core c = Core.reset := rfl
@[simp] theorem Core.handler_reset (n : BitVec 4) : Core.reset.handler n = Handler.reset := rfl
@[simp] theorem State.tile_reset (t : Nat) : State.reset.tile t = Tile.reset := rfl
@[simp] theorem State.array_reset (t : Nat) : State.reset.array t = TArray.reset := rfl
@[simp] theorem State.job_reset (j : BitVec 12) : State.reset.job j = Job.reset := rfl
@[simp] theorem State.queueOf_reset (q : Nat) : State.reset.queueOf q = Queue.reset := rfl
@[simp] theorem State.port_reset (p : Nat) : State.reset.port p = Port.reset := rfl

/-- Every bank of a tile is a cache way, and none is gated (R205). -/
theorem Tile.reset_banks {n : Nat} (hn : n < 24) :
    Tile.reset.mode.getLsbD n = true ∧ Tile.reset.gate.getLsbD n = false :=
  ⟨BitVec.getLsbD_allOnes.trans (decide_eq_true hn), BitVec.getLsbD_zero⟩

/-- Settles O60: field by field, each the field of a reset entry. -/
theorem resetState : Obligations.ResetState := by
  unfold Obligations.ResetState
  simp only [State.frame_reset, State.core_reset, Core.handler_reset, State.tile_reset, State.array_reset, State.job_reset,
    State.queueOf_reset, State.port_reset]
  exact ⟨rfl, rfl, rfl, rfl, rfl, rfl, rfl, rfl, rfl, rfl, rfl, rfl, fun _ => ⟨rfl, rfl, rfl, rfl⟩,
    fun _ => ⟨rfl, rfl, rfl, rfl, rfl, rfl, fun _ => rfl⟩, fun _ _ hn => Tile.reset_banks hn, fun _ => ⟨rfl, rfl⟩,
    fun _ => ⟨rfl, rfl, rfl, rfl, rfl⟩, fun _ => ⟨trivial, rfl, rfl⟩, fun _ => rfl, fun _ => ⟨rfl, rfl, rfl, rfl⟩⟩

end Sys2Proof.Machine
end

section
/-! # O29: arm, live, myaddr, yield and end (R154–R157)

`arm` and `live` are bit arithmetic (`getLsbD_armBits` for the elements that `arm.v` takes), `myaddr` is that the fields of
a landing address do not overlap, and `yield` and `end` follow the frames, the tile's array and the messages through the
operations of which they are made. -/

namespace Sys2Proof.Machine

/-! ### arm and live (R155) -/

@[simp] theorem Frame.wait_advance (f : Frame) : f.advance.wait = f.wait := by rw [Frame.advance_eq]
@[simp] theorem Frame.rdG_unblock (f : Frame) (r : GReg) : f.unblock.rdG r = f.rdG r := rfl

/-- With its sources full an instruction has its effect at the state `issued`. -/
theorem exec_issue {s : State} {i : Instr} {srcs : List Src} {k : State → State} (hgo : s.goes srcs)
    (hi : exec i s = .next (s.issue srcs k)) : exec i s = .next (k s.issued) := hi.trans (congrArg _ (State.issue_go hgo k))

/-- An instruction that only changes its task's frame, by `u`, has the effect of any `v` that does the same there. -/
theorem exec_does {s : State} {i : Instr} {srcs : List Src} {u v : Frame → Frame} (hgo : s.goes srcs)
    (hi : exec i s = .next (s.issue srcs fun s => s.updMe fun f => (u f).advance)) (huv : u s.me.unblock = v s.me.unblock) :
    exec i s = .next (s.does v) := by
  rw [exec_issue hgo hi, State.does, State.updMe, State.updMe, State.me_issued, huv]

theorem getLsbD_notFirst {n : Nat} (x : BitVec n) (r : Nat) :
    (x &&& ~~~1#n).getLsbD r = (decide (r ≠ 0) && x.getLsbD r) := by
  by_cases hr : r < n
  · cases r <;> simp [hr]
  · simp [BitVec.getLsbD_of_ge _ _ (Nat.le_of_not_lt hr)]

/-- Bit r of the presence bits that arming clears and of those that it sets. -/
theorem armed_bits {n : Nat} (full poison live m : BitVec n) (r : Nat) (hr : r < n) :
    ((full &&& ~~~m).getLsbD r, (poison &&& ~~~m).getLsbD r, (live ||| m).getLsbD r) =
      if m.getLsbD r = true then (false, false, true) else (full.getLsbD r, poison.getLsbD r, live.getLsbD r) := by
  simp only [BitVec.getLsbD_and, BitVec.getLsbD_or, BitVec.getLsbD_not, hr, decide_true, Bool.true_and]
  cases m.getLsbD r <;> simp

theorem cleared_bits {n : Nat} (full poison m : BitVec n) (r : Nat) (hr : r < n) :
    ((full &&& ~~~m).getLsbD r, (poison &&& ~~~m).getLsbD r) =
      if m.getLsbD r = true then (false, false) else (full.getLsbD r, poison.getLsbD r) := by
  simp only [BitVec.getLsbD_and, BitVec.getLsbD_not, hr, decide_true, Bool.true_and]
  cases m.getLsbD r <;> simp

/-- The elements that `arm.v` takes of a vector register that it selects. -/
def armElem (elems : Byte) (e : Nat) : Bool := decide (elems = 0) || elems.getLsbD e

theorem getLsbD_elemByte (x : Byte) (n : Nat) {r e : Nat} (hr : r < 32) (he : e < 8) :
    ((x.setWidth 256) <<< (8 * n)).getLsbD (8 * r + e) = (decide (r = n) && x.getLsbD e) := by
  rw [BitVec.getLsbD_shiftLeft, BitVec.getLsbD_setWidth, decide_eq_true (by omega : 8 * r + e < 256)]
  obtain h | rfl | h := Nat.lt_trichotomy r n
  · simp [show 8 * r + e < 8 * n by omega, show r ≠ n by omega]
  · simp [show e < 256 by omega]
  · simp [BitVec.getLsbD_of_ge x (8 * r + e - 8 * n) (by omega), show r ≠ n by omega]

theorem getLsbD_armBits (sel : Word) (elems : Byte) {r e : Nat} (hr : r < 32) (he : e < 8) :
    (armBits sel elems).getLsbD (8 * r + e) = (sel.getLsbD r && armElem elems e) := by
  have helem : (if elems = 0 then 0xFF else elems).getLsbD e = armElem elems e := by
    unfold armElem
    split
    · interval_cases e <;> simp [*]
    · rw [decide_eq_false ‹_›, Bool.false_or]
  have key (l : List Nat) : (l.foldr (fun n x => if sel.getLsbD n then
      x ||| (((if elems = 0 then 0xFF else elems : Byte).setWidth 256) <<< (8 * n)) else x) 0).getLsbD (8 * r + e) =
        (decide (r ∈ l) && (sel.getLsbD r && armElem elems e)) := by
    induction l with
    | nil => simp
    | cons n l ih =>
      rw [List.foldr_cons]
      split
      · rw [BitVec.getLsbD_or, ih, getLsbD_elemByte _ _ hr he, helem]
        by_cases h : r = n <;> simp [*]
      · rw [ih]
        by_cases h : r = n <;> simp [*]
  rw [armBits, key, decide_eq_true (List.mem_range.mpr hr), Bool.true_and]

theorem armElem_setWidth (B : Word) {e : Nat} (he : e < 8) :
    armElem (B.setWidth 8) e = (decide (B.toNat % 256 = 0) || B.getLsbD e) := by
  have hzero : B.setWidth 8 = 0 ↔ B.toNat % 256 = 0 := by simp [BitVec.toNat_eq]
  rw [armElem, decide_eq_decide.mpr hzero, BitVec.getLsbD_setWidth, decide_eq_true he, Bool.true_and]

theorem armAndLive_holds : armAndLiveRule := by
  intro s a b ka kb y A B el
  refine ⟨fun hgo => ⟨?armG, ?armM, ?liveG, ?liveV, ?liveM⟩, fun hgo => ?armV⟩
  case armG =>
    let m := A &&& ~~~1#64
    refine ⟨s.me.gFull &&& ~~~m, s.me.gPoison &&& ~~~m, s.me.gLive ||| m, exec_does hgo rfl rfl, fun r hr => ?_⟩
    rw [armed_bits _ _ _ _ r hr, getLsbD_notFirst]
    simp
  case armM =>
    let m := (A &&& ~~~1#64).setWidth 8
    refine ⟨s.me.mFull &&& ~~~m, s.me.mPoison &&& ~~~m, s.me.mLive ||| m, exec_does hgo rfl rfl, fun r hr => ?_⟩
    rw [armed_bits _ _ _ _ r hr, BitVec.getLsbD_setWidth, getLsbD_notFirst]
    simp [hr]
  case liveG =>
    rintro rfl
    exact ⟨A &&& ~~~1#64, exec_does hgo rfl rfl, fun r hr => getLsbD_notFirst A r⟩
  case liveV =>
    rintro rfl
    exact ⟨A.setWidth 32, exec_does hgo rfl rfl, fun r hr => by simp [hr]⟩
  case liveM =>
    rintro rfl
    refine ⟨A.setWidth 8 &&& ~~~1#8, exec_does hgo rfl rfl, fun r hr => ?_⟩
    rw [getLsbD_notFirst, BitVec.getLsbD_setWidth, decide_eq_true hr, Bool.true_and]
  case armV =>
    let m := armBits A (B.setWidth 8)
    refine ⟨s.me.vFull &&& ~~~m, s.me.vPoison &&& ~~~m, s.me.vLive ||| A.setWidth 32, exec_does hgo rfl rfl,
      fun r e hr he => ?_, fun r hr => by simp [hr]⟩
    rw [cleared_bits _ _ _ _ (by omega), getLsbD_armBits A _ hr he, armElem_setWidth B he]
    simp only [Bool.and_eq_true, el]

/-! ### myaddr (R157) -/

theorem LandAddr.toNat_toWord (a : LandAddr) : a.toWord.toNat = 2 * 2 ^ 62 + a.chip.toNat * 2 ^ 51 + a.die.toNat * 2 ^ 50 +
    a.tile.toNat * 2 ^ 42 + a.core.toNat * 2 ^ 37 + a.frame.toNat * 2 ^ 29 + a.gen.toNat * 2 ^ 21 + a.cls.toNat * 2 ^ 19 +
    a.reg.toNat * 2 ^ 13 + a.elem.toNat * 2 ^ 10 + a.ctr.toNat * 2 ^ 8 := by
  have := a.chip.isLt
  have := a.die.isLt
  have := a.tile.isLt
  have := a.core.isLt
  have := a.frame.isLt
  have := a.gen.isLt
  have := a.cls.isLt
  have := a.reg.isLt
  have := a.elem.isLt
  have := a.ctr.isLt
  simp only [LandAddr.toWord, at64, ← BitVec.ofNat_add]
  exact BitVec.toNat_ofNat _ _ |>.trans (Nat.mod_eq_of_lt (by omega))

/-- A field of a landing address, of which the number of its word says what it is. -/
theorem LandAddr.field_toWord {a : LandAddr} {lo n : Nat} {x : BitVec n} (h : a.toWord.toNat / 2 ^ lo % 2 ^ n = x.toNat) :
    a.toWord.extractLsb' lo n = x := by
  apply BitVec.eq_of_toNat_eq
  rw [BitVec.extractLsb'_toNat, Nat.shiftRight_eq_div_pow, h]

theorem LandAddr.ofWord_toWord (a : LandAddr) : LandAddr.ofWord a.toWord = a := by
  have h := a.toNat_toWord
  obtain ⟨chip, die, tile, core, frame, gen, cls, reg, elem, ctr⟩ := a
  simp only [LandAddr.ofWord, LandAddr.mk.injEq]
  simp only at h
  refine ⟨field_toWord ?_, field_toWord ?_, field_toWord ?_, field_toWord ?_, field_toWord ?_, field_toWord ?_,
    field_toWord ?_, field_toWord ?_, field_toWord ?_, field_toWord ?_⟩ <;> (rw [h]; omega)

/-- Bits [63:62] mark a landing address, bits [7:0] are zero (R76). -/
theorem LandAddr.toWord_fixed (a : LandAddr) : a.toWord.extractLsb' 62 2 = 2 ∧ a.toWord.extractLsb' 0 8 = 0 := by
  have h := a.toNat_toWord
  constructor
  · apply field_toWord
    rw [h]
    change _ = 2
    omega
  · apply field_toWord
    rw [h]
    change _ = 0
    omega

theorem exec_myaddr (s : State) (d r : GReg) (c y : BitVec 2) (e : BitVec 3) :
    exec (.myaddr d r c y e) s = .next (s.gives d (s.me.landing c r e y)) := by
  have hland : s.issued.me.landing c r e y = s.me.landing c r e y := by rw [State.me_issued]; rfl
  rw [← hland]
  rfl

theorem myAddress_holds : myAddressRule := by
  intro s d r c y e
  have fixed := LandAddr.toWord_fixed
  exact ⟨s.me.landing c r e y, exec_myaddr s d r c y e, (fixed _).1, (fixed _).2, LandAddr.ofWord_toWord _⟩

/-! ### yield (R155, R179) -/

/-- A table whose values are mapped. -/
theorem Tab.get?_map {α β : Type} (t : Table α) (g : α → β) (k : Nat) :
    Tab.get? (t.map fun p => (p.1, g p.2)) k = (Tab.get? t k).map g := by
  induction t with
  | nil => rfl
  | cons p t ih =>
    simp only [List.map_cons, Tab.get?, ih]
    split <;> rfl

/-- What a frame becomes when task k goes, or with `gone` cancels the joins with it (R178, R179). -/
def State.followsOn (s : State) (k : Nat) (gone : Bool) (f : Frame) : Frame :=
  match f.follow with
  | some (l, _, joined) =>
    if l ≠ k then f
    else if joined then { f with follow := none }
    else if gone ∧ f.wait = .join then s.released { f with follow := none }
    else f
  | none => f

theorem State.loseFollowers_eq (s : State) (k : Nat) (gone : Bool) :
    s.loseFollowers k gone = { s with frames := s.frames.map fun p => (p.1, s.followsOn k gone p.2) } := by
  unfold State.loseFollowers
  congr 1
  refine List.map_congr_left fun p _ => ?_
  unfold State.followsOn
  cases p.2.follow with
  | none => rfl
  | some x =>
    obtain ⟨l, w, joined⟩ := x
    dsimp only
    split_ifs <;> rfl

theorem State.frame_loseFollowers (s : State) (k : Nat) (gone : Bool) (i : Nat) :
    (s.loseFollowers k gone).frame i = s.followsOn k gone (s.frame i) := by
  rw [State.loseFollowers_eq, State.frame, Tab.get, Tab.get?_map, State.frame, Tab.get]
  cases Tab.get? s.frames i <;> rfl

/-- A task that loses the leader that it follows has the registers that it had. -/
theorem State.followsOn_eq (s : State) (k : Nat) (gone : Bool) (f : Frame) : ∃ l st w t,
    s.followsOn k gone f = { f with follow := l, state := st, wait := w, since := t } := by
  unfold State.followsOn
  cases f.follow with
  | none => exact ⟨_, _, _, _, rfl⟩
  | some x =>
    obtain ⟨l, w, joined⟩ := x
    dsimp only
    split_ifs <;> exact ⟨_, _, _, _, rfl⟩

theorem State.followsOn_same (s : State) (k : Nat) (f : Frame) : s.followsOn k false f = match f.follow with
    | some (l, _, true) => if l = k then { f with follow := none } else f
    | _ => f := by
  unfold State.followsOn
  obtain _ | ⟨l, w, _ | _⟩ := f.follow
  · rfl
  · simp
  · simp

theorem State.followsOn_false (s : State) (k : Nat) (f : Frame) : ∃ l, s.followsOn k false f = { f with follow := l } := by
  rw [State.followsOn_same]
  split
  · split
    · exact ⟨_, rfl⟩
    · exact ⟨f.follow, rfl⟩
  · exact ⟨f.follow, rfl⟩

@[simp] theorem State.me_loseFollowers (s : State) (k : Nat) (gone : Bool) :
    (s.loseFollowers k gone).me = s.followsOn k gone s.me := s.frame_loseFollowers k gone _

theorem Frame.sameRegs_refl (f : Frame) : f.sameRegs f := ⟨fun _ => rfl, fun _ _ => rfl, fun _ => rfl, rfl, rfl⟩

theorem Frame.sameRegs_advance (f : Frame) : f.sameRegs f.advance :=
  ⟨f.genReg_advance, f.vecReg_advance, f.maskReg_advance, f.specials_advance, f.vfx_advance⟩

/-- What `yield` makes of the frame of its task. -/
def State.yielding (s : State) (f : Frame) : Frame :=
  { f.advance with state := if s.jobHeld f.job then f.state else .ready, since := s.clk.cycle, yielded := true }

theorem exec_yield (s : State) :
    exec .yield s = .next ((s.issued.updMe s.issued.yielding).loseFollowers s.run.cur false) :=
  exec_issue (k := fun s => (s.updMe s.yielding).loseFollowers s.run.cur false) s.goes_nil rfl

@[simp] theorem State.jobHeld_issued (s : State) (j : BitVec 12) : s.issued.jobHeld j = s.jobHeld j := rfl

theorem yield_holds : yieldRule := by
  intro s
  have hme : ((s.issued.updMe s.issued.yielding).loseFollowers s.run.cur false).me =
      s.followsOn s.run.cur false (s.issued.yielding s.me.unblock) := by
    rw [State.me_loseFollowers, State.me_updMe, State.me_issued]
    rfl
  obtain ⟨l, hl⟩ := s.followsOn_false s.run.cur (s.issued.yielding s.me.unblock)
  rw [hl] at hme
  refine ⟨_, exec_yield s, ?frames, ?regs, ?went, ?wait, ?state, fun k hk => ?others⟩
  case frames =>
    rw [State.loseFollowers_eq]
    rfl
  case regs =>
    rw [hme]
    exact s.me.unblock.sameRegs_advance
  case went =>
    rw [hme]
    exact Frame.wentOn_advance (g := s.me.unblock) rfl rfl
  case wait =>
    rw [hme]
    exact s.me.unblock.wait_advance
  case state =>
    rw [hme]
    rfl
  case others =>
    have hframe : (s.issued.updMe s.issued.yielding).frame k = s.frame k :=
      (s.issued.frame_updMe_ne _ hk).trans (s.frame_updMe_ne _ hk)
    have h := (s.issued.updMe s.issued.yielding).frame_loseFollowers s.run.cur false k
    rw [State.followsOn_same, hframe] at h
    exact h

/-! ### What a task gives up when it retires (R156, R179, R283) -/

theorem State.record_eq (s : State) (r : Rec) : ∃ c d, s.record r = { s with clk := c, dbg := d } := by
  unfold State.record
  split_ifs <;> exact ⟨_, _, rfl⟩

/-- A trace record changes the trace unit, and may draw a free value. -/
theorem State.trace_eq (s : State) (kind core : Nat) (f : Frame) (tag : Nat) (payload : Word) :
    ∃ c d, s.trace kind core f tag payload = { s with clk := c, dbg := d } := by
  unfold State.trace
  split_ifs
  · obtain ⟨c, d, h⟩ := s.record_eq ⟨(s.recHead kind core f tag).1, (s.recHead kind core f tag).2, s.recTime core, payload⟩
    dsimp only
    rw [h]
    exact ⟨_, _, rfl⟩
  · exact ⟨_, _, rfl⟩

/-- A frame that may have left its leader, with its registers, its origin and its place. -/
def Frame.unled (f g : Frame) : Prop :=
  ∃ l ss st w t, g = { f with follow := l, stream := ss, state := st, wait := w, since := t }

theorem Frame.unled.sameRegs {f g : Frame} (h : f.unled g) : f.sameRegs g := by
  obtain ⟨l, ss, st, w, t, rfl⟩ := h
  exact f.sameRegs_refl

theorem Frame.unled.origin {f g : Frame} (h : f.unled g) : g.origin = f.origin := by
  obtain ⟨l, ss, st, w, t, rfl⟩ := h
  rfl

theorem State.unfollow_frame (s : State) (k i : Nat) : (s.frame i).unled ((s.unfollow k).frame i) := by
  have h : (s.unfollow k).frame i = (s.setFrame k { s.frame k with follow := none, stream := [] }).frame i := by
    unfold State.unfollow
    dsimp only
    split_ifs <;> rfl
  rw [h]
  by_cases hi : i = k
  · subst hi
    rw [State.frame_setFrame]
    exact ⟨_, _, _, _, _, rfl⟩
  · rw [State.frame_setFrame_ne _ _ hi]
    exact ⟨_, _, _, _, _, rfl⟩

theorem State.endFollow_frame (s : State) (k i : Nat) : (s.frame i).unled ((s.endFollow k).frame i) := by
  obtain ⟨l, ss, st, w, t, h⟩ := s.unfollow_frame k i
  obtain ⟨l', st', w', t', h'⟩ := (s.unfollow k).followsOn_eq k true ((s.unfollow k).frame i)
  rw [State.endFollow, State.frame_loseFollowers, h', h]
  exact ⟨_, _, _, _, _, rfl⟩

theorem State.unfollow_eq (s : State) (k : Nat) : ∃ fs cs, s.unfollow k = { s with frames := fs, cores := cs } := by
  unfold State.unfollow
  dsimp only
  split_ifs <;> exact ⟨_, _, rfl⟩

theorem State.endFollow_eq (s : State) (k : Nat) : ∃ fs cs, s.endFollow k = { s with frames := fs, cores := cs } := by
  obtain ⟨fs, cs, h⟩ := s.unfollow_eq k
  rw [State.endFollow, State.loseFollowers_eq, h]
  exact ⟨_, _, rfl⟩

/-- The state in which a retiring task has left its leader, followers and waits. -/
def State.letGo (s : State) : State :=
  let k := s.run.cur
  let f := s.me
  let s := s.trace 2 (f.coreAt k) f 0 (BitVec.ofNat 64 (s.clk.cycle - f.started))
  ((s.endFollow k).withdraw k).leaves (f.coreAt k)

/-- The state in which it has also given up the lease, its accumulators and its refused entries. -/
def State.relinquished (s : State) : State :=
  let t := tileOfCore (coreOfFrame s.run.cur)
  let u := s.letGo.endLease s.run.cur false
  (u.setArray t ((u.array t).release s.me.origin.key s.me.origin.gen)).freeRefused s.me.taskId

/-- The state in which the entry in which it ran is free, or after a handler retired (R156, R464). -/
def State.leftEntry (s : State) : State :=
  if s.me.atSvc then
    (s.relinquished.setFrame s.run.cur { s.me with state := .retired, resident := false }).send
      (.notice s.run.cur s.me.origin.gen)
  else s.relinquished.setFrame s.run.cur s.me.freed

/-- The origin of a guest is left retired too (R464). -/
theorem State.retire_eq (s : State) : s.retire =
    if s.me.guest then
      (s.leftEntry.setFrame s.me.origin.key { s.leftEntry.frame s.me.origin.key with state := .retired }).send
        (.notice s.me.origin.key s.me.origin.gen)
    else s.leftEntry := rfl

/-- No byte differs, the same task is current, and every task has its registers, origin and place. -/
def State.keepsTasks (s t : State) : Prop := t.mem = s.mem ∧ t.run = s.run ∧ ∀ i, (s.frame i).unled (t.frame i)

theorem Frame.unled.refl (f : Frame) : f.unled f := ⟨_, _, _, _, _, rfl⟩

theorem Frame.unled.trans {f g h : Frame} (hfg : f.unled g) (hgh : g.unled h) : f.unled h := by
  obtain ⟨l, ss, st, w, t, rfl⟩ := hfg
  obtain ⟨l', ss', st', w', t', rfl⟩ := hgh
  exact ⟨_, _, _, _, _, rfl⟩

namespace State.keepsTasks
variable {s t u : State}

theorem trans (h : s.keepsTasks t) (h' : t.keepsTasks u) : s.keepsTasks u := by
  obtain ⟨mem, run, frame⟩ := h
  obtain ⟨mem', run', frame'⟩ := h'
  exact ⟨mem'.trans mem, run'.trans run, fun i => (frame i).trans (frame' i)⟩

theorem of_frames (mem : t.mem = s.mem) (run : t.run = s.run) (frames : t.frames = s.frames) : s.keepsTasks t := by
  refine ⟨mem, run, fun i => ?_⟩
  rw [State.frame, State.frame, frames]
  exact .refl _

theorem trace (kind core : Nat) (f : Frame) (tag : Nat) (payload : Word) : s.keepsTasks (s.trace kind core f tag payload) := by
  obtain ⟨c, d, h⟩ := s.trace_eq kind core f tag payload
  rw [h]
  exact .of_frames rfl rfl rfl

theorem endFollow (k : Nat) : s.keepsTasks (s.endFollow k) := by
  obtain ⟨fs, cs, h⟩ := s.endFollow_eq k
  exact ⟨by rw [h], by rw [h], s.endFollow_frame k⟩

theorem endLease (k : Nat) : s.keepsTasks (s.endLease k false) := by
  unfold State.endLease
  dsimp only
  split
  · rw [if_neg Bool.false_ne_true]
    split_ifs <;> exact .of_frames rfl rfl rfl
  · exact .of_frames rfl rfl rfl

theorem letGo (s : State) : s.keepsTasks s.letGo :=
  (trace ..).trans ((endFollow _).trans (.of_frames rfl rfl rfl))

theorem relinquished (s : State) : s.keepsTasks s.relinquished :=
  (letGo s).trans ((endLease _).trans (.of_frames rfl rfl rfl))

end State.keepsTasks

/-- After `endLease` the frame's tile has no lease of the frame. -/
theorem State.endLease_lease {s : State} {k : Nat} {l : Lease}
    (h : ((s.endLease k false).array (tileOfCore (coreOfFrame k))).lease = some l) :
    ¬(l.task = (s.frame k).origin.key ∧ l.gen = (s.frame k).origin.gen) := by
  unfold State.endLease at h
  dsimp only at h
  split at h
  next l' hl' =>
    rw [if_neg Bool.false_ne_true] at h
    split_ifs at h with hold
    · rw [State.array_setArray] at h
      cases h
    · cases hl'.symm.trans h
      exact hold
  next hnone => cases hnone.symm.trans h

/-- An accumulator that its owner o gives up starts to be freed (R283). -/
def Acc.release (x : Acc) (o : Nat) (gen : BitVec 8) : Acc := match x.owner with
  | some w => if w.key = o ∧ w.gen = gen then { x with freeing := true } else x
  | none => x

theorem TArray.acc_release (a : TArray) (o : Nat) (gen : BitVec 8) (n : BitVec 2) :
    (a.release o gen).acc n = (a.acc n).release o gen := by
  unfold TArray.acc
  split_ifs <;> rfl

theorem Acc.freeing_release {x : Acc} {o : Nat} {gen : BitVec 8} {w : AccOwner} (h : (x.release o gen).owner = some w)
    (hkey : w.key = o) (hgen : w.gen = gen) : (x.release o gen).freeing = true := by
  unfold Acc.release at h ⊢
  split at h
  next w' hw' =>
    split_ifs at h ⊢ with hold
    · rfl
    · cases hw'.symm.trans h
      exact absurd ⟨hkey, hgen⟩ hold
  next hnone => cases hnone.symm.trans h

/-- The lease and the accumulators of a retiring task's tile. -/
theorem State.relinquished_array (s : State) :
    let a := s.relinquished.array (tileOfCore (coreOfFrame s.run.cur))
    (∀ l, a.lease = some l → ¬(l.task = s.me.origin.key ∧ l.gen = s.me.origin.gen)) ∧
    ∀ n w, (a.acc n).owner = some w → w.key = s.me.origin.key → w.gen = s.me.origin.gen → (a.acc n).freeing = true := by
  intro a
  have ha : a = ((s.letGo.endLease s.run.cur false).array (tileOfCore (coreOfFrame s.run.cur))).release
      s.me.origin.key s.me.origin.gen := State.array_setArray ..
  obtain ⟨-, -, hframe⟩ := State.keepsTasks.letGo s
  have horigin : (s.letGo.frame s.run.cur).origin = s.me.origin := (hframe _).origin
  rw [ha]
  refine ⟨fun l hl => ?_, fun n w => ?_⟩
  · rw [← horigin]
    exact State.endLease_lease hl
  · rw [TArray.acc_release]
    exact Acc.freeing_release

/-! ### The frames of a task that retires (R144, R156, R464) -/

/-- What the entry that the task leaves, and the origin of a guest, change beside the frames. -/
theorem State.leftEntry_keeps (s : State) : s.leftEntry.mem = s.relinquished.mem ∧ s.leftEntry.run = s.relinquished.run ∧
    s.leftEntry.arrays = s.relinquished.arrays := by
  unfold State.leftEntry
  split <;> exact ⟨rfl, rfl, rfl⟩

theorem State.retire_keeps (s : State) : s.retire.mem = s.mem ∧ s.retire.run = s.run ∧
    s.retire.arrays = s.relinquished.arrays := by
  obtain ⟨mem, run, -⟩ := State.keepsTasks.relinquished s
  obtain ⟨mem', run', arrays⟩ := s.leftEntry_keeps
  rw [State.retire_eq]
  split <;> exact ⟨mem'.trans mem, run'.trans run, arrays⟩

theorem State.me_retire (s : State) : s.retire.me = s.retire.frame s.run.cur := by
  obtain ⟨-, run, -⟩ := s.retire_keeps
  rw [State.me, run]

theorem State.frame_leftEntry_ne (s : State) {i : Nat} (h : i ≠ s.run.cur) : s.leftEntry.frame i = s.relinquished.frame i := by
  unfold State.leftEntry
  split
  · exact State.frame_setFrame_ne _ _ h
  · exact State.frame_setFrame_ne _ _ h

theorem State.leftEntry_home {s : State} (ha : s.me.atSvc = false) : s.leftEntry.frame s.run.cur = s.me.freed := by
  rw [State.leftEntry, if_neg (by simp [ha])]
  exact State.frame_setFrame ..

theorem State.leftEntry_service {s : State} (ha : s.me.atSvc = true) :
    s.leftEntry.frame s.run.cur = { s.me with state := .retired, resident := false } ∧
      Msg.notice s.run.cur s.me.origin.gen ∈ s.leftEntry.net := by
  rw [State.leftEntry, if_pos ha]
  exact ⟨State.frame_setFrame .., List.mem_append_right _ (List.mem_singleton_self _)⟩

/-- A task at its origin leaves one entry. -/
theorem State.retire_home {s : State} (hg : s.me.guest = false) : s.retire = s.leftEntry := by
  rw [State.retire_eq, if_neg (by simp [hg])]

/-- A guest leaves its own entry, and its origin's. -/
theorem State.retire_guest {s : State} (hg : s.me.guest = true) (ho : s.me.origin.key ≠ s.run.cur) :
    s.retire.me = s.leftEntry.frame s.run.cur ∧ (s.retire.frame s.me.origin.key).state = .retired ∧
      (∀ m ∈ s.leftEntry.net, m ∈ s.retire.net) ∧ Msg.notice s.me.origin.key s.me.origin.gen ∈ s.retire.net := by
  rw [State.me_retire, State.retire_eq, if_pos hg]
  refine ⟨State.frame_setFrame_ne _ _ ho.symm, ?_, fun m => List.mem_append_left _,
    List.mem_append_right _ (List.mem_singleton_self _)⟩
  exact congrArg Frame.state (State.frame_setFrame ..)

theorem Frame.sameRegs.trans {f g h : Frame} (hfg : f.sameRegs g) (hgh : g.sameRegs h) : f.sameRegs h := by
  obtain ⟨gen, vec, mask, spec, vfx⟩ := hfg
  obtain ⟨gen', vec', mask', spec', vfx'⟩ := hgh
  exact ⟨fun r => (gen' r).trans (gen r), fun r e => (vec' r e).trans (vec r e), fun r => (mask' r).trans (mask r),
    spec'.trans spec, vfx'.trans vfx⟩

/-- An entry that is only marked retired has its registers. -/
theorem State.sameRegs_setRetired (s : State) (o i : Nat) :
    (s.frame i).sameRegs ((s.setFrame o { s.frame o with state := .retired }).frame i) := by
  by_cases h : i = o
  · subst h
    rw [State.frame_setFrame]
    exact (s.frame i).sameRegs_refl
  · rw [State.frame_setFrame_ne _ _ h]
    exact (s.frame i).sameRegs_refl

theorem State.frame_retire_ne (s : State) {i : Nat} (h : i ≠ s.run.cur) : (s.frame i).sameRegs (s.retire.frame i) := by
  obtain ⟨-, -, frame⟩ := State.keepsTasks.relinquished s
  have hleft : (s.frame i).sameRegs (s.leftEntry.frame i) := by
    rw [s.frame_leftEntry_ne h]
    exact (frame i).sameRegs
  rw [State.retire_eq]
  split
  · exact hleft.trans (s.leftEntry.sameRegs_setRetired _ i)
  · exact hleft

theorem State.sameBytes_of_mem {s t : State} (h : t.mem = s.mem) : s.sameBytes t := fun p => by
  cases p <;> simp only [State.byteAt, State.bankByte, State.sramByte, h]

@[simp] theorem State.guest_issued (s : State) : s.issued.me.guest = s.me.guest := by rw [State.me_issued]; rfl
@[simp] theorem State.atSvc_issued (s : State) : s.issued.me.atSvc = s.me.atSvc := by rw [State.me_issued]; rfl
@[simp] theorem State.origin_issued (s : State) : s.issued.me.origin = s.me.origin := by rw [State.me_issued]; rfl
@[simp] theorem State.freed_issued (s : State) : s.issued.me.freed = s.me.freed := by rw [State.me_issued]; rfl

theorem end_holds : endRule := by
  intro s f o t0
  obtain ⟨mem, -, arrays⟩ := s.issued.retire_keeps
  obtain ⟨lease, acc⟩ := s.issued.relinquished_array
  have array : s.issued.retire.array t0 = s.issued.relinquished.array t0 := by rw [State.array, arrays]; rfl
  have home (ha : f.atSvc = false) : s.issued.leftEntry.frame s.run.cur = s.me.freed := by
    rw [← s.freed_issued]
    exact State.leftEntry_home (s.atSvc_issued.trans ha)
  have service (ha : f.atSvc = true) :
      s.issued.leftEntry.frame s.run.cur = { s.me.unblock with state := .retired, resident := false } ∧
        Msg.notice s.run.cur f.origin.gen ∈ s.issued.leftEntry.net := by
    rw [← s.me_issued, ← s.origin_issued]
    exact State.leftEntry_service (s.atSvc_issued.trans ha)
  have own (hg : f.guest = false) : s.issued.retire = s.issued.leftEntry := State.retire_home (s.guest_issued.trans hg)
  have guest (hg : f.guest = true) (ho : o ≠ s.run.cur) : s.issued.retire.me = s.issued.leftEntry.frame s.run.cur ∧
      (s.issued.retire.frame o).state = .retired ∧ (∀ m ∈ s.issued.leftEntry.net, m ∈ s.issued.retire.net) ∧
        Msg.notice o f.origin.gen ∈ s.issued.retire.net := by
    have h := State.retire_guest (s.guest_issued.trans hg) (by rwa [s.origin_issued])
    rwa [s.origin_issued] at h
  refine ⟨s.issued.retire, exec_issue s.goes_nil rfl, State.sameBytes_of_mem mem, fun hg ha => ?home,
    fun hg ha ho => ?guest, fun hg ha ho => ?guestService, fun hg ha => ?service, ?lease, ?acc, fun k hk => ?others⟩
  case home =>
    rw [State.me_retire, own hg, State.run_issued, home ha]
    rfl
  case guest =>
    obtain ⟨me, state, -, notice⟩ := guest hg ho
    exact ⟨me.trans (home ha), state, notice⟩
  case guestService =>
    obtain ⟨me, state, net, notice⟩ := guest hg ho
    obtain ⟨entry, own⟩ := service ha
    rw [me, entry]
    exact ⟨rfl, rfl, s.me.sameRegs_refl, state, net _ own, notice⟩
  case service =>
    obtain ⟨entry, notice⟩ := service ha
    rw [State.me_retire, own hg, State.run_issued, entry]
    exact ⟨rfl, rfl, s.me.sameRegs_refl, notice⟩
  case lease =>
    rw [array]
    rwa [s.origin_issued] at lease
  case acc =>
    rw [array]
    rwa [s.origin_issued] at acc
  case others =>
    have hframe : s.issued.frame k = s.frame k := s.frame_updMe_ne _ hk
    rw [← hframe]
    exact s.issued.frame_retire_ne hk

/-- Settles O29, by its four rules. -/
theorem taskControl : Obligations.TaskControl := by
  unfold Obligations.TaskControl
  exact ⟨armAndLive_holds, myAddress_holds, yield_holds, end_holds⟩

end Sys2Proof.Machine
end

section
/-! # O34: control registers (R79, R437) -/

namespace Sys2Proof.Machine

@[simp] theorem Frame.svc_unblock (f : Frame) : f.unblock.svc = f.svc := rfl

/-! ### The instructions -/

theorem csrRS_eq (c : BitVec 12) : csrRS c = (decide (c = 0x010) || decide (c = 0x011) || decide (c = 0x020) ||
    decide (c = 0x021) || decide (c = 0x022) || decide (c = 0x023)) := by
  rw [Bool.eq_iff_iff]
  simp only [csrRS, Bool.or_eq_true, Bool.and_eq_true, decide_eq_true_eq]
  bv_omega

theorem exec_csrr (s : State) (d : GReg) (c : BitVec 12) :
    exec (.csrr d c) s = .next (s.gives d (if csrRS c = true ∧ s.me.svc = false then 0 else s.issued.csrValue c)) := by
  have h := exec_issue (i := .csrr d c) (k := fun s => s.retG d (if csrRS c && !s.me.svc then 0 else s.csrValue c))
    s.goes_nil rfl
  simpa only [State.svc_issued, State.retG_issued, Bool.and_eq_true, Bool.not_eq_true'] using h

section
variable {s : State} {d a : GReg} {ka : Bool} {c : BitVec 12} {i : Instr} {op : Word → Word → Word}

/-- What the writing forms do where the register may be written. -/
theorem exec_csrOp (hi : exec i s = .next (s.csrOp op d a ka c)) (hgo : s.goes [.g a ka])
    (h : csrRS c = false ∨ s.me.svc = true) :
    exec i s = .next ((s.issued.csrWrite c (op (s.issued.csrValue c) (s.me.rdG a))).retG d (s.issued.csrValue c)) := by
  rw [exec_issue hgo hi]
  dsimp only
  rw [if_neg (by rcases h with h | h <;> simp [h]), State.rdG_issued]

theorem exec_csrOp_perm (hi : exec i s = .next (s.csrOp op d a ka c)) (hgo : s.goes [.g a ka])
    (hc : csrRS c = true) (hs : s.me.svc = false) : exec i s = .next (s.issued.trap Cause.PERM s.me.wordAddr) := by
  rw [exec_issue hgo hi]
  dsimp only
  rw [if_pos (by simp [hc, hs]), State.wordAddr_issued]

end

theorem controlInstructions_holds : controlInstructionsRule := by
  intro s d a ka c A old service wrote
  have hservice : csrRS c = service := csrRS_eq c
  refine ⟨?_, fun hgo h => ⟨exec_csrOp (op := fun _ v => v) rfl hgo ?_,
    exec_csrOp (op := fun o v => o ||| v) rfl hgo ?_, exec_csrOp (op := fun o v => o &&& ~~~v) rfl hgo ?_⟩, fun hgo hc hs i hi => ?_⟩
  · rw [exec_csrr, hservice]
  · rwa [hservice]
  · rwa [hservice]
  · rwa [hservice]
  · simp only [List.mem_cons, List.not_mem_nil, or_false] at hi
    rw [← hservice] at hc
    obtain rfl | rfl | rfl := hi
    · exact exec_csrOp_perm rfl hgo hc hs
    · exact exec_csrOp_perm rfl hgo hc hs
    · exact exec_csrOp_perm rfl hgo hc hs

/-! ### The fields that a write keeps -/

theorem getLsbD_putFld {n : Nat} (x : BitVec n) (lo len v i : Nat) (hi : i < n) :
    (putFld x lo len v).getLsbD i = if lo ≤ i ∧ i < lo + len then v.testBit (i - lo) else x.getLsbD i := by
  have hmask : (BitVec.ofNat n (2 ^ len - 1)).getLsbD (i - lo) = decide (i - lo < len) := by
    rw [BitVec.getLsbD_ofNat, Nat.testBit_two_pow_sub_one, decide_eq_true (by omega : i - lo < n), Bool.true_and]
  have hval : (BitVec.ofNat n (v % 2 ^ len)).getLsbD (i - lo) = (decide (i - lo < len) && v.testBit (i - lo)) := by
    rw [BitVec.getLsbD_ofNat, Nat.testBit_mod_two_pow, decide_eq_true (by omega : i - lo < n), Bool.true_and]
  simp only [putFld, BitVec.getLsbD_or, BitVec.getLsbD_and, BitVec.getLsbD_not, BitVec.getLsbD_shiftLeft, hmask, hval, hi]
  by_cases h1 : i < lo
  · simp [h1, show ¬ lo ≤ i by omega]
  · by_cases h2 : i - lo < len
    · simp [h1, h2, show lo ≤ i by omega, show i < lo + len by omega]
    · simp [h1, h2, show ¬ i < lo + len by omega]

theorem extract_putFld_self {n : Nat} (x : BitVec n) (lo len : Nat) (v : BitVec len) (h : lo + len ≤ n) :
    (putFld x lo len v.toNat).extractLsb' lo len = v := by
  refine BitVec.eq_of_getLsbD_eq fun i hi => ?_
  rw [BitVec.getLsbD_extractLsb', getLsbD_putFld _ _ _ _ _ (by omega), if_pos (by omega), decide_eq_true hi, Bool.true_and,
    Nat.add_sub_cancel_left, BitVec.getLsbD]

theorem extract_putFld_ne {n : Nat} (x : BitVec n) (lo len lo' len' v : Nat) (h : lo' + len' ≤ n)
    (hne : lo' + len' ≤ lo ∨ lo + len ≤ lo') : (putFld x lo len v).extractLsb' lo' len' = x.extractLsb' lo' len' := by
  refine BitVec.eq_of_getLsbD_eq fun i hi => ?_
  rw [BitVec.getLsbD_extractLsb', getLsbD_putFld _ _ _ _ _ (by omega), if_neg (by omega), BitVec.getLsbD_extractLsb']

theorem fcsrWritten_eq (old v : Word) : fcsrWritten old v =
    BitVec.ofNat 64 (8 * (v.toNat / 8 % 2) + (if v.toNat % 8 ≤ 4 then v.toNat % 8 else old.toNat % 8)) := by
  have hfld (w : Word) : fld w 0 3 = w.toNat % 8 := by simp [fld]
  have hfz : b2n (v.getLsbD 3) = v.toNat / 8 % 2 := by
    rw [BitVec.getLsbD, Nat.testBit_eq_decide_div_mod_eq, b2n]
    split <;> simp_all
  simp only [fcsrWritten, hfld, hfz, at64, pow_zero, mul_one]

theorem and_nineBits (v : Word) : v &&& 0x1FF#64 = BitVec.ofNat 64 (v.toNat % 512) := by
  apply BitVec.eq_of_toNat_eq
  rw [BitVec.toNat_and, BitVec.toNat_ofNat, BitVec.toNat_ofNat]
  exact (Nat.and_two_pow_sub_one_eq_mod v.toNat 9).trans (by omega)

theorem and_notThree (v : Word) : v &&& ~~~3#64 = BitVec.ofNat 64 (v.toNat / 4 * 4) := by
  have h : BitVec.ofNat 64 (v.toNat / 4 * 4) = (v >>> 2) <<< 2 := by
    apply BitVec.eq_of_toNat_eq
    simp [Nat.shiftRight_eq_div_pow, Nat.shiftLeft_eq]
  rw [h]
  refine BitVec.eq_of_getLsbD_eq fun i hi => ?_
  obtain _ | _ | i := i
  · simp
  · simp
  · have hbit : (3#64).getLsbD (i + 2) = false := by
      change Nat.testBit 3 (i + 1 + 1) = false
      rw [Nat.testBit_succ, Nat.testBit_succ]
      exact Nat.zero_testBit i
    rw [BitVec.getLsbD_and, BitVec.getLsbD_not, hbit, BitVec.getLsbD_shiftLeft, BitVec.getLsbD_ushiftRight]
    simp [hi, Nat.add_comm 2 i]

/-- The seeing accumulators take every bit (R502). -/
theorem State.csrValue_csrWrite_see (s : State) (v : Word) {c : BitVec 12} (h : 0x100 ≤ c.toNat) :
    (s.csrWrite c v).csrValue c = v := by
  have hwrite : s.csrWrite c v =
      s.setCore s.myCore { s.core s.myCore with see := Tab.put (s.core s.myCore).see (c.toNat - 0x100) v } := by
    unfold State.csrWrite
    split
    iterate 12 · omega
    rfl
  have hvalue (t : State) : t.csrValue c = Tab.get (t.core t.myCore).see (c.toNat - 0x100) 0 := by
    unfold State.csrValue
    dsimp only
    split
    iterate 12 · omega
    rfl
  have hcore : (s.csrWrite c v).myCore = s.myCore := by rw [hwrite]; rfl
  rw [hvalue, hcore, hwrite, State.core_setCore, Tab.get_put_self]

theorem controlFields_holds : controlFieldsRule := by
  intro s v read
  refine ⟨?fcsr, ?lo, ?hi, ?loKeeps, ?hiKeeps, ?cause, ?epc, ?tval, fun k hk => ?see, rfl, rfl, rfl, rfl, fun r c hc => ?rest⟩
  case fcsr =>
    have : read 0 = fcsrWritten s.me.fcsr v := congrArg Frame.fcsr (s.me_updMe _)
    rw [this, fcsrWritten_eq]
  case lo => 
    have : read 1 = (putFld s.me.vfx 0 64 (vfxKept v).toNat).extractLsb' 0 64 :=
      congrArg (·.vfx.extractLsb' 0 64) (s.me_updMe _)
    rw [this, extract_putFld_self _ _ _ _ (by omega)]
    rfl
  case hi => 
    have : read 2 = (putFld s.me.vfx 64 64 (vfxKept v).toNat).extractLsb' 64 64 :=
      congrArg (·.vfx.extractLsb' 64 64) (s.me_updMe _)
    rw [this, extract_putFld_self _ _ _ _ (by omega)]
    rfl
  case loKeeps =>
    have : (s.csrWrite 1 v).csrValue 2 = (putFld s.me.vfx 0 64 (vfxKept v).toNat).extractLsb' 64 64 :=
      congrArg (·.vfx.extractLsb' 64 64) (s.me_updMe _)
    rw [this, extract_putFld_ne _ _ _ _ _ _ (by omega) (by omega)]
    rfl
  case hiKeeps =>
    have : (s.csrWrite 2 v).csrValue 1 = (putFld s.me.vfx 64 64 (vfxKept v).toNat).extractLsb' 0 64 :=
      congrArg (·.vfx.extractLsb' 0 64) (s.me_updMe _)
    rw [this, extract_putFld_ne _ _ _ _ _ _ (by omega) (by omega)]
    rfl
  case cause => exact (congrArg Frame.cause (s.me_updMe _)).trans (and_nineBits v)
  case epc => exact (congrArg Frame.epc (s.me_updMe _)).trans (and_notThree v)
  case tval => exact congrArg Frame.tval (s.me_updMe _)
  case see => 
    apply State.csrValue_csrWrite_see
    rw [BitVec.toNat_ofNat]
    omega
  case rest =>
    simp only [List.mem_cons, List.not_mem_nil, or_false] at hc
    obtain rfl | rfl | rfl | rfl | rfl | rfl := hc <;> 
      exact ⟨congrArg (·.genReg r) (s.me_updMe _), State.sameBytes_of_mem rfl⟩

/-- Settles O34, by its two rules. -/
theorem controlRegisters : Obligations.ControlRegisters := by
  unfold Obligations.ControlRegisters
  exact ⟨controlInstructions_holds, controlFields_holds⟩

end Sys2Proof.Machine
end

section
/-! # O19: scalar loads (R209, R210)

The check of an address changes translation caches and draws free values, and a read notes what it returned
(`State.consulted`); so a load has the frame of one message and one emptied register (`asks_sent`). Bytes with no write
on record are what they are read as, because the pieces of a place are its bytes (`flatMap_pieces`). -/

namespace Sys2Proof.Machine

/-! ### What the check of an address and a read change -/

/-- Translation caches, free values and what reads returned may differ, nothing else. -/
def State.consulted (s v : State) : Prop := ∃ t n rs,
  v = { s with chip := { s.chip with tlb := t }, clk := { s.clk with free := n }, mem := { s.mem with reads := rs } }

namespace State.consulted
variable {s u v : State}

theorem refl (s : State) : s.consulted s := ⟨s.chip.tlb, s.clk.free, s.mem.reads, rfl⟩

theorem trans (h : s.consulted u) (h' : u.consulted v) : s.consulted v := by
  obtain ⟨_, _, _, rfl⟩ := h
  obtain ⟨t, n, rs, rfl⟩ := h'
  exact ⟨t, n, rs, rfl⟩

theorem translate (levels : List TlbAt) (job : BitVec 12) (svc : Bool) (acc : AccKind) (va : Word) :
    s.consulted (s.translate levels job svc acc va).1 := by
  unfold State.translate
  split
  · exact ⟨_, _, s.mem.reads, rfl⟩
  · split
    · exact refl s
    · exact ⟨_, _, s.mem.reads, rfl⟩

theorem target {va : Word} {n : Nat} {use : Use} {r : Target} (h : s.target va n use = (u, r)) : s.consulted u := by
  suffices hs : s.consulted (s.target va n use).1 by rwa [h] at hs
  have ht := translate (s := s) (coreLevels s.myCore) s.me.job s.me.svc use.acc va
  unfold State.target
  split_ifs
  · exact refl s
  · exact refl s
  · split <;> exact refl s
  · split <;> (rw [‹State.translate .. = _›] at ht; exact ht)

theorem look (who : TaskId) (known : List Nat) (p : Place) (bs : List Byte) : s.consulted (s.look who known p bs).1 :=
  ⟨s.chip.tlb, s.clk.free, _, rfl⟩

theorem lookGot (who : TaskId) (known : List Nat) (p : Place) (g : Got) : s.consulted (s.lookGot who known p g).1 := by
  cases g with
  | bytes bs => exact look who known p bs
  | err c => exact refl s

theorem sameBytes (h : s.consulted v) : s.sameBytes v := by
  obtain ⟨_, _, _, rfl⟩ := h
  intro p
  cases p <;> rfl

theorem me (h : s.consulted v) : v.me = s.me := by
  obtain ⟨_, _, _, rfl⟩ := h
  rfl

end State.consulted

/-! ### A long-latency destination is emptied (R62) -/

theorem Frame.gFull_emptyG (f : Frame) {d : GReg} (r : GReg) (hd : d ≠ 0) :
    (f.emptyG d).gFull.getLsbD r.toNat = if r = d then false else f.gFull.getLsbD r.toNat := by
  rw [Frame.emptyG, if_neg hd, getLsbD_setBit _ _ _ _ r.isLt]
  simp only [BitVec.toNat_inj]

/-- Emptying a register changes its full bit, and when it was issued. -/
theorem Frame.emptyG_eq (f : Frame) (d : GReg) : ∃ full at_, f.emptyG d = { f with gFull := full, issuedAt := at_ } := by
  unfold Frame.emptyG
  split
  · exact ⟨f.gFull, f.issuedAt, rfl⟩
  · exact ⟨_, _, rfl⟩

theorem Frame.genReg_emptyG_ne (f : Frame) {d r : GReg} (h : r ≠ d) : (f.emptyG d).genReg r = f.genReg r := by
  by_cases hd : d = 0
  · rw [Frame.emptyG, if_pos hd]
  · have hfull : (f.emptyG d).gFull.getLsbD r.toNat = f.gFull.getLsbD r.toNat := by rw [f.gFull_emptyG r hd, if_neg h]
    obtain ⟨full, at_, he⟩ := f.emptyG_eq d
    rw [Frame.genReg, hfull, he]
    rfl

theorem Frame.sameRegsBut_emptyG (f : Frame) (d : GReg) : f.sameRegsBut (f.emptyG d).advance d := by
  obtain ⟨full, at_, he⟩ := f.emptyG_eq d
  refine ⟨fun hd => ?full, ?value, fun r hr => ?others, ?zero, ?vec, ?mask, ?specials, ?vfx⟩
  case full => rw [Frame.gFull_advance, f.gFull_emptyG d hd, if_pos rfl]
  case value =>
    rw [Frame.rdG_advance, he]
    rfl
  case others => rw [Frame.genReg_advance, f.genReg_emptyG_ne hr]
  case zero =>
    rw [Frame.genReg_advance]
    by_cases hd : d = 0
    · rw [Frame.emptyG, if_pos hd]
    · exact f.genReg_emptyG_ne (Ne.symm hd)
  case vec =>
    intro r e
    rw [Frame.vecReg_advance, he]
    rfl
  case mask =>
    intro r
    rw [Frame.maskReg_advance, he]
    rfl
  case specials =>
    rw [Frame.specials_advance, he]
    rfl
  case vfx => rw [Frame.vfx_advance, he]

/-- A message goes on its way, and a register waits for the answer. -/
theorem asks_sent {s v : State} (d : GReg) (m : Msg) (h : s.issued.consulted v) :
    asks s (((v.updMe fun f => f.emptyDst (.g d)).send m).fresh.next) d m := by
  have hme : (((v.updMe fun f => f.emptyDst (.g d)).send m).fresh.next).me = (s.me.unblock.emptyG d).advance := by
    rw [State.next, State.me_updMe, State.me_fresh, State.me_send, State.me_updMe, h.me, State.me_issued]
    rfl
  obtain ⟨full, at_, he⟩ := s.me.unblock.emptyG_eq d
  have bytes : s.sameBytes v := h.sameBytes
  obtain ⟨_, _, _, rfl⟩ := h
  refine ⟨rfl, ?_, ?_, bytes, rfl⟩
  · rw [hme]
    exact s.me.unblock.sameRegsBut_emptyG d
  · rw [hme, he]
    exact Frame.wentOn_advance rfl rfl

theorem waits_block {s v : State} (h : s.issued.consulted v) : waits s (v.block .retry) := by
  have hme : (v.block .retry).me = { s.me.unblock with state := .waiting, wait := .retry, since := (v.block .retry).me.since } := by
    rw [State.block, State.me_updMe, h.me, State.me_issued]
  have bytes : s.sameBytes v := h.sameBytes
  obtain ⟨_, _, _, rfl⟩ := h
  unfold waits
  rw [hme]
  exact ⟨rfl, rfl, rfl, rfl, rfl, s.me.sameRegs_refl, bytes⟩

/-! ### Bytes with no write on record (R366) -/

/-- The pieces of the bytes from `off` on in 8-byte locations, of which the first k hold what lies before byte 8 × k. -/
theorem flatMap_pieces (bs : List Byte) {off : Nat} (h : off < 8) (k : Nat) :
    ((List.range k).flatMap fun i => (bs.drop (8 * i - off)).take (8 - if i = 0 then off else 0)) = bs.take (8 * k - off) := by
  induction k with
  | zero => simp
  | succ k ih =>
    rw [List.range_succ, List.flatMap_append, ih, List.flatMap_singleton]
    cases k with
    | zero => simp
    | succ k =>
      rw [if_neg (Nat.succ_ne_zero k), ← List.take_add]
      congr 1
      omega

theorem Place.flatMap_pieces {p q : Place} {off : Nat} (bs : List Byte) (hp : p.word = some (q, off)) (h : off < 8) :
    (p.pieces bs).flatMap (·.2.2) = bs := by
  rw [Place.pieces, hp]
  dsimp only
  rw [List.flatMap_map, Machine.flatMap_pieces bs h, List.take_of_length_le (by omega)]

/-- Which locations the bytes lie in depends on how many there are. -/
theorem Place.map_fst_pieces (p : Place) {bs cs : List Byte} (h : bs.length = cs.length) :
    (p.pieces bs).map (·.1) = (p.pieces cs).map (·.1) := by
  unfold Place.pieces
  split
  · rfl
  · simp only [List.map_map, h]
    rfl

theorem State.viewWord_unrecorded {s : State} {x : Place × Nat × List Byte} (h : ∀ y ∈ s.mem.past, y.at_ ≠ x.1)
    (known : List Nat) (i : Nat) : (s.viewWord known i x).1 = x.2.2 := by
  have hnone : (s.mem.past.filter fun y => decide (y.at_ = x.1)) = [] := by simpa using h
  unfold State.viewWord
  rw [hnone]
  rfl

section
variable {s : State} {p : Place} {c : Nat}

theorem Place.word_local (h : p.isLocal c = true) : ∃ q off, p.word = some (q, off) ∧ off < 8 := by
  cases p with
  | bank t off => exact ⟨_, _, rfl, Nat.mod_lt _ (by decide)⟩
  | sram k off => exact ⟨_, _, rfl, Nat.mod_lt _ (by decide)⟩
  | _ => cases h

theorem State.located_local (h : p.isLocal c = true) : s.located p = p := by
  cases p with
  | host a => cases h
  | _ => rfl

theorem State.length_localBytes (h : p.isLocal c = true) (n : Nat) : (s.localBytes p n).length = n := by
  cases p with
  | bank t off => simp [State.localBytes]
  | sram k off => simp [State.localBytes]
  | _ => cases h

/-- A read of local bytes returns them where no write to their locations is on record. -/
theorem State.look_unrecorded (h : p.isLocal c = true) {n : Nat} (hun : unrecorded s p n) (who : TaskId) (known : List Nat) :
    (s.look who known p (s.localBytes p n)).2 = s.localBytes p n := by
  obtain ⟨q, off, hword, hoff⟩ := Place.word_local h
  have hpast : ∀ x ∈ p.pieces (s.localBytes p n), ∀ y ∈ s.mem.past, y.at_ ≠ x.1 := by
    intro x hx
    have hlen : (s.localBytes p n).length = (List.replicate n (0 : Byte)).length := by
      rw [State.length_localBytes h, List.length_replicate]
    have hmem : x.1 ∈ (p.pieces (List.replicate n 0)).map (·.1) := by
      rw [← p.map_fst_pieces hlen]
      exact List.mem_map_of_mem hx
    obtain ⟨y, hy, hyx⟩ := List.mem_map.mp hmem
    rw [← hyx]
    rw [unrecorded, State.located_local h] at hun
    exact hun y hy
  have hview : (s.view (some who) known p (s.localBytes p n)).1 = (p.pieces (s.localBytes p n)).flatMap (·.2.2) := by
    rw [State.view, hword, State.located_local h]
    dsimp only
    rw [List.flatMap_map]
    conv_rhs => rw [← List.zipIdx_map_fst 0 (p.pieces (s.localBytes p n)), List.flatMap_map]
    exact List.flatMap_congr fun x hx =>
      State.viewWord_unrecorded (hpast _ (List.fst_mem_of_mem_zipIdx hx)) _ _
  exact hview.trans (Place.flatMap_pieces _ hword hoff)

/-- What a local read brings: poison, or bytes. -/
theorem readsLocal_lookGot (h : p.isLocal c = true) (n : Nat) (who : TaskId) (known : List Nat) :
    readsLocal s p n (s.lookGot who known p (s.localGot p n)).2.res := by
  rw [State.localGot]
  refine ⟨fun hbad => ?_, fun hgood => ?_⟩
  · rw [hbad]
    rfl
  · rw [hgood]
    exact ⟨_, rfl, fun hun => State.look_unrecorded h hun who known⟩

/-- What it brings is read of memory, which the check of an address leaves alone. -/
theorem readsLocal_consulted {v : State} {n : Nat} {r : Res} (h : p.isLocal c = true) (hv : s.issued.consulted v)
    (hr : readsLocal v p n r) : readsLocal s p n r := by
  obtain ⟨_, _, _, rfl⟩ := hv
  rw [readsLocal, unrecorded, State.located_local h] at hr ⊢
  exact hr

end

/-! ### A load as it issues (R209, R210) -/

theorem sext64_mul (i : BitVec 12) (n : Nat) : sext64 i * BitVec.ofNat 64 n = BitVec.ofInt 64 (i.toInt * n) := by
  rw [BitVec.ofInt_mul, BitVec.ofInt_natCast]
  rfl

@[simp] theorem State.knows_issued (s : State) : s.issued.me.knows = s.me.knows := by rw [State.me_issued]; rfl

/-- What a load does whose address is that of a place. -/
def State.loadAt (u : State) (n : Nat) (d : GReg) (p : Place) : State :=
  u.afterFills p n fun s =>
    if p.isLocal s.myCore then s.whenLocal p n fun s => (s.startRead p n (.g d)).next
    else (s.startRead p n (.g d)).next

theorem State.acquiring_issued (s : State) : s.issued.acquiring = s.acquiring := by
  simp only [State.acquiring, State.taskId_issued, State.net_issued]

theorem State.load_at {s u : State} {n : Nat} {d a : GReg} {ka : Bool} {i : BitVec 12} {p : Place} (hgo : s.goes [.g a ka])
    (hacq : s.acquiring = false)
    (ht : s.issued.target (s.me.rdG a + BitVec.ofInt 64 (i.toInt * n)) n (plainUse .read n) = (u, .ok p)) :
    s.load n d a ka i = u.loadAt n d p := by
  rw [← sext64_mul, ← s.rdG_issued a, plainUse] at ht
  rw [State.load, State.issue_go hgo, State.afterAcquire, s.acquiring_issued, hacq, if_neg Bool.false_ne_true]
  dsimp only
  rw [State.access, ht]
  rfl

section
variable {s u : State} {n : Nat} {p : Place} (d : GReg) (h : s.issued.consulted u)
include h

theorem State.loadAt_fill (hf : u.fillPending p n = true) : waits s (u.loadAt n d p) := by
  rw [State.loadAt, State.afterFills, if_pos hf]
  exact waits_block h

theorem State.myCore_consulted : u.myCore = s.myCore := by
  obtain ⟨_, _, _, rfl⟩ := h
  exact s.myCore_issued

theorem State.taskId_consulted : u.me.taskId = s.me.taskId := by rw [h.me, State.taskId_issued]

theorem State.loadAt_local (hf : u.fillPending p n = false) (ho : openNow s u p n) :
    ∃ r, asks s (u.loadAt n d p) d (.reply s.me.taskId (.g d) r none none) ∧ readsLocal s p n r := by
  obtain ⟨hlocal, htouch, hpend⟩ := ho
  have hl : p.isLocal u.myCore = true := by rwa [State.myCore_consulted h]
  have hload : u.loadAt n d p = (u.startRead p n (.g d)).next := by
    rw [State.loadAt, State.afterFills, hf, if_neg Bool.false_ne_true, if_pos hl, State.whenLocal, htouch]
    dsimp only
    rw [hpend, if_neg Bool.false_ne_true]
  rw [hload, State.startRead, if_pos hl, State.taskId_consulted h]
  exact ⟨_, asks_sent d _ (h.trans (.lookGot ..)), readsLocal_consulted hlocal h (readsLocal_lookGot hlocal ..)⟩

theorem State.loadAt_far (hf : u.fillPending p n = false) (hp : p.isLocal s.myCore = false) :
    ∃ m, asks s (u.loadAt n d p) d m ∧ (m = .read s.me.taskId s.me.job p n (.g d) s.me.knows ∨
      ∃ bs, u.l1Hit p n = some bs ∧ m = .reply s.me.taskId (.g d) (.ok (leWord bs)) none none) := by
  have hl : ¬p.isLocal u.myCore = true := by rw [State.myCore_consulted h, hp]; exact Bool.false_ne_true
  rw [State.loadAt, State.afterFills, hf, if_neg Bool.false_ne_true, if_neg hl, State.startRead, if_neg hl,
    State.taskId_consulted h, h.me, State.job_issued, State.knows_issued]
  split
  next bs hbs => exact ⟨_, asks_sent d _ (h.trans (.look ..)), .inr ⟨bs, hbs, rfl⟩⟩
  next => exact ⟨_, asks_sent d _ h, .inl rfl⟩

end

/-- Settles O19: each of the four loads is `State.loadAt` at the place of its address. -/
theorem loads : Obligations.Loads := by
  unfold Obligations.Loads
  intro s u d a ka i p hgo hacq x hx ea id ht
  have h : s.issued.consulted u := .target ht
  have hexec : exec x.2 s = .next (u.loadAt x.1 d p) := by
    have hload : exec x.2 s = .next (s.load x.1 d a ka i) := by
      simp only [List.mem_cons, List.not_mem_nil, or_false] at hx
      obtain rfl | rfl | rfl | rfl := hx <;> rfl
    rw [hload, State.load_at hgo hacq ht]
  refine ⟨fun hf => ⟨_, hexec, State.loadAt_fill d h hf⟩, fun hf ho => ?_, fun hf hp => ?_⟩
  · obtain ⟨r, hasks, hreads⟩ := State.loadAt_local d h hf ho
    exact ⟨_, r, hexec, hasks, hreads⟩
  · obtain ⟨m, hasks, hm⟩ := State.loadAt_far d h hf hp
    exact ⟨_, m, hexec, hasks, hm⟩

end Sys2Proof.Machine
end

section
/-! # O54: the host's commands (R115–R125, R515)

A load's operations leave the commands, the jobs' records and the chip's number as they are, but for the part of the load that a stage
writes (`State.keepsLedger`, `StageEnds`); so what a LOAD comes to is read off its stages' codes (`LoadRuns`, `LoadEnded`). A copy within one
line is one turn of its recursion, and a handle command is one case of its handle. -/

namespace Sys2Proof.Machine

/-! ### Commands by their numbers -/

section
variable {s t : State} {id : Nat} {c d : Cmd} {op : Byte}

theorem State.cmd_id (h : s.cmd id = some c) : c.id = id := by
  simpa using List.find?_some h

theorem State.cmd_of_cmds (h : t.fe.cmds = s.fe.cmds) (n : Nat) : t.cmd n = s.cmd n := by rw [State.cmd, h, State.cmd]

/-- A change of commands that keeps their numbers. -/
theorem find?_map_cmd (l : List Cmd) {u : Cmd → Cmd} (hu : ∀ d, (u d).id = d.id) (n : Nat) :
    (l.map u).find? (fun d => decide (d.id = n)) = (l.find? fun d => decide (d.id = n)).map u := by
  rw [List.find?_map]
  congr 2
  funext d
  simp [hu]

theorem State.cmd_updFe (h : s.cmd id = some c) {u : Cmd → Cmd} (hu : ∀ d, (u d).id = d.id) :
    (s.updFe id u).cmd id = some (u c) := by
  have hmap := find?_map_cmd s.fe.cmds (u := fun d => if d.id = id then u d else d) (fun d => by split <;> simp [hu]) id
  rw [State.cmd, State.updFe, hmap, ← State.cmd, h, Option.map_some, if_pos (State.cmd_id h)]

theorem State.cmd_endCmd (h : s.cmd id = some c) (hc : c.phase = .running) (st : BitVec 16) (x : Word) :
    (s.endCmd id st x).cmd id = some { c with phase := .ended, status := st, detail := x, bounced := [] } := by
  have hmap := find?_map_cmd s.fe.cmds (u := fun d => if decide (d.id = id) && decide (d.phase = .running) then
    { d with phase := .ended, status := st, detail := x, bounced := [] } else d) (fun d => by split <;> rfl) id
  rw [State.cmd, State.endCmd]
  refine hmap.trans ?_
  rw [← State.cmd, h, Option.map_some, if_pos (by simp [State.cmd_id h, hc])]

/-- A running command ends as it is told to. -/
theorem endedWith_endCmd (h : s.cmd c.id = some d) (hd : d.phase = .running) (st : BitVec 16) (x : Word) :
    endedWith (s.endCmd c.id st x) c st x := ⟨_, State.cmd_endCmd h hd st x, rfl, rfl, rfl⟩

/-- A running command that is there does its work. -/
theorem State.running_self (h : s.cmd id = some c) (hc : c.phase = .running) (ho : c.op = op) (hf : s.pwr.fatal = false)
    (k : Cmd → State) : s.running id op k = k c := by
  rw [State.running, h]
  exact if_pos ⟨hc, ho, hf⟩

end

/-! ### The lowest failure (R52) -/

theorem lowest_lt {n : Nat} {cs : List (Nat × Bool)} (hn : 0 < n) (h : ∀ c ∈ cs, c.1 < n) : lowest cs < n := by
  refine List.foldlRecOn (motive := (· < n)) cs _ hn fun b hb c hc => ?_
  split
  · exact h c hc
  · exact hb

/-- No failure of either is none of both. -/
theorem lowest_eq_zero (a b : Nat) (l : Nat) :
    lowest [(a, decide (a ≠ 0)), (b, decide (b ≠ 0)), (l, false)] = 0 ↔ a = 0 ∧ b = 0 := by
  simp only [lowest, List.foldl_cons, List.foldl_nil]
  grind

theorem lowest_ne_zero (a b : Nat) (hb : b ≠ 0) : lowest [(a, decide (a ≠ 0)), (b, true)] ≠ 0 := by
  simp only [lowest, List.foldl_cons, List.foldl_nil]
  grind

/-! ### What the work of a LOAD on memory, cores and groups leaves alone -/

/-- The front end, the jobs and the chip's number, which a LOAD goes by, are as before. -/
def State.keepsLedger (s t : State) : Prop := t.fe = s.fe ∧ t.chip.jobs = s.chip.jobs ∧ t.chip.chipNo = s.chip.chipNo

namespace State.keepsLedger
variable {s t u : State} {α β : Type}

theorem fe (h : s.keepsLedger t) : t.fe = s.fe := h.1
theorem chipNo (h : s.keepsLedger t) : t.chip.chipNo = s.chip.chipNo := h.2.2

theorem job (h : s.keepsLedger t) (j : BitVec 12) : t.job j = s.job j := by
  obtain ⟨-, jobs, -⟩ := h
  rw [State.job, jobs, State.job]

theorem cmd (h : s.keepsLedger t) (n : Nat) : t.cmd n = s.cmd n := State.cmd_of_cmds (by rw [h.fe]) n

theorem partOf (h : s.keepsLedger t) (j : BitVec 12) (l : BitVec 11) : t.partOf j l = s.partOf j l := by
  rw [State.partOf, h.fe, State.partOf]

theorem refl (s : State) : s.keepsLedger s := ⟨rfl, rfl, rfl⟩

theorem trans (h : s.keepsLedger t) (k : t.keepsLedger u) : s.keepsLedger u :=
  ⟨k.1.trans h.1, k.2.1.trans h.2.1, k.2.2.trans h.2.2⟩

theorem ite {c : Prop} [Decidable c] (h : s.keepsLedger t) (k : s.keepsLedger u) : s.keepsLedger (if c then t else u) := by
  split <;> assumption

theorem ite_fst {c : Prop} [Decidable c] {p q : State × α} (h : s.keepsLedger p.1) (k : s.keepsLedger q.1) :
    s.keepsLedger (if c then p else q).1 := by
  split <;> assumption

theorem foldl {f : State → α → State} {l : List α} (h : s.keepsLedger t)
    (hf : ∀ t x, s.keepsLedger t → s.keepsLedger (f t x)) : s.keepsLedger (l.foldl f t) :=
  List.foldlRecOn l f h fun t ht x _ => hf t x ht

theorem foldl_fst {f : State × β → α → State × β} {l : List α} {p : State × β} (h : s.keepsLedger p.1)
    (hf : ∀ p x, s.keepsLedger p.1 → s.keepsLedger (f p x).1) : s.keepsLedger (l.foldl f p).1 :=
  List.foldlRecOn (motive := fun p => s.keepsLedger p.1) l f h fun p hp x _ => hf p x hp

/-! Updates of one entry, and of memory. -/

theorem setCore {c x} (h : s.keepsLedger t) : s.keepsLedger (t.setCore c x) := h
theorem setFrame {k f} (h : s.keepsLedger t) : s.keepsLedger (t.setFrame k f) := h
theorem setGroup {g x} (h : s.keepsLedger t) : s.keepsLedger (t.setGroup g x) := h
theorem fresh (h : s.keepsLedger t) : s.keepsLedger t.fresh := h
theorem sendAll {ms} (h : s.keepsLedger t) : s.keepsLedger (t.sendAll ms) := h
theorem toPeer {c j b k x} (h : s.keepsLedger t) : s.keepsLedger (t.toPeer c j b k x) := h
theorem withMem {m} (h : s.keepsLedger t) : s.keepsLedger { t with mem := m } := h
theorem takePage {p} (h : s.keepsLedger t) : s.keepsLedger (t.takePage p) := h
theorem invalidate {i} (h : s.keepsLedger t) : s.keepsLedger (t.invalidate i) := h
theorem bankPut {n off bs} (h : s.keepsLedger t) : s.keepsLedger (t.bankPut n off bs) := h
theorem releaseCores {j} (h : s.keepsLedger t) : s.keepsLedger (t.releaseCores j) := h
theorem leaves {c} (h : s.keepsLedger t) : s.keepsLedger (t.leaves c) := h
theorem withdraw {k} (h : s.keepsLedger t) : s.keepsLedger (t.withdraw k) := h
theorem failEntries {j} (h : s.keepsLedger t) : s.keepsLedger (t.failEntries j) := h

theorem endFollow {k} (h : s.keepsLedger t) : s.keepsLedger (t.endFollow k) := by
  obtain ⟨fs, cs, e⟩ := t.endFollow_eq k
  rw [e]
  exact h

theorem endLease {k lost} (h : s.keepsLedger t) : s.keepsLedger (t.endLease k lost) := by
  unfold State.endLease
  dsimp only
  split
  · exact .ite (.ite h h) h
  · exact h

/-! Device memory and page tables (R439, R440, R489). -/

theorem devWrite {tag pa bs} (h : s.keepsLedger t) (e : t.devWrite tag pa bs = some u) : s.keepsLedger u := by
  unfold State.devWrite at e
  dsimp only at e
  split at e
  · cases e
    exact h
  · split at e
    · cases e
    · cases e
      exact h

theorem devWrite_getD {tag pa bs} (h : s.keepsLedger t) : s.keepsLedger ((t.devWrite tag pa bs).getD t) := by
  cases e : t.devWrite tag pa bs with
  | none => exact h
  | some u => exact .devWrite h e

theorem devWrites {tag fuel pa bs} (h : s.keepsLedger t) : s.keepsLedger (t.devWrites tag fuel pa bs).1 := by
  induction fuel generalizing t pa bs with
  | zero => exact h
  | succ fuel ih =>
    cases bs with
    | nil => exact h
    | cons b bs =>
      rw [State.devWrites]
      split
      next e => exact ih (.devWrite h e)
      next => exact ih h

theorem fillMem {tag pa bs} (h : s.keepsLedger t) : s.keepsLedger (t.fillMem tag pa bs) := .devWrites h

theorem subTable {e n} (h : s.keepsLedger t) : s.keepsLedger (t.subTable e n).1 := by
  unfold State.subTable
  split
  · exact .ite_fst h (.fillMem (.fillMem (.takePage h)))
  · exact h

theorem mapPage {j n va leaf} (h : s.keepsLedger t) : s.keepsLedger (t.mapPage j n va leaf).1 := by
  unfold State.mapPage
  extract_lets root zeroed chip r r1 r2 r3
  have hz : s.keepsLedger zeroed := .fillMem (.takePage h)
  clear_value zeroed
  have hr : s.keepsLedger r.1 := .ite_fst h hz
  exact .fillMem (.subTable (.subTable (.subTable hr)))

theorem putImage {l w off bs} (h : s.keepsLedger t) : s.keepsLedger (t.putImage l w off bs) :=
  .foldl h fun _ _ ht => .ite ht (.fillMem ht)

/-! The steps of a LOAD (R50). -/

theorem loadMemory {l w ps} (h : s.keepsLedger t) : s.keepsLedger (t.loadMemory l w ps) :=
  .foldl_fst (.fillMem (.foldl (.foldl h fun _ _ ht => .takePage ht) fun _ _ ht => .ite (.putImage ht) ht)) fun _ _ ht =>
    .mapPage ht

theorem reservePins {l} (h : s.keepsLedger t) : s.keepsLedger (t.reservePins l) :=
  .foldl h fun _ _ ht => .ite ht (.setFrame (.setCore ht))

theorem initTile {l n} (h : s.keepsLedger t) : s.keepsLedger (t.initTile l n) := by
  unfold State.initTile
  extract_lets uses scratch mode s1 tile s2 stays mem s3 s4
  have h4 : s.keepsLedger s4 := .foldl h fun _ _ ht => .ite (.bankPut ht) ht
  exact .foldl h4 fun _ _ ht => .setCore (.withMem ht)

theorem groupCommit {g} (h : s.keepsLedger t) : s.keepsLedger (t.groupCommit g) :=
  .ite (.setGroup h) (.ite (.setGroup h) (.setGroup h))

theorem loadGroup {l r n v} (h : s.keepsLedger t) : s.keepsLedger (t.loadGroup l r n v) := .groupCommit (.setGroup h)

theorem noteCounter {p} (h : s.keepsLedger t) : s.keepsLedger (t.noteCounter p) := by
  unfold State.noteCounter
  extract_lets p mem add
  have hadd : s.keepsLedger add := .ite h (.withMem h)
  clear_value add p
  split
  · exact hadd
  · exact hadd
  · exact hadd
  · exact h

theorem setCounters {l w} (h : s.keepsLedger t) : s.keepsLedger (t.setCounters l w) := by
  unfold State.setCounters
  refine .foldl h fun _ _ ht => ?_
  split
  · exact ht
  · refine .ite (.foldl ht fun _ _ hu => .noteCounter (.bankPut hu)) ?_
    split
    · exact .ite (.putImage ht) (.noteCounter (.putImage ht))
    · exact ht

theorem releaseHeld {c cls pr n} (h : s.keepsLedger t) : s.keepsLedger (t.releaseHeld c cls pr n) := by
  induction n generalizing t with
  | zero => exact h
  | succ n ih =>
    rw [State.releaseHeld]
    dsimp only
    split
    · exact h
    · exact ih (.setCore (.setCore h))

theorem bindHandlers {l} (h : s.keepsLedger t) : s.keepsLedger (t.bindHandlers l) := by
  unfold State.bindHandlers
  refine .foldl h fun _ _ ht => ?_
  split
  · exact ht
  · exact .foldl ht fun _ _ hu => .releaseHeld (.setCore hu)

theorem joinCores {l} (h : s.keepsLedger t) : s.keepsLedger (t.joinCores l) := .foldl h fun _ _ ht => .setCore ht

theorem loadTell {j ks ms} (h : s.keepsLedger t) : s.keepsLedger (t.loadTell j ks ms) :=
  .foldl h fun _ _ ht => .foldl ht fun _ _ hu => .toPeer hu

/-! What frees the frames and the pages of an image (R51, R468). -/

theorem removeFrames {j} (h : s.keepsLedger t) : s.keepsLedger (t.removeFrames j) := by
  unfold State.removeFrames
  extract_lets ks s1 s2
  have h1 : s.keepsLedger s1 := .foldl h fun _ _ ht => .endLease (.withdraw (.endFollow ht))
  have h2 : s.keepsLedger s2 := .foldl h1 fun _ _ ht => .setFrame (.ite (.leaves (.sendAll ht)) (.sendAll ht))
  exact .foldl (.failEntries h2) fun _ _ ht => .ite (.setCore (.sendAll ht)) ht

theorem freeImage {j} (h : s.keepsLedger t) : s.keepsLedger (t.freeImage j) := by
  unfold State.freeImage
  extract_lets x s1 s2
  have h1 : s.keepsLedger s1 := by
    refine .foldl h fun _ _ ht => ?_
    split
    · exact .devWrite_getD ht
    · exact ht
  have h2 : s.keepsLedger s2 := .ite h1 (.invalidate h1)
  exact .foldl h2 fun _ _ ht => .withMem ht

end State.keepsLedger

/-! ### One stage on one chip (R24, R50) -/

/-- What the end of stage k of a load of job j tells, with its code: no stage before 8 changes the job, and none from 8 on fails; a stage that
succeeds leaves the load alive, the last one a job that runs. -/
structure StageEnds (s t : State) (j : BitVec 12) (lead : BitVec 11) (k code : Nat) : Prop where
  chipNo : t.chip.chipNo = s.chip.chipNo
  cmds : t.fe.cmds = s.fe.cmds
  code_lt : code < 2 ^ 16
  live : code = 0 → k ≠ 12 → (t.partOf j lead).live = true
  sure : 8 ≤ k → (s.partOf j lead).live = true → code = 0
  job : k ≤ 7 → t.job j = s.job j
  image : k = 12 → code = 0 → (t.job j).image = true ∧ (t.job j).state = 1 ∧ (t.job j).removed = false

section
variable {s t : State} {j : BitVec 12} {lead : BitVec 11} {k code : Nat}

/-- A stage before the last that leaves the front end and the job alone. -/
theorem StageEnds.of_ledger (h : s.keepsLedger t) (hk : k ≠ 12) (hc : code < 2 ^ 16) (hs : k ≤ 7 ∨ code = 0)
    (hl : (s.partOf j lead).live = true) : StageEnds s t j lead k code where
  chipNo := h.chipNo
  cmds := by rw [h.fe]
  code_lt := hc
  live _ _ := by rw [h.partOf]; exact hl
  sure hk _ := hs.resolve_left (by omega)
  job _ := h.job j
  image h12 := absurd h12 hk

/-- The same, and this chip's part of the load is written. -/
theorem StageEnds.of_setPart (h : s.keepsLedger t) {p : LoadIn} (hk : k ≠ 12) (hp : p.live = true) :
    StageEnds s (t.setPart j lead p) j lead k 0 where
  chipNo := h.chipNo
  cmds := by rw [← h.fe]; rfl
  code_lt := by decide
  live _ _ := by rw [State.partOf_setPart]; exact hp
  sure _ _ := rfl
  job _ := h.job j
  image h12 := absurd h12 hk

theorem Clely.step1_lt (x : Clely) (keys : List (BitVec 1064)) (sig : Bool) : x.step1 keys sig < 2 ^ 16 := by
  refine lowest_lt (by decide) ?_
  simp only [List.forall_mem_cons]
  simp

theorem Clely.step2_lt (x : Clely) : x.step2 < 2 ^ 16 := by
  refine lowest_lt (by decide) ?_
  simp only [List.forall_mem_cons]
  simp

theorem Load.step3_lt (l : Load) : l.step3 < 2 ^ 16 := by
  refine lowest_lt (by decide) ?_
  simp only [List.forall_mem_cons]
  simp

theorem ite_lt {c : Prop} [Decidable c] {a n : Nat} (ha : a < n) (hn : 0 < n) : (if c then a else 0) < n := by
  split <;> assumption

/-- Stage 8 enters the pages of the image in the job and leaves the rest of the front end and of the job table alone. -/
theorem State.loadSections_ends (hl : (s.partOf j lead).live = true) (l : Load) (w : Where) :
    StageEnds s (s.loadSections l w) j lead 8 0 := by
  have hm : s.keepsLedger ((s.loadMemory l w ((l.x.linkPatches l.base).filterMap id ++ l.placePatches)).invalidate (.job l.job)) :=
    .invalidate (.loadMemory (.refl s))
  unfold State.loadSections
  extract_lets ps u maps
  have hp := State.keepsLedger.reservePins (l := l)
    (.refl (u.setJob l.job { u.job l.job with pages := l.taken u.chip.chipNo w, maps := maps }))
  exact {
    chipNo := hp.chipNo.trans hm.chipNo
    cmds := by rw [hp.fe]; exact congrArg FrontEnd.cmds hm.fe
    code_lt := by decide
    live := fun _ _ => by rw [hp.partOf]; exact (congrArg LoadIn.live (hm.partOf j lead)).trans hl
    sure := fun _ _ => rfl
    job := fun h => by simp at h
    image := fun h => by simp at h }

/-- The record of a job whose image is loaded: it runs. -/
def Load.runs (l : Load) (x : Job) : Job :=
  { x with image := true, tiles := l.tiles, steal := BitVec.ofNat 2 l.x.steal, state := 1, step := 0, cause := 0, removed := false }

/-- Stage 12: the job holds its image and runs. -/
theorem State.loadEnds_ends (l : Load) (hj : l.job = j) : StageEnds s ((s.loadEnds l).dropPart j lead).fresh j lead 12 0 := by
  have hb : (s.setJob l.job (l.runs (s.job l.job))).keepsLedger (s.loadEnds l) := .bindHandlers (.refl _)
  have hjob : (s.loadEnds l).job j = l.runs (s.job j) := by
    rw [hb.job, hj, State.job, State.setJob, Tab.get_put_self]
  have hcmds : (s.loadEnds l).fe.cmds = s.fe.cmds := by rw [hb.fe]; rfl
  exact {
    chipNo := hb.chipNo
    cmds := hcmds
    code_lt := by decide
    live := fun _ h => absurd rfl h
    sure := fun _ _ => rfl
    job := fun h => by simp at h
    image := fun _ _ => by
      change ((s.loadEnds l).job j).image = true ∧ ((s.loadEnds l).job j).state = 1 ∧ ((s.loadEnds l).job j).removed = false
      rw [hjob]
      exact ⟨rfl, rfl, rfl⟩ }

/-- Every stage ends so. -/
theorem State.loadStage_ends (s : State) (j : BitVec 12) (lead : BitVec 11) (k : Nat) :
    StageEnds s (s.loadStage j lead k).1 j lead k (s.loadStage j lead k).2 := by
  have same := State.keepsLedger.refl s
  have fails {k : Nat} (code : Nat) (hs : k ≤ 7 ∨ (s.partOf j lead).live = false) (hc : code < 2 ^ 16 := by decide)
      (hz : code ≠ 0 := by decide) : StageEnds s s j lead k code :=
    ⟨rfl, rfl, hc, fun h => absurd h hz, fun hk hl => absurd hs (by simp [hl]; omega), fun _ => rfl, fun _ h => absurd h hz⟩
  unfold State.loadStage
  extract_lets p l w
  split
  next hdead => exact fails 0x0013 (.inr (by simpa using hdead.2))
  next hlive =>
    have live (hk : k ≠ 0) : (s.partOf j lead).live = true := by
      by_contra hn
      exact hlive ⟨hk, by simpa using hn⟩
    split
    case h_1 =>
      split
      · exact fails 0x0013 (.inl (by decide))
      · exact .of_setPart same (by decide) rfl
    case h_2 => exact .of_ledger same (by decide) (Clely.step1_lt ..) (.inl (by decide)) (live (by decide))
    case h_3 => exact .of_ledger same (by decide) (Clely.step2_lt ..) (.inl (by decide)) (live (by decide))
    case h_4 => exact .of_ledger same (by decide) (ite_lt (by decide) (by decide)) (.inl (by decide)) (live (by decide))
    case h_5 => exact .of_ledger same (by decide) (Load.step3_lt ..) (.inl (by decide)) (live (by decide))
    case h_6 =>
      split
      · exact fails 0x000B (.inl (by decide))
      · exact .of_setPart same (by decide) (live (by decide))
    case h_7 =>
      split
      · exact fails 0x0010 (.inl (by decide))
      · split
        · exact .of_ledger (code := 0x0014) same.fresh (by decide) (by decide) (.inl (by decide)) (live (by decide))
        · exact StageEnds.of_setPart (k := 6) (.fresh (.joinCores same)) (by decide) (live (by decide))
    case h_8 => exact .of_ledger same (by decide) (ite_lt (by decide) (by decide)) (.inl (by decide)) (live (by decide))
    case h_9 => exact State.loadSections_ends (live (by decide)) _ _
    case h_10 => exact .of_ledger (code := 0) (.foldl same fun _ _ ht => .initTile ht) (by decide) (by decide) (.inr rfl) (live (by decide))
    case h_11 => exact .of_ledger (code := 0) (.foldl same fun _ _ ht => .loadGroup ht) (by decide) (by decide) (.inr rfl) (live (by decide))
    case h_12 => exact .of_ledger (code := 0) (.setCounters same) (by decide) (by decide) (.inr rfl) (live (by decide))
    case h_13 => exact State.loadEnds_ends _ rfl
    case h_14 h0 _ _ _ _ _ _ _ _ _ _ _ h12 => exact .of_ledger (code := 0) same h12 (by decide) (.inr rfl) (live h0)

end

/-! ### The leading chip (R24, R37, R51) -/

theorem ofNat16_ne_zero {n : Nat} (h : n < 2 ^ 16) (hz : n ≠ 0) : BitVec.ofNat 16 n ≠ 0 := by
  rw [Ne, BitVec.toNat_eq, BitVec.toNat_ofNat, Nat.mod_eq_of_lt h]
  exact hz

theorem State.imageFrees_ledger (s : State) (j : BitVec 12) : s.keepsLedger ((s.removeFrames j).freeImage j) :=
  .freeImage (.removeFrames (.refl s))

/-- What a rejected load does to its job: nothing, but that pages written for it are free again (R51). -/
def Job.undone (x y : Job) : Prop := y = x ∨ (x.pages ≠ [] ∧ x.image = false ∧ y = { x with pages := [], maps := [] })

theorem State.loadUndo_job (s : State) (j : BitVec 12) (lead : BitVec 11) : (s.job j).undone ((s.loadUndo j lead).job j) := by
  unfold State.loadUndo
  extract_lets r x u
  have hr : s.keepsLedger r := .ite (.refl s) (.releaseCores (.refl s))
  clear_value r
  change (s.job j).undone (u.job j)
  rw [← hr.job]
  by_cases h : (r.job j).pages.isEmpty ∨ (r.job j).image
  · rw [show u = r from if_pos h]
    exact .inl rfl
  · rw [show u = State.setJob _ j _ from if_neg h]
    simp only [not_or, List.isEmpty_iff, Bool.not_eq_true] at h
    exact .inr ⟨h.1, h.2, State.job_setJob ..⟩

theorem State.loadUndo_cmds (s : State) (j : BitVec 12) (lead : BitVec 11) : (s.loadUndo j lead).fe.cmds = s.fe.cmds := by
  unfold State.loadUndo
  extract_lets r x u
  have hr : s.keepsLedger r := .ite (.refl s) (.releaseCores (.refl s))
  clear_value r
  have hu : u.fe = r.fe := by
    by_cases h : (r.job j).pages.isEmpty ∨ (r.job j).image
    · exact congrArg State.fe (if_pos h)
    · exact (congrArg State.fe (if_neg h)).trans (r.imageFrees_ledger j).fe
  change u.fe.cmds = s.fe.cmds
  rw [hu, hr.fe]

section
variable {s u : State} {c d : Cmd}

/-- A rejected load ends its command with the code (R51). -/
theorem State.loadReject_ends (h : s.cmd c.id = some d) (hd : d.phase = .running) (code : Nat) :
    endedWith (s.loadReject c code) c (BitVec.ofNat 16 code) 0 ∧
      (s.job c.job).undone ((s.loadReject c code).job c.job) := by
  unfold State.loadReject
  extract_lets t
  have ht : s.keepsLedger t := .loadTell (.refl s)
  clear_value t
  refine ⟨endedWith_endCmd (d := d) ?_ hd _ _, ?_⟩
  · rw [State.cmd_of_cmds (State.loadUndo_cmds ..), ht.cmd, h]
  · rw [← ht.job]
    exact t.loadUndo_job ..

/-- A load of command c is under way in u, from s on, as r tells (R24, R50): a failure came before the job changed, and after the last
stage the job runs. -/
structure LoadRuns (s : State) (c : Cmd) (r : LoadRun) (u : State) : Prop where
  cmd : u.cmd c.id = some { c with load := some r }
  step : r.step ≤ 12
  lacking : r.lacking = []
  code_lt : r.code < 2 ^ 16
  early : r.code ≠ 0 → r.step ≤ 7
  live : r.code = 0 → r.step ≠ 12 → (u.partOf c.job u.chip.chipNo).live = true
  job : r.step ≤ 7 → u.job c.job = s.job c.job
  image : r.step = 12 → r.code = 0 → (u.job c.job).image = true ∧ (u.job c.job).state = 1 ∧ (u.job c.job).removed = false

/-- The command has ended: with status 0 its job runs, with another it is as before, if no page was held for it. -/
def LoadEnded (s : State) (c : Cmd) (u : State) : Prop :=
  ∃ d, u.cmd c.id = some d ∧ d.phase = .ended ∧
    (d.status = 0 → (u.job c.job).image = true ∧ (u.job c.job).state = 1 ∧ (u.job c.job).removed = false) ∧
    (d.status ≠ 0 → (s.job c.job).pages = [] → u.job c.job = s.job c.job)


theorem LoadEnded.of_reject (h : s.cmd c.id = some d) (hd : d.phase = .running) {code : Nat} (hc : code < 2 ^ 16) (hz : code ≠ 0)
    (hj : s.job c.job = u.job c.job) : LoadEnded u c (s.loadReject c code) := by
  obtain ⟨⟨e, he, hp, hs, -⟩, hjob⟩ := State.loadReject_ends h hd code
  refine ⟨e, he, hp, fun h0 => absurd (hs.symm.trans h0) (ofNat16_ne_zero hc hz), fun _ hpages => ?_⟩
  rw [hj] at hjob
  exact hjob.resolve_right fun h => h.1 hpages

theorem State.loadReport_part (s : State) (id : Nat) (j : BitVec 12) (m : LoadMsg) :
    ((s.loadReport id j m).partOf j s.chip.chipNo).live = (s.partOf j s.chip.chipNo).live := by
  unfold State.loadReport
  dsimp only
  split
  · rfl
  · rw [State.partOf_setPart]
  · rfl

theorem State.loadReport_chip (s : State) (id : Nat) (j : BitVec 12) (m : LoadMsg) : (s.loadReport id j m).chip = s.chip := by
  unfold State.loadReport
  dsimp only
  split <;> rfl

theorem State.loadReport_cmd {r : LoadRun} (h : s.cmd c.id = some { c with load := some r }) (j : BitVec 12) (m : LoadMsg) :
    ∃ free, (s.loadReport c.id j m).cmd c.id = some { c with load := some { r with free := free } } := by
  unfold State.loadReport
  dsimp only
  split
  · exact ⟨_, State.cmd_updFe h fun _ => rfl⟩
  · exact ⟨r.free, h⟩
  · exact ⟨r.free, h⟩

/-- The reports of a chip's entries and frames change nothing that the load goes by. -/
theorem LoadRuns.reports {r : LoadRun} (h : LoadRuns s c r u) (ms : List LoadMsg) :
    ∃ r', r'.step = r.step ∧ LoadRuns s c r' (ms.foldl (fun t m => t.loadReport c.id c.job m) u) := by
  induction ms generalizing u r with
  | nil => exact ⟨r, rfl, h⟩
  | cons m ms ih =>
    obtain ⟨free, hcmd⟩ := State.loadReport_cmd h.cmd c.job m
    have hchip := u.loadReport_chip c.id c.job m
    have hjob : (u.loadReport c.id c.job m).job c.job = u.job c.job := by rw [State.job, hchip, State.job]
    exact ih (r := { r with free := free }) {
      cmd := hcmd, step := h.step, lacking := h.lacking, code_lt := h.code_lt, early := h.early
      live := by rw [hchip, u.loadReport_part]; exact h.live
      job := by rw [hjob]; exact h.job
      image := by rw [hjob]; exact h.image }

/-- A stage begins: the load is under way with it, whatever this chip's part of it brought. -/
theorem State.loadBegin_runs {r : LoadRun} {k code : Nat} (h : u.cmd c.id = some { c with load := some r }) (hl : r.lacking = [])
    (hid : d.id = c.id) (hdj : d.job = c.job) (hdl : (d.load.map LoadRun.lacking).getD [] = []) (hk : k ≤ 12) (hc : code < 2 ^ 16)
    (hz : code ≠ 0 → k ≤ 7) (hlive : 8 ≤ k → (u.partOf c.job u.chip.chipNo).live = true) (hj : k ≤ 7 → u.job c.job = s.job c.job) :
    ∃ r', r'.step = k ∧ LoadRuns s c r' (u.loadBegin d k code) := by
  unfold State.loadBegin
  rw [hid, hdj, hdl]
  extract_lets own p lacking peers t rs q v
  have ht : u.keepsLedger t := .loadTell (.refl u)
  have hq : StageEnds t q.1 c.job own k q.2 := t.loadStage_ends ..
  clear_value q rs
  have hown : q.1.chip.chipNo = own := hq.chipNo.trans ht.chipNo
  let total := lowest [(code, decide (code ≠ 0)), (q.2, decide (q.2 ≠ 0)), (0x0010, decide (3 ≤ k) && !lacking.isEmpty)]
  have htotal : total = 0 ↔ code = 0 ∧ q.2 = 0 := by
    simp only [total, lacking, List.isEmpty_nil, Bool.not_true, Bool.and_false]
    exact lowest_eq_zero ..
  refine (LoadRuns.reports (r := { r with step := k, wait := peers, code := total }) (u := v) ?_ rs).imp fun _ h => h
  exact {
    cmd := State.cmd_updFe ((State.cmd_of_cmds hq.cmds _).trans ((ht.cmd _).trans h)) fun _ => rfl
    step := hk
    lacking := hl
    code_lt := lowest_lt (by decide) (by simpa using ⟨hc, hq.code_lt⟩)
    early := fun hne => by
      by_contra (hk7 : ¬k ≤ 7)
      have hk8 : 8 ≤ k := by omega
      have hlive' : (t.partOf c.job own).live = true := by rw [ht.partOf]; exact hlive hk8
      exact hne (htotal.mpr ⟨by_contra fun h => hk7 (hz h), hq.sure hk8 hlive'⟩)
    live := fun h0 h12 => by
      change (q.1.partOf c.job q.1.chip.chipNo).live = true
      rw [hown]
      exact hq.live (htotal.mp h0).2 h12
    job := fun hk7 => (hq.job hk7).trans ((ht.job _).trans (hj hk7))
    image := fun h12 h0 => hq.image h12 (htotal.mp h0).2 }

/-- After the limits of step 3 the groups are chosen, and stage 5 begins, or the load is rejected. -/
theorem LoadRuns.groups {r : LoadRun} (h : LoadRuns s c r u) (hc : c.phase = .running) (h4 : r.step = 4) :
    (∃ r', r'.step = 5 ∧ LoadRuns s c r' (u.loadGroups { c with load := some r } r)) ∨
      LoadEnded s c (u.loadGroups { c with load := some r } r) := by
  have hjob := h.job (by omega)
  unfold State.loadGroups
  extract_lets own p peers
  split
  next =>
    exact .inr (.of_reject (c := { c with load := some r }) h.cmd hc (lowest_lt (by decide) (by simpa using h.code_lt))
      (lowest_ne_zero _ _ (by decide)) hjob)
  next gs _ =>
    extract_lets v w
    have hw : v.keepsLedger w := .loadTell (.refl v)
    clear_value w
    exact .inl (State.loadBegin_runs (r := r) (u := w.fresh) ((hw.cmd _).trans h.cmd) h.lacking rfl rfl h.lacking (by decide)
      h.code_lt (fun _ => by decide) (fun h8 => absurd h8 (by decide)) fun _ => (hw.job _).trans hjob)

/-- What comes of a load that has no chip to wait for: its next stage, or its end. -/
theorem LoadRuns.next {r : LoadRun} (h : LoadRuns s c r u) (hc : c.phase = .running) (hw : r.wait = []) :
    (∃ r', r'.step = r.step + 1 ∧ LoadRuns s c r' (u.loadNext { c with load := some r } r)) ∨
      LoadEnded s c (u.loadNext { c with load := some r } r) := by
  unfold State.loadNext
  rw [hw, List.isEmpty_nil, Bool.not_true, if_neg Bool.false_ne_true]
  split
  next h4 =>
    rw [h4]
    exact h.groups hc h4
  next =>
    split
    next hz => exact .inr (.of_reject (c := { c with load := some r }) h.cmd hc h.code_lt hz (h.job (h.early hz)))
    next hz =>
      have hz : r.code = 0 := not_not.mp hz
      split
      next h12 => exact .inr ⟨_, State.cmd_endCmd h.cmd hc 0 0, rfl, fun _ => h.image h12 hz, fun hne => absurd rfl hne⟩
      next h12 =>
        have hstep := h.step
        exact .inl (State.loadBegin_runs h.cmd h.lacking rfl rfl h.lacking (by omega) (by decide) (fun h0 => absurd rfl h0)
          (fun _ => h.live hz h12) fun h7 => h.job (by omega))

/-- Once a command has ended, its load goes no further. -/
theorem State.loadRuns_ended {id : Nat} (h : s.cmd id = some d) (hd : d.phase = .ended) (n : Nat) : s.loadRuns id n = s := by
  cases n with
  | zero => rfl
  | succ n =>
    rw [State.loadRuns, h]
    dsimp only
    split
    · rw [if_neg (by simp [hd])]
    · rfl

/-- How far a load comes with stages enough: to a chip that it waits for, or to its end. -/
def LoadComes (s : State) (c : Cmd) (u : State) : Prop :=
  (∃ r, r.wait ≠ [] ∧ LoadRuns s c r u) ∨ LoadEnded s c u

theorem LoadRuns.comes {r : LoadRun} {n : Nat} (h : LoadRuns s c r u) (hc : c.phase = .running) (hn : 13 ≤ n + r.step) :
    LoadComes s c (u.loadRuns c.id n) := by
  induction n generalizing u r with
  | zero =>
    have := h.step
    omega
  | succ n ih =>
    rw [State.loadRuns, h.cmd]
    dsimp only
    by_cases hw : r.wait = []
    · rw [if_pos (by simp [hc, hw])]
      obtain ⟨r', hstep, h'⟩ | ⟨d, hd⟩ := h.next hc hw
      · exact ih h' (by omega)
      · rw [State.loadRuns_ended hd.1 hd.2.1]
        exact .inr ⟨d, hd⟩
    · rw [if_neg (by simp [hw])]
      exact .inl ⟨r, hw, h⟩

/-- A LOAD that begins (R115, R50). -/
theorem State.loadStart_comes (h : s.cmd c.id = some c) (hc : c.phase = .running) (hload : c.load = none) :
    LoadComes s c ((s.loadStart c).loadRuns c.id 13) := by
  unfold State.loadStart
  extract_lets own port file bytes x p t v miss fe w run
  split
  next =>
    have hend := State.cmd_endCmd (s := s.fresh) h hc 0x0013 0
    rw [State.loadRuns_ended hend rfl]
    exact .inr ⟨_, hend, rfl, fun h0 => absurd h0 (by decide : (0x0013 : BitVec 16) ≠ 0), fun _ _ => rfl⟩
  next =>
    have hv : (s.setPart c.job own p).keepsLedger v := .loadTell (.fresh (.refl _))
    clear_value v
    have hcmd : w.cmd c.id = some c := (hv.cmd c.id).trans h
    have hbegun := State.cmd_updFe hcmd (u := fun c => { c with load := some run }) fun _ => rfl
    obtain ⟨r, hstep, hr⟩ := State.loadBegin_runs (s := s) (k := 0) (code := 0) hbegun rfl rfl rfl (by rw [hload]; rfl) (by decide)
      (by decide) (fun _ => by decide) (fun h8 => absurd h8 (by decide)) fun _ => hv.job c.job
    exact hr.comes hc (by omega)

end

/-! ### LOAD (R50–R52, R115) -/

section
variable {s : State} {id : Nat} {c : Cmd}

theorem exec_load (h : s.cmd id = some c) (hc : c.phase = .running) (ho : c.op = 0x01) (hf : s.pwr.fatal = false) :
    exec (.load id) s = .next (s.loadCmd c) := by
  change execLoad id s = _
  rw [execLoad, h]
  exact congrArg _ (State.running_self h hc ho hf _)

theorem State.loadCmd_start (hup : s.portUp c.q = true) (hl : c.load = none) :
    s.loadCmd c = (s.loadStart c).loadRuns c.id 13 := by
  rw [State.loadCmd, hl]
  exact if_pos hup

/-- Of a job that has an image a LOAD fails at once (R51). -/
theorem State.loadCmd_busy (h : s.cmd c.id = some c) (hc : c.phase = .running) (hup : s.portUp c.q = true) (hl : c.load = none)
    (hb : s.imageBusy c.job = true) : s.loadCmd c = s.fresh.endCmd c.id 0x0013 0 := by
  have hs : s.loadStart c = s.fresh.endCmd c.id 0x0013 0 := if_pos hb
  rw [State.loadCmd_start hup hl, hs, State.loadRuns_ended (State.cmd_endCmd (s := s.fresh) h hc _ _) rfl]

variable {r : LoadRun}

theorem State.loadCmd_waits (h : s.cmd c.id = some c) (hl : c.load = some r) (hw : r.wait ≠ []) : s.loadCmd c = s := by
  have hn : s.loadNext c r = s := if_pos (by simpa using hw)
  have hr : s.loadRuns c.id 13 = s := by
    rw [State.loadRuns, h]
    dsimp only
    rw [hl]
    exact if_neg (by simp [hw])
  rw [State.loadCmd, hl]
  dsimp only
  rw [hn, hr]

/-- Where the next stage of a load is its end, the command ends. -/
theorem State.loadCmd_of_ends (hl : c.load = some r) {st : BitVec 16} (he : endedWith (s.loadNext c r) c st 0) :
    s.loadCmd c = s.loadNext c r := by
  obtain ⟨d, hd, hp, -⟩ := he
  rw [State.loadCmd, hl]
  exact State.loadRuns_ended hd hp 13

section
variable (h : s.cmd c.id = some c) (hc : c.phase = .running) (hl : c.load = some r)
include h hc hl

theorem State.loadCmd_rejects (hw : r.wait = []) (h4 : r.step ≠ 4) (hz : r.code ≠ 0) :
    endedWith (s.loadCmd c) c (BitVec.ofNat 16 r.code) 0 ∧ (s.job c.job).undone ((s.loadCmd c).job c.job) := by
  have hn : s.loadNext c r = s.loadReject c r.code := by simp [State.loadNext, hw, h4, hz]
  have he := State.loadReject_ends h hc r.code
  rw [State.loadCmd_of_ends hl (by rw [hn]; exact he.1), hn]
  exact he

theorem State.loadCmd_done (hw : r.wait = []) (h12 : r.step = 12) (hz : r.code = 0) : s.loadCmd c = s.endCmd c.id 0 0 := by
  have hn : s.loadNext c r = s.endCmd c.id 0 0 := by simp [State.loadNext, hw, h12, hz]
  rw [State.loadCmd_of_ends hl (by rw [hn]; exact endedWith_endCmd h hc 0 0), hn]

end
end

/-! ### LAUNCH, WAIT, SIGNAL (R115, R117) -/

section
variable {s : State} {id : Nat} {c : Cmd}

/-- The wait or the add of a command goes out, once. -/
theorem State.askCounter_asks (h : s.cmd id = some c) {p : Place} (ha : c.asked = false) (hp : c.ctr = some p) (m : Place → Msg) :
    (s.askCounter id m).net = s.net ++ [m p] ∧ (s.askCounter id m).cmd id = some { c with asked := true } ∧
      s.sameBytes (s.askCounter id m) := by
  have ht : s.askCounter id m = (s.updFe id fun c => { c with asked := true }).send (m p) := by
    rw [State.askCounter, h]
    dsimp only
    rw [ha, hp]
  rw [ht]
  exact ⟨rfl, State.cmd_updFe (u := fun c => { c with asked := true }) h fun _ => rfl, State.sameBytes_of_mem rfl⟩

/-- The header that the front end fills in (R127, R128). -/
theorem hdrBy_front (w : Word) (j : BitVec 12) (chip : BitVec 11) :
    let hdr := putFld (hdrFilled w 3 j) 53 11 chip.toNat
    hdrBy w hdr 3 j ∧ hdr.extractLsb' 53 11 = chip ∧ hdr.extractLsb' 39 14 = w.extractLsb' 39 14 := by
  have hne {w : Word} {lo len lo' len' v : Nat} (h : lo' + len' ≤ 64) (hd : lo' + len' ≤ lo ∨ lo + len ≤ lo') :=
    extract_putFld_ne w lo len lo' len' v h hd
  have hself {w : Word} {lo len : Nat} (v : BitVec len) (h : lo + len ≤ 64) := extract_putFld_self w lo len v h
  simp only [hdrFilled, hdrBy]
  refine ⟨⟨?_, ?_, ?_, ?_, ?_⟩, hself chip (by decide), ?_⟩
  · rw [hne (by decide) (by decide), hne (by decide) (by decide), hne (by decide) (by decide)]
    exact hself (3 : BitVec 2) (by decide)
  · rw [hne (by decide) (by decide), hne (by decide) (by decide)]
    exact hself j (by decide)
  · rw [hne (by decide) (by decide)]
    exact hself (0 : BitVec 4) (by decide)
  · rw [hne (by decide) (by decide), hne (by decide) (by decide), hne (by decide) (by decide), hne (by decide) (by decide)]
  · rw [hne (by decide) (by decide), hne (by decide) (by decide), hne (by decide) (by decide), hne (by decide) (by decide)]
  · rw [hne (by decide) (by decide), hne (by decide) (by decide), hne (by decide) (by decide), hne (by decide) (by decide)]

/-- Envelope n of the array of a LAUNCH: its words, its chip and whether it names a core that may be addressed (R117). -/
def State.launchWord (s : State) (c : Cmd) (i : Nat) : Word :=
  leWord (((s.portBytes (portOfQueue c.q) (c.arg0.toNat + 64 * c.sent) 64).drop (8 * i)).take 8)
def State.launchChip (s : State) (c : Cmd) : BitVec 11 := s.physical ((s.launchWord c 0).extractLsb' 53 11)

/-- The envelope that a LAUNCH sends next (R115, R127). -/
def State.launchEnv (s : State) (c : Cmd) : Env :=
  { hdr := putFld (hdrFilled (s.launchWord c 0) 3 c.job) 53 11 (s.launchChip c).toNat, w1 := s.launchWord c 1,
    pl := (List.range 6).map fun i => s.launchWord c (2 + i), sender := .front s.chip.chipNo c.id c.sent, task := none, job := c.job,
    rel := none, svc := false, stamp := none, row := none, stolen := none }

section
variable (hb : c.bounced = []) (hs : c.sent < c.arg1.toNat) (ho : s.fe.out < 64) (hup : s.portUp c.q = true)
include hb hs ho hup

theorem State.launchSend_next : s.launchSend c =
    if 175 < fld (s.launchWord c 0) 44 8 ∨ s.chip.nChips ≤ (s.launchChip c).toNat then
      s.fresh.endCmd c.id 0x0104 (at64 Cause.PERM.toNat 32 + at64 c.sent 0)
    else
      let t := s.fresh.updFe c.id fun c => { c with sent := c.sent + 1, out := c.out + 1 }
      State.send { t with fe := { t.fe with out := t.fe.out + 1 } } (.env (s.launchEnv c)) := by
  rw [State.launchSend, hb]
  exact if_neg (by simp [hup]; omega)

theorem State.launchSend_sends (h : s.cmd c.id = some c) (hn : fld (s.launchWord c 0) 44 8 ≤ 175)
    (hchip : (s.launchChip c).toNat < s.chip.nChips) :
    (s.launchSend c).cmd c.id = some { c with sent := c.sent + 1, out := c.out + 1 } ∧ (s.launchSend c).fe.out = s.fe.out + 1 ∧
      (s.launchSend c).net = s.net ++ [.env (s.launchEnv c)] := by
  rw [State.launchSend_next hb hs ho hup, if_neg (by omega)]
  exact ⟨State.cmd_updFe (s := s.fresh) h (u := fun c => { c with sent := c.sent + 1, out := c.out + 1 }) fun _ => rfl, rfl, rfl⟩

theorem State.launchSend_fails (h : s.cmd c.id = some c) (hc : c.phase = .running)
    (hn : ¬(fld (s.launchWord c 0) 44 8 ≤ 175 ∧ (s.launchChip c).toNat < s.chip.nChips)) :
    endedWith (s.launchSend c) c 0x0104 (BitVec.ofNat 64 (5 * 2 ^ 32 + c.sent)) := by
  have hd : at64 Cause.PERM.toNat 32 + at64 c.sent 0 = BitVec.ofNat 64 (5 * 2 ^ 32 + c.sent) := by
    rw [BitVec.ofNat_add, at64, at64, pow_zero, mul_one]
    rfl
  rw [State.launchSend_next hb hs ho hup, if_pos (by omega), hd]
  exact endedWith_endCmd (s := s.fresh) h hc _ _

end

/-! ### COPYIN and COPYOUT (R115, R515) -/

theorem xferDetail_eq (cause : Byte) (off : Nat) : xferDetail cause off = BitVec.ofNat 64 (cause.toNat + 256 * off) := by
  rw [BitVec.ofNat_add, xferDetail, at64, at64, pow_zero, mul_one, mul_comm off]
  rfl

theorem xferDetail_first (cause : Byte) : BitVec.ofNat 64 (cause.toNat + 256 * 0) = cause.setWidth 64 := by
  simp

theorem State.runCopyIn_done {v : State} (h : s.copyIn c.job (portOfQueue c.q) c.arg0.toNat c.arg1 (s.portUp c.q) c.arg2.toNat
    (c.arg2.toNat / 64 + 2) 0 = (v, none)) : s.runCopyIn c = v.endCmd c.id 0 0 := by
  rw [State.runCopyIn]
  rw [h]

theorem State.runCopyIn_fails {v : State} {cause : Byte} {off : Nat} (h : s.copyIn c.job (portOfQueue c.q) c.arg0.toNat c.arg1
    (s.portUp c.q) c.arg2.toNat (c.arg2.toNat / 64 + 2) 0 = (v, some (cause, off))) : s.runCopyIn c =
      (v.blank c.job c.arg1 c.arg2.toNat (c.arg2.toNat / 64 + 2) off).endCmd c.id 0x0106 (BitVec.ofNat 64 (cause.toNat + 256 * off)) := by
  rw [State.runCopyIn]
  rw [h, ← xferDetail_eq]

theorem State.runCopyOut_done {v : State} (h : s.copyOut c.job (portOfQueue c.q) c.arg0 c.arg1.toNat (s.portUp c.q) c.arg2.toNat
    (c.arg2.toNat / 64 + 2) 0 = (v, none)) : s.runCopyOut c = v.endCmd c.id 0 0 := by
  rw [State.runCopyOut]
  rw [h]

theorem State.runCopyOut_fails {v : State} {cause : Byte} {off : Nat} (h : s.copyOut c.job (portOfQueue c.q) c.arg0 c.arg1.toNat
    (s.portUp c.q) c.arg2.toNat (c.arg2.toNat / 64 + 2) 0 = (v, some (cause, off))) :
    s.runCopyOut c = v.endCmd c.id 0x0106 (BitVec.ofNat 64 (cause.toNat + 256 * off)) := by
  rw [State.runCopyOut]
  rw [h, ← xferDetail_eq]

/-- A translation for a command changes translation caches and draws free values. -/
theorem State.fePlace_consulted (s : State) (j : BitVec 12) (acc : AccKind) (va : Word) : s.consulted (s.fePlace j acc va).1 := by
  have h : s.consulted (s.translate [] j false acc va).1 := .translate ..
  unfold State.fePlace
  split <;> (rw [‹State.translate .. = _›] at h; exact h)

theorem State.consulted.keepsLedger {u : State} (h : s.consulted u) : s.keepsLedger u := by
  obtain ⟨_, _, _, rfl⟩ := h
  exact .refl s

theorem State.fePlace_keeps {u : State} {j : BitVec 12} {acc : AccKind} {va : Word} {x : Sum Nat Byte}
    (h : s.fePlace j acc va = (u, x)) : s.keepsLedger u := by
  have hp := (s.fePlace_consulted j acc va).keepsLedger
  rwa [h] at hp

theorem State.keepsLedger.blank {t : State} {j dst n fuel off} (h : s.keepsLedger t) : s.keepsLedger (t.blank j dst n fuel off) := by
  induction fuel generalizing t off with
  | zero => exact h
  | succ fuel ih =>
    unfold State.blank
    split
    · exact h
    · refine ih ?_
      have hp := h.trans (t.fePlace_consulted j .write (dst + BitVec.ofNat 64 off)).keepsLedger
      split
      · rw [‹State.fePlace .. = _›] at hp
        exact .ite hp hp
      · rw [‹State.fePlace .. = _›] at hp
        exact hp

section
variable {u : State} {n pa : Nat} {cause : Byte} {bs : List Byte} (j : BitVec 12) (port : Bool)

/-- The part of a copy that lies in one line is the whole of it. -/
theorem min_line {va : Word} {n : Nat} (hl : va.toNat % 64 + n ≤ 64) : min (n - 0) (64 - (va + BitVec.ofNat 64 0).toNat % 64) = n := by
  rw [BitVec.add_zero]
  omega

/-! A COPYIN within one line: the host does not serve it, the device page cannot be reached, or its bytes are written. -/

theorem State.copyIn_refused {src : Nat} {dst : Word} (hn : 0 < n) (hs : Config.hostServes s.clk.free src = false) (k : Nat) :
    s.copyIn j port src dst true n (k + 1) 0 = (s, some (Cause.PERM, 0)) := by
  rw [State.copyIn, if_neg (by omega)]
  exact if_pos (by simp [hs])

theorem State.copyIn_fails {src : Nat} {dst : Word} (hn : 0 < n) (hs : Config.hostServes s.clk.free src = true)
    (hp : s.fePlace j .write dst = (u, .inr cause)) (k : Nat) : s.copyIn j port src dst true n (k + 1) 0 = (u, some (cause, 0)) := by
  rw [State.copyIn, if_neg (by omega)]
  dsimp only
  rw [BitVec.add_zero, hp]
  exact if_neg (by simp [hs])

theorem State.copyIn_writes {src : Nat} {dst : Word} {v : State} (hn : 0 < n) (hl : dst.toNat % 64 + n ≤ 64)
    (hs : Config.hostServes s.clk.free src = true) (hp : s.fePlace j .write dst = (u, .inl pa))
    (hw : u.devWrite (tagOf j) pa (u.portBytes port src n) = some v) (k : Nat) :
    s.copyIn j port src dst true n (k + 2) 0 = (v.fresh, none) := by
  rw [State.copyIn, if_neg (by omega)]
  dsimp only
  rw [min_line hl, BitVec.add_zero, hp]
  dsimp only
  rw [Nat.add_zero, hw]
  refine (if_neg (by simp [hs])).trans ?_
  dsimp only
  rw [State.copyIn, if_pos (by omega)]

/-! A COPYOUT within one line. -/

theorem State.copyOut_refused {src : Word} {dst : Nat} (hn : 0 < n) (hs : Config.hostServes s.clk.free dst = false) (k : Nat) :
    ∃ m, s.copyOut j port src dst true n (k + 1) 0 = ({ s with mem := m }, some (Cause.PERM, 0)) := by
  rw [State.copyOut, if_neg (by omega)]
  exact ⟨_, if_pos (by simp [hs])⟩

theorem State.copyOut_fails {src : Word} {dst : Nat} (hn : 0 < n) (hs : Config.hostServes s.clk.free dst = true)
    (hp : s.fePlace j .read src = (u, .inr cause)) (k : Nat) :
    ∃ m, s.copyOut j port src dst true n (k + 1) 0 = ({ u with mem := m }, some (cause, 0)) := by
  rw [State.copyOut, if_neg (by omega)]
  dsimp only
  rw [BitVec.add_zero, hp]
  exact ⟨_, if_neg (by simp [hs])⟩

theorem State.copyOut_writes {src : Word} {dst : Nat} (hn : 0 < n) (hl : src.toNat % 64 + n ≤ 64)
    (hs : Config.hostServes s.clk.free dst = true) (hp : s.fePlace j .read src = (u, .inl pa))
    (hr : u.devRead (tagOf j) pa n = .bytes bs) (k : Nat) :
    s.copyOut j port src dst true n (k + 2) 0 = ((u.portPut port dst bs).fresh, none) := by
  rw [State.copyOut, if_neg (by omega)]
  dsimp only
  rw [min_line hl, BitVec.add_zero, hp]
  dsimp only
  rw [Nat.add_zero, hr]
  refine (if_neg (by simp [hs])).trans ?_
  dsimp only
  rw [State.copyOut, if_pos (by omega)]

/-! ### Bytes written to the homes (R211, R212) -/

/-- A line that the job may write takes the bytes, and nothing else of device memory changes. -/
theorem State.devWrite_served (tag : Owner) (bs : List Byte) (hpa : pa < Config.devBytes)
    (hs : s.ownerCheck tag (s.lineOwner pa) = .served) : ∃ owner bad past, s.devWrite tag pa bs = some { s with mem := { s.mem with
      dev := Mem.puts none s.mem.dev pa bs, owner := owner, bad := bad, past := past } } := by
  unfold State.devWrite
  rw [hs]
  exact ⟨_, _, _, (if_neg (Nat.not_le.mpr hpa)).trans (if_neg (by decide))⟩

theorem Mem.get?_puts_getElem? {m : List Host.Cell} {a i : Nat} (hi : i < bs.length) :
    Tab.get? (Mem.puts none m a bs) (a + i) = bs[i]? := by
  rw [Mem.get?_puts_none _ _ _ _ hi, List.getElem?_eq_getElem hi]

/-- Where the bytes of device memory are the only ones written. -/
theorem State.sameBytesBut_dev {t : State} {owner : Table Owner} {bad : List Nat} {past : List Write}
    (h : t.mem = { s.mem with dev := Mem.puts none s.mem.dev pa bs, owner := owner, bad := bad, past := past }) :
    s.sameBytesBut t (.dev pa) bs.length := by
  intro q hq
  rw [State.sameBytes_of_mem (s := { s with mem := { s.mem with dev := Mem.puts none s.mem.dev pa bs, owner, bad, past } }) h q]
  cases q with
  | dev a =>
    simp only [Place.overlaps, Bool.and_eq_false_iff, decide_eq_false_iff_not] at hq
    exact Mem.get?_puts_out _ _ _ _ _ (by omega)
  | _ => rfl

theorem State.sameBytesBut_host {t : State} {a : Nat} (h : t.mem = { s.mem with host := Mem.puts none s.mem.host a bs }) :
    s.sameBytesBut t (.host a) bs.length := by
  intro q hq
  rw [State.sameBytes_of_mem (s := { s with mem := { s.mem with host := Mem.puts none s.mem.host a bs } }) h q]
  cases q with
  | host b =>
    simp only [Place.overlaps, Bool.and_eq_false_iff, decide_eq_false_iff_not] at hq
    exact Mem.get?_puts_out _ _ _ _ _ (by omega)
  | _ => rfl

@[simp] theorem State.length_portBytes (s : State) (port : Bool) (a n : Nat) : (s.portBytes port a n).length = n := by
  simp [State.portBytes]

end

/-! A copy within one line, as its command ends (R515). -/

section
variable {u : State} {pa : Nat} {cause : Byte} {bs : List Byte} (h : s.cmd c.id = some c) (hc : c.phase = .running)
  (hup : s.portUp c.q = true) (hn : 0 < c.arg2.toNat)
include h hc hup hn

theorem State.runCopyIn_refused (hs : Config.hostServes s.clk.free c.arg0.toNat = false) : endedWith (s.runCopyIn c) c 0x0106 5 := by
  rw [State.runCopyIn_fails (by rw [hup]; exact State.copyIn_refused c.job (portOfQueue c.q) hn hs _)]
  exact endedWith_endCmd ((State.keepsLedger.cmd (.blank (.refl s)) _).trans h) hc _ _

theorem State.runCopyIn_unreached (hp : s.fePlace c.job .write c.arg1 = (u, .inr cause)) :
    endedWith (s.runCopyIn c) c 0x0106 5 ∨ endedWith (s.runCopyIn c) c 0x0106 (cause.setWidth 64) := by
  cases hs : Config.hostServes s.clk.free c.arg0.toNat with
  | false => exact .inl (State.runCopyIn_refused h hc hup hn hs)
  | true =>
    have hu := State.fePlace_keeps hp
    rw [State.runCopyIn_fails (by rw [hup]; exact State.copyIn_fails c.job (portOfQueue c.q) hn hs hp _), xferDetail_first]
    exact .inr (endedWith_endCmd ((State.keepsLedger.cmd (.blank hu) _).trans h) hc _ _)

theorem State.runCopyIn_copies (hs : Config.hostServes s.clk.free c.arg0.toNat = true) (hl : c.arg1.toNat % 64 + c.arg2.toNat ≤ 64)
    (hp : s.fePlace c.job .write c.arg1 = (u, .inl pa)) (hpa : pa < Config.devBytes)
    (ho : u.ownerCheck (tagOf c.job) (u.lineOwner pa) = .served) :
    endedWith (s.runCopyIn c) c 0 0 ∧ u.sameBytesBut (s.runCopyIn c) (.dev pa) c.arg2.toNat ∧ ∀ i, i < c.arg2.toNat →
      (s.runCopyIn c).byteAt (.dev (pa + i)) = (u.portBytes (portOfQueue c.q) c.arg0.toNat c.arg2.toNat)[i]? := by
  have hu := State.fePlace_keeps hp
  let bs := u.portBytes (portOfQueue c.q) c.arg0.toNat c.arg2.toNat
  have hlen : bs.length = c.arg2.toNat := u.length_portBytes ..
  obtain ⟨owner, bad, past, hw⟩ := State.devWrite_served (tagOf c.job) bs hpa ho
  rw [State.runCopyIn_done (by rw [hup]; exact State.copyIn_writes c.job (portOfQueue c.q) hn hl hs hp hw _)]
  refine ⟨endedWith_endCmd ((hu.cmd _).trans h) hc _ _, ?_, fun i hi => Mem.get?_puts_getElem? (hlen ▸ hi)⟩
  rw [← hlen]
  exact State.sameBytesBut_dev rfl

theorem State.runCopyOut_refused (hs : Config.hostServes s.clk.free c.arg1.toNat = false) : endedWith (s.runCopyOut c) c 0x0106 5 := by
  obtain ⟨m, hm⟩ := State.copyOut_refused (s := s) c.job (portOfQueue c.q) (src := c.arg0) hn hs (c.arg2.toNat / 64 + 1)
  rw [State.runCopyOut_fails (by rw [hup]; exact hm)]
  exact endedWith_endCmd (s := { s with mem := m }) h hc _ _

theorem State.runCopyOut_unreached (hp : s.fePlace c.job .read c.arg0 = (u, .inr cause)) :
    endedWith (s.runCopyOut c) c 0x0106 5 ∨ endedWith (s.runCopyOut c) c 0x0106 (cause.setWidth 64) := by
  cases hs : Config.hostServes s.clk.free c.arg1.toNat with
  | false => exact .inl (State.runCopyOut_refused h hc hup hn hs)
  | true =>
    have hu := State.fePlace_keeps hp
    obtain ⟨m, hm⟩ := State.copyOut_fails c.job (portOfQueue c.q) hn hs hp (c.arg2.toNat / 64 + 1)
    rw [State.runCopyOut_fails (by rw [hup]; exact hm), xferDetail_first]
    exact .inr (endedWith_endCmd (s := { u with mem := m }) ((hu.cmd _).trans h) hc _ _)

theorem State.runCopyOut_copies (hs : Config.hostServes s.clk.free c.arg1.toNat = true) (hl : c.arg0.toNat % 64 + c.arg2.toNat ≤ 64)
    (hp : s.fePlace c.job .read c.arg0 = (u, .inl pa)) (hr : u.devRead (tagOf c.job) pa c.arg2.toNat = .bytes bs)
    (hlen : bs.length = c.arg2.toNat) :
    endedWith (s.runCopyOut c) c 0 0 ∧
      u.sameBytesBut (s.runCopyOut c) (.host (hostKey (portOfQueue c.q) c.arg1.toNat)) c.arg2.toNat ∧ ∀ i, i < c.arg2.toNat →
        (s.runCopyOut c).byteAt (.host (hostKey (portOfQueue c.q) c.arg1.toNat + i)) = bs[i]? := by
  have hu := State.fePlace_keeps hp
  rw [State.runCopyOut_done (by rw [hup]; exact State.copyOut_writes c.job (portOfQueue c.q) hn hl hs hp hr _)]
  refine ⟨endedWith_endCmd ((hu.cmd _).trans h) hc _ _, ?_, fun i hi => Mem.get?_puts_getElem? (hlen ▸ hi)⟩
  rw [← hlen]
  exact State.sameBytesBut_host rfl

end

/-! ### HBIND, HREL, TOHOST, TODEVICE (R118, R123–R125) -/

@[simp] theorem State.handle_setHandle (s : State) (j : BitVec 12) (k : Nat) (x : Handle) : (s.setHandle j k x).handle j k = some x := by
  simp [State.handle, State.setHandle]

theorem fld_lo (w : Word) (n : Nat) : fld w 0 n = w.toNat % 2 ^ n := by simp [fld]
theorem fld_handle (w : Word) : fld w 0 12 = w.toNat % 4096 := fld_lo w 12
theorem Cmd.flipped_eq (c : Cmd) : c.flipped = (c.uses.headD 0).toNat % 4096 := by simp [Cmd.flipped, fld]

section
variable (h : s.cmd c.id = some c) (hc : c.phase = .running)
include h hc

theorem State.hbind_refused (hb : c.arg0.toNat % 0x10000 ≠ 0 ∨ c.arg1.toNat % 0x10000 ≠ 0 ∨
    s.handle c.job (c.arg2.toNat % 4096) ≠ none ∨ s.allOwn c.job c.arg0 c.arg1 = false) :
    endedWith (s.hbind c) c 0x0101 0 ∧ (s.hbind c).job c.job = s.job c.job ∧
      ∃ d, (s.hbind c).cmd c.id = some d ∧ (s.hbind c).lastWriters d = s.hbind c := by
  have ht : s.hbind c = (s.updFe c.id fun c => { c with begun := false }).endCmd c.id 0x0101 0 := by
    unfold State.hbind
    rw [fld_lo]
    exact if_pos (by simpa [Option.isSome_iff_ne_none] using hb)
  rw [ht]
  have hd := State.cmd_updFe (u := fun c => { c with begun := false }) h fun _ => rfl
  refine ⟨endedWith_endCmd hd hc _ _, rfl, _, State.cmd_endCmd hd hc _ _, ?_⟩
  exact if_pos rfl

theorem State.hbind_binds (hb : ¬(c.arg0.toNat % 0x10000 ≠ 0 ∨ c.arg1.toNat % 0x10000 ≠ 0 ∨
    s.handle c.job (c.arg2.toNat % 4096) ≠ none ∨ s.allOwn c.job c.arg0 c.arg1 = false)) :
    endedWith (s.hbind c) c 0 0 ∧ (s.hbind c).handle c.job (c.arg2.toNat % 4096) =
      some { base := c.arg0, len := c.arg1, hostOwned := false, flipping := false, lastHost := false } := by
  have ht : s.hbind c = (s.setHandle c.job (c.arg2.toNat % 4096)
      { base := c.arg0, len := c.arg1, hostOwned := false, flipping := false, lastHost := false }).endCmd c.id 0 0 := by
    unfold State.hbind
    rw [fld_lo]
    exact if_neg (by simpa [Option.isSome_iff_ne_none] using hb)
  rw [ht]
  exact ⟨endedWith_endCmd (s := s.setHandle ..) h hc _ _, State.handle_setHandle ..⟩

end
theorem State.hrel_none (hh : s.handle c.job (c.arg2.toNat % 4096) = none) : s.hrel c = s.endCmd c.id 0x0101 0 := by
  rw [State.hrel, fld_handle]
  dsimp only
  rw [hh]

theorem State.hrel_frees {x : Handle} (hh : s.handle c.job (c.arg2.toNat % 4096) = some x) :
    let v := s.failParks (s.ownParks c.job x.base x.len)
    s.hrel c = ((if x.hostOwned = true then v.setHo c.job x.base x.len false else v).dropHandle c.job (c.arg2.toNat % 4096)).endCmd c.id 0 0 := by
  rw [State.hrel, fld_handle]
  dsimp only
  rw [hh]

section
variable {x : Handle}

theorem State.toHost_none (hh : s.handle c.job c.flipped = none) : s.toHost c = s.endCmd c.id 0x0101 0 := by
  rw [State.toHost, hh]

theorem State.toHost_begins (hh : s.handle c.job c.flipped = some x) (hx : x.flipping = false) :
    s.toHost c = (s.setHo c.job x.base x.len true).setHandle c.job c.flipped { x with flipping := true } := by
  rw [State.toHost, hh]
  exact if_neg (by simp [hx])

theorem State.toHostCommit_commits (hh : s.handle c.job c.flipped = some x) (hx : x.flipping = true)
    (ha : s.accessesTo c.job x.base x.len = false) : s.toHostCommit c = ((s.dropRange c.job x.base x.len).setHandle c.job c.flipped
      { x with flipping := false, hostOwned := true }).endCmd c.id 0 0 := by
  rw [State.toHostCommit, hh]
  exact if_neg (by simp [hx, ha])

theorem State.toHostCommit_waits (hh : s.handle c.job c.flipped = some x) (ha : s.accessesTo c.job x.base x.len = true) :
    s.toHostCommit c = s := by
  rw [State.toHostCommit, hh]
  exact if_pos (by simp [ha])

theorem State.toDevice_none (hh : s.handle c.job c.flipped = none) : s.toDevice c = s.endCmd c.id 0x0101 0 := by
  rw [State.toDevice, hh]

theorem State.toDevice_returns (hh : s.handle c.job c.flipped = some x) :
    let v := (if x.hostOwned = true then s.setHo c.job x.base x.len false else s).setHandle c.job c.flipped
      { x with hostOwned := false, lastHost := true }
    s.toDevice c = (v.replayParks (v.ownParks c.job x.base x.len)).endCmd c.id 0 0 := by
  rw [State.toDevice, hh]

end
end

/-- Settles O54, an operation at a time: a LOAD by what its begin and its stages can come to (`LoadRuns`, `LoadEnded`), a copy by its
one line, and a handle command by the case of its handle. -/
theorem commandEvents : Obligations.CommandEvents := by
  unfold Obligations.CommandEvents
  intro s u id n pa c p cause h bs
  extract_lets j front asked k key port env word chip named
  intro hcmd hc hf
  have hid : c.id = id := State.cmd_id hcmd
  subst hid
  -- what a running command of an operation does
  have ran {i : Instr} {op : Byte} {f : Cmd → State} (ho : c.op = op) (hi : exec i s = .next (s.running c.id op f)) :
      exec i s = .next (f c) := hi.trans (congrArg _ (State.running_self hcmd hc ho hf f))
  refine ⟨fun ho hup => ?load, fun ho ha hp => ?launch, fun ho hb hs hout hup => ?send, fun ho ha hp => ?wait, fun ho ha hp => ?signal,
    fun ho => ?copyin, fun ho => ?copyout, fun ho => ?hbind, fun ho => ?hrel, fun ho => ?tohost, fun ho => ?todevice⟩
  case load =>
    have he := exec_load hcmd hc ho hf
    refine ⟨fun hl hb => ?_, fun hl => ?_, fun r hl => ⟨fun hw => ?_, fun hw h4 hz => ?_, fun hw h12 hz => ?_⟩⟩
    · rw [State.loadCmd_busy hcmd hc hup hl hb] at he
      exact ⟨_, he, endedWith_endCmd (s := s.fresh) hcmd hc _ _, rfl, State.sameBytes_of_mem rfl⟩
    · rw [State.loadCmd_start hup hl] at he
      obtain ⟨r, hw, hr⟩ | ⟨d, hd, hrest⟩ := State.loadStart_comes hcmd hc hl
      · exact ⟨_, he, _, hr.cmd, .inl ⟨hc, r, rfl, hw⟩⟩
      · exact ⟨_, he, d, hd, .inr hrest⟩
    · rw [he, State.loadCmd_waits hcmd hl hw]
    · exact ⟨_, he, State.loadCmd_rejects hcmd hc hl hw h4 hz⟩
    · rw [State.loadCmd_done hcmd hc hl hw h12 hz] at he
      exact ⟨_, he, endedWith_endCmd hcmd hc _ _, rfl⟩
  case launch => exact ⟨_, ran ho rfl, State.askCounter_asks hcmd ha hp _⟩
  case wait => exact ⟨_, ran ho rfl, State.askCounter_asks hcmd ha hp _⟩
  case signal => exact ⟨_, ran ho rfl, State.askCounter_asks hcmd ha hp _⟩
  case send =>
    have he := ran (i := .launchEnvelopeSend c.id) ho rfl
    have hw : fld (s.launchWord c 0) 44 8 = (word 0).toNat / 2 ^ 44 % 256 := by
      simp [fld, State.launchWord, word, env, port, portOfQueue, Nat.shiftRight_eq_div_pow]
    refine ⟨fun hn => ?_, fun hn => ⟨_, he, State.launchSend_fails hb hs hout hup hcmd hc (by rw [hw]; exact hn)⟩⟩
    obtain ⟨hcmd', hout', hnet⟩ := State.launchSend_sends hb hs hout hup hcmd (by rw [hw]; exact hn.1) hn.2
    obtain ⟨hhdr, hchip, hplace⟩ := hdrBy_front (s.launchWord c 0) c.job (s.launchChip c)
    exact ⟨_, he, hcmd', hout', s.launchEnv c, hnet, hhdr, hchip, hplace, rfl, rfl, rfl, rfl, rfl⟩
  case copyin =>
    have he := ran (i := .copyin c.id) ho rfl
    refine ⟨?_, fun hup hn h0 hl => ?_⟩
    · split
      · next hr => exact he.trans (congrArg _ (State.runCopyIn_done (Prod.ext rfl hr)))
      · next hr => exact he.trans (congrArg _ (State.runCopyIn_fails (Prod.ext rfl hr)))
    · subst hn
      refine ⟨fun hp _ hpa hserved => ?_, fun hp => ⟨_, he, State.runCopyIn_unreached hcmd hc hup h0 hp⟩⟩
      cases hs : Config.hostServes s.clk.free c.arg0.toNat with
      | false => exact ⟨_, he, .inr ⟨rfl, State.runCopyIn_refused hcmd hc hup h0 hs⟩⟩
      | true => exact ⟨_, he, .inl ⟨rfl, State.runCopyIn_copies hcmd hc hup h0 hs hl hp hpa hserved⟩⟩
  case copyout =>
    have he := ran (i := .copyout c.id) ho rfl
    refine ⟨?_, fun hup hn h0 hl => ?_⟩
    · split
      · next hr => exact he.trans (congrArg _ (State.runCopyOut_done (Prod.ext rfl hr)))
      · next hr => exact he.trans (congrArg _ (State.runCopyOut_fails (Prod.ext rfl hr)))
    · subst hn
      refine ⟨fun hp hr hlen => ?_, fun hp => ⟨_, he, State.runCopyOut_unreached hcmd hc hup h0 hp⟩⟩
      cases hs : Config.hostServes s.clk.free c.arg1.toNat with
      | false => exact ⟨_, he, .inr ⟨rfl, State.runCopyOut_refused hcmd hc hup h0 hs⟩⟩
      | true => exact ⟨_, he, .inl ⟨rfl, State.runCopyOut_copies hcmd hc hup h0 hs hl hp hr hlen⟩⟩
  case hbind =>
    have he := ran (i := .hbind c.id) ho rfl
    exact ⟨fun hb => ⟨_, he, State.hbind_refused hcmd hc hb⟩, fun hb => ⟨_, he, State.hbind_binds hcmd hc hb⟩⟩
  case hrel =>
    have he := ran (i := .hrel c.id) ho rfl
    refine ⟨fun hh => ?_, fun hh => ?_⟩
    · rw [State.hrel_none hh] at he
      exact ⟨_, he, endedWith_endCmd hcmd hc _ _, rfl⟩
    · rw [he, State.hrel_frees hh]
  case tohost =>
    have hkey : c.flipped = key := c.flipped_eq
    have hb := ran (i := .tohost c.id) ho rfl
    have hm := ran (i := .tohostCommit c.id) ho rfl
    rw [← hkey]
    refine ⟨fun hh => ?_, fun hh hx => ?_, fun hh hx ha => ?_, fun hh ha => ?_⟩
    · rw [State.toHost_none hh] at hb
      exact ⟨_, hb, endedWith_endCmd hcmd hc _ _, rfl⟩
    · rw [hb, State.toHost_begins hh hx]
    · rw [State.toHostCommit_commits hh hx ha] at hm
      exact ⟨_, hm, endedWith_endCmd (s := s) hcmd hc _ _, State.handle_setHandle .., fun p => by cases p <;> rfl⟩
    · rw [hm, State.toHostCommit_waits hh ha]
  case todevice =>
    have hkey : c.flipped = key := c.flipped_eq
    have he := ran (i := .todevice c.id) ho rfl
    refine ⟨fun hh => ?_, fun hh => ?_⟩
    · rw [State.toDevice_none (hkey ▸ hh)] at he
      exact ⟨_, he, endedWith_endCmd hcmd hc _ _, rfl⟩
    · rw [he, State.toDevice_returns (hkey ▸ hh), hkey]

end Sys2Proof.Machine
end

section
/-! # O53: the host's ports (R109–R122, R490)

A doorbell wakes what its index reaches (`State.wakeReached_dev`): room in a slice's table moves waiters, and none is lost
(`State.sameWaiters`). A command's completion is its notices, one after the other, and its count (`Retired`); what the notices put in host
memory is read back, or lies beside what is read (`State.portBytes_put`). -/

namespace Sys2Proof.Machine

/-! ### The lease (R109–R111) -/

theorem fld_lease (w : Word) : fld w 0 62 = w.toNat % 2 ^ 62 := fld_lo w 62

theorem fld_owner (w : Word) : fld w 62 2 = w.toNat / 2 ^ 62 := by
  have hw := w.isLt
  rw [fld, BitVec.extractLsb'_toNat, Nat.shiftRight_eq_div_pow]
  omega

theorem owner_eq (port : Bool) : 1 + b2n port = if port then 2 else 1 := by cases port <;> rfl

/-- When the compare-and-swap of the lease stores. -/
def State.leaseTakes (s : State) (port : Bool) (old new : Word) : Prop :=
  s.fe.hlease = old ∧ (s.fe.hlease.toNat / 2 ^ 62 = 0 ∨ s.fe.hlease.toNat / 2 ^ 62 = (if port then 2 else 1) ∨
      s.fe.hlease.toNat % 2 ^ 62 ≤ s.clk.dtime.toNat % 2 ^ 62) ∧
    (new.toNat / 2 ^ 62 = 0 ∨ new.toNat / 2 ^ 62 = (if port then 2 else 1)) ∧
    new.toNat % 2 ^ 62 ≤ s.clk.dtime.toNat % 2 ^ 62 + 10000000000

section
variable {s t : State} {port : Bool} {old new v : Word} {via : Via} {q : Nat}

theorem State.leaseCas_swaps (hf : s.sec.failed = none) (h : s.leaseTakes port old new) :
    s.leaseCas port old new = { s with fe := { s.fe with answers := some s.fe.hlease :: s.fe.answers, hlease := new, expired := false } } := by
  rw [State.leaseCas, hf]
  refine (if_neg Bool.false_ne_true).trans (if_pos ?_)
  simpa [fld_lease, fld_owner, owner_eq, State.leaseTakes, or_assoc, and_assoc] using h

theorem State.leaseCas_keeps (hf : s.sec.failed = none) (h : ¬s.leaseTakes port old new) :
    s.leaseCas port old new = s.answerHost (some s.fe.hlease) := by
  rw [State.leaseCas, hf]
  refine (if_neg Bool.false_ne_true).trans (if_neg fun hok => h ?_)
  simpa [fld_lease, fld_owner, owner_eq, State.leaseTakes, or_assoc, and_assoc] using hok

/-- A lease that is over serves no queue. -/
theorem State.served_expired (h : s.fe.expired = true) (q : Nat) : s.served q = false := by simp [State.served, h]

theorem exec_expiry (h : s.fe.hlease.toNat % 2 ^ 62 ≤ s.clk.dtime.toNat % 2 ^ 62) :
    exec .hostLeaseExpiry s = .next { s with fe := { s.fe with expired := true } } := by
  change execHostLeaseExpiry s = _
  rw [execHostLeaseExpiry, if_pos (by rwa [fld_lease, fld_lease])]

/-! ### Writes to a queue block (R112, R113, R490) -/

theorem queueAt_own (hq : q < 256) (hp : port = true ↔ 128 ≤ q) : queueAt port q = true := by
  have hport : portOfQueue q = port := by rw [portOfQueue, Bool.eq_iff_iff, decide_eq_true_iff, hp]
  simp [queueAt, hq, hport]

/-- A write to a queue block of its port, made or counted as bad. -/
theorem State.queueWrite_own (hm : queueAt via.port q = true) (hf : s.sec.failed = none) (k : State → State) :
    s.queueWrite via q k = if s.trusted via q = true then k s else s.feBad := by
  rw [State.queueWrite, if_neg (by simp [hm, hf])]

theorem Iface.accepts_running {y : Iface} (h : y.st = .run) :
    y.accepts via = true ↔ via.stream = some y.stream ∧ via.tbit = true := by
  simp [Iface.accepts, h]

/-- A queue block all of whose interfaces accept the request is open to it. -/
theorem State.trusted_of_accepts (h : ∀ y, s.ifaceOf q (fun x => decide (x = y)) = true → y.accepts via = true) : s.trusted via q = true := by
  rw [State.trusted, Bool.not_eq_true', ← Bool.not_eq_true]
  intro hany
  obtain ⟨e, he, hx⟩ := List.any_eq_true.mp hany
  simp only [Bool.and_eq_true, Bool.not_eq_true'] at hx
  obtain ⟨hblock, hno⟩ := hx
  have hthis : s.ifaceOf q (fun x => decide (x = e.2)) = true :=
    List.any_eq_true.mpr ⟨e, he, by simpa using hblock⟩
  rw [h e.2 hthis] at hno
  exact Bool.noConfusion hno

/-- The fields of a queue block that a QCTL write sets: an enabled queue keeps its job and the size of its ring (R112). -/
def Queue.controls (x : Queue) (v : Word) : Queue :=
  let lent := if x.en then x.lent else v.extractLsb' 0 5
  let en := v.getLsbD 63 && decide (4 ≤ lent.toNat) && decide (lent.toNat ≤ 16)
  { x with en := en, job := if x.en then x.job else v.extractLsb' 32 12, msix := v.extractLsb' 16 16, lent := lent }

/-- The queue block that QCTL leaves: a queue that becomes enabled starts its counts (R112). -/
def Queue.controlled (x : Queue) (v : Word) : Queue :=
  if (x.controls v).en = true ∧ x.en = false then { x.controls v with pub := 0, fetch := 0, done := 0, epoch := x.epoch + 1 }
  else x.controls v

theorem State.qctl_unfrozen (h : s.frozen q = false) : s.qctl q v = s.setQueue q ((s.queueOf q).controlled v) := by
  simp only [State.qctl, Queue.controlled, Queue.controls, h, Bool.or_false, Bool.not_eq_true']
  exact (apply_ite (s.setQueue q) ..).symm

section
variable (x : Queue) (v : Word)

/-- Starting the counts sets no other field. -/
theorem Queue.controlled_fields : (x.controlled v).en = (x.controls v).en ∧ (x.controlled v).job = (x.controls v).job ∧
    (x.controlled v).lent = (x.controls v).lent ∧ (x.controlled v).msix = (x.controls v).msix := by
  rw [Queue.controlled]
  split <;> exact ⟨rfl, rfl, rfl, rfl⟩

theorem Queue.controls_lent : (x.controls v).lent.toNat = if x.en = true then x.lent.toNat else v.toNat % 32 := by
  have hv : (v.extractLsb' 0 5).toNat = v.toNat % 32 := by simp
  rw [← hv, ← apply_ite BitVec.toNat]
  rfl

theorem Queue.controls_en : (x.controls v).en = (v.getLsbD 63 && decide (4 ≤ if x.en = true then x.lent.toNat else v.toNat % 32) &&
    decide ((if x.en = true then x.lent.toNat else v.toNat % 32) ≤ 16)) := by
  rw [← Queue.controls_lent]
  rfl

theorem Queue.controlled_starts (hy : (x.controlled v).en = true) (hx : x.en = false) :
    (x.controlled v).pub = 0 ∧ (x.controlled v).fetch = 0 ∧ (x.controlled v).done = 0 := by
  rw [Queue.controlled] at hy ⊢
  split at hy
  · next h => rw [if_pos h]; exact ⟨rfl, rfl, rfl⟩
  · next h => exact absurd ⟨hy, hx⟩ h

theorem Queue.controlled_counts (h : x.en = true ∨ (x.controlled v).en = false) :
    (x.controlled v).pub = x.pub ∧ (x.controlled v).fetch = x.fetch ∧ (x.controlled v).done = x.done := by
  rw [Queue.controlled] at h ⊢
  split at h
  · next hs => obtain ⟨hy, hx⟩ := hs; simp [hy, hx] at h
  · next hs => rw [if_neg hs]; exact ⟨rfl, rfl, rfl⟩

end

/-! ### Waiters of a counter (R344, R346, R354) -/

/-- Waiters may have moved from the spill queue into the table; nothing else differs. -/
def State.sameWaiters (s t : State) : Prop := ∃ ws sp, t = { s with chip := { s.chip with waiters := ws, spilled := sp } } ∧
  ∀ w, w ∈ s.chip.waiters ++ s.chip.spilled → w ∈ ws ++ sp

theorem State.sameWaiters.refl (s : State) : s.sameWaiters s := ⟨_, _, rfl, fun _ h => h⟩

theorem State.unspill_sameWaiters (sl n : Nat) : ∀ s : State, s.sameWaiters (s.unspill sl n) := by
  induction n with
  | zero => exact .refl
  | succ n ih =>
    intro s
    rw [State.unspill]
    split
    · exact .refl s
    · next w _ =>
      split
      · obtain ⟨ws, sp, ht, hmem⟩ := ih { s with chip := { s.chip with waiters := s.chip.waiters ++ [w], spilled := s.chip.spilled.erase w } }
        refine ⟨ws, sp, ht, fun d hd => hmem d ?_⟩
        simp only [List.mem_append, List.mem_singleton] at hd ⊢
        by_cases he : d = w
        · exact .inl (.inr he)
        · exact hd.imp .inl (List.mem_erase_of_ne he).mpr
      · exact .refl s

theorem State.tidy_sameWaiters (s : State) (p : Place) : s.sameWaiters (s.tidy p) := by
  cases p with
  | dev pa => exact State.unspill_sameWaiters _ _ s
  | _ => exact .refl s

/-- The waiters of a counter that a value reaches. -/
def CWaiter.hit (p : Place) (v : Word) (w : CWaiter) : Bool := w.p.sameCounter p && reached v w.thr

/-- The table and the spill queue of the chip, of the waiters that a value reaches. -/
def State.hits (s : State) (p : Place) (v : Word) : List CWaiter := (s.chip.waiters ++ s.chip.spilled).filter (CWaiter.hit p v)

theorem State.wakeReached_none {pa : Nat} (h : (s.tidy (.dev pa)).hits (.dev pa) v = []) :
    s.wakeReached (.dev pa) v = s.tidy (.dev pa) := by
  rw [State.hits, List.filter_append] at h
  exact if_pos (List.isEmpty_iff.mpr h)

/-- The waiters that a value reaches leave the chip and are sent, as woken with the value and what was released. -/
theorem State.wakeReached_some {pa : Nat} (h : (s.tidy (.dev pa)).hits (.dev pa) v ≠ []) : ∃ ws sp,
    s.wakeReached (.dev pa) v = { s with chip := { s.chip with waiters := ws, spilled := sp }, net := s.net ++
      [.toWake (((s.tidy (.dev pa)).hits (.dev pa) v).map fun (w : CWaiter) => (w.w, w.job)) v (s.relsOf (.dev pa))] } := by
  rw [State.hits, List.filter_append] at h ⊢
  obtain ⟨_, _, ht, -⟩ := s.tidy_sameWaiters (.dev pa)
  obtain ⟨ws, sp, ht', -⟩ := State.tidy_sameWaiters { s.tidy (.dev pa) with chip := { (s.tidy (.dev pa)).chip with
    waiters := (s.tidy (.dev pa)).chip.waiters.filter fun w => !CWaiter.hit (.dev pa) v w
    spilled := (s.tidy (.dev pa)).chip.spilled.filter fun w => !CWaiter.hit (.dev pa) v w } } (.dev pa)
  refine ⟨ws, sp, (if_neg fun he => h (List.isEmpty_iff.mp he)).trans ((congrArg (State.send · _) ht').trans ?_)⟩
  rw [ht]
  rfl

/-- Waking changes the waiters of the chip and what is on its way, and every waiter that the value reaches is on its way to be woken. -/
theorem State.wakeReached_dev (s : State) (pa : Nat) (v : Word) : ∃ ws sp net,
    s.wakeReached (.dev pa) v = { s with chip := { s.chip with waiters := ws, spilled := sp }, net := net } ∧
      wakes s (s.wakeReached (.dev pa) v) (.dev pa) v := by
  obtain ⟨ws, sp, ht, hmem⟩ := s.tidy_sameWaiters (.dev pa)
  have hhit {w : CWaiter} (hw : w ∈ waitersAt s (.dev pa)) (hp : w.p.sameCounter (.dev pa) = true) (hr : reaches v w.thr) :
      w ∈ (s.tidy (.dev pa)).hits (.dev pa) v := by
    rw [ht]
    exact List.mem_filter.mpr ⟨hmem w hw, Bool.and_eq_true _ _ ▸ ⟨hp, decide_eq_true hr⟩⟩
  by_cases he : (s.tidy (.dev pa)).hits (.dev pa) v = []
  · rw [State.wakeReached_none he]
    refine ⟨ws, sp, s.net, ht, fun w hw hp hr => absurd (hhit hw hp hr) ?_⟩
    rw [he]
    exact List.not_mem_nil
  · obtain ⟨ws', sp', hs⟩ := State.wakeReached_some he
    rw [hs]
    exact ⟨ws', sp', _, rfl, fun w hw hp hr =>
      ⟨_, List.mem_append_right _ (List.mem_singleton_self _), List.mem_map_of_mem (hhit hw hp hr)⟩⟩

/-! ### Doorbells (R113) -/

/-- A doorbell adds to the published index, and waits observe it. -/
theorem State.doorbell_adds (hv : v.toNat < 2 ^ 63) :
    ((s.doorbell q v).queueOf q).pub = (s.queueOf q).pub + v ∧ (s.doorbell q v).fe.bad = s.fe.bad ∧
      wakes s (s.doorbell q v) (.dev (Config.pubPa q)) ((s.queueOf q).pub + v) ∧ s.sameBytes (s.doorbell q v) ∧
      (s.doorbell q v).frames = s.frames := by
  rw [State.doorbell, if_neg (Nat.not_le.mpr hv)]
  dsimp only
  obtain ⟨ws, sp, net, ht, hw⟩ := (s.setQueue q { s.queueOf q with pub := (s.queueOf q).pub + v }).wakeReached_dev (Config.pubPa q)
    ((s.queueOf q).pub + v)
  refine ⟨?_, ?_, hw, State.sameBytes_of_mem ?_, ?_⟩
  · rw [ht]; exact congrArg Queue.pub (State.queueOf_setQueue ..)
  · rw [ht]; rfl
  · rw [ht]; rfl
  · rw [ht]; rfl

theorem State.doorbell_bad (hv : 2 ^ 63 ≤ v.toNat) : s.doorbell q v = s.feBad := if_pos hv

end

/-! ### Fetching (R113, R114) -/

section
variable {s u : State} {q id : Nat} {c : Cmd} {st : BitVec 16} {p : Option Place}

/-- The command that a queue fetches next. -/
def State.nextCmd (s : State) (q : Nat) : Cmd :=
  let x := s.queueOf q
  Cmd.ofBytes s.fe.nextId q x.fetch x (s.portBytes (portOfQueue q) (x.qbase.toNat + 64 * (x.fetch % 2 ^ x.lent.toNat)) 64)

theorem State.fetchCmd_fetches (hs : s.served q = true) (hup : s.portUp q = true)
    (hr : reaches (s.queueOf q).pub (BitVec.ofNat 64 ((s.queueOf q).fetch + 1)))
    (ho : ∀ d ∈ s.fe.cmds, d.q = q → d.epoch = (s.queueOf q).epoch → d.k + 2 ^ (s.queueOf q).lent.toNat ≠ (s.queueOf q).fetch) :
    let queues := Tab.put s.fe.queues q { s.queueOf q with fetch := (s.queueOf q).fetch + 1 }
    s.fetchCmd q = State.fresh { s with fe := { s.fe with queues, cmds := s.fe.cmds ++ [s.nextCmd q], nextId := s.fe.nextId + 1 } } := by
  have hopen : (s.fe.cmds.any fun d => decide (d.q = q) && decide (d.epoch = (s.queueOf q).epoch) &&
      decide (d.k + 2 ^ (s.queueOf q).lent.toNat = (s.queueOf q).fetch)) = false := by
    simpa [and_imp] using ho
  have hreached : reached (s.queueOf q).pub (BitVec.ofNat 64 ((s.queueOf q).fetch + 1)) = true := decide_eq_true hr
  rw [State.fetchCmd]
  exact if_neg (by simp [hs, hup, hreached, hopen])

/-! ### Starting (R114, R116) -/

theorem State.check116_noCode (h : c.op = 0 ∨ 0x0D < c.op.toNat) : s.check116 c = (s, 0x0100, none) :=
  if_pos (h.imp_right .inl)

theorem fld_reserved (x : BitVec 16) : fld x 12 2 = x.toNat / 4096 % 4 := by
  simp [fld, Nat.shiftRight_eq_div_pow]

theorem fld_flags {f : Byte} (h : f.toNat < 4) : fld f 2 6 = 0 := by
  rw [fld, BitVec.extractLsb'_toNat, Nat.shiftRight_eq_div_pow]
  omega

/-- Reserved bits of a command for a job, and its code, as they may be. -/
theorem State.check116_otherJob (hop : c.op.toNat < 11) (h0 : c.op ≠ 0) (hr : c.resv = false) (hf : c.flags.toNat < 4)
    (hu : ∀ x ∈ c.uses, x.toNat / 4096 % 4 = 0) (hj : c.job ≠ (s.queueOf c.q).job) : s.check116 c = (s, 0x0102, none) := by
  have huses : (c.uses.any fun x => decide (fld x 12 2 ≠ 0)) = false := by
    simpa [fld_reserved] using hu
  have hcode : ¬0x0B ≤ c.op.toNat := by omega
  have hlast : ¬0x0D < c.op.toNat := by omega
  rw [State.check116]
  refine (if_neg ?_).trans (if_pos (.inl hj))
  simp only [h0, hr, fld_flags hf, huses, hcode, hlast, decide_false, ne_eq, not_true, Bool.or_false, Bool.false_and, Bool.false_eq_true,
    or_false, not_false_eq_true]

theorem State.startCmd_fails (h : s.cmd id = some c) (hc : c.phase = .fetched) (hm : s.mayStart c = true) (hf : s.pwr.fatal = false)
    (hk : s.check116 c = (u, st, p)) (hst : st ≠ 0) : s.startCmd id = u.updFe id fun c => { c with phase := .ended, status := st } := by
  rw [State.startCmd, h]
  refine (if_neg (by simp [hc, hm, hf])).trans ?_
  rw [hk]
  exact if_pos hst

/-- The copies of the handles of a command that the host side wrote last are dropped. -/
def State.dropWritten (s : State) (c : Cmd) : State :=
  c.touches.foldl (fun s h => match Tab.get? (s.job c.job).handles h.1 with
    | some x => if x.lastHost then s.dropRange c.job x.base x.len else s
    | none => s) s

theorem State.keepsLedger.dropWritten (s : State) (c : Cmd) : s.keepsLedger (s.dropWritten c) := by
  refine .foldl (.refl s) fun t x ht => ?_
  split
  · exact .ite (.withMem ht) ht
  · exact ht

/-- A command that passes its checks runs, after the copies of what the host side wrote last were dropped. -/
theorem State.startCmd_runs (h : s.cmd id = some c) (hc : c.phase = .fetched) (hm : s.mayStart c = true) (hf : s.pwr.fatal = false)
    (hk : s.check116 c = (u, 0, p)) :
    s.startCmd id = ((u.dropWritten c).updFe id fun c => { c with phase := .running, ctr := p, begun := true }).fresh := by
  rw [State.startCmd, h]
  refine (if_neg (by simp [hc, hm, hf])).trans ?_
  rw [hk]
  exact if_neg (by decide)

end

/-! ### Bytes of host memory -/

section
variable {s t : State} {port : Bool} {a b n : Nat} {bs : List Byte}

theorem leNat_leBytes (n : Nat) : ∀ v, leNat (leBytes v n) = v % 256 ^ n := by
  induction n with
  | zero => intro v; simp [leBytes, leNat, Nat.mod_one]
  | succ n ih =>
    intro v
    rw [leBytes, leNat, ih, BitVec.toNat_ofNat, pow_succ' 256, Nat.mod_mul]

theorem length_leBytes (n : Nat) : ∀ v, (leBytes v n).length = n := by
  induction n with
  | zero => exact fun _ => rfl
  | succ n ih => exact fun v => congrArg (· + 1) (ih _)

theorem hostKey_add {i : Nat} (h : a + i < 2 ^ 64) : hostKey port (a + i) = hostKey port a + i := by
  rw [hostKey, hostKey, Nat.mod_eq_of_lt h, Nat.mod_eq_of_lt (by omega)]
  omega

/-- The bytes just put are the ones read. -/
theorem State.portBytes_put {m : List Host.Cell} (ht : t.mem.host = Mem.puts none m (hostKey port a) bs) (ha : a + bs.length ≤ 2 ^ 64) :
    t.portBytes port a bs.length = bs := by
  refine List.ext_getElem (t.length_portBytes ..) fun i _ hi => ?_
  simp only [State.portBytes, State.portByte, List.getElem_map, List.getElem_range]
  rw [hostKey_add (by omega), ht, Mem.get?_puts_none _ _ _ _ hi, Option.getD_some]

/-- Bytes beside the ones put are as before. -/
theorem State.portBytes_put_out (hb : b + bs.length ≤ 2 ^ 64) (ha : a + n ≤ 2 ^ 64) (h : a + n ≤ b ∨ b + bs.length ≤ a) :
    (s.portPut port b bs).portBytes port a n = s.portBytes port a n := by
  refine List.map_congr_left fun i hi => ?_
  rw [List.mem_range] at hi
  simp only [State.portByte, State.portPut]
  rw [hostKey_add (by omega), Mem.get?_puts_out]
  simp only [hostKey, Nat.mod_eq_of_lt (show a < 2 ^ 64 by omega)]
  have : 0 < bs.length → b % 2 ^ 64 = b := fun _ => Nat.mod_eq_of_lt (by omega)
  omega

end

/-! ### Completion (R111, R119) -/

section
variable {s t : State} {id : Nat} {c : Cmd}

/-- The state with other records of the jobs. -/
def State.withJobs (s : State) (js : Table Job) : State := { s with chip := { s.chip with jobs := js } }

/-- The last writers of a command's handles change the records of the jobs alone. -/
theorem State.lastWriters_eq (s : State) (c : Cmd) : ∃ js, s.lastWriters c = s.withJobs js := by
  rw [State.lastWriters]
  split
  · exact ⟨s.chip.jobs, rfl⟩
  · refine List.foldlRecOn (motive := fun t : State => ∃ js, t = s.withJobs js) _ _ ⟨s.chip.jobs, rfl⟩
      fun t ht x _ => ?_
    obtain ⟨js, rfl⟩ := ht
    split
    · exact ⟨_, rfl⟩
    · exact ⟨js, rfl⟩

/-- Where the completion record of a command goes (R119). -/
def Cmd.recordAt (c : Cmd) : Nat := c.cbase.toNat + 32 * (c.k % 2 ^ c.lent.toNat)

/-! The notices to a host whose port is up, one after the other. -/

def State.putRecord (s : State) (c : Cmd) : State := s.portPut (portOfQueue c.q) c.recordAt (c.record s.clk.dtime)

@[simp] theorem State.fe_portPut (s : State) (port : Bool) (a : Nat) (bs : List Byte) : (s.portPut port a bs).fe = s.fe := by
  rw [State.portPut]

@[simp] theorem State.frames_portPut (s : State) (port : Bool) (a : Nat) (bs : List Byte) : (s.portPut port a bs).frames = s.frames := by
  rw [State.portPut]

@[simp] theorem State.host_portPut (s : State) (port : Bool) (a : Nat) (bs : List Byte) :
    (s.portPut port a bs).mem.host = Mem.puts none s.mem.host (hostKey port a) bs := by
  rw [State.portPut]

def State.hostCounted (s : State) (c : Cmd) : State :=
  if c.hostctr = 0 then s
  else s.portPut (portOfQueue c.q) c.hostctr.toNat (leBytes (leNat (s.portBytes (portOfQueue c.q) c.hostctr.toNat 8) + 1) 8)

def State.interrupted (s : State) (c : Cmd) : State :=
  if c.flags.getLsbD 0 then { s with fe := { s.fe with msixSent := s.fe.msixSent ++ [(b2n (portOfQueue c.q), c.msix)] } } else s

theorem State.notices_up (hup : s.portUp c.q = true) : s.notices c = ((s.putRecord c).hostCounted c).interrupted c := if_pos hup

/-- What the notices of a completed command leave: host memory, MSI-X messages and a count may differ. -/
structure Notified (s t : State) : Prop where
  queues : t.fe.queues = s.fe.queues
  frames : t.frames = s.frames

theorem State.hostCounted_notified (s : State) (c : Cmd) : Notified s (s.hostCounted c) := by
  rw [State.hostCounted]
  split
  · exact ⟨rfl, rfl⟩
  · exact ⟨by rw [State.fe_portPut], State.frames_portPut ..⟩

theorem State.interrupted_notified (s : State) (c : Cmd) : Notified s (s.interrupted c) := by
  rw [State.interrupted]
  split <;> exact ⟨rfl, rfl⟩

@[simp] theorem State.mem_interrupted (s : State) (c : Cmd) : (s.interrupted c).mem = s.mem := by
  rw [State.interrupted]
  split <;> rfl

@[simp] theorem State.msixSent_hostCounted (s : State) (c : Cmd) : (s.hostCounted c).fe.msixSent = s.fe.msixSent := by
  rw [State.hostCounted]
  split
  · rfl
  · rw [State.fe_portPut]

theorem State.notices_notified (s : State) (c : Cmd) : Notified s (s.notices c) := by
  cases hup : s.portUp c.q with
  | true =>
    obtain ⟨hq, hf⟩ := (s.putRecord c).hostCounted_notified c
    rw [State.putRecord, State.fe_portPut] at hq
    rw [State.putRecord, State.frames_portPut] at hf
    obtain ⟨hq', hf'⟩ := ((s.putRecord c).hostCounted c).interrupted_notified c
    rw [State.notices_up hup]
    exact ⟨hq'.trans hq, hf'.trans hf⟩
  | false =>
    rw [State.notices, if_neg (by simp [hup])]
    exact ⟨rfl, rfl⟩

theorem State.notices_record (hup : s.portUp c.q = true) (h0 : c.hostctr = 0) :
    (s.notices c).mem.host = Mem.puts none s.mem.host (hostKey (portOfQueue c.q) c.recordAt) (c.record s.clk.dtime) := by
  rw [State.notices_up hup, State.mem_interrupted, State.hostCounted, if_pos h0, State.putRecord, State.host_portPut]

theorem State.notices_msix (hup : s.portUp c.q = true) (hm : c.flags.getLsbD 0 = true) :
    (s.notices c).fe.msixSent = s.fe.msixSent ++ [(b2n (portOfQueue c.q), c.msix)] := by
  rw [State.notices_up hup, State.interrupted, if_pos hm, State.msixSent_hostCounted, State.putRecord, State.fe_portPut]

theorem State.notices_counter (hup : s.portUp c.q = true) (h0 : c.hostctr ≠ 0) :
    (s.notices c).mem.host = Mem.puts none (s.putRecord c).mem.host (hostKey (portOfQueue c.q) c.hostctr.toNat)
      (leBytes (leNat ((s.putRecord c).portBytes (portOfQueue c.q) c.hostctr.toNat 8) + 1) 8) := by
  rw [State.notices_up hup, State.mem_interrupted, State.hostCounted, if_neg h0, State.host_portPut]

theorem State.notices_down (hup : s.portUp c.q = false) : (s.notices c).mem = s.mem ∧
    (s.notices c).fe.dropcpl = min (s.fe.dropcpl + (1 + (if c.hostctr = 0 then 0 else 1) + (if c.flags.getLsbD 0 = true then 1 else 0)))
      0xFFFFFFFF := by
  have hc : (if c.hostctr = 0 then 0 else 1) = b2n (decide (c.hostctr ≠ 0)) := by
    by_cases h : c.hostctr = 0 <;> simp [h, b2n]
  rw [hc, State.notices, if_neg (by simp [hup])]
  exact ⟨rfl, rfl⟩

/-- A completed command is gone and counts, in the time of its queue it belongs to; the rest is as its notices leave it. -/
structure Retired (s v t : State) (c : Cmd) : Prop where
  gone : t.cmd c.id = none
  counted : c.epoch = (s.queueOf c.q).epoch → (t.queueOf c.q).done = (s.queueOf c.q).done + 1
  mem : t.mem = v.mem
  frames : t.frames = s.frames
  msix : t.fe.msixSent = v.fe.msixSent
  dropcpl : t.fe.dropcpl = v.fe.dropcpl

/-- The end of a completion, from the state that its notices leave. -/
def State.retired (v : State) (c : Cmd) : State :=
  let q := v.queueOf c.q
  let v := if q.epoch = c.epoch then v.setQueue c.q { q with done := q.done + 1 } else v
  State.fresh { v with fe := { v.fe with cmds := v.fe.cmds.filter fun d => decide (d.id ≠ c.id) } }

theorem State.completeCmd_eq (h : s.cmd id = some c) (hc : c.phase = .ended) (hf : s.pwr.fatal = false) :
    s.completeCmd id = ((s.lastWriters c).notices c).retired c := by
  have hid := State.cmd_id h
  subst hid
  rw [State.completeCmd, h]
  exact if_neg (by simp [hc, hf])

theorem cmd_retired (v : State) (c : Cmd) : (v.retired c).cmd c.id = none := by
  refine List.find?_eq_none.mpr fun d hd => ?_
  simpa using (List.mem_filter.mp hd).2

/-- Completion is the notices of a state that has the command's last writers, and the count. -/
theorem State.completeCmd_retires (h : s.cmd id = some c) (hc : c.phase = .ended) (hf : s.pwr.fatal = false) :
    ∃ js, Retired s ((s.withJobs js).notices c) (s.completeCmd id) c := by
  obtain ⟨js, hw⟩ := s.lastWriters_eq c
  obtain ⟨hqueues, hframes⟩ := (s.withJobs js).notices_notified c
  have hq : ((s.withJobs js).notices c).queueOf c.q = s.queueOf c.q := by
    rw [State.queueOf, hqueues]
    rfl
  rw [State.completeCmd_eq h hc hf, hw]
  refine ⟨js, cmd_retired _ c, fun he => ?_, ?_, ?_, ?_, ?_⟩ <;> rw [State.retired, hq]
  · rw [if_pos he.symm]
    exact congrArg Queue.done (State.queueOf_setQueue ..)
  · dsimp only; split <;> rfl
  · dsimp only; split <;> exact hframes
  · dsimp only; split <;> rfl
  · dsimp only; split <;> rfl

/-- The fields of a completion record (R119). -/
theorem Cmd.record_words {bs : List Byte} {time : Word} (h : bs = c.record time) :
    let word (o n : Nat) : Nat := leNat ((bs.drop o).take n)
    word 0 4 = c.k % 2 ^ 32 ∧ word 4 4 = c.tag.toNat ∧ word 8 2 = c.status.toNat ∧ word 0x0A 1 = c.op.toNat ∧
      word 0x10 8 = time.toNat ∧ word 0x18 8 = c.detail.toNat := by
  subst h
  refine ⟨(leNat_leBytes 4 _).trans ?_, (leNat_leBytes 4 _).trans ?_, (leNat_leBytes 2 _).trans ?_, ?_, (leNat_leBytes 8 _).trans ?_,
    (leNat_leBytes 8 _).trans ?_⟩
  · exact Nat.mod_mod _ _
  · exact Nat.mod_eq_of_lt c.tag.isLt
  · exact Nat.mod_eq_of_lt c.status.isLt
  · rfl
  · exact Nat.mod_eq_of_lt time.isLt
  · exact Nat.mod_eq_of_lt c.detail.isLt

theorem Cmd.length_record (c : Cmd) (time : Word) : (c.record time).length = 32 := by
  simp [Cmd.record, length_leBytes]

end

section
variable {s : State} {id : Nat} {c : Cmd} (h : s.cmd id = some c) (hc : c.phase = .ended) (hf : s.pwr.fatal = false)
include h hc hf

/-- A completed command leaves its record where its queue's ring of records has its place. -/
theorem State.completeCmd_record (hup : s.portUp c.q = true) (h0 : c.hostctr = 0) (ha : c.recordAt + 32 ≤ 2 ^ 64) :
    (s.completeCmd id).portBytes (portOfQueue c.q) c.recordAt 32 = c.record s.clk.dtime := by
  obtain ⟨js, hr⟩ := State.completeCmd_retires h hc hf
  have hlen := c.length_record s.clk.dtime
  have hmem := (congrArg (·.host) hr.mem).trans (State.notices_record (s := s.withJobs js) hup h0)
  rw [← hlen]
  exact State.portBytes_put hmem (by omega)

/-- A completed command adds one to its host counter. -/
theorem State.completeCmd_counter (hup : s.portUp c.q = true) (h0 : c.hostctr ≠ 0) (ha : c.recordAt + 32 ≤ 2 ^ 64)
    (hb : c.hostctr.toNat + 8 ≤ 2 ^ 64) (hd : c.hostctr.toNat + 8 ≤ c.recordAt ∨ c.recordAt + 32 ≤ c.hostctr.toNat) :
    leNat ((s.completeCmd id).portBytes (portOfQueue c.q) c.hostctr.toNat 8) =
      (leNat (s.portBytes (portOfQueue c.q) c.hostctr.toNat 8) + 1) % 2 ^ 64 := by
  obtain ⟨js, hr⟩ := State.completeCmd_retires h hc hf
  have hlen := c.length_record s.clk.dtime
  have hmem := (congrArg (·.host) hr.mem).trans (State.notices_counter (s := s.withJobs js) hup h0)
  have hput := State.portBytes_put hmem (by rw [length_leBytes]; omega)
  rw [length_leBytes] at hput
  rw [hput, leNat_leBytes, State.putRecord, State.portBytes_put_out (hlen.symm ▸ ha) hb (hlen.symm ▸ hd)]
  rfl

theorem State.completeCmd_msix (hup : s.portUp c.q = true) (hm : c.flags.getLsbD 0 = true) :
    (s.completeCmd id).fe.msixSent = s.fe.msixSent ++ [(if c.q < 128 then 0 else 1, c.msix)] := by
  obtain ⟨js, hr⟩ := State.completeCmd_retires h hc hf
  have hport : b2n (portOfQueue c.q) = if c.q < 128 then 0 else 1 := by
    by_cases hq : c.q < 128 <;> simp [b2n, portOfQueue, hq]
  rw [hr.msix, ← hport]
  exact State.notices_msix (s := s.withJobs js) hup hm

/-- What a port cannot deliver is counted, and no byte moves. -/
theorem State.completeCmd_drops (hup : s.portUp c.q = false) : s.sameBytes (s.completeCmd id) ∧ (s.completeCmd id).fe.dropcpl =
    min (s.fe.dropcpl + (1 + (if c.hostctr = 0 then 0 else 1) + (if c.flags.getLsbD 0 = true then 1 else 0))) 0xFFFFFFFF := by
  obtain ⟨js, hr⟩ := State.completeCmd_retires h hc hf
  obtain ⟨hmem, hdrop⟩ := State.notices_down (s := s.withJobs js) hup
  exact ⟨State.sameBytes_of_mem (hr.mem.trans hmem), hr.dropcpl.trans hdrop⟩

end

/-! ### The host window (R122, R490) -/

section
variable {s : State} {via : Via} {off size : Nat} {wr : HostWr} {y : Iface} {v : Word} {l : List Nat} {bs : List Byte}

theorem exec_window {t : State} (h : s.hostWindow via off size wr = t) : exec (.hostWindowAccess via off size wr) s = .next t.fresh := by
  rw [← h]
  rfl

theorem State.hostWindow_beyond (h : 64 ≤ off / 2 ^ 34) : s.hostWindow via off size wr = s.windowBad wr := if_pos h

/-- What an access that a running interface does not accept comes to. -/
theorem State.hostWindow_refused (h : off / 2 ^ 34 < 64) (hy : Tab.get? s.sec.ifaces (ifaceKey via.port (off / 2 ^ 34)) = some y)
    (ha : y.accepts via = false) : s.hostWindow via off size .read = (s.answerHost none).feBad ∧
      s.hostWindow via off size (.write v) = s.feBad := by
  constructor
  all_goals
    unfold State.hostWindow
    dsimp only
    rw [hy]
    exact (if_neg (Nat.not_le.mpr h)).trans (if_pos (congrArg Bool.not ha))

/-- The places of the bytes of an access to the window, if they lie in a host-owned handle. -/
def State.windowBytes (s : State) (via : Via) (off size : Nat) : Option (List Nat) :=
  (s.windowVa via.port (off / 2 ^ 34) (off % 2 ^ 34) size).bind fun va => s.ownBytes (s.ifaceJob via.port (off / 2 ^ 34)) va size

/-- An accepted access at the places of its bytes. -/
def State.windowAt (s : State) (j : BitVec 12) (size : Nat) (wr : HostWr) (pas : List Nat) : State :=
  match wr with
  | .write v => (s.scatterBytes (tagOf j) (pas.zip (leBytes v.toNat size))).spoil (.dev (pas.headD 0)) size
  | .read => match s.gatherBytes (tagOf j) pas with
    | .bytes bs => s.answerHost (some (leWord bs))
    | .err _ => s.answerHost (some (BitVec.allOnes 64))
  | .fetchAdd v => match s.gatherBytes (tagOf j) pas with
    | .bytes bs => (s.answerHost (some (leWord bs))).hostAdd (tagOf j) pas ((leNat bs + v.toNat) % 2 ^ (8 * size))
    | .err _ => s.answerHost (some (BitVec.allOnes 64))

theorem State.hostWindow_accepted (h : off / 2 ^ 34 < 64)
    (hy : ∀ y, Tab.get? s.sec.ifaces (ifaceKey via.port (off / 2 ^ 34)) = some y → y.accepts via = true) :
    s.hostWindow via off size wr = (s.windowBytes via off size).elim (s.windowBad wr) (s.windowAt (s.ifaceJob via.port (off / 2 ^ 34)) size wr) := by
  unfold State.hostWindow State.windowBytes
  dsimp only
  rw [if_neg (Nat.not_le.mpr h)]
  cases hi : Tab.get? s.sec.ifaces (ifaceKey via.port (off / 2 ^ 34)) with
  | none =>
    rw [if_neg Bool.false_ne_true]
    split <;> next hb => rw [hb]; rfl
  | some y =>
    rw [if_neg (by simp [hy y hi])]
    split <;> next hb => rw [hb]; rfl

section
variable (h : off / 2 ^ 34 < 64) (hy : ∀ y, Tab.get? s.sec.ifaces (ifaceKey via.port (off / 2 ^ 34)) = some y → y.accepts via = true)
include h hy

theorem State.hostWindow_outside (hb : s.windowBytes via off size = none) : s.hostWindow via off size wr = s.windowBad wr := by
  rw [State.hostWindow_accepted h hy, hb, Option.elim_none]

theorem State.hostWindow_inside (hb : s.windowBytes via off size = some l) :
    s.hostWindow via off size wr = s.windowAt (s.ifaceJob via.port (off / 2 ^ 34)) size wr l := by
  rw [State.hostWindow_accepted h hy, hb, Option.elim_some]

theorem State.hostWindow_reads (hb : s.windowBytes via off size = some l)
    (hg : s.gatherBytes (tagOf (s.ifaceJob via.port (off / 2 ^ 34))) l = .bytes bs) :
    s.hostWindow via off size .read = s.answerHost (some (leWord bs)) := by
  rw [State.hostWindow_inside h hy hb, State.windowAt, hg]

end

end

/-- Settles O53, a port's access at a time: by what the access comes to where it is accepted, and by the count where it is not. -/
theorem hostPorts : Obligations.HostPorts := by
  unfold Obligations.HostPorts
  intro s u port via q id off size v old new c st p
  extract_lets x me now lease holder ends mine same
  refine ⟨fun hf => ?lease, rfl, fun hl => ?expiry, fun ⟨hq, hp⟩ hf ht => ?untrusted, State.trusted_of_accepts,
    fun y hy => Iface.accepts_running hy, fun ⟨hq, hp⟩ hf hz ht => ⟨?qctl, fun hv => ?adds, fun hv => ?overflow⟩,
    fun hq hs hup hr ho => ?fetch, fun h hc hm hf => ⟨fun ho => ?noCode, fun ho h0 hr hflags hu hj => ?otherJob,
      fun hk hst => ?fails, fun hk hfe => ?runs⟩,
    fun h hc hf => ?complete, fun hi ⟨y, hy, ha⟩ => ?refused, fun hi => ?beyond, fun hi hy => ?window⟩
  case lease =>
    by_cases h : s.leaseTakes port old new
    · exact ⟨_, congrArg Host.Outcome.next (State.leaseCas_swaps hf h), ⟨State.sameBytes_of_mem rfl, rfl⟩, rfl, (if_pos h).symm⟩
    · exact ⟨_, congrArg Host.Outcome.next (State.leaseCas_keeps hf h), ⟨State.sameBytes_of_mem rfl, rfl⟩, rfl, (if_neg h).symm⟩
  case expiry => exact ⟨_, exec_expiry hl, rfl, State.served_expired rfl, State.sameBytes_of_mem rfl, rfl⟩
  case untrusted =>
    have hw (k : State → State) : s.queueWrite via q k = s.feBad := by
      rw [State.queueWrite_own (queueAt_own hq hp) hf, if_neg (by simp [ht])]
    intro i hmem
    simp only [List.mem_cons, List.not_mem_nil, or_false] at hmem
    obtain rfl | rfl := hmem
    · exact ⟨_, congrArg Host.Outcome.next (hw _), rfl, rfl, rfl, State.sameBytes_of_mem rfl, rfl⟩
    · exact ⟨_, congrArg Host.Outcome.next (hw _), rfl, rfl, rfl, State.sameBytes_of_mem rfl, rfl⟩
  case qctl =>
    have hw := ((State.queueWrite_own (queueAt_own hq hp) hf fun s => s.qctl q v).trans (if_pos ht)).trans (State.qctl_unfrozen hz)
    obtain ⟨hen, hjob, hlent, hmsix⟩ := x.controlled_fields v
    refine ⟨_, congrArg Host.Outcome.next hw, ?_⟩
    dsimp only
    rw [State.queueOf_setQueue]
    exact ⟨hen.trans (x.controls_en v), hjob, (congrArg _ hlent).trans (x.controls_lent v), hmsix, x.controlled_starts v,
      x.controlled_counts v, State.sameBytes_of_mem rfl, rfl⟩
  case adds =>
    have hw := (State.queueWrite_own (queueAt_own hq hp) hf fun s => s.doorbell q v).trans (if_pos ht)
    exact ⟨_, congrArg Host.Outcome.next hw, State.doorbell_adds hv⟩
  case overflow =>
    have hw := ((State.queueWrite_own (queueAt_own hq hp) hf fun s => s.doorbell q v).trans (if_pos ht)).trans (State.doorbell_bad hv)
    exact ⟨_, congrArg Host.Outcome.next hw, rfl, rfl, State.sameBytes_of_mem rfl, rfl⟩
  case fetch =>
    have ht := State.fetchCmd_fetches hs hup hr ho
    exact ⟨_, congrArg Host.Outcome.next ((if_pos hq).trans ht), congrArg Queue.fetch (State.queueOf_setQueue ..),
      ⟨State.sameBytes_of_mem rfl, rfl⟩, s.nextCmd q, rfl, rfl, rfl, rfl,
      BitVec.toNat_ofNat .., BitVec.toNat_ofNat .., BitVec.toNat_ofNat .., rfl, rfl, rfl, rfl, rfl, rfl⟩
  case noCode =>
    exact ⟨_, congrArg Host.Outcome.next (State.startCmd_fails h hc hm hf (State.check116_noCode ho) (by decide)),
      ⟨State.sameBytes_of_mem rfl, rfl⟩, State.cmd_updFe h fun _ => rfl⟩
  case otherJob =>
    have hk := State.check116_otherJob (List.mem_range.mp ho) h0 hr hflags hu hj
    exact ⟨_, congrArg Host.Outcome.next (State.startCmd_fails h hc hm hf hk (by decide)),
      ⟨State.sameBytes_of_mem rfl, rfl⟩, State.cmd_updFe h fun _ => rfl⟩
  case fails =>
    exact ⟨_, congrArg Host.Outcome.next (State.startCmd_fails h hc hm hf hk hst), rfl,
      fun hfe => State.cmd_updFe ((State.cmd_of_cmds (by rw [hfe]) id).trans h) fun _ => rfl⟩
  case runs =>
    have hu := ((State.keepsLedger.dropWritten u c).cmd id).trans ((State.cmd_of_cmds (by rw [hfe]) id).trans h)
    exact ⟨_, congrArg Host.Outcome.next (State.startCmd_runs h hc hm hf hk), State.cmd_updFe hu fun _ => rfl⟩
  case complete =>
    intro ha hb
    obtain ⟨js, hr⟩ := State.completeCmd_retires h hc hf
    have hgone : (s.completeCmd id).cmd id = none := State.cmd_id h ▸ hr.gone
    refine ⟨fun hup h0 => ⟨_, rfl, hgone, hr.counted, ?_⟩,
      fun hup h0 hd => ⟨_, rfl, hgone, State.completeCmd_counter h hc hf hup h0 ha hb hd⟩, fun hup => ?_⟩
    · obtain ⟨hk, htag, hst, hop, htime, hdetail⟩ := Cmd.record_words (State.completeCmd_record h hc hf hup h0 ha)
      exact ⟨hk, htag, hst, hop, htime, hdetail, State.completeCmd_msix h hc hf hup⟩
    · obtain ⟨hbytes, hdrop⟩ := State.completeCmd_drops h hc hf hup
      exact ⟨_, rfl, hgone, ⟨hbytes, hr.frames⟩, hdrop⟩
  case refused =>
    obtain ⟨hread, hwrite⟩ := State.hostWindow_refused (size := size) (v := v) hi hy ha
    exact ⟨⟨_, exec_window hread, rfl, rfl, State.sameBytes_of_mem rfl, rfl⟩,
      ⟨_, exec_window hwrite, rfl, rfl, State.sameBytes_of_mem rfl, rfl⟩⟩
  case beyond =>
    exact ⟨⟨_, exec_window (State.hostWindow_beyond hi), rfl, rfl, State.sameBytes_of_mem rfl, rfl⟩,
      ⟨_, exec_window (State.hostWindow_beyond hi), rfl, rfl, State.sameBytes_of_mem rfl, rfl⟩⟩
  case window =>
    refine ⟨fun hb => ⟨fun wr hwr => ?_, ?_⟩, fun l bs hb hg => ?_, fun l hb => ?_⟩
    · cases wr with
      | write v => exact absurd rfl (hwr v)
      | read =>
        exact ⟨_, exec_window (State.hostWindow_outside hi hy hb), rfl, rfl, State.sameBytes_of_mem rfl, rfl⟩
      | fetchAdd v =>
        exact ⟨_, exec_window (State.hostWindow_outside hi hy hb), rfl, rfl, State.sameBytes_of_mem rfl, rfl⟩
    · exact ⟨_, exec_window (State.hostWindow_outside hi hy hb), rfl, rfl, State.sameBytes_of_mem rfl, rfl⟩
    · exact ⟨_, exec_window (State.hostWindow_reads hi hy hb hg), rfl, rfl, State.sameBytes_of_mem rfl, rfl⟩
    · exact exec_window (State.hostWindow_inside hi hy hb)

end Sys2Proof.Machine
end

section
/-! # O49: the group table (R159, R160) -/

namespace Sys2Proof.Machine
variable {s : State} {g : Nat}

/-! ### Load shadow -/

/-- There is no list that a load shadow may read: no words are named, they lie beyond memory, or the job has no tile here. -/
def State.noList (s : State) (x : GroupEntry) : Prop :=
  x.count.toNat = 0 ∨ Config.devBytes < x.saddr.toNat * 64 + 4 * x.count.toNat ∨
    ¬((s.job x.job).tiles.any fun p => decide (p.2.1 = s.chip.chipNo)) = true

theorem State.noList_iff : s.noList (s.group g) ↔ ((s.group g).count.toNat = 0 ∨
    Config.devBytes < (s.group g).saddr.toNat * 64 + 4 * (s.group g).count.toNat ∨
    (!((s.job (s.group g).job).tiles.any fun p => decide (p.2.1 = s.chip.chipNo))) = true) := by
  simp only [State.noList, Bool.not_eq_true', Bool.not_eq_true]

theorem State.groupLoad_bad (h : s.noList (s.group g)) :
    s.groupLoad g = s.setGroup g { s.group g with err := (s.group g).err ||| 4, shv := false } :=
  if_pos (State.noList_iff.mp h)

theorem State.groupLoad_takes {bs : List Byte} {ms : List (BitVec 11 × Nat)} (h : ¬s.noList (s.group g))
    (hr : s.devReads .device ((s.group g).count.toNat / 8 + 1) ((s.group g).saddr.toNat * 64) (4 * (s.group g).count.toNat) = .bytes bs)
    (hm : expandMembers (s.job (s.group g).job).tiles
      ((List.range (s.group g).count.toNat).map fun i => BitVec.ofNat 32 (leNat ((bs.drop (4 * i)).take 4))) = some ms) :
    s.groupLoad g = (s.setGroup g { s.group g with shv := true, shadow := ms }).fresh := by
  rw [State.groupLoad]
  dsimp only
  rw [if_neg (mt State.noList_iff.mpr h), hr]
  dsimp only
  rw [hm]

/-! ### Commit -/

/-- A commit must not happen: a core would be in too many groups, or the version number given is not ahead. -/
def State.commitStops (s : State) (g : Nat) : Prop :=
  let x := s.group g
  let ahead := (x.nver - x.cur).toNat
  s.tooMany g = true ∨ (x.sv = true ∧ x.cv = true ∧ ¬(1 ≤ ahead ∧ ahead ≤ 32767))

theorem State.groupCommit_idle (h : (s.group g).shv = false ∨ (s.group g).busy = true) :
    s.groupCommit g = s.setGroup g { s.group g with err := (s.group g).err ||| 2 } := if_pos (by simpa using h)

theorem State.commitStops_iff : s.commitStops g ↔
    (s.tooMany g || ((s.group g).sv && (s.group g).cv && !(decide (1 ≤ ((s.group g).nver - (s.group g).cur).toNat) &&
      decide (((s.group g).nver - (s.group g).cur).toNat ≤ 32767)))) = true := by
  simp only [State.commitStops, Bool.or_eq_true, Bool.and_eq_true, Bool.not_eq_true', decide_eq_true_eq, and_assoc,
    ← Bool.not_eq_true]

theorem State.commit_ready (hs : (s.group g).shv = true) (hb : (s.group g).busy = false) :
    ¬(!(s.group g).shv || (s.group g).busy) = true := by simp [hs, hb]

theorem State.groupCommit_stops (hs : (s.group g).shv = true) (hb : (s.group g).busy = false) (h : s.commitStops g) :
    s.groupCommit g = s.setGroup g { s.group g with err := (s.group g).err ||| 1 } :=
  (if_neg (State.commit_ready hs hb)).trans (if_pos (State.commitStops_iff.mp h))

theorem State.groupCommit_commits (hs : (s.group g).shv = true) (hb : (s.group g).busy = false) (h : ¬s.commitStops g) :
    s.groupCommit g = s.setGroup g { s.group g with
      prev := (s.group g).cur, pv := (s.group g).cv, prevM := (s.group g).curM,
      cur := if (s.group g).sv = true then (s.group g).nver else (s.group g).cur + 1, curM := (s.group g).shadow, cv := true,
      shv := false, shadow := [], busy := (s.group g).cv, owner := (s.group g).job } :=
  (if_neg (State.commit_ready hs hb)).trans (if_neg (mt State.commitStops_iff.mpr h))

/-- Settles O49: each clause is one branch of the command that it names. -/
theorem groupEvents : Obligations.GroupEvents := by
  unfold Obligations.GroupEvents
  intro s g bs ms x pa n tiles here words ahead stops
  have next {t u : State} (h : t = u) : (Host.Outcome.next t : EnOut) = .next u := congrArg _ h
  refine ⟨fun h => next (State.groupLoad_bad h), fun hn hpa hh hr hm => ?loads, fun h => next (State.groupCommit_idle h),
    fun hs hb h => next (State.groupCommit_stops hs hb h), fun hs hb h => next (State.groupCommit_commits hs hb h), rfl,
    fun hb hd => next (if_pos ?drained)⟩
  case loads =>
    have list : ¬s.noList x := by
      rintro (h | h | h)
      · exact hn h
      · exact absurd hpa (Nat.not_le.mpr h)
      · exact h hh
    exact ⟨_, next (State.groupLoad_takes list hr hm), State.group_setGroup .., State.sameBytes_of_mem rfl, rfl⟩
  case drained =>
    have drained : (x.busy && !s.stamped g x.prev) = true := by rw [hb, hd]; rfl
    exact drained

end Sys2Proof.Machine
end

section
/-! # O43: acknowledgements, refusals, dead reports and bounces at the journal (R136, R214, R215, R224)

Each event changes one journal entry, counts at its core, and may make a trap pending: `onlyEntry` says so of the
operations, `settleEntry_one` what is left of an entry that loses an operation, and `pendTrap_pend` where a trap goes. -/

namespace Sys2Proof.Machine
variable {s t u : State} {c e : Nat}

/-! ### Traffic wakes a gated core (R506) -/

@[simp] theorem State.frames_rouse (s : State) (c : Nat) : (s.rouse c).frames = s.frames := by rw [State.rouse_only]
@[simp] theorem State.mem_rouse (s : State) (c : Nat) : (s.rouse c).mem = s.mem := by rw [State.rouse_only]
@[simp] theorem State.net_rouse (s : State) (c : Nat) : (s.rouse c).net = s.net := by rw [State.rouse_only]
@[simp] theorem State.clk_rouse (s : State) (c : Nat) : (s.rouse c).clk = s.clk := by rw [State.rouse_only]
@[simp] theorem State.chip_rouse (s : State) (c : Nat) : (s.rouse c).chip = s.chip := by rw [State.rouse_only]

theorem State.core_rouse_self (s : State) (c : Nat) : (s.rouse c).core c = roused s (s.core c) := by
  unfold State.rouse roused
  split <;> simp

theorem State.core_rouse_ne (s : State) {c a : Nat} (h : a ≠ c) : (s.rouse c).core a = s.core a := by
  unfold State.rouse
  split
  · exact s.core_setCore_ne _ h
  · rfl

/-- Waking changes the gate and the start of the idle time. -/
theorem State.core_rouse (s : State) (c a : Nat) : ∃ g i, (s.rouse c).core a = { s.core a with gated := g, idleAt := i } := by
  by_cases h : a = c
  · rw [h, State.core_rouse_self, roused]
    split
    · exact ⟨_, _, rfl⟩
    · exact ⟨_, _, rfl⟩
  · exact ⟨_, _, s.core_rouse_ne h⟩

/-! ### Journal entries (R214) -/

@[simp] theorem State.journal_setJournal (s : State) (c e : Nat) (x : Option JEntry) : (s.setJournal c e x).journal c e = x := by
  cases x <;> simp [State.journal, State.setJournal]

theorem State.core_setJournal (s : State) (c e : Nat) (x : Option JEntry) (a : Nat) :
    ∃ l, (s.setJournal c e x).core a = { s.core a with journal := l } := by
  by_cases h : a = c
  · exact ⟨_, by rw [h]; exact State.core_setCore ..⟩
  · exact ⟨_, s.core_setCore_ne _ h⟩

theorem State.journal_setJournal_ne (x : Option JEntry) {a d : Nat} (h : a ≠ c ∨ d ≠ e) :
    (s.setJournal c e x).journal a d = s.journal a d := by
  by_cases ha : a = c
  · have hd : d ≠ e := h.resolve_left fun n => n ha
    cases x <;> simp [ha, State.journal, State.setJournal, Tab.get?_put_ne, Tab.get?_del_ne, hd]
  · exact congrArg (fun x : Core => Tab.get? x.journal d) (s.core_setCore_ne _ ha)

theorem State.journal_setCore (s : State) {c : Nat} {x : Core} (h : x.journal = (s.core c).journal) (a d : Nat) :
    (s.setCore c x).journal a d = s.journal a d := by
  by_cases ha : a = c
  · rw [ha, State.journal, State.core_setCore, h, State.journal]
  · rw [State.journal, State.core_setCore_ne _ _ ha, State.journal]

/-- What is left of an entry that loses one operation: nothing after the last, unless it was refused. -/
def JEntry.lessOne (j : JEntry) : Option JEntry :=
  if j.copies ≤ 1 ∧ j.state ≠ 3 then none else some { j with copies := j.copies - 1 }

theorem State.settleEntry_one {j : JEntry} (h : s.journal c e = some j) : s.settleEntry c e 1 = s.setJournal c e j.lessOne := by
  rw [State.settleEntry, h]
  rfl

/-- Of the journals only entry e of core c may differ; memory and forwarding are as before. -/
structure State.onlyEntry (s t : State) (c e : Nat) : Prop where
  mem : t.mem = s.mem
  journal : ∀ a d, a ≠ c ∨ d ≠ e → t.journal a d = s.journal a d
  fwd : ∀ a, (t.core a).fwd = (s.core a).fwd

namespace State.onlyEntry

theorem trans (h : s.onlyEntry t c e) (h' : t.onlyEntry u c e) : s.onlyEntry u c e :=
  ⟨h'.mem.trans h.mem, fun a d n => (h'.journal a d n).trans (h.journal a d n), fun a => (h'.fwd a).trans (h.fwd a)⟩

/-- Nothing but what a core has besides its journal and its forwarding table differs. -/
theorem of_cores (mem : t.mem = s.mem) (h : ∀ a, (t.core a).journal = (s.core a).journal ∧ (t.core a).fwd = (s.core a).fwd) :
    s.onlyEntry t c e :=
  ⟨mem, fun a d _ => by rw [State.journal, (h a).1, State.journal], fun a => (h a).2⟩

theorem setJournal (s : State) (x : Option JEntry) : s.onlyEntry (s.setJournal c e x) c e :=
  ⟨rfl, fun _ _ h => s.journal_setJournal_ne x h, fun a => by obtain ⟨l, h⟩ := s.core_setJournal c e x a; rw [h]⟩

theorem setCore (s : State) {x : Core} (hj : x.journal = (s.core c).journal) (hf : x.fwd = (s.core c).fwd) :
    s.onlyEntry (s.setCore c x) c e := by
  refine of_cores rfl fun a => ?_
  by_cases h : a = c
  · rw [h, State.core_setCore]
    exact ⟨hj, hf⟩
  · rw [State.core_setCore_ne _ _ h]
    exact ⟨rfl, rfl⟩

theorem pendTrap (s : State) (who : TaskId) (p : Pend) : s.onlyEntry (s.pendTrap who p) c e :=
  of_cores (State.mem_rouse ..) fun a => by
    obtain ⟨g, i, h⟩ := (s.setFrame (s.homeOf who.key) { s.frame (s.homeOf who.key) with
      pend := (s.frame (s.homeOf who.key)).pend ++ [p] }).core_rouse (coreOfFrame who.key) a
    rw [State.pendTrap, h]
    exact ⟨rfl, rfl⟩

theorem sameBytes (h : s.onlyEntry t c e) : s.sameBytes t := State.sameBytes_of_mem h.mem

theorem homeOf (h : s.onlyEntry t c e) (frames : t.frames = s.frames) (o : Nat) : t.homeOf o = s.homeOf o := by
  have fwd : t.fwdOf o = s.fwdOf o := by rw [State.fwdOf, h.fwd, State.fwdOf]
  have frame : t.frame o = s.frame o := by rw [State.frame, frames, State.frame]
  rw [State.homeOf, fwd, frame, State.homeOf]

end State.onlyEntry

/-! ### The operations of which the events are made -/

theorem State.notAway_cores (s : State) (n : Nat) (x : Sender) : ((s.dropMsg n).notAway x).cores = s.cores := rfl

theorem State.core_seen (s : State) (c : Nat) (see : Option Nat) (a : Nat) :
    ∃ w l, (s.seen c see).core a = { s.core a with see := w, seeFull := l } := by
  unfold State.seen
  have keeps (x : Core) (h : ∃ w l, x = { s.core c with see := w, seeFull := l }) :
      ∃ w l, ((s.setCore c x).fresh).core a = { s.core a with see := w, seeFull := l } := by
    by_cases ha : a = c
    · obtain ⟨w, l, rfl⟩ := h
      exact ⟨w, l, by rw [ha]; exact State.core_setCore ..⟩
    · exact ⟨_, _, s.core_setCore_ne x ha⟩
  split
  · exact ⟨_, _, rfl⟩
  · dsimp only
    split
    · exact ⟨_, _, rfl⟩
    · split
      · exact keeps _ ⟨_, _, rfl⟩
      · exact keeps _ ⟨_, _, rfl⟩

theorem State.seen_frames_mem (s : State) (c : Nat) (see : Option Nat) :
    (s.seen c see).frames = s.frames ∧ (s.seen c see).mem = s.mem := by
  unfold State.seen
  split
  · exact ⟨rfl, rfl⟩
  · dsimp only
    split
    · exact ⟨rfl, rfl⟩
    · split <;> exact ⟨rfl, rfl⟩

theorem State.onlyEntry.seen (s : State) (a : Nat) (see : Option Nat) : s.onlyEntry (s.seen a see) c e :=
  .of_cores (s.seen_frames_mem a see).2 fun b => by
    obtain ⟨w, l, h⟩ := s.core_seen a see b
    rw [h]
    exact ⟨rfl, rfl⟩

theorem State.journal_seen (s : State) (a : Nat) (see : Option Nat) (c e : Nat) : (s.seen a see).journal c e = s.journal c e := by
  obtain ⟨w, l, h⟩ := s.core_seen a see c
  rw [State.journal, h, State.journal]

/-- A trap is pending at the frame that holds the task. -/
theorem State.pendTrap_pend (s : State) (who : TaskId) (p : Pend) :
    ((s.pendTrap who p).frame (s.homeOf who.key)).pend = (s.frame (s.homeOf who.key)).pend ++ [p] := by
  rw [State.pendTrap, State.frame, State.frames_rouse]
  exact congrArg Frame.pend (State.frame_setFrame ..)

/-- So it is after a change of an entry. -/
theorem State.onlyEntry.pends (h : s.onlyEntry t c e) (frames : t.frames = s.frames) (who : TaskId) (p : Pend) :
    ((t.pendTrap who p).frame (s.homeOf who.key)).pend = (s.frame (s.homeOf who.key)).pend ++ [p] := by
  have frame (k : Nat) : t.frame k = s.frame k := congrArg (fun l => Tab.get l k Frame.reset) frames
  have := t.pendTrap_pend who p
  rwa [h.homeOf frames, frame] at this

theorem State.jrefused_setJournal (s : State) (c e : Nat) (x : Option JEntry) :
    ((s.setJournal c e x).core c).jrefused = (s.core c).jrefused := by
  obtain ⟨_, h⟩ := s.core_setJournal c e x c
  rw [h]

/-! ### Refusals (R215, R228) -/

/-- The task of an entry can still be told: it runs, and its job is not being removed. -/
def State.tells (s : State) (j : JEntry) : Prop := s.taskLive j.task = true ∧ s.removing j.job = false

theorem State.tells_iff (j : JEntry) : s.tells j ↔ ¬(!s.taskLive j.task || s.removing j.job) = true := by
  simp [State.tells]

/-- The core counts a refusal with the cause REFUSED. -/
def State.countRefused (s : State) (c : Nat) (cause : Byte) : State :=
  if cause = Cause.REFUSED then s.setCore c { s.core c with jrefused := min ((s.core c).jrefused + 1) 0xFFFFFFFF } else s

/-- It is all that a count of a refusal changes. -/
theorem State.countRefused_eq (s : State) (c : Nat) (cause : Byte) : s.countRefused c cause = s ∨
    ∃ n, s.countRefused c cause = s.setCore c { s.core c with jrefused := n } := by
  unfold State.countRefused
  split
  · exact .inr ⟨_, rfl⟩
  · exact .inl rfl

theorem State.countRefused_jrefused (s : State) (c : Nat) (cause : Byte) : ((s.countRefused c cause).core c).jrefused =
    if cause = Cause.REFUSED then min ((s.core c).jrefused + 1) 0xFFFFFFFF else (s.core c).jrefused := by
  unfold State.countRefused
  split
  · simp
  · rfl

theorem State.tells_countRefused (s : State) (c : Nat) (cause : Byte) (j : JEntry) : (s.countRefused c cause).tells j ↔ s.tells j := by
  obtain hc | ⟨n, hc⟩ := s.countRefused_eq c cause
  · rw [hc]
  · rw [hc]; rfl

theorem State.countRefused_frames (s : State) (c : Nat) (cause : Byte) : (s.countRefused c cause).frames = s.frames := by
  obtain hc | ⟨n, hc⟩ := s.countRefused_eq c cause <;> rw [hc]
  rfl

theorem State.onlyEntry.countRefused (s : State) (cause : Byte) : s.onlyEntry (s.countRefused c cause) c e := by
  obtain hc | ⟨n, hc⟩ := s.countRefused_eq c cause <;> rw [hc]
  · exact .of_cores rfl fun _ => ⟨rfl, rfl⟩
  · exact .setCore s rfl rfl

theorem JEntry.not_told (j : JEntry) (h : j.kind ≠ JKind.vst ∨ j.told = false) : ¬(j.kind = JKind.vst ∧ j.told = true) := by
  rintro ⟨hk, ht⟩
  simp [hk, ht] at h

section
variable {j : JEntry} (h : s.journal c e = some j)
include h

theorem State.refuseEntry_told (cause reason : Byte) (hk : j.kind = JKind.vst) (ht : j.told = true) :
    s.refuseEntry c e cause reason = s.setJournal c e j.lessOne := by
  rw [State.refuseEntry, h]
  refine (if_pos ⟨hk, ht⟩).trans ?_
  by_cases h3 : j.state = 3
  · simp [h3, JEntry.lessOne]
  · rw [if_neg h3, State.settleEntry_one h]

theorem State.journal_countRefused (cause : Byte) : (s.countRefused c cause).journal c e = some j := by
  obtain hc | ⟨n, hc⟩ := s.countRefused_eq c cause
  · rw [hc, h]
  · rw [hc, ← h, State.journal, State.core_setCore, State.journal]

variable (hj : j.kind ≠ JKind.vst ∨ j.told = false)
include hj

theorem State.refuseEntry_gone (cause reason : Byte) (hl : ¬s.tells j) :
    let t := (s.countRefused c cause).setJournal c e j.lessOne
    s.refuseEntry c e cause reason = t ∨ ∃ o, s.refuseEntry c e cause reason = t.setCore c { t.core c with orphans := o } := by
  intro t
  have gone : s.refuseEntry c e cause reason =
      if j.kind = JKind.env then t.setCore c { t.core c with orphans := satAdd (t.core c).orphans 1 0xFFFF } else t := by
    have ht : (s.countRefused c cause).settleEntry c e 1 = t := State.settleEntry_one (State.journal_countRefused h cause)
    rw [State.refuseEntry, h, ← ht]
    refine (if_neg (j.not_told hj)).trans (if_pos ?_)
    exact not_not.mp (mt ((State.tells_iff j).mpr) (mt (s.tells_countRefused c cause j).mp hl))
  rw [gone]
  split
  · exact .inr ⟨_, rfl⟩
  · exact .inl rfl

theorem State.refuseEntry_live (cause reason : Byte) (hl : s.tells j) : s.refuseEntry c e cause reason =
    ((s.countRefused c cause).setJournal c e (some { j with state := 3, reason := reason, copies := j.copies - 1, told := true })).pendTrap
      j.task { cause := cause, tval := at64 j.kind.toNat 16 + at64 reason.toNat 8 + at64 e 0, entry := some (c, e) } := by
  rw [State.refuseEntry, h]
  exact (if_neg (j.not_told hj)).trans (if_neg ((State.tells_iff j).mp ((s.tells_countRefused c cause j).mpr hl)))

end

/-- A trap that becomes pending changes nothing of its core but the gate and the idle time. -/
theorem State.core_pendTrap (s : State) (who : TaskId) (p : Pend) (a : Nat) :
    ∃ g i, (s.pendTrap who p).core a = { s.core a with gated := g, idleAt := i } :=
  State.core_rouse _ _ a

theorem State.journal_pendTrap (s : State) (who : TaskId) (p : Pend) (a d : Nat) : (s.pendTrap who p).journal a d = s.journal a d := by
  obtain ⟨g, i, h⟩ := s.core_pendTrap who p a
  rw [State.journal, h, State.journal]

theorem tval_eq (k r e : Nat) : at64 k 16 + at64 r 8 + at64 e 0 = BitVec.ofNat 64 (k * 0x10000 + r * 0x100 + e) := by
  simp only [at64, BitVec.ofNat_add, Nat.reducePow, Nat.mul_one]

theorem exec_refusal {n : Nat} {x : Sender} {cause reason : Byte} {chip : BitVec 11} (hn : s.net[n]? = some (.refusal x cause reason))
    (hx : x = .core chip c e) : exec (.refusalReturn n) s = .next (((s.dropMsg n).notAway x).refuseEntry c e cause reason) := by
  subst hx
  change Host.Outcome.next (s.refusalArrives n) = _
  rw [State.refusalArrives, hn]

theorem exec_ack {n : Nat} {x : Sender} {see : Option Nat} {chip : BitVec 11} (hn : s.net[n]? = some (.ack x see))
    (hx : x = .core chip c e) : exec (.journalAck n) s = .next ((((s.dropMsg n).notAway x).seen c see).settleEntry c e 1) := by
  subst hx
  change Host.Outcome.next (s.ackArrives n) = _
  rw [State.ackArrives, hn]

/-- The core counts a dead report. -/
def State.countDeadReport (s : State) (c : Nat) : State := s.setCore c { s.core c with jdead := satAdd (s.core c).jdead 1 0xFFFF }

theorem exec_deadReport {n : Nat} {x : Sender} {chip : BitVec 11} {j : JEntry} (hn : s.net[n]? = some (.deadRep x))
    (hx : x = .core chip c e) (hj : s.journal c e = some j) : exec (.deadlandReport n) s = .next (
      let u := (((s.dropMsg n).notAway x).countDeadReport c).setJournal c e j.lessOne
      if (s.core c).deadtrap && s.taskLive j.task && !s.removing j.job then
        u.pendTrap j.task { cause := Cause.DEADLAND, tval := at64 j.kind.toNat 16 + at64 e 0, entry := none } else u) := by
  subst hx
  have hd : (((s.dropMsg n).notAway (.core chip c e)).countDeadReport c).journal c e = some j := by
    rw [State.countDeadReport, State.journal, State.core_setCore]
    exact hj
  change Host.Outcome.next (s.deadReport n) = _
  rw [State.deadReport, hn]
  dsimp only
  rw [show ((s.dropMsg n).notAway (.core chip c e)).journal c e = some j from hj]
  dsimp only
  have settles := State.settleEntry_one hd
  rw [State.countDeadReport] at settles
  rw [settles]
  rfl

theorem exec_bounceRetry {j : JEntry} {b : Env × Nat} (hj : s.journal c e = some j)
    (hb : j.bounced.find? (fun b => decide (b.2 ≤ s.clk.cycle)) = some b) : exec (.bounceRetry c e) s =
      .next ((s.setJournal c e (some { j with
        bounced := j.bounced.erase b, state := if j.state = 2 ∧ (j.bounced.erase b).isEmpty = true then 1 else j.state })).send (.env b.1)) := by
  change Host.Outcome.next _ = _
  rw [hj]
  dsimp only
  rw [hb]

/-- Settles O43: the entry by `journal_setJournal`, a pending trap by `onlyEntry.pends`, the rest by `onlyEntry`. -/
theorem journalEvents : Obligations.JournalEvents := by
  unfold Obligations.JournalEvents
  intro s n c e see cause reason j b x live less k tval pends others hj
  let r := (s.dropMsg n).notAway x
  have hr : s.onlyEntry r c e := .of_cores rfl fun _ => ⟨rfl, rfl⟩
  have hrj : r.journal c e = some j := hj
  have keeps {t : State} (h : r.onlyEntry t c e) : others t := ⟨(hr.trans h).journal, (hr.trans h).sameBytes⟩
  refine ⟨fun hn => ?ack, fun hn hk ht => ?told, fun hn hv => ?refusal, fun hn => ?dead, fun hb => ?retry⟩
  case ack =>
    have hs : (r.seen c see).journal c e = some j := (r.journal_seen c see c e).trans hrj
    refine ⟨_, exec_ack hn rfl, ?_⟩
    rw [State.settleEntry_one hs]
    exact ⟨State.journal_setJournal .., keeps (.trans (.seen r c see) (.setJournal _ _)), (r.seen_frames_mem c see).1⟩
  case told =>
    refine ⟨_, exec_refusal hn rfl, ?_⟩
    rw [State.refuseEntry_told hrj cause reason hk ht]
    exact ⟨keeps (.setJournal r _), rfl, r.jrefused_setJournal c e _, State.journal_setJournal ..⟩
  case refusal =>
    let u := r.countRefused c cause
    have hu : r.onlyEntry u c e := .countRefused r cause
    have jref (l : Option JEntry) : ((u.setJournal c e l).core c).jrefused =
        if cause = Cause.REFUSED then min ((s.core c).jrefused + 1) 0xFFFFFFFF else (s.core c).jrefused :=
      (u.jrefused_setJournal c e l).trans (r.countRefused_jrefused c cause)
    refine ⟨_, exec_refusal hn rfl, ?_⟩
    by_cases hl : s.tells j
    · have h3 : r.onlyEntry (u.setJournal c e (some { j with state := 3, reason := reason, copies := j.copies - 1, told := true })) c e :=
        hu.trans (.setJournal u _)
      rw [State.refuseEntry_live hrj hv cause reason hl, tval_eq]
      obtain ⟨_, _, hc⟩ := State.core_pendTrap (u.setJournal c e _) j.task
        { cause := cause, tval := BitVec.ofNat 64 (j.kind.toNat * 0x10000 + reason.toNat * 0x100 + e), entry := some (c, e) } c
      refine ⟨keeps (h3.trans (.pendTrap _ _ _)), fun _ => ⟨?_, ?_⟩, fun h => absurd hl h, by rw [hc]; exact jref _⟩
      · rw [State.journal_pendTrap, State.journal_setJournal]
      · exact (hr.trans h3).pends (r.countRefused_frames c cause) ..
    · have hs := hu.trans (.setJournal u j.lessOne)
      obtain ht | ⟨o, ht⟩ := State.refuseEntry_gone hrj hv cause reason hl
      · rw [ht]
        exact ⟨keeps hs, fun h => absurd h hl, fun _ => ⟨State.journal_setJournal .., r.countRefused_frames c cause⟩, jref _⟩
      · rw [ht]
        refine ⟨keeps (hs.trans (.setCore _ rfl rfl)), fun h => absurd h hl, fun _ => ⟨?_, r.countRefused_frames c cause⟩, ?_⟩
        · rw [State.journal, State.core_setCore]
          exact State.journal_setJournal ..
        · rw [State.core_setCore]
          exact jref _
  case dead =>
    let d := r.countDeadReport c
    let u := d.setJournal c e j.lessOne
    have hd : r.onlyEntry d c e := .setCore r rfl rfl
    have hu : r.onlyEntry u c e := hd.trans (.setJournal d _)
    have jdead : (u.core c).jdead = min ((s.core c).jdead + 1) 0xFFFF := by
      obtain ⟨_, hc⟩ := d.core_setJournal c e j.lessOne c
      rw [hc]
      exact congrArg Core.jdead (r.core_setCore c _)
    refine ⟨_, exec_deadReport hn rfl hj, ?_⟩
    by_cases hl : (s.core c).deadtrap = true ∧ s.tells j
    · obtain ⟨trap, live, stays⟩ := hl
      rw [if_pos (by rw [trap, live, stays]; rfl)]
      obtain ⟨_, _, hc⟩ := State.core_pendTrap u j.task { cause := Cause.DEADLAND, tval := at64 j.kind.toNat 16 + at64 e 0, entry := none } c
      refine ⟨keeps (hu.trans (.pendTrap _ _ _)), ?_, by rw [hc]; exact jdead, fun _ _ => ?_, fun h => absurd (trap.symm.trans h) (by decide)⟩
      · rw [State.journal_pendTrap]
        exact State.journal_setJournal ..
      · rw [show tval 0 = at64 j.kind.toNat 16 + at64 e 0 from (tval_eq j.kind.toNat 0 e).symm.trans (by simp [at64])]
        exact (hr.trans hu).pends rfl ..
    · rw [if_neg (by simpa [State.tells] using hl)]
      exact ⟨keeps hu, State.journal_setJournal .., jdead, fun h ht => absurd ⟨ht, h⟩ hl, fun _ => rfl⟩
  case retry =>
    have empty : (if j.state = 2 ∧ (j.bounced.erase b).isEmpty = true then 1 else j.state) =
        if j.state = 2 ∧ j.bounced.erase b = [] then 1 else j.state := by simp only [List.isEmpty_iff]
    rw [← empty]
    exact ⟨_, exec_bounceRetry hj hb, ⟨(State.onlyEntry.setJournal (c := c) (e := e) s (some _)).journal, State.sameBytes_of_mem rfl⟩, rfl, rfl,
      s.journal_setJournal c e (some _)⟩

end Sys2Proof.Machine
end

section
/-! # O46: an envelope reaches its core (R133–R138, R506)

`accept` places the envelope and gives a verdict, `settle` tells the sender: a lemma for each verdict of the one, and
for each verdict what the other does where the sender is a core of this chip. -/

namespace Sys2Proof.Machine
variable {s : State} {e : Env}

/-! ### The verdict (R133–R135, R138, R148) -/

/-- An arriving envelope as its core stores it. -/
def State.arrived (s : State) (e : Env) (p : Nat) (st : Stored) : QEnv :=
  { env := e, prio := p, base := p, arrival := s.clk.stepNo, cycle := s.clk.cycle, stored := st }

theorem State.accept_discarded (h : (s.job e.job).state = 4) : s.accept e = (s, .discarded) := if_pos h

section
variable (hj : (s.job e.job).state ≠ 4)
include hj

theorem State.accept_refused (h : s.takes e.core e = false) : s.accept e = (s, .refused) := by
  rw [State.accept]
  exact (if_neg hj).trans (if_pos (by rw [h]; rfl))

variable (ht : s.takes e.core e = true)
include ht

/-- A core that takes the envelope goes by its handler table. -/
theorem State.accept_taken : s.accept e =
    let x := s.core e.core
    let h := x.handler e.cls
    if !h.bound then
      if x.heldPlaces < 16 then
        ((s.setCore e.core { x with held := x.held ++ [s.arrived e 0 .held] }).rouse e.core, .accepted)
      else (s, .orphan)
    else match s.room e.core with
      | none => (s.setCore e.core { x with bounces := satAdd x.bounces 1 0xFFFF }, .bounced)
      | some st =>
        ((s.setCore e.core { x with queue := x.queue ++ [s.arrived e ((e.stolen).getD h.prio.toNat) st] }).rouse e.core, .accepted) := by
  rw [State.accept]
  exact (if_neg hj).trans (if_neg (by rw [ht]; decide))

theorem State.accept_held (hb : ((s.core e.core).handler e.cls).bound = false) (hp : (s.core e.core).heldPlaces < 16) :
    s.accept e = ((s.setCore e.core { s.core e.core with held := (s.core e.core).held ++ [s.arrived e 0 .held] }).rouse e.core, .accepted) := by
  rw [State.accept_taken hj ht]
  dsimp only
  rw [hb, Bool.not_false, if_pos rfl, if_pos hp]

theorem State.accept_orphan (hb : ((s.core e.core).handler e.cls).bound = false) (hp : 16 ≤ (s.core e.core).heldPlaces) :
    s.accept e = (s, .orphan) := by
  rw [State.accept_taken hj ht]
  dsimp only
  rw [hb, Bool.not_false, if_pos rfl, if_neg (Nat.not_lt.mpr hp)]

theorem State.accept_queued (hb : ((s.core e.core).handler e.cls).bound = true) {st : Stored} (hr : s.room e.core = some st)
    (hs : e.stolen = none) : s.accept e = ((s.setCore e.core { s.core e.core with
      queue := (s.core e.core).queue ++ [s.arrived e ((s.core e.core).handler e.cls).prio.toNat st] }).rouse e.core, .accepted) := by
  rw [State.accept_taken hj ht]
  dsimp only
  rw [hb, Bool.not_true, if_neg Bool.false_ne_true, hr, hs]
  rfl

theorem State.accept_bounced (hb : ((s.core e.core).handler e.cls).bound = true) (hr : s.room e.core = none) :
    s.accept e = (s.setCore e.core { s.core e.core with bounces := satAdd (s.core e.core).bounces 1 0xFFFF }, .bounced) := by
  rw [State.accept_taken hj ht]
  dsimp only
  rw [hb, Bool.not_true, if_neg Bool.false_ne_true, hr]

end

/-! ### The sender is told (R131, R133, R136, R138) -/

section
variable {k i : Nat} (hs : e.stolen = none) (hx : e.sender = .core s.chip.chipNo k i)
include hx

theorem State.tellSender_here (kind : BitVec 4) (m : Msg) : s.tellSender e kind m = s.send m := by
  rw [State.tellSender, hx]
  exact if_pos rfl

include hs

theorem State.settle_accepted : s.settle e .accepted = s.send (.ack e.sender (s.seeFor e.sender (tileOfCore e.core) 9)) := by
  simp only [State.settle, hs, Option.isSome_none, Bool.false_eq_true, if_false]
  rw [← State.tellSender_here hx 2, hx]

theorem State.settle_refused : s.settle e .refused = s.send (.refusal e.sender Cause.REFUSED Cause.PERM) := by
  simp only [State.settle, hs, Option.isSome_none, Bool.false_eq_true, if_false]
  rw [← State.tellSender_here hx 8, hx]

theorem State.settle_orphan : s.settle e .orphan = s.send (.refusal e.sender Cause.ORPHAN 0) := by
  simp only [State.settle, hs, Option.isSome_none, Bool.false_eq_true, if_false]
  rw [← State.tellSender_here hx 8, hx]

theorem State.settle_discarded : s.settle e .discarded = s.send (.ack e.sender none) := by
  simp only [State.settle, hs, Option.isSome_none, Bool.false_eq_true, if_false]
  rw [← State.tellSender_here hx 2, hx]

theorem State.settle_bounced {y : JEntry} (hy : s.journal k i = some y) : s.settle e .bounced =
    (s.setJournal k i (some { y with
      state := 2, bounces := y.bounces + 1,
      bounced := y.bounced ++ [({ e with hdr := setBit e.hdr 19 true }, s.retryAt (y.bounces + 1))] })).fresh := by
  simp only [State.settle, State.bounceEnv, hs, hx, Option.isSome_none, Bool.false_eq_true, if_false, if_true, State.bouncedTo, hy]

end

/-! ### The event -/

theorem exec_envelopeArrival {n : Nat} (h : s.deliverable n = some (.env e)) : exec (.envelopeArrival n) s = .next (
    if s.clk.cycle < e.due then s
    else if e.chip ≠ s.chip.chipNo then (s.dropMsg n).toPeer e.chip e.job false 6 (.msg (.env e))
    else ((s.dropMsg n).accept e).1.settle e ((s.dropMsg n).accept e).2) := by
  change Host.Outcome.next (s.envArrival n) = _
  rw [State.envArrival, h]

theorem State.stream_toPeer (s : State) (dest : BitVec 11) (job : BitVec 12) (bulk : Bool) (kind : BitVec 4) (body : Body) :
    ((s.toPeer dest job bulk kind body).stream dest).unsent = (s.stream dest).unsent ++ [s.packet dest job bulk kind body] := by
  have h : (s.toPeer dest job bulk kind body).stream dest =
    { s.stream dest with unsent := (s.stream dest).unsent ++ [s.packet dest job bulk kind body] } := State.stream_setStream ..
  rw [h]

/-- The time of a retry lies within 256 cycles of the wait of R136. -/
theorem State.retryAt_bounds (s : State) (n : Nat) :
    s.clk.cycle + 256 * 2 ^ min n 8 ≤ s.retryAt (n + 1) ∧ s.retryAt (n + 1) < s.clk.cycle + 256 * 2 ^ min n 8 + 256 := by
  have := Nat.mod_lt (Config.freeNat s.clk.free 0) (by decide : 0 < 256)
  rw [State.retryAt, Nat.add_sub_cancel]
  omega

/-- Settles O46: `exec_envelopeArrival`, then the verdict of `accept` and what `settle` does with it. -/
theorem envelopeArrivals : Obligations.EnvelopeArrivals := by
  unfold Obligations.EnvelopeArrivals
  intro s n k i e y c x h rest new told hm
  let d := s.dropMsg n
  have goes (hd : e.due ≤ s.clk.cycle) (hc : e.chip = s.chip.chipNo) {u t : State} {v : Verdict} (ha : d.accept e = (u, v))
      (ht : u.settle e v = t) : exec (.envelopeArrival n) s = .next t := by
    rw [exec_envelopeArrival hm, if_neg (Nat.not_lt.mpr hd), if_neg (not_not.mpr hc), ha, ht]
  have placed (z : Core) : let t := (d.setCore c z).rouse c
      t.net = rest ∧ t.frames = s.frames ∧ t.mem = s.mem ∧ t.core c = roused s z := by
    refine ⟨State.net_rouse .., State.frames_rouse .., State.mem_rouse .., ?_⟩
    rw [State.core_rouse_self, State.core_setCore]
    rfl
  refine ⟨fun hd => ?early, fun hd hc => ?away, fun hd hc hs hx hj => ?discarded, fun hd hc hs hx hj => ⟨fun ht => ?refused, fun ht hb =>
    ⟨fun hp => ?held, fun hp => ?orphan⟩, fun ht hb => ⟨fun st hr => ?queued, fun hr hy => ?bounced⟩⟩⟩
  case early => rw [exec_envelopeArrival hm, if_pos hd]
  case away =>
    refine ⟨d.toPeer e.chip e.job false 6 (.msg (.env e)), ?_, rfl, rfl, d.stream_toPeer ..⟩
    rw [exec_envelopeArrival hm, if_neg (Nat.not_lt.mpr hd), if_pos hc]
  case discarded =>
    exact ⟨_, goes hd hc (State.accept_discarded hj) (State.settle_discarded (s := d) hs hx), ⟨rfl, rfl, State.sameBytes_of_mem rfl⟩, rfl⟩
  case refused =>
    exact ⟨_, goes hd hc (State.accept_refused hj ht) (State.settle_refused (s := d) hs hx), ⟨rfl, rfl, State.sameBytes_of_mem rfl⟩, rfl⟩
  case held =>
    obtain ⟨net, frames, mem, core⟩ := placed { x with held := x.held ++ [new 0 .held] }
    exact ⟨_, goes hd hc (State.accept_held hj ht hb hp) (State.settle_accepted hs (by rw [State.chip_rouse]; exact hx)),
      ⟨_, congrArg (· ++ _) net, frames, State.sameBytes_of_mem mem⟩, core⟩
  case orphan =>
    exact ⟨_, goes hd hc (State.accept_orphan hj ht hb hp) (State.settle_orphan (s := d) hs hx), ⟨rfl, rfl, State.sameBytes_of_mem rfl⟩, rfl⟩
  case queued =>
    obtain ⟨net, frames, mem, core⟩ := placed { x with queue := x.queue ++ [new h.prio.toNat st] }
    exact ⟨_, goes hd hc (State.accept_queued (s := d) hj ht hb hr hs) (State.settle_accepted hs (by rw [State.chip_rouse]; exact hx)),
      ⟨_, congrArg (· ++ _) net, frames, State.sameBytes_of_mem mem⟩, core⟩
  case bounced =>
    let u := d.setCore c { x with bounces := satAdd x.bounces 1 0xFFFF }
    have hu : u.journal k i = some y := (d.journal_setCore (x := { x with bounces := satAdd x.bounces 1 0xFFFF }) rfl k i).trans hy
    let j : JEntry := { y with
      state := 2, bounces := y.bounces + 1, bounced := y.bounced ++ [({ e with hdr := setBit e.hdr 19 true }, u.retryAt (y.bounces + 1))] }
    obtain ⟨l, core⟩ := u.core_setJournal k i (some j) c
    rw [State.core_setCore] at core
    obtain ⟨lower, upper⟩ := u.retryAt_bounds y.bounces
    refine ⟨(u.setJournal k i (some j)).fresh, goes hd hc (State.accept_bounced hj ht hb hr) (State.settle_bounced (s := u) hs hx hu), rfl, rfl,
      ?_, ?_, _, lower, upper, u.journal_setJournal k i (some j)⟩
    · exact congrArg Core.bounces core
    · exact (congrArg Core.queue core :)

end Sys2Proof.Machine
end

section
/-! # O27: send, sendg and spawn (R127, R130, R132)

The three forms go through `transmit`: `transmit_sends` is what it does where the release is done and an entry is free, and
`posts_entered` that this is to post. The rest is the header: `hdrBy_filled`, kept by what only writes the destination. -/

namespace Sys2Proof.Machine

/-! ### The header (R127, R128) -/

theorem fld_eq {n : Nat} (x : BitVec n) (lo len : Nat) : fld x lo len = x.toNat / 2 ^ lo % 2 ^ len := by
  rw [fld, BitVec.extractLsb'_toNat, Nat.shiftRight_eq_div_pow]

theorem hdrBy_filled (w : Word) (o : BitVec 2) (j : BitVec 12) : hdrBy w (hdrFilled w o.toNat j) o.toNat j := by
  have hne {w : Word} {lo len lo' len' v : Nat} (h : lo' + len' ≤ 64) (hd : lo' + len' ≤ lo ∨ lo + len ≤ lo') :=
    extract_putFld_ne w lo len lo' len' v h hd
  have hself {w : Word} {lo len : Nat} (v : BitVec len) (h : lo + len ≤ 64) := extract_putFld_self w lo len v h
  have ho : BitVec.ofNat 2 o.toNat = o := by simp
  simp only [hdrFilled, hdrBy, ho]
  refine ⟨?_, ?_, ?_, ?_, ?_⟩
  · rw [hne (by decide) (by decide), hne (by decide) (by decide), hself o (by decide)]
  · rw [hne (by decide) (by decide), hself j (by decide)]
  · exact hself (0 : BitVec 4) (by decide)
  · rw [hne (by decide) (by decide), hne (by decide) (by decide), hne (by decide) (by decide)]
  · rw [hne (by decide) (by decide), hne (by decide) (by decide), hne (by decide) (by decide)]

/-- The hardware fields leave the destination as the task gave it. -/
theorem extract_hdrFilled (w : Word) (o : Nat) (j : BitVec 12) {lo len : Nat} (hl : 34 ≤ lo) (h : lo + len ≤ 64) :
    (hdrFilled w o j).extractLsb' lo len = w.extractLsb' lo len := by
  rw [hdrFilled, extract_putFld_ne _ _ _ _ _ _ h (by omega), extract_putFld_ne _ _ _ _ _ _ h (by omega),
    extract_putFld_ne _ _ _ _ _ _ h (by omega)]

/-- What the header says below its destination is kept by what changes no bit there. -/
theorem hdrBy_of_low {w h h' : Word} {o : Nat} {j : BitVec 12} (hb : hdrBy w h o j) (low : ∀ i, i < 39 → h'.getLsbD i = h.getLsbD i) :
    hdrBy w h' o j := by
  have same (lo len : Nat) (hle : lo + len ≤ 39) : h'.extractLsb' lo len = h.extractLsb' lo len := by
    refine BitVec.eq_of_getLsbD_eq fun i hi => ?_
    rw [BitVec.getLsbD_extractLsb', BitVec.getLsbD_extractLsb', low _ (by omega)]
  obtain ⟨origin, job, zero, given, cls⟩ := hb
  exact ⟨(same 32 2 (by decide)).trans origin, (same 20 12 (by decide)).trans job, (same 16 4 (by decide)).trans zero,
    (same 0 16 (by decide)).trans given, (same 34 5 (by decide)).trans cls⟩

theorem hdrBy_putChip {w h : Word} {o : Nat} {j : BitVec 12} (hb : hdrBy w h o j) (v : Nat) : hdrBy w (putFld h 53 11 v) o j :=
  hdrBy_of_low hb fun i hi => (getLsbD_putFld _ _ _ _ _ (by omega)).trans (if_neg (by omega))

/-- The destination above the low 39 bits, as a number. -/
def coreNum (chip : BitVec 11) (c : Nat) : Nat :=
  chip.toNat * 2 ^ 14 + dieOfTile (tileOfCore c) % 2 * 2 ^ 13 + tileNo (tileOfCore c) * 2 ^ 5 + coreNo c

theorem coreNum_lt (chip : BitVec 11) (c : Nat) : coreNum chip c < 2 ^ 25 := by
  have := chip.isLt
  simp only [coreNum, tileNo, coreNo]
  omega

theorem hdrTo_toNat (h : Word) (chip : BitVec 11) (c : Nat) : (hdrTo h chip c).toNat = 2 ^ 39 * coreNum chip c + h.toNat % 2 ^ 39 := by
  have core : coreHdr chip c = BitVec.ofNat 64 (2 ^ 39 * coreNum chip c) := by
    rw [coreHdr, at64, at64, at64, at64, ← BitVec.ofNat_add, ← BitVec.ofNat_add, ← BitVec.ofNat_add, coreNum]
    exact congrArg _ (by ring)
  have low : putFld h 39 25 0 = BitVec.ofNat 64 (h.toNat % 2 ^ 39) := by
    refine BitVec.eq_of_getLsbD_eq fun i hi => ?_
    rw [getLsbD_putFld _ _ _ _ _ hi, BitVec.getLsbD_ofNat, Nat.testBit_mod_two_pow, decide_eq_true hi, Bool.true_and]
    by_cases hl : i < 39
    · rw [if_neg (by omega), decide_eq_true hl, Bool.true_and, BitVec.getLsbD]
    · rw [if_pos (by omega), decide_eq_false hl, Bool.false_and, Nat.zero_testBit]
  have := coreNum_lt chip c
  rw [hdrTo, core, low, ← BitVec.ofNat_add, BitVec.toNat_ofNat]
  omega

theorem hdrBy_to {w h : Word} {o : Nat} {j : BitVec 12} (hb : hdrBy w h o j) (chip : BitVec 11) (c : Nat) : hdrBy w (hdrTo h chip c) o j := by
  refine hdrBy_of_low hb fun i hi => ?_
  rw [BitVec.getLsbD, hdrTo_toNat, Nat.testBit_two_pow_mul_add _ (Nat.mod_lt _ (by decide)), if_pos hi, Nat.testBit_mod_two_pow,
    decide_eq_true hi, Bool.true_and, BitVec.getLsbD]

theorem hdrTo_chip (h : Word) (chip : BitVec 11) (c : Nat) : (hdrTo h chip c).extractLsb' 53 11 = chip := by
  have := coreNum_lt chip c
  apply BitVec.eq_of_toNat_eq
  rw [BitVec.extractLsb'_toNat, hdrTo_toNat, Nat.shiftRight_eq_div_pow]
  simp only [coreNum, tileNo, coreNo] at *
  omega

theorem hdrTo_core (h : Word) (chip : BitVec 11) (c : Nat) : (hdrTo h chip c).extractLsb' 39 5 = BitVec.ofNat 5 (c % 32) := by
  apply BitVec.eq_of_toNat_eq
  rw [BitVec.extractLsb'_toNat, hdrTo_toNat, Nat.shiftRight_eq_div_pow, BitVec.toNat_ofNat]
  simp only [coreNum, tileNo, coreNo]
  omega

/-! ### A posted operation (R212, R214) -/

variable {s : State} {e n : Nat}

/-- An instruction that fills the lowest free entry, sends its messages and goes on has posted them. -/
theorem posts_entered (he : (s.core s.myCore).freeEntries.head? = some e) (kind : BitVec 4) (dest : Word) (n : Nat) (write : Bool)
    (ms : Sender → List Msg) :
    postsAll s ((s.issued.enter e kind dest n write).sendAll (ms (.core s.chip.chipNo s.myCore e))).next kind dest ms := by
  have hc : s.issued.myCore = s.myCore := s.myCore_issued
  have hm : ((s.issued.enter e kind dest n write).sendAll (ms (.core s.chip.chipNo s.myCore e))).next.me = s.me.unblock.advance := by
    rw [State.next, State.me_updMe]
    exact congrArg Frame.advance s.me_issued
  refine ⟨e, he, rfl, ?entry, fun k hk => ?others, ?regs, ?on, State.sameBytes_of_mem rfl⟩
  case entry =>
    let j : JEntry := {
      kind := kind, state := 1, task := s.issued.me.taskId, dest := dest, reason := 0, bounces := 0, copies := n, bounced := [],
      write := write, ctr := none, job := s.issued.me.job }
    have hj := s.issued.journal_setJournal s.issued.myCore e (some j)
    rw [← hc]
    exact ⟨j, hj, rfl, rfl, s.taskId_issued, rfl, s.job_issued⟩
  case others =>
    rw [← hc]
    exact State.journal_setJournal_ne (s := s.issued) (some _) (.inr hk)
  case regs =>
    rw [hm]
    exact .trans ⟨fun _ => rfl, fun _ _ => rfl, fun _ => rfl, rfl, rfl⟩ (Frame.sameRegs_advance _)
  case on =>
    rw [hm]
    exact Frame.wentOn_advance rfl rfl

/-! ### Transmitting (R130, R132) -/

/-- The release of a form is done: it has none, or no acquire is open and every write of the task is performed. -/
def State.relDone (s : State) (rel : Option Scope) : Prop :=
  rel.isSome = true → s.acquiring = false ∧ s.writesDone s.me.taskId = true

theorem State.releasing_done {rel : Option Scope} (h : s.relDone rel) (k : State → State) : s.releasing rel k = k s := by
  rw [State.releasing]
  split
  next hr =>
    obtain ⟨acq, done⟩ := h hr
    rw [State.afterAcquire, acq, if_neg Bool.false_ne_true, State.release, if_pos done]
  next => rfl

theorem State.relDone_issued {rel : Option Scope} (h : s.relDone rel) : s.issued.relDone rel := fun hr => by
  obtain ⟨acq, done⟩ := h hr
  refine ⟨s.acquiring_issued.trans acq, ?_⟩
  rw [State.taskId_issued]
  exact done

/-- The envelope of the task that issues (R127, R130). -/
def State.envFrom (s : State) (hdr w1 : Word) (pl : List Word) (rel : Option Scope) (stamp : Option (Nat × BitVec 16)) (x : Sender) : Env :=
  { hdr := hdr, w1 := w1, pl := pl, sender := x, task := some s.me.taskId, job := s.me.job, rel := rel,
    svc := s.me.svc, stamp := stamp, row := none, stolen := none, knows := s.me.knows }

theorem scope_eq (z : BitVec 2) : scScope z =
    if z = 0 then none else some (if z = 1 then .tile else if z = 2 then .chip else .domain) := by
  unfold scScope
  split
  · rfl
  · split
    · rfl
    · split <;> rfl

theorem State.envFrom_scScope (s : State) (hdr w1 : Word) (pl : List Word) (z : BitVec 2) (stamp : Option (Nat × BitVec 16)) (x : Sender) :
    s.envFrom hdr w1 pl (scScope z) stamp x = envBy s hdr w1 pl z stamp x := by
  rw [State.envFrom, scope_eq]
  rfl

theorem State.transmit_posts {rel : Option Scope} (hr : s.relDone rel) (hf : (s.core s.myCore).freeEntries ≠ []) (hdr w1 : Word)
    (pl : List Word) (stamp : Option (Nat × BitVec 16)) (raw : Word) (n : Nat) (msgs : Env → List Msg) :
    postsAll s (s.issued.transmit hdr w1 pl rel stamp raw n msgs) 4 raw fun x => msgs (s.envFrom hdr w1 pl rel stamp x) := by
  obtain ⟨e, he⟩ : ∃ e, (s.core s.myCore).freeEntries.head? = some e := ⟨_, List.head?_eq_some_head hf⟩
  have he' : (s.issued.core s.issued.myCore).freeEntries.head? = some e := by rw [State.myCore_issued]; exact he
  have hm : ((s.issued.enter e JKind.env raw n false).envOf hdr w1 pl e rel stamp) =
      s.envFrom hdr w1 pl rel stamp (.core s.chip.chipNo s.myCore e) := by
    have me : (s.issued.enter e JKind.env raw n false).me = s.me.unblock := s.me_issued
    rw [State.envOf, me, State.entrySender, State.myCore, me]
    rfl
  rw [State.transmit, State.releasing_done (State.relDone_issued hr), State.withEntry, he']
  dsimp only
  rw [hm]
  exact posts_entered he JKind.env raw n false fun x => msgs (s.envFrom hdr w1 pl rel stamp x)

/-! ### The forms (R130) -/

theorem State.payload_issued (s : State) (d : GReg) : s.issued.me.payload d = s.me.payload d := by
  rw [State.me_issued]
  rfl

/-- The destination of a `send` may be addressed by the task. -/
def State.addressable (s : State) (h : Word) : Prop :=
  fld h 44 8 ≤ 175 ∧ (s.physical (h.extractLsb' 53 11)).toNat < s.chip.nChips ∧ (fld h 39 5 = 31 → s.me.svc = true)

section
variable {d a b : GReg} {ka kb : Bool} (hgo : s.goes (payloadSrcs d ka ++ [.g a ka, .g b kb]))
include hgo

theorem exec_send_eq (z : BitVec 2) : exec (.send d a b ka kb z) s = .next (
    let H := s.me.rdG a
    let chip := s.physical (H.extractLsb' 53 11)
    if 175 < fld H 44 8 ∨ s.chip.nChips ≤ chip.toNat then s.issued.trap Cause.PERM H
    else if fld H 39 5 = 31 ∧ !s.me.svc then s.issued.trap Cause.PERM H
    else s.issued.transmit (putFld (hdrFilled H 0 s.me.job) 53 11 chip.toNat) (s.me.rdG b) (s.me.payload d) (scScope z) none H 1
      fun e => [.env e]) := by
  rw [exec_issue hgo rfl]
  simp only [State.rdG_issued, State.svc_issued, State.job_issued, State.payload_issued]
  rfl

theorem exec_send_perm (z : BitVec 2) (h : ¬s.addressable (s.me.rdG a)) :
    exec (.send d a b ka kb z) s = .next (s.issued.trap Cause.PERM (s.me.rdG a)) := by
  rw [exec_send_eq hgo]
  refine congrArg Host.Outcome.next ?_
  dsimp only
  by_cases hc : 175 < fld (s.me.rdG a) 44 8 ∨ s.chip.nChips ≤ (s.physical ((s.me.rdG a).extractLsb' 53 11)).toNat
  · rw [if_pos hc]
  · have svc : fld (s.me.rdG a) 39 5 = 31 ∧ (!s.me.svc) = true := by
      by_contra hn
      exact h ⟨by omega, by omega, fun h31 => by simpa [h31] using hn⟩
    rw [if_neg hc, if_pos svc]

theorem exec_send_named (z : BitVec 2) (h : s.addressable (s.me.rdG a)) : exec (.send d a b ka kb z) s = .next (
    s.issued.transmit (putFld (hdrFilled (s.me.rdG a) 0 s.me.job) 53 11 (s.physical ((s.me.rdG a).extractLsb' 53 11)).toNat)
      (s.me.rdG b) (s.me.payload d) (scScope z) none (s.me.rdG a) 1 fun e => [.env e]) := by
  obtain ⟨tile, chip, svc⟩ := h
  rw [exec_send_eq hgo]
  dsimp only
  rw [if_neg (by omega), if_neg]
  rintro ⟨h31, hu⟩
  simp [svc h31] at hu

theorem exec_sendg_perm (z : BitVec 2) (h : (s.group (fld (s.me.rdG a) 44 8)).cv = false) :
    exec (.sendg d a b ka kb z) s = .next (s.issued.trap Cause.PERM (s.me.rdG a)) := by
  rw [exec_issue hgo rfl]
  simp only [State.rdG_issued]
  have off : (!(s.issued.group (fld (s.me.rdG a) 44 8)).cv) = true := congrArg (!·) h
  exact congrArg Host.Outcome.next (if_pos off)

theorem exec_sendg_current (z : BitVec 2) {n : Nat} {g : GroupEntry} (hn : fld (s.me.rdG a) 44 8 = n) (hg : s.group n = g) (h : g.cv = true) :
    exec (.sendg d a b ka kb z) s = .next (
      s.issued.transmit (hdrFilled (s.me.rdG a) 1 s.me.job) (s.me.rdG b) (s.me.payload d) (scScope z) (some (n, g.cur)) (s.me.rdG a)
        (1 + (s.farChips g.curM).length)
        fun e => (s.chip.chipNo :: s.farChips g.curM).map fun c => .group { e with hdr := putFld e.hdr 53 11 c.toNat }) := by
  subst hn hg
  rw [exec_issue hgo rfl]
  simp only [State.rdG_issued, State.job_issued, State.payload_issued]
  have on : (!(s.issued.group (fld (s.me.rdG a) 44 8)).cv) = false := congrArg (!·) h
  exact congrArg Host.Outcome.next (if_neg (ne_true_of_eq_false on))

theorem exec_spawn_eq : exec (.spawn d a b ka kb) s = .next (
    s.issued.transmit (hdrTo (hdrFilled (s.me.rdG a) 2 s.me.job) s.chip.chipNo s.myCore) (s.me.rdG b) (s.me.payload d) (some .tile) none
      (s.me.rdG a) 1 fun e => [.env e]) := by
  rw [exec_issue hgo rfl]
  simp only [State.rdG_issued, State.job_issued, State.payload_issued, State.myCore_issued]
  rfl

end

/-- Settles O27: the traps are branches of the forms; what goes out goes by `transmit_posts`, and its header is filled. -/
theorem sending : Obligations.Sending := by
  unfold Obligations.Sending
  intro s d a b ka kb z H B pl srcs chip named g hgo
  have hnamed : s.addressable H ↔ named := by
    simp only [State.addressable, fld_eq]
    rfl
  have released (h : z = 0 ∨ (s.acquiring = false ∧ s.writesDone s.me.taskId = true)) : s.relDone (scScope z) := by
    intro hr
    refine h.resolve_left fun hz => ?_
    simp [hz, scScope] at hr
  have hg : fld H 44 8 = H.toNat / 2 ^ 44 % 256 := fld_eq H 44 8
  refine ⟨fun h => exec_send_perm hgo z (mt hnamed.mp h), fun h => exec_sendg_perm hgo z (by rw [hg]; exact h), fun hf hr => ⟨fun h => ?send, fun h => ?sendg⟩,
    fun hf ha hw => ?spawn⟩
  case send =>
    have posted := State.transmit_posts (released hr) hf (putFld (hdrFilled H 0 s.me.job) 53 11 chip.toNat) B pl none H 1 fun e => [.env e]
    simp only [State.envFrom_scScope] at posted
    refine ⟨_, _, exec_send_named hgo z (hnamed.mpr h), hdrBy_putChip (hdrBy_filled H 0 s.me.job) _,
      extract_putFld_self _ 53 11 chip (by decide), ?_, posted⟩
    rw [extract_putFld_ne _ _ _ _ _ _ (by decide) (by decide), extract_hdrFilled _ _ _ (by decide) (by decide)]
  case sendg =>
    have posted := State.transmit_posts (released hr) hf (hdrFilled H 1 s.me.job) B pl (some (H.toNat / 2 ^ 44 % 256, g.cur)) H
      (1 + (s.farChips g.curM).length)
      fun e => (s.chip.chipNo :: s.farChips g.curM).map fun c => .group { e with hdr := putFld e.hdr 53 11 c.toNat }
    simp only [State.envFrom_scScope] at posted
    exact ⟨_, _, exec_sendg_current hgo z hg rfl h, hdrBy_filled H 1 s.me.job, posted⟩
  case spawn =>
    have done : s.relDone (some .tile) := fun _ => ⟨ha, hw⟩
    exact ⟨_, _, exec_spawn_eq hgo, hdrBy_to (hdrBy_filled H 2 s.me.job) _ _, hdrTo_chip .., hdrTo_core ..,
      State.transmit_posts done hf _ B pl none H 1 fun e => [.env e]⟩

end Sys2Proof.Machine
end

section
/-! # O28: the handler table (R141)

A `bind` that binds comes to the checks of its template (`exec_bind_read`) and passes them (`bindWith_binds`); moving the
held envelopes leaves the handlers alone (`bindAt_handler`), and its status comes as a long-latency reply (`asks_bindReply`). -/

namespace Sys2Proof.Machine
variable {s u v : State} {c : Nat}

/-! ### Handlers -/

theorem Core.handler_put (x : Core) (cls : BitVec 4) (h : Handler) (k : BitVec 4) :
    { x with handlers := Tab.put x.handlers cls.toNat h : Core }.handler k = if k = cls then h else x.handler k := by
  by_cases hk : k = cls
  · rw [if_pos hk, hk, Core.handler, Tab.get_put_self]
  · rw [if_neg hk, Core.handler, Tab.get_put_ne _ _ _ fun e => hk (BitVec.eq_of_toNat_eq e), Core.handler]

/-- Moving the held envelopes of a class into the queue changes the cores only, and no handler. -/
theorem State.releaseHeld_keeps (c : Nat) (cls : BitVec 4) (pr n : Nat) (s : State) :
    s.releaseHeld c cls pr n = { s with cores := (s.releaseHeld c cls pr n).cores } ∧
      ((s.releaseHeld c cls pr n).core c).handlers = (s.core c).handlers := by
  induction n generalizing s with
  | zero => exact ⟨rfl, rfl⟩
  | succ n ih =>
    rw [State.releaseHeld]
    dsimp only
    split
    · exact ⟨rfl, rfl⟩
    next q _ =>
      obtain ⟨only, handlers⟩ := ih (((s.setCore c _).setCore c _))
      refine ⟨?_, handlers.trans ?_⟩
      · rw [only]
        rfl
      · rw [State.core_setCore]

/-- A class is bound at a core, and its held envelopes are queued (R141). -/
def State.bindAt (s : State) (c : Nat) (cls : BitVec 4) (h : Handler) (pr : Nat) : State :=
  (s.setCore c { s.core c with handlers := Tab.put (s.core c).handlers cls.toNat h }).releaseHeld c cls pr (s.core c).held.length

theorem State.bindAt_only (s : State) (c : Nat) (cls : BitVec 4) (h : Handler) (pr : Nat) :
    s.bindAt c cls h pr = { s with cores := (s.bindAt c cls h pr).cores } :=
  (State.releaseHeld_keeps ..).1

theorem State.bindAt_handler (s : State) (c : Nat) (cls : BitVec 4) (h : Handler) (pr : Nat) (k : BitVec 4) :
    ((s.bindAt c cls h pr).core c).handler k = if k = cls then h else (s.core c).handler k := by
  rw [State.bindAt, Core.handler, (State.releaseHeld_keeps ..).2, State.core_setCore]
  exact (s.core c).handler_put cls h k

/-! ### The checks of a `bind` -/

theorem State.consulted.targets (use : Use) (es : List (Nat × Word)) (s : State) : s.consulted (s.targets use es).1 := by
  induction es generalizing s with
  | nil => exact .refl s
  | cons e es ih => exact .trans (.target rfl) (ih _)

/-- The status of a `bind` comes as a reply. -/
theorem asks_bindReply (d : GReg) (r : Res) (h : s.issued.consulted v) : asks s (v.bindReply d r) d (.reply s.me.taskId (.g d) r none none) := by
  have id : v.me.taskId = s.me.taskId := by rw [h.me, State.taskId_issued]
  rw [State.bindReply, id]
  exact asks_sent d _ h

/-- The bytes of a preset, where its address is checked and they can be read. -/
def State.presetBytes (v : State) (job : BitVec 12) (e : Nat × Word × Target) : List Byte :=
  match e.2.2 with
  | .ok q => (match v.placeBytes job q 16 with
    | .bytes l => l
    | .err _ => [])
  | _ => []

/-- The register of a preset and its value (R27). -/
def State.presetAt (v : State) (job : BitVec 12) (e : Nat × Word × Target) : Nat × Word :=
  (leNat ((v.presetBytes job e).take 1), leWord ((v.presetBytes job e).drop 8))

/-- Every preset of a template can be read. -/
def State.presetsRead (v : State) (job : BitVec 12) (ps : List (Nat × Word × Target)) : Prop :=
  ∀ e ∈ ps, ∃ q l, e.2.2 = .ok q ∧ v.placeBytes job q 16 = .bytes l

/-- What a preset reads as. -/
def State.presetGot (v : State) (job : BitVec 12) (e : Nat × Word × Target) : Got :=
  match e.2.2 with
  | .ok p => v.placeBytes job p 16
  | _ => .bytes []

theorem State.presetsRead.got {job : BitVec 12} {ps : List (Nat × Word × Target)} (h : v.presetsRead job ps)
    {f : Nat × Word × Target → Got} (hf : ∀ e, f e = v.presetGot job e) : ps.map f = ps.map fun e => .bytes (v.presetBytes job e) := by
  refine List.map_congr_left fun e he => ?_
  obtain ⟨q, l, hq, hl⟩ := h e he
  rw [hf]
  simp only [State.presetGot, State.presetBytes, hq, hl]

/-- The handler that a `bind` enters. -/
def State.boundAs (v : State) (job : BitVec 12) (entry : Word) (pr : BitVec 2) (t : Word) (tm : Template) (ps : List (Nat × Word × Target)) : Handler :=
  { bound := true, entry := entry, tmpl := tm, taddr := t, prio := pr, presets := ps.map (v.presetAt job) }

theorem State.bindWith_binds {ps : List (Nat × Word × Target)} {job : BitVec 12} (hj : v.me.job = job) (h : v.presetsRead job ps) {tm : Template}
    (hok : tm.ok (ps.map fun e => leNat ((v.presetBytes job e).take 1)) = true) (hp : tm.pinned = false) (d : GReg) (entry : Word)
    (cls : BitVec 4) (pr : BitVec 2) (t : Word) : v.bindWith d entry cls pr t tm ps =
      (v.bindAt v.myCore cls (v.boundAs job entry pr t tm ps) pr.toNat).bindReply d (.ok 0) := by
  subst hj
  rw [State.bindWith]
  dsimp only
  rw [h.got]
  · split
    next c hc =>
      obtain ⟨g, hg, hgc⟩ := List.exists_of_findSome?_eq_some hc
      obtain ⟨e, -, rfl⟩ := List.mem_map.mp hg
      cases hgc
    next =>
      simp only [List.map_map, hp, Bool.false_and, Bool.or_false]
      exact if_neg (Bool.eq_false_iff.mp (congrArg (!·) hok))
  · exact fun _ => rfl

section
variable {d a b : GReg} {ka kb : Bool} (hgo : s.goes [.g a ka, .g b kb]) (ha : s.acquiring = false)
include hgo ha

theorem exec_bind_unaligned (h : (s.me.rdG a).toNat % 4 ≠ 0) : exec (.bind d a b ka kb) s = .next (s.issued.bindReply d (.ok 2)) := by
  rw [exec_issue hgo rfl, State.afterAcquire, State.acquiring_issued, ha, if_neg Bool.false_ne_true]
  simp only [State.rdG_issued]
  exact congrArg Host.Outcome.next (if_pos h)

/-- A `bind` whose template and presets can be read comes to the checks of the template. -/
theorem exec_bind_read {p : Place} {bs : List Byte} {ps : List (Nat × Word × Target)} (h : (s.me.rdG a).toNat % 4 = 0)
    (ht : s.issued.target (s.me.rdG b &&& ~~~63#64) 8 (formUse .read 8) = (u, .ok p)) (hb : u.placeBytes s.me.job p 48 = .bytes bs)
    (hv : u.targets (formUse .read 8) ((List.range (Template.ofBytes bs).npre.toNat).map fun i =>
      (i, (s.me.rdG b &&& ~~~63#64) + (Template.ofBytes bs).preoff.setWidth 64 + BitVec.ofNat 64 (16 * i))) = (v, ps))
    {job : BitVec 12} (hr : v.presetsRead job ps) : exec (.bind d a b ka kb) s = .next (v.bindWith d (s.me.rdG a)
      ((s.me.rdG b).extractLsb' 2 4) ((s.me.rdG b).extractLsb' 0 2) (s.me.rdG b &&& ~~~63#64) (Template.ofBytes bs) ps) := by
  have job : u.me.job = s.me.job := by rw [(State.consulted.target ht).me, State.job_issued]
  rw [formUse] at ht hv
  rw [exec_issue hgo rfl, State.afterAcquire, State.acquiring_issued, ha, if_neg Bool.false_ne_true]
  simp only [State.rdG_issued]
  rw [if_neg (not_not.mpr h), State.access, ht]
  dsimp only
  rw [job, hb]
  dsimp only
  rw [hv]
  refine congrArg Host.Outcome.next ?_
  have fine (f : Nat × Word × Target → Option (Word × Target)) (hf : ∀ e q, e.2.2 = .ok q → f e = none) : ps.findSome? f = none :=
    List.findSome?_eq_none_iff.mpr fun e he => by
      obtain ⟨q, l, hq, -⟩ := hr e he
      exact hf e q hq
  dsimp only
  rw [fine]
  intro e q hq
  rw [hq]

end

/-! ### The table after the instructions -/

theorem State.consulted.cores (h : s.consulted v) : v.cores = s.cores := by
  obtain ⟨_, _, _, rfl⟩ := h
  rfl

theorem State.consulted.withCores (h : s.issued.consulted v) (cs : Table Core) :
    ({ s with cores := cs } : State).issued.consulted { v with cores := cs } := by
  obtain ⟨_, _, _, rfl⟩ := h
  exact ⟨_, _, _, rfl⟩

/-- A `bind` that has entered its handler and moved the held envelopes gives its status. -/
theorem asks_bound (h : s.issued.consulted v) {w : State} (hw : w = { v with cores := w.cores }) (d : GReg) (r : Res) :
    let t := w.bindReply d r
    t.net = s.net ++ [.reply s.me.taskId (.g d) r none none] ∧ s.me.sameRegsBut t.me d ∧ s.me.wentOn t.me ∧ s.sameBytes t ∧
      t.cores = w.cores := by
  have hc := h.withCores w.cores
  rw [← hw] at hc
  have bytes : s.sameBytes { s with cores := w.cores } := State.sameBytes_of_mem rfl
  obtain ⟨net, regs, on, same, cores⟩ := asks_bindReply d r hc
  exact ⟨net, regs, on, fun p => (same p).trans (bytes p), cores⟩

theorem State.me_retG_setCore (s : State) (c : Nat) (x : Core) (d : GReg) (r : Word) : ((s.issued.setCore c x).retG d r).me = (s.gives d r).me := by
  rw [State.retG, State.me_updMe, State.me_gives]
  exact congrArg (fun f => (Frame.wrG f d r).advance) s.me_issued

theorem State.core_retG_setCore (s : State) (c : Nat) (x : Core) (d : GReg) (r : Word) : ((s.issued.setCore c x).retG d r).core c = x :=
  s.issued.core_setCore c x

theorem exec_unbind_eq {d a : GReg} {ka : Bool} (hgo : s.goes [.g a ka]) {cls : BitVec 4} (hc : (s.me.rdG a).extractLsb' 0 4 = cls)
    {x : Core} (hx : s.core s.myCore = x) : exec (.unbind d a ka) s = .next ((s.issued.setCore s.myCore
      { x with handlers := Tab.put x.handlers cls.toNat { x.handler cls with bound := false } }).retG d (Alu.bit (x.handler cls).bound)) := by
  subst hc hx
  rw [exec_issue hgo rfl]
  simp only [State.rdG_issued, State.myCore_issued]
  rfl

theorem exec_clsmask_eq {d a b : GReg} {ka kb : Bool} (hgo : s.goes [.g a ka, .g b kb]) {x : Core} (hx : s.core s.myCore = x) :
    exec (.clsmask d a b ka kb) s = .next ((s.issued.setCore s.myCore
      { x with mask := (x.mask &&& ~~~(s.me.rdG a).setWidth 16) ||| (s.me.rdG b).setWidth 16 }).retG d (x.mask.setWidth 64)) := by
  subst hx
  rw [exec_issue hgo rfl]
  simp only [State.rdG_issued, State.myCore_issued]
  rfl

/-- Settles O28: what each form does to the table, by `handler_setCore`. -/
theorem handlerTable : Obligations.HandlerTable := by
  unfold Obligations.HandlerTable
  intro s u v d a b ka kb p bs ps A B addr tm use c x cls got
  refine ⟨fun hgo ha => ⟨fun h => ?unaligned, fun h ht hb hv hr hok hp => ?binds⟩, fun hgo => ?unbind, fun hgo => ?mask⟩
  case unaligned => exact ⟨_, exec_bind_unaligned hgo ha h, asks_bindReply d (.ok 2) (.refl _)⟩
  case binds =>
    have hcv : s.issued.consulted v := .trans (.target ht) (by
      have targets := State.consulted.targets use ((List.range tm.npre.toNat).map fun i =>
        (i, addr + tm.preoff.setWidth 64 + BitVec.ofNat 64 (16 * i))) u
      rwa [hv] at targets)
    have job : v.me.job = s.me.job := by rw [hcv.me, State.job_issued]
    have core : v.core c = x := congrArg (fun l => Tab.get l c Core.reset) hcv.cores
    let w := v.bindAt c (B.extractLsb' 2 4) (v.boundAs s.me.job A (B.extractLsb' 0 2) addr tm ps) (B.extractLsb' 0 2).toNat
    have binds := State.bindWith_binds job hr hok hp d A (B.extractLsb' 2 4) (B.extractLsb' 0 2) addr
    rw [State.myCore_consulted hcv] at binds
    obtain ⟨net, regs, on, bytes, cores⟩ := asks_bound (w := w) hcv (v.bindAt_only ..) d (.ok 0)
    have handler (k : BitVec 4) : ((w.bindReply d (.ok 0)).core c).handler k =
        if k = B.extractLsb' 2 4 then v.boundAs s.me.job A (B.extractLsb' 0 2) addr tm ps else x.handler k := by
      rw [State.core, cores, ← core]
      exact v.bindAt_handler ..
    exact ⟨_, (exec_bind_read hgo ha h ht hb hv hr).trans (congrArg _ binds), net, (handler _).trans (if_pos rfl),
      fun k hk => (handler k).trans (if_neg hk), regs, on, bytes⟩
  case unbind =>
    refine ⟨_, exec_unbind_eq hgo rfl rfl, State.me_retG_setCore .., ?_, fun k hk => ?_, State.sameBytes_of_mem rfl⟩
    · rw [State.core_retG_setCore, Core.handler_put, if_pos rfl]
    · rw [State.core_retG_setCore, Core.handler_put, if_neg hk]
  case mask =>
    refine ⟨_, exec_clsmask_eq hgo rfl, State.me_retG_setCore .., fun n hn => ?_, State.sameBytes_of_mem rfl⟩
    rw [State.core_retG_setCore]
    simp [hn, A, B, x, c]

end Sys2Proof.Machine
end

section
/-! # O47: activation, aging and stealing (R142–R152)

Two things are followed through an activation. The queue: filling the inbox and the spill area moves envelopes between
stores and changes nothing else (`requeued`), so an envelope that left stays out (`Core.lacks`). The frame: its registers
are one list of writes onto a blank frame (`activated_eq`), and the registers written are distinct (`activationWrites_nodup`). -/

namespace Sys2Proof.Machine
variable {s t u : State} {c : Nat} {q : QEnv}

/-! ### Envelopes move between the stores of their core (R135, R141) -/

/-- The envelope q is not in the queue. -/
def Core.lacks (x : Core) (q : QEnv) : Prop := ∀ y ∈ x.queue, ¬(y.arrival = q.arrival ∧ y.env = q.env)

/-- Between s and t only the stores of queued envelopes differ. -/
structure State.requeued (s t : State) : Prop where
  only : t = { s with cores := t.cores }
  core : ∀ a, t.core a = { s.core a with queue := (t.core a).queue }
  queue : ∀ a, ∀ y ∈ (t.core a).queue, ∃ z ∈ (s.core a).queue, z.arrival = y.arrival ∧ z.env = y.env

namespace State.requeued

theorem refl (s : State) : s.requeued s := ⟨rfl, fun _ => rfl, fun _ y hy => ⟨y, hy, rfl, rfl⟩⟩

theorem trans (h : s.requeued t) (h' : t.requeued u) : s.requeued u where
  only := by rw [h'.only, h.only]
  core a := by rw [h'.core, h.core]
  queue a y hy := by
    obtain ⟨z, hz, arrival, env⟩ := h'.queue a y hy
    obtain ⟨w, hw, arrival', env'⟩ := h.queue a z hz
    exact ⟨w, hw, arrival'.trans arrival, env'.trans env⟩

theorem restore (s : State) (c : Nat) (e : QEnv) (st : Stored) : s.requeued (s.setCore c ((s.core c).restore e st)) where
  only := rfl
  core a := by
    by_cases h : a = c
    · rw [h, State.core_setCore, Core.restore]
    · rw [State.core_setCore_ne _ _ h]
  queue a y hy := by
    by_cases h : a = c
    · rw [h] at hy ⊢
      rw [State.core_setCore] at hy
      obtain ⟨z, hz, rfl⟩ := List.mem_map.mp hy
      refine ⟨z, hz, ?_⟩
      split <;> exact ⟨rfl, rfl⟩
    · rw [State.core_setCore_ne _ _ h] at hy
      exact ⟨y, hy, rfl, rfl⟩

theorem inboxFill (c n : Nat) (s : State) : s.requeued (s.inboxFill c n) := by
  induction n generalizing s with
  | zero => exact .refl s
  | succ n ih =>
    rw [State.inboxFill]
    split
    · split
      · exact .trans (.restore s c _ _) (ih _)
      · exact .refl s
    · exact .refl s

theorem spillFill (c n : Nat) (s : State) : s.requeued (s.spillFill c n) := by
  induction n generalizing s with
  | zero => exact .refl s
  | succ n ih =>
    rw [State.spillFill]
    split
    · split
      · exact .trans (.restore s c _ _) (ih _)
      · exact .refl s
    · exact .refl s

theorem refill (s : State) (c : Nat) : s.requeued (s.refill c) :=
  List.foldlRecOn (List.range 32) _ (.inboxFill c _ s) fun _ ht _ _ => .trans ht (.spillFill _ _ _)

theorem lacks (h : s.requeued t) {a : Nat} (hl : (s.core a).lacks q) : (t.core a).lacks q := fun y hy => by
  obtain ⟨z, hz, arrival, env⟩ := h.queue a y hy
  rw [← arrival, ← env]
  exact hl z hz

theorem frames (h : s.requeued t) : t.frames = s.frames := by rw [h.only]
theorem net (h : s.requeued t) : t.net = s.net := by rw [h.only]

end State.requeued

theorem Core.lacks_without (x : Core) (q : QEnv) : (x.without q).lacks q := fun y hy => by
  have := (List.mem_filter.mp hy).2
  intro ⟨arrival, env⟩
  simp [arrival, env] at this

/-- An envelope that leaves a core is out of its queue. -/
theorem State.core_unqueue (s : State) (c : Nat) (q : QEnv) : ∃ i, (s.unqueue c q).core c = { (s.core c).without q with idleAt := i } :=
  ⟨_, State.core_setCore ..⟩

theorem State.unqueue_lacks (s : State) (c : Nat) (q : QEnv) : ((s.unqueue c q).core c).lacks q := by
  obtain ⟨i, h⟩ := s.core_unqueue c q
  rw [h]
  exact (s.core c).lacks_without q

theorem State.rouse_lacks {c a : Nat} (h : (s.core a).lacks q) : ((s.rouse c).core a).lacks q := by
  obtain ⟨g, i, hc⟩ := s.core_rouse c a
  rw [hc]
  exact h

/-! ### Writing a list of registers -/

/-- General registers written one after the other. -/
def Frame.wrGs (f : Frame) (l : List (GReg × Word)) : Frame := l.foldl (fun f p => f.wrG p.1 p.2) f

theorem Frame.wrGs_eq (l : List (GReg × Word)) (f : Frame) :
    f.wrGs l = { f with g := (f.wrGs l).g, gFull := (f.wrGs l).gFull, gPoison := (f.wrGs l).gPoison } := by
  induction l generalizing f with
  | nil => rfl
  | cons p l ih =>
    rw [Frame.wrGs, List.foldl_cons, ← Frame.wrGs, ih, Frame.wrG_eq]

/-- The register reads w, full and not poisoned. -/
def Frame.holds (f : Frame) (r : GReg) (w : Word) : Prop :=
  f.rdG r = w ∧ f.gFull.getLsbD r.toNat = true ∧ f.gPoison.getLsbD r.toNat = false

theorem Frame.genReg_wrGs (l : List (GReg × Word)) (f : Frame) {r : GReg} (h : r ∉ l.map Prod.fst) : (f.wrGs l).genReg r = f.genReg r := by
  induction l generalizing f with
  | nil => rfl
  | cons p l ih =>
    rw [List.map_cons, List.mem_cons, not_or] at h
    exact (ih _ h.2).trans (f.genReg_wrG_ne p.2 h.1)

theorem Frame.holds_of_genReg {f g : Frame} {r : GReg} {w : Word} (h : g.genReg r = f.genReg r) (hf : f.holds r w) : g.holds r w := by
  simp only [Frame.genReg, Prod.mk.injEq] at h
  obtain ⟨value, full, poison, -⟩ := h
  exact ⟨value.trans hf.1, full.trans hf.2.1, poison.trans hf.2.2⟩

theorem Frame.holds_wrG (f : Frame) {r : GReg} (w : Word) (h : r ≠ 0) : (f.wrG r w).holds r w :=
  ⟨by rw [f.rdG_wrG, if_neg h], f.gFull_wrG r w h, f.gPoison_wrG r w h⟩

/-- Of distinct registers, each holds in the end what is written to it. -/
theorem Frame.holds_wrGs {l : List (GReg × Word)} (f : Frame) {p : GReg × Word} (hn : (l.map Prod.fst).Nodup) (hp : p ∈ l) (h0 : p.1 ≠ 0) :
    (f.wrGs l).holds p.1 p.2 := by
  induction l generalizing f with
  | nil => cases hp
  | cons o l ih =>
    rw [List.map_cons, List.nodup_cons] at hn
    obtain rfl | hl := List.mem_cons.mp hp
    · exact Frame.holds_of_genReg (Frame.genReg_wrGs l _ hn.1) (f.holds_wrG p.2 h0)
    · exact ih _ hn.2 hl

/-! ### The frame of an activation (R29, R139, R145) -/

/-- The writes that an activation makes to the general registers of its frame (R139, R145). -/
def activationWrites (e : Env) (presets : List (Nat × Word)) : List (GReg × Word) :=
  presets.map (fun p => (BitVec.ofNat 6 p.1, p.2)) ++
    (1, e.w1) :: ((List.range 6).map fun i => (BitVec.ofNat 6 (i + 2), (e.pl[i]?).getD 0)) ++ [(8, e.hdr)]

/-- Bits of the vector elements whose registers a template leaves empty (R27). -/
def Template.emptyBits (t : Template) : BitVec 256 :=
  (List.range 32).foldl (fun x n => if t.vempty.getLsbD n then x ||| (0xFF#256 <<< (8 * n)) else x) 0#256

/-- The frame of an activation before its registers are written. -/
def Frame.readied (f : Frame) (o : Origin) (e : Env) (h : Handler) (svc : Bool) (seed cycle : Nat) : Frame :=
  { Frame.reset with
    state := .ready, gen := f.gen, cls := e.cls, prio := h.prio, job := e.job, curPrio := h.prio.toNat,
    gFull := ~~~h.tmpl.gempty, gLive := h.tmpl.glive, vFull := ~~~h.tmpl.emptyBits, vLive := h.tmpl.vlive,
    mFull := ~~~h.tmpl.mempty, mLive := h.tmpl.mlive, pc := h.entry, tstat := if svc then at64 1 62 else 0,
    origin := o, undef := seed + 1, since := cycle, entry := h.entry, started := cycle }

theorem Frame.activated_eq (f : Frame) (o : Origin) (e : Env) (h : Handler) (svc : Bool) (seed cycle : Nat) (ps : List (Nat × Word)) :
    f.activated o e h svc seed cycle ps = (f.readied o e h svc seed cycle).wrGs (activationWrites e ps) := by
  simp only [Frame.wrGs, activationWrites, List.foldl_append, List.foldl_cons, List.foldl_map, List.foldl_nil]
  rfl

theorem getLsbD_foldBytes (b : Nat → Bool) (l : List Nat) (x : BitVec 256) {r e : Nat} (hr : r < 32) (he : e < 8) :
    (l.foldl (fun x n => if b n then x ||| (0xFF#256 <<< (8 * n)) else x) x).getLsbD (8 * r + e) =
      (x.getLsbD (8 * r + e) || l.any fun n => decide (r = n) && b n) := by
  have byte (n : Nat) : (0xFF#256 <<< (8 * n)).getLsbD (8 * r + e) = decide (r = n) := by
    have h := getLsbD_elemByte 0xFF n hr he
    rw [show (0xFF : Byte).getLsbD e = true by interval_cases e <;> rfl, Bool.and_true] at h
    exact h
  induction l generalizing x with
  | nil => rw [List.foldl_nil, List.any_nil, Bool.or_false]
  | cons n l ih =>
    rw [List.foldl_cons, ih, List.any_cons, ← Bool.or_assoc]
    congr 1
    cases b n with
    | false => rw [if_neg Bool.false_ne_true, Bool.and_false, Bool.or_false]
    | true => rw [if_pos rfl, BitVec.getLsbD_or, byte, Bool.and_true]

theorem Template.getLsbD_emptyBits (t : Template) {r e : Nat} (hr : r < 32) (he : e < 8) :
    t.emptyBits.getLsbD (8 * r + e) = t.vempty.getLsbD r := by
  rw [Template.emptyBits, getLsbD_foldBytes t.vempty.getLsbD _ 0#256 hr he, BitVec.getLsbD_zero, Bool.false_or, Bool.eq_iff_iff, List.any_eq_true]
  constructor
  · rintro ⟨n, -, h⟩
    obtain ⟨rfl, h⟩ := by simpa using h
    exact h
  · exact fun h => ⟨r, List.mem_range.mpr hr, by simp [h]⟩

theorem Handler.presetsNow_keys (h : Handler) (seed : Nat) (read : List (Nat × Word)) :
    (h.presetsNow seed read).map (·.1) = h.presets.map (·.1) := by
  unfold Handler.presetsNow
  split
  · rfl
  · rw [List.map_map]
    rfl

theorem Handler.presetsNow_same (h : Handler) (seed : Nat) : h.presetsNow seed h.presets = h.presets := if_pos rfl

theorem mem_keys_activationWrites {e : Env} {ps : List (Nat × Word)} {r : GReg} :
    r ∈ (activationWrites e ps).map Prod.fst ↔ (∃ p ∈ ps, BitVec.ofNat 6 p.1 = r) ∨ r ∈ [1, 2, 3, 4, 5, 6, 7, (8 : GReg)] := by
  rw [activationWrites, List.append_assoc, List.map_append, List.mem_append, List.map_map, List.mem_map]
  exact Iff.rfl

/-- The registers that an activation writes are distinct where its presets name distinct registers from 9 on. -/
theorem activationWrites_nodup (e : Env) {ps : List (Nat × Word)} (hn : (ps.map (·.1)).Nodup) (hr : ∀ r ∈ ps.map (·.1), 9 ≤ r ∧ r ≤ 63) :
    ((activationWrites e ps).map Prod.fst).Nodup := by
  have own : [1, 2, 3, 4, 5, 6, 7, (8 : GReg)].Nodup := by decide
  have toNat : ∀ p ∈ ps, (BitVec.ofNat 6 p.1).toNat = p.1 := fun p hp => by
    rw [BitVec.toNat_ofNat, Nat.mod_eq_of_lt]
    have := hr p.1 (List.mem_map_of_mem hp)
    omega
  rw [activationWrites, List.append_assoc, List.map_append, List.map_map]
  refine List.Nodup.append ?_ own ?_
  · refine List.Nodup.of_map BitVec.toNat ?_
    rw [List.map_map, List.map_congr_left (g := (·.1)) toNat]
    exact hn
  · intro r hr' hown
    obtain ⟨p, hp, rfl⟩ := List.mem_map.mp hr'
    have low : ∀ r ∈ [1, 2, 3, 4, 5, 6, 7, (8 : GReg)], r.toNat ≤ 8 := by decide
    have := low _ hown
    have := toNat p hp
    have := hr p.1 (List.mem_map_of_mem hp)
    simp only [Function.comp_apply] at *
    omega

/-- The task knows the writes k, and keeps no release (R132, R232, R364). -/
def Frame.knowing (f : Frame) (k : List Nat) : Frame := { f with knows := k, rels := [] }

@[simp] theorem Frame.knows_knowing (f : Frame) (k : List Nat) : (f.knowing k).knows = k := rfl
@[simp] theorem Frame.gFull_knowing (f : Frame) (k : List Nat) : (f.knowing k).gFull = f.gFull := rfl
theorem Frame.holds_knowing {f : Frame} {k : List Nat} {r : GReg} {w : Word} : (f.knowing k).holds r w ↔ f.holds r w := Iff.rfl

/-- The frame as the handler and the envelope make it, but for its general registers (R29, R145). -/
structure Frame.readyFor (g f : Frame) (e : Env) (h : Handler) (svc : Bool) : Prop where
  state : g.state = .ready
  gen : g.gen = f.gen
  pc : g.pc = h.entry
  cls : g.cls = e.cls
  prio : g.prio = h.prio
  job : g.job = e.job
  tstat : g.tstat = if svc then at64 1 62 else 0
  fcsr : g.fcsr = 0
  counters : ∀ r, g.rdC r = 0
  gLive : g.gLive = h.tmpl.glive
  vLive : g.vLive = h.tmpl.vlive
  mLive : g.mLive = h.tmpl.mlive
  vFull : g.vFull = ~~~h.tmpl.emptyBits
  mFull : g.mFull = ~~~h.tmpl.mempty

theorem Frame.activated_readyFor (f : Frame) (o : Origin) (e : Env) (h : Handler) (svc : Bool) (seed cycle : Nat) (ps : List (Nat × Word))
    (k : List Nat) : ((f.activated o e h svc seed cycle ps).knowing k).readyFor f e h svc := by
  rw [Frame.activated_eq, Frame.wrGs_eq]
  constructor <;> intros <;> rfl

/-! ### What an activation leaves (R145) -/

theorem State.frame_fresh (s : State) (k : Nat) : s.fresh.frame k = s.frame k := rfl
theorem State.core_fresh (s : State) (c : Nat) : s.fresh.core c = s.core c := rfl
theorem State.frames_acquireAt (s : State) (c : Nat) (sc : Scope) : (s.acquireAt c sc).frames = s.frames := by cases sc <;> rfl
theorem State.cores_acquireAt (s : State) (c : Nat) (sc : Scope) : (s.acquireAt c sc).cores = s.cores := by cases sc <;> rfl

theorem State.breakpoint_eq (s : State) (f : Frame) : ∃ d, s.breakpoint f = { s with dbg := d } := by
  unfold State.breakpoint
  split
  · exact ⟨s.dbg, rfl⟩
  · split_ifs <;> exact ⟨_, rfl⟩

/-- The frame is filled, the envelope leaves, its core wakes and its stores move up. -/
def State.fill (w : State) (c k : Nat) (q : QEnv) (g : Frame) : State :=
  (((((w.setFrame k g).unqueue c q).rouse c).refill c).trace 1 c g 0 q.env.hdr).breakpoint g

theorem State.fill_requeues (w : State) (c k : Nat) (q : QEnv) (g : Frame) :
    ∃ v : State, (((w.setFrame k g).unqueue c q).rouse c).requeued v ∧ ∃ e d, w.fill c k q g = { v with clk := e, dbg := d } := by
  obtain ⟨e, d, ht⟩ := ((((w.setFrame k g).unqueue c q).rouse c).refill c).trace_eq 1 c g 0 q.env.hdr
  obtain ⟨d', hb⟩ := State.breakpoint_eq ((((((w.setFrame k g).unqueue c q).rouse c).refill c).trace 1 c g 0 q.env.hdr)) g
  exact ⟨_, .refill _ c, e, d', by rw [State.fill, hb, ht]⟩

theorem State.frames_fill (w : State) (c k : Nat) (q : QEnv) (g : Frame) : (w.fill c k q g).frames = (w.setFrame k g).frames := by
  obtain ⟨v, hv, e, d, h⟩ := w.fill_requeues c k q g
  rw [h]
  exact hv.frames.trans (State.frames_rouse ..)

theorem State.fill_lacks (w : State) (c k : Nat) (q : QEnv) (g : Frame) : ((w.fill c k q g).core c).lacks q := by
  obtain ⟨v, hv, e, d, h⟩ := w.fill_requeues c k q g
  rw [h]
  exact hv.lacks (State.rouse_lacks ((w.setFrame k g).unqueue_lacks c q))

/-- What a release that covers the core carries to it (R132, R364). -/
def State.known (s : State) (e : Env) (c : Nat) : List Nat := if (s.relCovers e c).isSome then e.knows else []

/-- An activation without a row fills its frame with the task, which knows what a covering release carries (R132, R145). -/
theorem State.activateIn_eq (s : State) (c n : Nat) {q : QEnv} (h : Handler) (ps : List (Nat × Word)) (hrow : q.env.row = none) :
    ∃ (w : State) (o : Origin) (seed cycle : Nat), w.frames = s.frames ∧ s.activateIn c n q h ps = w.fill c (c * 256 + n) q
      (((s.frame (c * 256 + n)).activated o q.env h (decide (coreNo c = 31)) seed cycle ps).knowing (s.known q.env c)) := by
  rw [State.activateIn]
  simp only [hrow]
  refine ⟨_, _, _, _, ?_, rfl⟩
  split
  · exact State.frames_acquireAt ..
  · rfl

/-- The frames after an activation: the new task's, and the others as they were. -/
theorem State.frame_fill {w : State} (hw : w.frames = s.frames) (c k : Nat) (q : QEnv) (g : Frame) (j : Nat) :
    (w.fill c k q g).frame j = if j = k then g else s.frame j := by
  have h : (w.fill c k q g).frame j = (w.setFrame k g).frame j := congrArg (Tab.get · j Frame.reset) (w.frames_fill c k q g)
  rw [h]
  split
  · next hj => rw [hj, State.frame_setFrame]
  · next hj => rw [State.frame_setFrame_ne _ _ hj, State.frame, hw, State.frame]

/-- The frames after an activation, and the queue, which the envelope has left. -/
theorem State.activateIn_leaves (s : State) (c n : Nat) {q : QEnv} (h : Handler) (ps : List (Nat × Word)) (hrow : q.env.row = none) :
    ∃ o seed cycle, ((s.activateIn c n q h ps).core c).lacks q ∧ ∀ j, (s.activateIn c n q h ps).frame j = if j = c * 256 + n then
      ((s.frame j).activated o q.env h (decide (coreNo c = 31)) seed cycle ps).knowing (s.known q.env c) else s.frame j := by
  obtain ⟨w, o, seed, cycle, hw, heq⟩ := s.activateIn_eq c n h ps hrow
  rw [heq]
  refine ⟨o, seed, cycle, w.fill_lacks c _ q _, fun j => (State.frame_fill hw c _ q _ j).trans ?_⟩
  split
  · next hj => rw [hj]
  · rfl

theorem State.known_unreleased (s : State) (c : Nat) {e : Env} (h : e.rel = none) : s.known e c = [] := by
  rw [State.known, State.relCovers, h]
  rfl

theorem State.known_domain (s : State) (c : Nat) {e : Env} (h : e.rel = some .domain) : s.known e c = e.knows := by
  rw [State.known, State.relCovers, h]
  rfl

theorem State.activate_bound {n : Nat} {ps : List (Nat × Word)} (hfatal : s.pwr.fatal = false) (hnext : s.nextEnv c = some q)
    {h : Handler} (hh : (s.core c).handler q.env.cls = h) (hbound : h.bound = true)
    (hframe : (if h.tmpl.pinned then some h.tmpl.pinFrame else s.lowestFree c) = some n)
    (hread : s.readPresets c q.env.job ((List.range h.tmpl.npre.toNat).map fun i =>
      h.taddr + h.tmpl.preoff.setWidth 64 + BitVec.ofNat 64 (16 * i)) = (u, .inl ps)) :
    s.activate c = (u.activateIn c n q h (h.presetsNow u.clk.free ps)).fresh := by
  subst hh
  rw [State.activate, hfatal, if_neg Bool.false_ne_true, hnext]
  simp only [hbound, hframe, hread, Bool.not_true, Bool.false_eq_true, if_false]

theorem State.activate_unbound (hfatal : s.pwr.fatal = false) (hnext : s.nextEnv c = some q)
    (hunbound : ((s.core c).handler q.env.cls).bound = false) (hroom : ((s.core c).without q).heldPlaces < 16) :
    s.activate c = ((s.unqueue c q).setCore c { (s.unqueue c q).core c with
      held := ((s.unqueue c q).core c).held ++ [{ q with stored := .held }] }).refill c := by
  obtain ⟨i, hcore⟩ := s.core_unqueue c q
  have hroom : ((s.unqueue c q).core c).heldPlaces < 16 := by rw [hcore]; exact hroom
  rw [State.activate, hfatal, if_neg Bool.false_ne_true, hnext]
  simp only [hunbound, Bool.not_false, if_true]
  rw [if_pos hroom]

/-- An activated frame: the registers written hold their values, the others are as the template says (R139, R145). -/
theorem Frame.holds_activated (f : Frame) (o : Origin) {e : Env} {h : Handler} (svc : Bool) (seed cycle : Nat) {ps : List (Nat × Word)}
    (hn : (ps.map (·.1)).Nodup) (hr : ∀ r ∈ ps.map (·.1), 9 ≤ r ∧ r ≤ 63) {p : GReg × Word} (hp : p ∈ activationWrites e ps) :
    (f.activated o e h svc seed cycle ps).holds p.1 p.2 := by
  rw [Frame.activated_eq]
  refine Frame.holds_wrGs _ (activationWrites_nodup e hn hr) hp fun h0 => ?_
  rcases mem_keys_activationWrites.mp (List.mem_map_of_mem hp) with ⟨o, ho, hk⟩ | hk
  · have := congrArg BitVec.toNat (hk.trans h0)
    have := hr o.1 (List.mem_map_of_mem ho)
    rw [BitVec.toNat_ofNat, Nat.mod_eq_of_lt (by omega)] at *
    simp at *
    omega
  · rw [h0] at hk
    revert hk
    decide

theorem Frame.gFull_activated (f : Frame) (o : Origin) (e : Env) (h : Handler) (svc : Bool) (seed cycle : Nat) {ps : List (Nat × Word)}
    {r : GReg} (h8 : 8 < r.toNat) (hps : r.toNat ∉ ps.map (·.1)) (hr : ∀ r ∈ ps.map (·.1), r ≤ 63) :
    (f.activated o e h svc seed cycle ps).gFull.getLsbD r.toNat = !h.tmpl.gempty.getLsbD r.toNat := by
  have keep : r ∉ (activationWrites e ps).map Prod.fst := by
    rw [mem_keys_activationWrites]
    rintro (⟨p, hp, rfl⟩ | hk)
    · have hp := List.mem_map_of_mem (f := (·.1)) hp
      rw [BitVec.toNat_ofNat, Nat.mod_eq_of_lt (by have := hr _ hp; omega)] at hps
      exact hps hp
    · have low : ∀ r ∈ [1, 2, 3, 4, 5, 6, 7, (8 : GReg)], r.toNat ≤ 8 := by decide
      have := low r hk
      omega
  have := Frame.genReg_wrGs _ (f.readied o e h svc seed cycle) keep
  simp only [Frame.genReg, Prod.mk.injEq] at this
  rw [Frame.activated_eq, this.2.1, Frame.readied, BitVec.getLsbD_not, decide_eq_true r.isLt, Bool.true_and]

/-! ### Stealing (R151, R152) -/

theorem State.agingStopped_rouse (s : State) (c : Nat) (j : BitVec 12) : (s.rouse c).agingStopped j = s.agingStopped j := by
  rw [State.rouse_only]
  rfl

theorem State.tailEnv_rouse (s : State) (v : Nat) (m : BitVec 16) (j : BitVec 12) : (s.rouse v).tailEnv v m j = s.tailEnv v m j := by
  obtain ⟨g, i, hc⟩ := s.core_rouse v v
  have st : (s.rouse v).stealable v m j = s.stealable v m j := by
    funext q
    simp only [State.stealable, State.frame, State.frames_rouse, hc]
    rfl
  rw [State.tailEnv, st, hc]
  rfl

theorem State.stealStep_given {n k v : Nat} {m : BitVec 16} {j : BitVec 12} (hmsg : s.net[n]? = some (.stealReq k v m j)) (hgo : s.agingStopped j = false)
    (htail : s.tailEnv v m j = some q) :
    s.stealStep n = (((s.rouse v).unqueue v q).refill v).swapMsg n
      (.stealAns k (some { q.env with hdr := hdrTo q.env.hdr s.chip.chipNo k, stolen := some q.prio })) := by
  rw [State.stealStep, hmsg]
  simp only [State.agingStopped_rouse, hgo, State.tailEnv_rouse, htail, State.chip_rouse, Bool.false_eq_true, if_false]

theorem State.stealStep_kept {n k v : Nat} {m : BitVec 16} {j : BitVec 12} (hmsg : s.net[n]? = some (.stealReq k v m j)) (hgo : s.agingStopped j = false)
    (htail : s.tailEnv v m j = none) : s.stealStep n = (s.rouse v).swapMsg n (.stealAns k none) := by
  rw [State.stealStep, hmsg]
  simp only [State.agingStopped_rouse, hgo, State.tailEnv_rouse, htail, Bool.false_eq_true, if_false]

theorem State.stealStep_suspended {n k v : Nat} {m : BitVec 16} {j : BitVec 12} (hmsg : s.net[n]? = some (.stealReq k v m j)) (hstop : s.agingStopped j = true) :
    s.stealStep n = s.rouse v := by
  rw [State.stealStep, hmsg]
  simp only [State.agingStopped_rouse, hstop, if_true]

theorem State.core_swapMsg (s : State) (n : Nat) (m : Msg) (c : Nat) : (s.swapMsg n m).core c = s.core c := rfl

/-- A stolen envelope has left its victim; the answer carries it (R152). -/
theorem State.stealStep_gives {n k v : Nat} {m : BitVec 16} {j : BitVec 12} (hmsg : s.net[n]? = some (.stealReq k v m j)) (hgo : s.agingStopped j = false)
    (htail : s.tailEnv v m j = some q) :
    (s.stealStep n).net = setAt s.net n (.stealAns k (some { q.env with hdr := hdrTo q.env.hdr s.chip.chipNo k, stolen := some q.prio })) ∧
      ((s.stealStep n).core v).lacks q := by
  have hr := State.requeued.refill ((s.rouse v).unqueue v q) v
  have hnet : (((s.rouse v).unqueue v q).refill v).net = s.net := hr.net.trans (State.net_rouse ..)
  rw [State.stealStep_given hmsg hgo htail]
  have hl := hr.lacks (State.unqueue_lacks (s.rouse v) v q)
  refine ⟨by rw [State.swapMsg, hnet], ?_⟩
  rw [State.core_swapMsg]
  exact hl

end Sys2Proof.Machine
end

section
namespace Sys2Proof.Machine

/-- Settles O47: a clause follows its turn; the frame and the queue of an activation by `activateIn_eq`. -/
theorem activations : Obligations.Activations := by
  unfold Obligations.Activations
  intro s u c i v n k q ps j mask e x h t' base
  refine ⟨fun hfatal hnext hbound hframe hread hn hr hrow => ?_, fun hfatal hnext hunbound hroom => ?_, fun hq hp hage hgo => ?_,
    fun hj hv hc hv' hne hdom hidle hgate hout hat hgo => ?_, fun hmsg => ⟨fun hgo htail => ?_, fun hgo htail => ?_, fun hstop => ?_⟩,
    fun hmsg => ?_, fun hmsg => ?_⟩
  · obtain ⟨o, seed, cycle, lacks, frame⟩ := u.activateIn_leaves c n h (h.presetsNow u.clk.free ps) hrow
    refine ⟨_, congrArg Host.Outcome.next (State.activate_bound hfatal hnext rfl hbound hframe hread), ?_⟩
    beta_reduce
    intro g full
    have hg : g = ((u.frame (c * 256 + n)).activated o q.env h (decide (coreNo c = 31)) seed cycle (h.presetsNow u.clk.free ps)).knowing
        (u.known q.env c) := by
      show State.frame (State.fresh _) _ = _
      rw [State.frame_fresh, frame, if_pos rfl]
    clear_value g
    have made : g.readyFor (u.frame (c * 256 + n)) q.env h (decide (coreNo c = 31)) := hg ▸ Frame.activated_readyFor ..
    have keys := h.presetsNow_keys u.clk.free ps
    have bounds : ∀ r ∈ (h.presetsNow u.clk.free ps).map (·.1), 9 ≤ r ∧ r ≤ 63 := by
      rw [keys]
      exact List.forall_mem_map.mpr hr
    have write (p : GReg × Word) (hp : p ∈ activationWrites q.env (h.presetsNow u.clk.free ps)) : full p.1 p.2 := by
      show g.holds p.1 p.2
      rw [hg, Frame.holds_knowing]
      exact Frame.holds_activated _ _ _ _ _ (by rwa [keys]) bounds hp
    have preset (p : Nat × Word) (hp : p ∈ h.presetsNow u.clk.free ps) : full (BitVec.ofNat 6 p.1) p.2 :=
      write (BitVec.ofNat 6 p.1, p.2) (List.mem_append_left _ (List.mem_append_left _ (List.mem_map_of_mem hp)))
    have knows : g.knows = u.known q.env c := by
      rw [hg, Frame.knows_knowing]
    refine ⟨made.state, made.gen, made.pc, made.cls, made.prio, made.job, made.tstat.trans (by simp only [decide_eq_true_eq]; rfl), made.fcsr,
      made.counters, fun hn => knows.trans (u.known_unreleased c hn), fun hd => knows.trans (u.known_domain c hd),
      write (1, q.env.w1) (by simp [activationWrites]), write (8, q.env.hdr) (by simp [activationWrites]),
      fun i hi => write (BitVec.ofNat 6 (i + 2), (q.env.pl[i]?).getD 0) ?_, ?_, fun p hp => ?_, made.gLive, made.vLive, made.mLive,
      fun r h8 hps => ?_, fun r e he => ?_, fun r => ?_, ?_, fun j hj => by rw [State.frame_fresh, frame, if_neg hj]⟩
    · exact List.mem_append_left _ (List.mem_append_right _ (List.mem_cons_of_mem _ (List.mem_map_of_mem (List.mem_range.mpr hi))))
    · rintro rfl p hp
      exact preset p (by rwa [h.presetsNow_same])
    · have hk : p.1 ∈ (h.presetsNow u.clk.free ps).map (·.1) := keys ▸ List.mem_map_of_mem hp
      obtain ⟨o, ho, hk⟩ := List.mem_map.mp hk
      exact ⟨o.2, hk ▸ preset o ho⟩
    · rw [hg, Frame.gFull_knowing]
      refine Frame.gFull_activated _ _ _ _ _ _ _ h8 ?_ fun r hr => (bounds r hr).2
      rw [keys]
      exact fun hr => (List.mem_map.mp hr).elim fun p hp => hps p hp.1 hp.2
    · have hr := r.isLt
      rw [made.vFull, BitVec.getLsbD_not, Template.getLsbD_emptyBits _ hr he, decide_eq_true (by omega), Bool.true_and]
    · rw [made.mFull, BitVec.getLsbD_not, decide_eq_true r.isLt, Bool.true_and]
    · show Core.lacks (State.core (State.fresh _) c) q
      rwa [State.core_fresh]
  · refine ⟨_, congrArg Host.Outcome.next (State.activate_unbound hfatal hnext hunbound hroom), ?_⟩
    have hfill := State.requeued.refill ((s.unqueue c q).setCore c { (s.unqueue c q).core c with
      held := ((s.unqueue c q).core c).held ++ [{ q with stored := .held }] }) c
    obtain ⟨i, hcore⟩ := s.core_unqueue c q
    refine ⟨hfill.frames, ?_⟩
    rw [hfill.core, State.core_setCore, hcore]
    rfl
  · show Host.Outcome.next (match x.queue[i]? with | some q => _ | none => s) = _
    rw [hq]
    exact congrArg Host.Outcome.next (if_pos ⟨hp, hage, hgo⟩)
  · show Host.Outcome.next (s.stealRequest c v) = _
    rw [State.stealRequest, show (s.core c).job = some j from hj]
    exact congrArg Host.Outcome.next (if_pos ⟨hc, hv', hne, hv, hdom, hidle, by simpa using hgate, by simpa using hout, hat, hgo⟩)
  · exact ⟨_, rfl, State.stealStep_gives hmsg hgo htail⟩
  · exact congrArg Host.Outcome.next (State.stealStep_kept hmsg hgo htail)
  · exact congrArg Host.Outcome.next (State.stealStep_suspended hmsg hstop)
  · show Host.Outcome.next (s.stealStep n) = _
    rw [State.stealStep, hmsg]
  · show Host.Outcome.next (s.stealStep n) = _
    rw [State.stealStep, hmsg]

end Sys2Proof.Machine
end

section
/-! # O48: slots, aging, joins, instruction lines, moves and retirement of frames (R149–R178, R457–R464)

A frame that loses its slot or its host is followed through the operations that touch it: each has one lemma for the frame it
changes and one for the frames it leaves. -/

namespace Sys2Proof.Machine
variable {s t : State} {c k v : Nat}

/-! ### Slots (R165, R166) -/

theorem Tab.get?_tabulated {α : Type} (g : Nat → α) {l : List Nat} {n : Nat} (h : n ∈ l) : Tab.get? (l.map fun n => (n, g n)) n = some (g n) := by
  induction l with
  | nil => cases h
  | cons m l ih =>
    rw [List.map_cons, Tab.get?]
    split
    · next hm => rw [hm]
    · next hm => exact ih ((List.mem_cons.mp h).resolve_left (Ne.symm hm))

/-- Live and poisoned registers outlast a save (R166). -/
theorem Frame.genReg_saveLive (f : Frame) (seed : Nat) {r : GReg} (h : f.gLive.getLsbD r.toNat = true ∨ f.gPoison.getLsbD r.toNat = true) :
    (f.saveLive seed).genReg r = f.genReg r := by
  have value : (f.saveLive seed).rdG r = f.rdG r := by
    rw [Frame.rdG, Frame.rdG]
    split
    · rfl
    · next h0 =>
      have saved : r.toNat ∈ idxs 64 fun n => decide (n ≠ 0) && (f.gLive.getLsbD n || f.gPoison.getLsbD n) := by
        have : r.toNat ≠ 0 := fun e => h0 (BitVec.eq_of_toNat_eq e)
        exact List.mem_filter.mpr ⟨List.mem_range.mpr r.isLt, by simpa [this] using h⟩
      rw [Frame.rawG, Frame.saveLive, Tab.get?_tabulated f.rawG saved]
      rfl
  rw [Frame.genReg, value]
  rfl

theorem State.followsOn_unled (s : State) (k : Nat) (gone : Bool) {f : Frame} (h : f.follow = none) : s.followsOn k gone f = f := by
  rw [State.followsOn, h]

/-- A frame as it leaves its slot (R166, R147). -/
def Frame.evicted (f : Frame) (s : State) : Frame :=
  let goes := decide (f.state = .running) || decide (f.wait = .join)
  { (f.saveLive s.clk.free) with
    resident := false, follow := none, stream := [], state := if goes then .ready else f.state,
    wait := if goes then .none else f.wait, evictedAt := if goes then s.clk.cycle else f.evictedAt,
    since := if f.wait = .join then s.clk.cycle else f.since, yielded := false }

/-- An eviction changes the frame, and then its followers leave it. -/
theorem State.evict_eq (s : State) (v : Nat) :
    ∃ w : State, s.evict v = w.loseFollowers v false ∧ ∀ j, w.frame j = (s.setFrame v ((s.frame v).evicted s.fresh)).frame j :=
  ⟨_, rfl, fun _ => rfl⟩

theorem State.frame_evict (s : State) (v : Nat) : (s.evict v).frame v = (s.frame v).evicted s.fresh := by
  obtain ⟨w, h, hw⟩ := s.evict_eq v
  rw [h, State.frame_loseFollowers, hw, State.frame_setFrame, State.followsOn_unled _ _ _ rfl]

theorem State.frame_evict_ne (s : State) {v j : Nat} (hj : j ≠ v) (hf : (s.frame j).follow = none) : (s.evict v).frame j = s.frame j := by
  obtain ⟨w, h, hw⟩ := s.evict_eq v
  rw [h, State.frame_loseFollowers, hw, State.frame_setFrame_ne _ _ hj, State.followsOn_unled _ _ _ hf]

theorem Frame.evicted_state {f : Frame} (h : f.state = .running ∨ f.wait = .join) (s : State) :
    (f.evicted s).state = .ready ∧ (f.evicted s).wait = .none := by
  have goes : (decide (f.state = .running) || decide (f.wait = .join)) = true := by simpa using h
  exact ⟨if_pos goes, if_pos goes⟩

theorem Frame.evicted_stays {f : Frame} (h : ¬(f.state = .running ∨ f.wait = .join)) (s : State) :
    (f.evicted s).state = f.state ∧ (f.evicted s).wait = f.wait := by
  have stays : ¬(decide (f.state = .running) || decide (f.wait = .join)) = true := by simpa using h
  exact ⟨if_neg stays, if_neg stays⟩

theorem exec_frameResidency_evicts (hbest : s.bestReady c = some k) (hfull : slotsOf c ≤ (s.residents c).length)
    (hv : s.victim c (s.frame k).curPrio = some v) :
    exec (.frameResidency c) s = .next (((s.evict v).setFrame v { (s.evict v).frame v with transfer := some false }).loadSlot k) := by
  show Host.Outcome.next (s.residency c) = _
  rw [State.residency, hbest]
  simp only [if_neg (Nat.not_lt.mpr hfull), hv]

/-- A core without a free slot: the victim leaves for the best ready frame (R165, R166). -/
theorem residency_swaps (hbest : s.bestReady c = some k) (hfull : slotsOf c ≤ (s.residents c).length)
    (hv : s.victim c (s.frame k).curPrio = some v) (hne : v ≠ k) :
    yields (.frameResidency c) s fun t =>
      ((t.frame k).resident = true ∧ (t.frame k).transfer = some true) ∧
      t.frame v = { (s.frame v).evicted s.fresh with transfer := some false } ∧
      ∀ j, j ≠ k → j ≠ v → (s.frame j).follow = none → t.frame j = s.frame j := by
  refine ⟨_, exec_frameResidency_evicts hbest hfull hv, ?_, ?_, fun j hk hj hf => ?_⟩
  · rw [State.loadSlot, State.frame_setFrame]
    exact ⟨rfl, rfl⟩
  · rw [State.loadSlot, State.frame_setFrame_ne _ _ hne, State.frame_setFrame, State.frame_evict]
  · rw [State.loadSlot, State.frame_setFrame_ne _ _ hk, State.frame_setFrame_ne _ _ hj, State.frame_evict_ne _ hj hf]

/-! ### Instruction lines (R172) -/

/-- A cache that takes a line holds it. -/
theorem get?_putLine (t : Table CLine) (lo hi seed key : Nat) {size : Nat} (hs : 0 < size) (l : CLine) :
    Tab.get? (putLine t lo hi size seed key l) key = some l := by
  unfold putLine
  dsimp only
  split
  · exact Tab.get?_put_self ..
  · next hfull =>
    have pos : 0 < (t.filter fun p => decide (lo ≤ p.1) && decide (p.1 < hi) && decide (p.1 ≠ key)).length := by omega
    rw [List.getElem?_eq_getElem (Nat.mod_lt _ pos)]
    exact Tab.get?_put_self ..

theorem State.sameBytes_fillIc (s : State) (c pa : Nat) (l : CLine) : s.sameBytes (s.fillIc c pa l) := fun p => by cases p <;> rfl

theorem State.icache_fillIc (s : State) (c line : Nat) (l : CLine) :
    Tab.get? (s.fillIc c (64 * line) l).mem.icache (c * 2 ^ 36 + line) = some l := by
  rw [State.fillIc, Nat.mul_div_cancel_left line (by decide)]
  exact get?_putLine _ _ _ _ _ (by decide) l

theorem exec_icacheLineArrival {line : Nat} (how : (s.lineOwner (64 * line)).isSome = true) (hbad : s.mem.bad.contains line = false) :
    exec (.icacheLineArrival c line) s = .next (s.fillIc c (64 * line) (s.homeLine (64 * line))) := by
  show Host.Outcome.next (if _ then _ else _) = _
  rw [if_pos ⟨how, by rw [hbad]; rfl⟩]

/-! ### Joins and retirement (R178, R464) -/

theorem exec_followJoinTimeout {a : Nat} {gen : BitVec 8} (hf : (s.frame k).follow = some (a, gen, false)) (hw : (s.frame k).wait = .join)
    (h : 65536 ≤ s.clk.cycle - (s.frame k).since ∨ s.leaderGone a gen = true ∨ (s.frame k).resident = false) :
    exec (.followJoinTimeout k) s = .next (s.setFrame k (s.released { s.frame k with follow := none })) := by
  show Host.Outcome.next (match (s.frame k).follow with | some (_, _, false) => _ | _ => s) = _
  rw [hf]
  exact congrArg Host.Outcome.next (if_pos ⟨hw, h⟩)

theorem onlyFrame_setFrame (s : State) (k : Nat) (f : Frame) : onlyFrame s (s.setFrame k f) k :=
  ⟨fun _ hj => State.frame_setFrame_ne _ _ hj, State.sameBytes_of_mem rfl⟩

theorem State.fwdOf_dropFwd (s : State) (o : Nat) : (s.dropFwd o).fwdOf o = none := by
  rw [State.fwdOf, State.dropFwd, State.core_setCore, List.find?_eq_none]
  intro e he
  simpa using (List.mem_filter.mp he).2

theorem exec_retirementNotice {n : Nat} {gen : BitVec 8} (hd : s.deliverable n = some (.notice k gen))
    (hg : (s.frame k).origin.gen = gen ∨ (s.frame k).gen = gen) :
    exec (.retirementNotice n) s = .next (((s.dropMsg n).dropFwd k).setFrame k (s.frame k).freed) := by
  show Host.Outcome.next (match s.deliverable n with | some (.notice o gen) => (s.dropMsg n).noticeAt o gen | _ => s) = _
  rw [hd]
  exact congrArg Host.Outcome.next (if_pos hg)

/-! ### A task uprooted (R179, R280, R459) -/

/-- A task that moves leaves its leader, its followers, its waits, its core and its lease. -/
def State.uprooted (s : State) (k : Nat) : State := (((s.endFollow k).withdraw k).leaves (coreOfFrame k)).endLease k true

theorem State.endLease_eq (s : State) (k : Nat) (lost : Bool) : ∃ (as : Table TArray) (w : Word),
    s.endLease k lost = { s with arrays := as } ∨ s.endLease k lost = State.setFrame { s with arrays := as } k { s.frame k with tstat := w } := by
  unfold State.endLease
  dsimp only
  split
  · split_ifs
    · exact ⟨_, _, .inr rfl⟩
    · exact ⟨_, 0, .inl rfl⟩
    · exact ⟨s.arrays, 0, .inl rfl⟩
  · exact ⟨s.arrays, 0, .inl rfl⟩

theorem State.mem_endLease (s : State) (k : Nat) (lost : Bool) : (s.endLease k lost).mem = s.mem := by
  obtain ⟨as, w, h | h⟩ := s.endLease_eq k lost <;> exact h ▸ rfl

theorem State.core_endLease (s : State) (k : Nat) (lost : Bool) (c : Nat) : (s.endLease k lost).core c = s.core c := by
  obtain ⟨as, w, h | h⟩ := s.endLease_eq k lost <;> rw [h] <;> rfl

theorem State.follow_endLease (s : State) (k : Nat) (lost : Bool) (j : Nat) : ((s.endLease k lost).frame j).follow = (s.frame j).follow := by
  obtain ⟨as, w, h | h⟩ := s.endLease_eq k lost <;> rw [h]
  · rfl
  · by_cases hj : j = k
    · rw [hj, State.frame_setFrame]
    · rw [State.frame_setFrame_ne _ _ hj]
      rfl

theorem State.core_endFollow (s : State) (k c : Nat) : ∃ x, (s.endFollow k).core c = { s.core c with stream := x } := by
  have h : (s.endFollow k).core c = (s.unfollow k).core c := by
    rw [State.endFollow, State.loseFollowers_eq]
    rfl
  rw [h, State.unfollow]
  dsimp only
  split
  · by_cases hc : c = coreOfFrame k
    · rw [hc, State.core_setCore]
      exact ⟨none, rfl⟩
    · rw [State.core_setCore_ne _ _ hc]
      exact ⟨_, rfl⟩
  · exact ⟨_, rfl⟩

theorem State.follow_endFollow (s : State) (k : Nat) : ((s.endFollow k).frame k).follow = none := by
  have h : (s.unfollow k).frame k = { s.frame k with follow := none, stream := [] } := by
    refine Eq.trans ?_ (s.frame_setFrame k _)
    unfold State.unfollow
    dsimp only
    split <;> rfl
  rw [State.endFollow, State.frame_loseFollowers, h, State.followsOn_unled _ _ _ rfl]

theorem State.mem_uprooted (s : State) (k : Nat) : (s.uprooted k).mem = s.mem := by
  obtain ⟨fs, cs, h⟩ := s.endFollow_eq k
  rw [State.uprooted, State.mem_endLease, h]
  rfl

theorem State.follow_uprooted (s : State) (k : Nat) : ((s.uprooted k).frame k).follow = none := by
  rw [State.uprooted, State.follow_endLease]
  exact s.follow_endFollow k

/-- A core keeps all but its stream channel and the time from which it is idle. -/
theorem State.core_uprooted (s : State) (k c : Nat) : ∃ x i, (s.uprooted k).core c = { s.core c with stream := x, idleAt := i } := by
  obtain ⟨x, h⟩ := s.core_endFollow k c
  rw [State.uprooted, State.core_endLease, State.leaves]
  by_cases hc : c = coreOfFrame k
  · rw [← hc, State.core_setCore, show ((s.endFollow k).withdraw k).core c = (s.endFollow k).core c from rfl, h]
    exact ⟨_, _, rfl⟩
  · rw [State.core_setCore_ne _ _ hc, show ((s.endFollow k).withdraw k).core c = (s.endFollow k).core c from rfl, h]
    exact ⟨_, _, rfl⟩

/-! ### A move begins (R458, R459) -/

/-- The frame of a task on its way. -/
def Frame.moving (f : Frame) : Frame := { f.recordRpt with state := .migrating, resident := false, transfer := none, heldMsgs := [] }

theorem Frame.follow_moving (f : Frame) : f.moving.follow = f.follow := by
  unfold Frame.moving Frame.recordRpt
  split <;> rfl

/-- The core of a frame that begins to move to guest frame a. -/
def Core.moving (x : Core) (w : Word) (a : Nat) (m : Mig) (held : List Msg) : Core :=
  { x with migfr := w.setWidth 8, miggf := BitVec.ofNat 8 (frameNo a), migres := 0, traffic := x.traffic ++ held, mig := some m }

/-- Both entries are marked. -/
def State.marks (s : State) (k a : Nat) : State :=
  let s := s.setFrame k (s.frame k).moving
  s.setFrame a { s.frame a with state := .migrating, guest := true, job := (s.frame k).job }

theorem State.frame_marks_guest (s : State) (k a : Nat) : ((s.marks k a).frame a).state = .migrating ∧ ((s.marks k a).frame a).guest = true := by
  rw [State.marks, State.frame_setFrame]
  exact ⟨rfl, rfl⟩

theorem State.frame_marks_source (s : State) {k a : Nat} (h : k ≠ a) : (s.marks k a).frame k = (s.frame k).moving := by
  rw [State.marks, State.frame_setFrame_ne _ _ h, State.frame_setFrame]

theorem exec_migrateStart_fails {w : Word} {r : BitVec 3} (hw : w.getLsbD 63 = true) (hm : (s.core c).mig = none) (hr : s.moveCheck c w = .inl r) :
    exec (.migrateStart c w) s = .next (s.setCore c { s.core c with migres := r, migfr := w.setWidth 8 }) := by
  show Host.Outcome.next (s.migrateStart c w) = _
  rw [State.migrateStart]
  simp only [hw, hm, hr, Bool.not_true, Option.isSome_none, Bool.or_self, Bool.false_eq_true, if_false]

theorem exec_migrateStart_moves {w : Word} {a : Nat} (hw : w.getLsbD 63 = true) (hm : (s.core c).mig = none) (hr : s.moveCheck c w = .inr a) :
    let o := c * 256 + w.toNat % 256
    let k := s.homeOf o
    exec (.migrateStart c w) s = .next (((s.setCore c ((s.core c).moving w a
      { frame := o, src := k, guest := a, left := (s.frame k).state } (s.frame k).heldMsgs)).uprooted k).marks k a) := by
  have ho : fld w 0 8 = w.toNat % 256 := by rw [fld_eq, Nat.pow_zero, Nat.div_one]; rfl
  show Host.Outcome.next (s.migrateStart c w) = _
  rw [State.migrateStart]
  simp only [hw, hm, hr, ho, Bool.not_true, Option.isSome_none, Bool.or_self, Bool.false_eq_true, if_false]
  rfl

/-! ### A move commits (R459–R462) -/

theorem State.sameBytes_acquireAt (s : State) (c : Nat) (sc : Scope) : s.sameBytes (s.acquireAt c sc) := fun p => by
  cases p <;> cases sc <;> rfl

/-- The moved frame at its guest entry. -/
def State.movedFrame (s : State) (m : Mig) : Frame :=
  { (((s.frame m.src).leftCore (coreOfFrame m.src)).reopened).installed m.left with
    guest := true, gen := (s.frame m.guest).gen, atSvc := false, resident := false, since := s.clk.cycle }

/-- Only a task's state and wait, the cores that its empty registers await, and its repeat may differ. -/
def Frame.rehosted (f g : Frame) : Prop :=
  ∃ st w ia r rs ts, g = { f with state := st, wait := w, issuedAt := ia, rpt := r, rptSaved := rs, tstat := ts }

theorem Frame.leftCore_rehosted (f : Frame) (c : Nat) : f.rehosted (f.leftCore c) := by
  unfold Frame.leftCore
  split <;> exact ⟨_, _, _, _, _, _, rfl⟩

theorem Frame.reopened_rehosted (f : Frame) : f.rehosted f.reopened := by
  unfold Frame.reopened
  split <;> exact ⟨_, _, _, _, _, _, rfl⟩

theorem Frame.installed_rehosted (f : Frame) (left : FState) : f.rehosted (f.installed left) := by
  unfold Frame.installed
  split
  · exact ⟨_, _, _, _, _, _, rfl⟩
  · split <;> exact ⟨_, _, _, _, _, _, rfl⟩
  · split <;> exact ⟨_, _, _, _, _, _, rfl⟩
  · split <;> exact ⟨_, _, _, _, _, _, rfl⟩
  · exact ⟨_, _, _, _, _, _, rfl⟩

theorem Frame.rehosted.trans {f g h : Frame} (hg : f.rehosted g) (hh : g.rehosted h) : f.rehosted h := by
  obtain ⟨st, w, ia, r, rs, ts, rfl⟩ := hg
  obtain ⟨st', w', ia', r', rs', ts', rfl⟩ := hh
  exact ⟨_, _, _, _, _, _, rfl⟩

/-- What a moved task keeps: all but its state and wait, its repeat, and its place (R459, R461). -/
theorem State.movedFrame_eq (s : State) (m : Mig) :
    ∃ st w ia r rs ts, s.movedFrame m = { s.frame m.src with
      state := st, wait := w, issuedAt := ia, rpt := r, rptSaved := rs, tstat := ts,
      guest := true, gen := (s.frame m.guest).gen, atSvc := false, resident := false, since := s.clk.cycle } := by
  obtain ⟨st, w, ia, r, rs, ts, h⟩ := (((s.frame m.src).leftCore_rehosted (coreOfFrame m.src)).trans (Frame.reopened_rehosted _)).trans
    (Frame.installed_rehosted _ m.left)
  rw [State.movedFrame, h]
  exact ⟨_, _, _, _, _, _, rfl⟩

/-- The frames at a commit: the guest's, and what stays at the former host. -/
def State.rehost (s : State) (m : Mig) : State :=
  let f := s.frame m.src
  let s := s.setFrame m.guest (s.movedFrame m)
  if m.src = m.frame then s.setFrame m.frame { f with state := .migrating, wait := .none, pend := [] }
  else s.setFrame m.src (s.frame m.src).freed

/-- After them the forwarding entry of the origin, and the core without a move. -/
def State.redirect (s : State) (c : Nat) (m : Mig) (gen : BitVec 8) : State :=
  let s := s.setFwd m.frame gen (.guest m.guest)
  s.setCore c { s.core c with mig := none, traffic := [] }

theorem State.cores_rehost (s : State) (m : Mig) : (s.rehost m).cores = s.cores := by
  unfold State.rehost
  dsimp only
  split <;> rfl

theorem State.mem_rehost (s : State) (m : Mig) : (s.rehost m).mem = s.mem := by
  unfold State.rehost
  dsimp only
  split <;> rfl

theorem State.net_rehost (s : State) (m : Mig) : (s.rehost m).net = s.net := by
  unfold State.rehost
  dsimp only
  split <;> rfl

theorem State.frame_rehost_guest (s : State) {m : Mig} (hs : m.guest ≠ m.src) (hf : m.guest ≠ m.frame) :
    (s.rehost m).frame m.guest = s.movedFrame m := by
  unfold State.rehost
  dsimp only
  split
  · rw [State.frame_setFrame_ne _ _ hf, State.frame_setFrame]
  · rw [State.frame_setFrame_ne _ _ hs, State.frame_setFrame]

theorem State.frame_rehost_host (s : State) {m : Mig} (hs : m.guest ≠ m.src) (h : m.src ≠ m.frame) :
    (s.rehost m).frame m.src = (s.frame m.src).freed := by
  unfold State.rehost
  dsimp only
  rw [if_neg h, State.frame_setFrame, State.frame_setFrame_ne _ _ hs.symm]

theorem State.state_rehost_origin (s : State) {m : Mig} (h : m.src = m.frame) : ((s.rehost m).frame m.src).state = .migrating := by
  unfold State.rehost
  dsimp only
  rw [if_pos h, h, State.frame_setFrame]

/-- The origin's core after a commit: its forwarding entry leads to the guest, no move is left, and no held traffic. -/
theorem State.core_redirect (s : State) {c : Nat} {m : Mig} (hc : m.frame / 256 = c) (gen : BitVec 8) :
    (s.redirect c m gen).core c = { s.core c with
      fwd := { frame := m.frame % 256, gen := gen, host := .guest m.guest } :: (s.core c).fwd.filter (fun e => decide (e.frame ≠ frameNo m.frame)),
      mig := none, traffic := [] } := by
  subst hc
  rw [State.redirect, State.core_setCore, State.setFwd]
  rw [show coreOfFrame m.frame = m.frame / 256 from rfl, State.core_setCore]
  rfl

/-- A commit in its parts: between the redirection and the held traffic only caches, clocks and records change (R367, R506). -/
theorem exec_migrationCommit {m : Mig} (hm : (s.core c).mig = some m) :
    ∃ e d, exec (.migrationCommit c) s = .next ((((s.rehost m).setFwd m.frame (s.frame m.src).origin.gen (.guest m.guest)).core c).traffic.foldl State.applyHeld
      { ((((s.rehost m).redirect c m (s.frame m.src).origin.gen).acquireAt (coreOfFrame m.guest) .chip).rouse (coreOfFrame m.guest)) with clk := e, dbg := d }) := by
  obtain ⟨e, d, h⟩ := State.trace_eq ((((s.rehost m).redirect c m (s.frame m.src).origin.gen).acquireAt (coreOfFrame m.guest) .chip).rouse (coreOfFrame m.guest))
    6 (coreOfFrame m.guest) (s.movedFrame m) 0 (at64 (dieOfTile (tileOfCore (coreOfFrame m.guest))) 40 + at64 (tileNo (tileOfCore (coreOfFrame m.guest))) 32
      + at64 (coreNo (coreOfFrame m.guest)) 27 + at64 (frameNo m.frame) 0)
  refine ⟨e, d, ?_⟩
  rw [← h]
  show Host.Outcome.next (s.migrateCommit c) = _
  rw [State.migrateCommit, hm]
  rfl

/-- What a commit leaves before the held traffic is applied: the frames and the origin's core are those of `rehost` and `redirect`. -/
theorem migrationCommit_moves {m : Mig} (hm : (s.core c).mig = some m) (hc : m.frame / 256 = c) :
    ∃ t : State, exec (.migrationCommit c) s = .next ((s.core c).traffic.foldl State.applyHeld t) ∧
      (∀ j, t.frame j = (s.rehost m).frame j) ∧ t.net = s.net ∧ s.sameBytes t ∧
      ∃ g i, t.core c = { (s.rehost m).redirect c m (s.frame m.src).origin.gen |>.core c with gated := g, idleAt := i } := by
  obtain ⟨e, d, h⟩ := exec_migrationCommit hm
  have traffic : (((s.rehost m).setFwd m.frame (s.frame m.src).origin.gen (.guest m.guest)).core c).traffic = (s.core c).traffic := by
    subst hc
    rw [State.setFwd, show coreOfFrame m.frame = m.frame / 256 from rfl, State.core_setCore, State.core, State.cores_rehost, State.core]
  rw [traffic] at h
  have frames : ((((s.rehost m).redirect c m (s.frame m.src).origin.gen).acquireAt (coreOfFrame m.guest) .chip).rouse (coreOfFrame m.guest)).frames =
      (s.rehost m).frames := (State.frames_rouse ..).trans rfl
  refine ⟨_, h, fun j => congrArg (Tab.get · j Frame.reset) frames, (State.net_rouse ..).trans (s.net_rehost m), fun p => ?_,
    State.core_rouse ..⟩
  exact (State.sameBytes_of_mem (State.mem_rouse ..) p).trans ((State.sameBytes_acquireAt _ _ _ p).trans (State.sameBytes_of_mem (s.mem_rehost m) p))

end Sys2Proof.Machine
end

section
namespace Sys2Proof.Machine

/-- Settles O48: each clause by the equation of its event and what that leaves of the frames. -/
theorem frameEvents : Obligations.FrameEvents := by
  unfold Obligations.FrameEvents
  intro s c k v l n a w gen r m f x
  refine ⟨fun hbest => ⟨fun hfree => ?_, fun hfull hv hne => ?_⟩, fun hs hp hage hgo => ?_, fun hf hw h => ?_, fun hdev how hbad hl => ?_,
    fun hd hg => ?_, fun hw hm => ⟨fun hr => exec_migrateStart_fails hw hm hr, fun hr => ?_⟩, fun hm hs hf hc => ?_⟩
  · show Host.Outcome.next (s.residency c) = _
    rw [State.residency, hbest]
    exact congrArg Host.Outcome.next (if_pos hfree)
  · obtain ⟨t, ht, hk, hv, hother⟩ := residency_swaps hbest hfull hv hne
    refine ⟨t, ht, hk.1, hk.2, by rw [hv]; rfl, by rw [hv], fun r hr => ?_, ⟨fun goes => ?_, fun stays => ?_⟩, hother⟩
    · rw [hv]
      exact (s.frame v).genReg_saveLive _ hr
    · rw [hv]
      exact Frame.evicted_state goes s.fresh
    · rw [hv]
      exact Frame.evicted_stays stays s.fresh
  · exact congrArg Host.Outcome.next (if_pos ⟨hs, hp, hage, hgo⟩)
  · refine ⟨_, exec_followJoinTimeout hf hw h, onlyFrame_setFrame .., ?_⟩
    rw [State.frame_setFrame]
    refine ⟨rfl, rfl, rfl, ?_⟩
    show (if f.resident && !s.jobHeld f.job then FState.running else .ready) = _
    simp only [Bool.and_eq_true, Bool.not_eq_true']
  · exact ⟨_, exec_icacheLineArrival how hbad, State.icache_fillIc .., s.sameBytes_fillIc _ _ _, rfl⟩
  · refine ⟨_, exec_retirementNotice hd hg, rfl, State.frame_setFrame .., ?_, ?_, State.fwdOf_dropFwd ..⟩
    · rw [State.frame_setFrame]
      rfl
    · rw [State.frame_setFrame]
      rfl
  · refine ⟨_, exec_migrateStart_moves hw hm hr, ?_⟩
    beta_reduce
    intro o at_
    generalize hy : (s.core c).moving w a _ _ = y
    obtain ⟨str, idle, hcore⟩ := (s.setCore c y).core_uprooted at_ c
    rw [State.core_setCore] at hcore
    have hcore : State.core (State.marks _ at_ a) c = _ := hcore
    refine ⟨(State.frame_marks_guest ..).1, (State.frame_marks_guest ..).2, fun hne => ?_, ?_, ?_, ?_, ?_⟩
    · rw [State.frame_marks_source _ hne]
      exact ⟨rfl, rfl, (Frame.follow_moving _).trans (State.follow_uprooted ..)⟩
    · rw [hcore, ← hy]
      rfl
    · rw [hcore, ← hy]
      rfl
    · rw [hcore, ← hy]
      rfl
    · exact State.sameBytes_of_mem (State.mem_uprooted ..)
  · obtain ⟨t, ht, frame, net, bytes, g, i, core⟩ := migrationCommit_moves hm hc
    obtain ⟨st, wt, ia, rp, rs, ts, moved⟩ := s.movedFrame_eq m
    rw [State.core_redirect _ hc] at core
    refine ⟨t, ht, ?_⟩
    have hg : t.frame m.guest = _ := (frame _).trans ((s.frame_rehost_guest hs hf).trans moved)
    rw [hg]
    refine ⟨fun _ => rfl, fun _ _ => rfl, fun _ => rfl, rfl, rfl, rfl, rfl, rfl, rfl, rfl, rfl, fun hsrc => ?_, fun hsrc => ?_, ?_, ?_, ?_, net, bytes⟩
    · rw [frame, State.frame_rehost_host _ hs hsrc]
      exact ⟨rfl, rfl⟩
    · rw [frame]
      exact State.state_rehost_origin _ hsrc
    · rw [State.fwdOf, show coreOfFrame m.frame = c from hc, core]
      exact List.find?_cons_of_pos (decide_eq_true rfl)
    · rw [core]
    · rw [core]

end Sys2Proof.Machine
end

section
/-! # O3: a step of a task's turn runs the instruction that its word decodes to (R53, R149, R169, R172, R178, R313)

Time passes before the turn, and leaves the schedule alone (`State.run_tick`); so the step takes the listed turn
(`step_issue`), the turn performs the instruction that the task fetches (`State.issueTurn_performs`), and without
followers and engine commands nothing precedes its accesses (`State.before_idle`). -/

namespace Sys2Proof.Machine
variable {s t u v : State} {k : Nat} {w : IWord} {i : Instr}

/-! ### Time (R497) -/

theorem State.run_trace (s : State) (kind core : Nat) (f : Frame) (tag : Nat) (payload : Word) :
    (s.trace kind core f tag payload).run = s.run := by
  obtain ⟨c, d, h⟩ := s.trace_eq kind core f tag payload
  rw [h]

theorem State.run_sample (s : State) : s.sample.run = s.run :=
  List.foldlRecOn (motive := fun t : State => t.run = s.run) _ _ rfl fun t ht _ _ => (t.run_trace ..).trans ht

theorem State.run_catchUp (s : State) (cycle : Nat) : (s.catchUp cycle).run = s.run := by
  unfold State.catchUp
  split
  · exact List.foldlRecOn (motive := fun t : State => t.run = s.run) _ _ rfl fun t ht _ _ => t.run_sample.trans ht
  · rfl

/-- The passing of time leaves the schedule alone. -/
theorem State.run_tick (s : State) : s.tick.run = s.run := s.run_catchUp _

/-! ### The turn -/

theorem step_issue {ts : List Turn} (h : s.run.agenda = .issue k :: ts) :
    step s = State.issueTurn { s.tick with run := { s.tick.run with agenda := ts } } k := by
  rw [← s.run_tick] at h
  unfold step
  dsimp only
  rw [h]
  rfl

theorem State.issueTurn_performs (hasync : (s.asTask k).asyncDue k = false) (hfwd : (s.asTask k).me.wait ≠ .fwdEntry)
    (hout : (s.asTask k).me.waitsOut = false) (hmay : (s.asTask k).mayIssue k = true) (hchosen : (s.asTask k).chosen k = true)
    (hcur : ((s.asTask k).updMe Frame.rerun).current = (v, .instr i)) : s.issueTurn k = v.perform i := by
  unfold State.issueTurn
  simp only [hasync, hfwd, hout, hmay, hchosen, hcur, Bool.false_eq_true, Bool.and_self, if_false, if_true]

/-! ### The word (R172) -/

theorem currentOf_decoded (h : decode w = .ok i) : currentOf w = .instr i := by rw [currentOf, h]

/-- A task with no word of a leader and no open repeat meets the word at its program counter. -/
theorem State.current_fetched (hstream : s.me.stream = []) (hrpt : s.me.rpt = none) (hfetch : s.fetchWord s.me.pc = (u, .word w)) :
    s.current = ((currentOf w).done u, currentOf w) := by
  rw [State.current, hstream]
  dsimp only
  rw [State.ownWord, hrpt]
  dsimp only
  rw [hfetch]

/-! ### What precedes the accesses (R178, R313) -/

theorem State.touchAllOf_quiet (h : s.enginesQuiet = true) (i : Instr) : s.touchAllOf i = s := if_pos h

theorem State.streams_alone (h : s.leads s.run.cur = false) (t : State) (i : Instr) : s.streams t s.run.cur i = false := by
  unfold State.streams
  rw [h]
  rfl

theorem State.before_idle (hlead : s.leads s.run.cur = false) (hquiet : s.enginesQuiet = true) (t : State) (i : Instr) :
    s.before_ t i = s := by
  unfold State.before_
  simp only [State.touchAllOf_quiet hquiet, ite_self, State.streams_alone hlead, Bool.false_eq_true, if_false]

theorem State.perform_idle (hlead : s.leads s.run.cur = false) (hquiet : s.enginesQuiet = true) (hexec : exec i s = .next t) :
    s.perform i = .next (t.wentOn s.run.cur s.me i) := by
  unfold State.perform
  simp only [hexec, State.before_idle hlead hquiet]

/-- Settles O3: the step takes the listed turn, which performs the fetched instruction. -/
theorem stepRunsDecoded : Obligations.StepRunsDecoded := by
  unfold Obligations.StepRunsDecoded
  intro s u k ts w i hagenda r s1 s2 hasync hfwd hout hmay hchosen s3 hrpt hstream hfetch hdecode v
  have hcur : s3.current = (v, .instr i) := by
    rw [State.current_fetched hstream hrpt hfetch, ← currentOf_decoded hdecode]
  have hstep : step s = v.perform i :=
    (step_issue hagenda).trans (State.issueTurn_performs hasync hfwd hout hmay hchosen hcur)
  exact ⟨hstep, fun t hlead hquiet hexec => hstep.trans (State.perform_idle hlead hquiet hexec)⟩

end Sys2Proof.Machine
end

section
/-! # O30: a repeat opens, and the order of its words (R174, R175)

A capture that yields words fetches each of them, and a fetch of a word leaves the task and the bytes alone
(`State.fetchWord_keeps`), so that the state in which the repeat opens differs from the one of issue in caches only. The
order is `Frame.advance` of a frame with the repeat open. -/

namespace Sys2Proof.Machine
variable {s t u : State} {va : Word} {w : IWord}

/-! ### Fetches that yield a word (R172) -/

/-- The current task and every byte are as before. -/
def State.keepsMe (s t : State) : Prop := t.me = s.me ∧ s.sameBytes t

namespace State.keepsMe

theorem refl (s : State) : s.keepsMe s := ⟨rfl, fun _ => rfl⟩

theorem trans (h : s.keepsMe t) (h' : t.keepsMe u) : s.keepsMe u :=
  ⟨h'.1.trans h.1, fun p => (h'.2 p).trans (h.2 p)⟩

theorem consulted (h : s.consulted t) : s.keepsMe t := ⟨h.me, h.sameBytes⟩

theorem fresh (s : State) : s.keepsMe s.fresh := ⟨rfl, State.sameBytes_of_mem rfl⟩

theorem fillIc (s : State) (c pa : Nat) (l : CLine) : s.keepsMe (s.fillIc c pa l) := ⟨rfl, s.sameBytes_fillIc c pa l⟩

end State.keepsMe

theorem State.fetchDev_keeps {pa : Nat} (h : s.fetchDev va pa = (u, .word w)) : s.keepsMe u := by
  unfold State.fetchDev at h
  split at h
  · cases h
    exact .fresh s
  · split at h
    · cases h
    · cases h
      exact (State.keepsMe.fillIc ..).trans (.fresh _)

theorem State.fetchPeer_keeps {chip : BitVec 11} {pa : Nat} (h : s.fetchPeer chip pa = (u, .word w)) : s.keepsMe u := by
  unfold State.fetchPeer at h
  dsimp only at h
  split at h
  · cases h
    exact .refl s
  · cases h
  · split at h <;> cases h

theorem State.fetchHost_keeps {a : Nat} (h : s.fetchHost a = (u, .word w)) : s.keepsMe u := by
  unfold State.fetchHost at h
  split at h <;> cases h
  exact .fresh s

theorem State.fetchWord_keeps (h : s.fetchWord va = (u, .word w)) : s.keepsMe u := by
  have translated := State.consulted.translate (s := s) (coreLevels s.myCore) s.me.job s.me.svc .fetch va
  unfold State.fetchWord at h
  split at h
  · cases h
  · split at h <;> rw [‹State.translate .. = _›] at translated
    · cases h
    · cases h
    · cases h
    · exact (State.keepsMe.consulted translated).trans (State.fetchDev_keeps h)
    · exact (State.keepsMe.consulted translated).trans (State.fetchPeer_keeps h)
    · exact (State.keepsMe.consulted translated).trans (State.fetchHost_keeps h)
    · cases h

/-! ### The capture of a body (R174) -/

/-- A capture of m words that succeeds leaves the task alone, and adds m words to those that it had. -/
theorem State.capture_keeps {n sd sa sb m : Nat} {had ws : List IWord} (h : s.capture n sd sa sb m va had = (u, .inl ws)) :
    s.keepsMe u ∧ ws.length = had.length + m := by
  induction m generalizing s va had with
  | zero =>
    cases h
    exact ⟨.refl _, rfl⟩
  | succ m ih =>
    unfold State.capture at h
    split at h
    next v x hfetch =>
      split at h
      · obtain ⟨keeps, len⟩ := ih h
        refine ⟨(State.fetchWord_keeps hfetch).trans keeps, ?_⟩
        rw [len, List.length_append, List.length_singleton]
        omega
      · cases h
    · cases h

/-! ### `rpt` -/

section
variable {sd sa sb : BitVec 3} {n : BitVec 8} {len : BitVec 4} {ws : List IWord}

/-- What a capture at address `base` comes to: the repeat is open (R174), or the task traps or waits. -/
def rptOutcome (base : Word) (sd sa sb : BitVec 3) (n : BitVec 8) (got : State × Sum (List IWord) (Word × Fetched)) : FeOut :=
  match got with
  | (t, .inl ws) => .next (t.updMe fun f => { f with
      fetched := [], rpt := some { base := base, body := ws, k := 0, j := 0, n := n.toNat, sd := sd.toNat, sa := sa.toNat, sb := sb.toNat } })
  | (t, .inr (va, .word w)) => .next (t.trapAt Cause.ILLEGAL (w.setWidth 64) va false)
  | (t, .inr (va, r)) => t.fetchFailed va r

/-- A task without a leader captures the body itself. -/
theorem exec_rpt_alone (h : s.me.stream = []) : exec (.rpt sd sa sb n len) s =
    rptOutcome s.me.pc sd sa sb n (s.issued.capture n.toNat sd.toNat sa.toNat sb.toNat (len.toNat + 1) (s.me.pc + 4) []) := by
  have stream : s.issued.me.stream = [] := by rw [State.me_issued]; exact h
  have pc : s.issued.me.pc = s.me.pc := by rw [State.me_issued]; rfl
  show execRpt sd sa sb n len s = _
  rw [execRpt, State.issue_go s.goes_nil]
  dsimp only [id]
  rw [stream, pc]
  rfl

end

theorem repeatOpens_holds : repeatOpensRule := by
  intro s u sd sa sb n len ws va w got hstream
  have outcome : exec (.rpt sd sa sb n len) s = rptOutcome s.me.pc sd sa sb n got := exec_rpt_alone hstream
  refine ⟨fun hgot => ?opens, fun hgot => ?illegal⟩
  case opens =>
    obtain ⟨⟨me, bytes⟩, length⟩ := State.capture_keeps hgot
    rw [State.me_issued] at me
    rw [hgot] at outcome
    refine ⟨_, outcome, bytes, ?_⟩
    rw [State.me_updMe, me]
    exact ⟨s.me.sameRegs_refl, length.trans (Nat.zero_add _), rfl, BitVec.add_zero _⟩
  case illegal => rw [outcome, hgot]; rfl

/-! ### Program order in a repeat (R175) -/

theorem repeatOrder_holds : repeatOrderRule := by
  intro s d v r hr t
  have rpt : (s.me.unblock.wrG d v).rpt = some r := (Frame.rpt_wrG ..).trans hr
  have pc : (s.me.unblock.wrG d v).pc = s.me.pc := Frame.pc_wrG ..
  have me : t.me = (s.me.unblock.wrG d v).advance := s.me_gives d v
  rw [me, Frame.advance, rpt]
  dsimp only
  refine ⟨fun hj => ?word, fun hj hk => ?iteration, fun hj hk => ?last⟩
  case word =>
    rw [if_pos hj]
    exact ⟨rfl, pc⟩
  case iteration =>
    rw [if_neg (by omega), if_pos hk]
    exact ⟨rfl, pc⟩
  case last =>
    rw [if_neg (by omega), if_neg (by omega)]
    refine ⟨rfl, ?_⟩
    show r.base + BitVec.ofNat 64 (4 * (r.body.length + 1)) = _
    rw [Nat.mul_add, Nat.add_comm, BitVec.ofNat_add, BitVec.add_assoc]
    rfl

/-- Settles O30, by its two rules. -/
theorem repeats : Obligations.Repeats := by
  unfold Obligations.Repeats
  exact ⟨repeatOpens_holds, repeatOrder_holds⟩

end Sys2Proof.Machine
end

section
/-! # O31: `fol` and `unfol` (R177, R180)

Issuing changes the frame of the task alone, and a task is never its own leader: it does not lead from a core other than
its own, and a task at its service core may not follow. So the status of `fol` is the same at the state `issued`
(`State.folStatus_issued`). -/

namespace Sys2Proof.Machine
variable {s : State} {d a b : GReg} {ka kb : Bool} {A B : Word}

/-! ### The leader that `fol` names (R177) -/

/-- The core and the frame that the words of `fol` name. -/
def State.leadCore (s : State) (A : Word) : Nat := s.myTile * 32 + A.toNat % 32
def State.leadFrame (s : State) (A B : Word) : Nat := s.leadCore A * 256 + B.toNat % 256

theorem fld_low (w : Word) (n : Nat) : fld w 0 n = w.toNat % 2 ^ n := by rw [fld_eq, Nat.pow_zero, Nat.div_one]

theorem State.frame_issued_ne (s : State) {k : Nat} (h : k ≠ s.run.cur) : s.issued.frame k = s.frame k := s.frame_updMe_ne _ h

/-- A task may follow only from its own core, a compute core, and only a task of another core (R177). -/
theorem State.leader_ne (hc : s.leadCore A ≠ s.myCore) (hsvc : coreNo s.myCore ≠ 31) : s.leadFrame A B ≠ s.run.cur := by
  intro h
  have own : s.myCore = coreOfFrame s.run.cur := by
    unfold State.myCore Frame.coreAt
    split
    next hs =>
      refine absurd ?_ hsvc
      rw [State.myCore, Frame.coreAt, if_pos hs, coreNo, svcOfTile]
      omega
    · rfl
  refine hc (own.trans ?_).symm
  rw [← h, coreOfFrame, State.leadFrame]
  omega

theorem State.folStatus_issued (s : State) (A B : Word) : s.issued.folStatus A B = s.folStatus A B := by
  unfold State.folStatus
  simp only [State.myTile_issued, State.myCore_issued, State.job_issued, fld_low]
  by_cases hc : s.leadCore A = s.myCore
  · rw [State.leadCore] at hc
    simp [hc]
  · by_cases hsvc : coreNo s.myCore = 31
    · simp [hsvc]
    · have frame := s.frame_issued_ne (State.leader_ne (B := B) hc hsvc)
      rw [State.leadFrame, State.leadCore] at frame
      rw [show 2 ^ 5 = 32 from rfl, show 2 ^ 8 = 256 from rfl, frame]
      rfl

/-! ### `fol` -/

theorem Frame.coreAt_wrote (f : Frame) (d : GReg) (v : Word) (k : Nat) : (f.unblock.wrG d v).advance.coreAt k = f.coreAt k := by
  rw [Frame.advance_eq, Frame.wrG_eq]
  rfl

theorem State.myTile_gives (s : State) (d : GReg) (v : Word) : (s.gives d v).myTile = s.myTile := by
  rw [State.myTile, State.myCore, State.me_gives, Frame.coreAt_wrote]
  rfl

/-- The state of a task that holds the channel of its leader k at core c and waits to join (R177). -/
def State.awaitsJoin (s : State) (c k : Nat) : State :=
  let s := s.setCore c { s.core c with stream := some (k, (s.frame k).gen) }
  s.updMe fun f => { f with follow := some (k, (s.frame k).gen, false), state := .waiting, wait := .join, since := s.clk.cycle }

/-- A `fol` whose status is 0. -/
theorem exec_fol_joins (hgo : s.goes [.g a ka, .g b kb]) (h : s.folStatus (s.me.rdG a) (s.me.rdG b) = 0) :
    exec (.fol d a b ka kb) s = .next ((s.gives d 0).awaitsJoin (s.leadCore (s.me.rdG a)) (s.leadFrame (s.me.rdG a) (s.me.rdG b))) := by
  show Host.Outcome.next (s.fol d a b ka kb) = _
  rw [State.fol, State.issue_go hgo]
  simp only [State.rdG_issued, State.folStatus_issued, h, fld_low, ne_eq, not_true_eq_false, if_false,
    State.retG_issued, State.myTile_gives]
  rfl

/-- A `fol` with another status. -/
theorem exec_fol_fails (hgo : s.goes [.g a ka, .g b kb]) (h : s.folStatus (s.me.rdG a) (s.me.rdG b) ≠ 0) :
    exec (.fol d a b ka kb) s =
      .next ((s.gives d (BitVec.ofNat 64 (s.folStatus (s.me.rdG a) (s.me.rdG b)))).updMe fun f => { f with follow := none }) := by
  show Host.Outcome.next (s.fol d a b ka kb) = _
  rw [State.fol, State.issue_go hgo]
  simp only [State.rdG_issued, State.folStatus_issued, if_pos h]
  rfl

theorem Frame.follow_advance (f : Frame) (l : Option (Nat × BitVec 8 × Bool)) : { f with follow := l }.advance = { f.advance with follow := l } := by
  unfold Frame.advance
  dsimp only
  split
  · rfl
  · split_ifs <;> rfl

theorem State.does_follow (s : State) (u : Frame → Frame) (l : Option (Nat × BitVec 8 × Bool)) :
    (s.does u).updMe (fun f => { f with follow := l }) = s.does fun f => { u f with follow := l } := by
  rw [State.does, State.updMe_updMe, State.does]
  exact congrArg s.issued.updMe (funext fun f => ((u f).follow_advance l).symm)

theorem State.me_awaitsJoin (s : State) (c k : Nat) : (s.awaitsJoin c k).me =
    { s.me with follow := some (k, (s.frame k).gen, false), state := .waiting, wait := .join, since := s.clk.cycle } := State.me_updMe ..

theorem State.core_awaitsJoin (s : State) (c k : Nat) : ((s.awaitsJoin c k).core c).stream = some (k, (s.frame k).gen) :=
  congrArg Core.stream (s.core_setCore c _)

theorem State.frame_gives_ne (s : State) (d : GReg) (v : Word) {k : Nat} (h : k ≠ s.run.cur) : (s.gives d v).frame k = s.frame k :=
  (s.issued.frame_updMe_ne _ h).trans (s.frame_issued_ne h)

/-- A leader that qualifies is another task. -/
theorem State.leader_other (h : s.folStatus A B = 0) : s.leadFrame A B ≠ s.run.cur := by
  unfold State.folStatus at h
  simp only [fld_low] at h
  split at h
  · cases h
  next hq =>
    simp only [Bool.or_eq_true, decide_eq_true_eq, not_or] at hq
    obtain ⟨⟨⟨⟨⟨-, hc⟩, hsvc⟩, -⟩, -⟩, -⟩ := hq
    exact State.leader_ne hc hsvc

theorem fol_joins (hgo : s.goes [.g a ka, .g b kb]) (h : s.folStatus (s.me.rdG a) (s.me.rdG b) = 0) :
    let c := s.leadCore (s.me.rdG a)
    let k := s.leadFrame (s.me.rdG a) (s.me.rdG b)
    ∃ t, exec (.fol d a b ka kb) s = .next t ∧ t.me.rdG d = 0 ∧ s.me.wentOn t.me ∧ t.me.state = .waiting ∧ t.me.wait = .join ∧
      t.me.follow = some (k, (s.frame k).gen, false) ∧ (t.core c).stream = some (k, (s.frame k).gen) ∧
      (∀ r, r ≠ d → t.me.genReg r = s.me.genReg r) ∧ s.sameBytes t := by
  intro c k
  have leader : ((s.gives d 0).frame k).gen = (s.frame k).gen := congrArg Frame.gen (s.frame_gives_ne d 0 (State.leader_other h))
  have wrote : s.me.wentOn (s.gives d 0).me := by
    rw [State.me_gives, Frame.wrG_eq]
    exact Frame.wentOn_advance rfl rfl
  have zero : (s.gives d 0).me.rdG d = 0 := by
    rw [State.me_gives, Frame.rdG_advance, Frame.rdG_wrG, ite_self]
  have others (r : GReg) (hr : r ≠ d) : (s.gives d 0).me.genReg r = s.me.genReg r := by
    rw [State.me_gives, Frame.genReg_advance, Frame.genReg_wrG_ne _ _ hr]
    rfl
  refine ⟨_, exec_fol_joins hgo h, ?_⟩
  rw [State.me_awaitsJoin, State.core_awaitsJoin, leader]
  exact ⟨zero, wrote, rfl, rfl, rfl, rfl, others, s.sameBytes_does fun f => f.wrG d 0⟩

/-! ### `unfol` (R180) -/

theorem State.stream_unfollow (s : State) (k : Nat) : ((s.unfollow k).core (coreOfFrame k)).stream ≠ some (k, (s.frame k).gen) := by
  unfold State.unfollow
  dsimp only
  split
  · rw [State.core_setCore]
    exact nofun
  next h => exact h

theorem State.frame_unfollow (s : State) (k : Nat) : (s.unfollow k).frame k = { s.frame k with follow := none, stream := [] } := by
  unfold State.unfollow
  dsimp only
  split <;> exact State.frame_setFrame ..

theorem State.frame_unfollow_ne (s : State) {k j : Nat} (h : j ≠ k) : (s.unfollow k).frame j = s.frame j := by
  unfold State.unfollow
  dsimp only
  split <;> exact State.frame_setFrame_ne _ _ h

theorem exec_unfol (s : State) : exec .unfol s = .next (s.issued.unfollow s.run.cur).next := 
  exec_issue (k := fun s => (s.unfollow s.run.cur).next) s.goes_nil rfl

theorem unfol_ends (s : State) :
    ∃ t, exec .unfol s = .next t ∧ t.me.follow = none ∧ t.me.stream = [] ∧ s.me.wentOn t.me ∧ s.me.sameRegs t.me ∧ s.sameBytes t ∧
      (t.core (coreOfFrame s.run.cur)).stream ≠ some (s.run.cur, s.me.gen) ∧ ∀ j, j ≠ s.run.cur → t.frame j = s.frame j := by
  obtain ⟨fs, cs, h⟩ := s.issued.unfollow_eq s.run.cur
  have run : (s.issued.unfollow s.run.cur).run = s.run := by rw [h]; rfl
  have mem : (s.issued.unfollow s.run.cur).mem = s.mem := by rw [h]; rfl
  have me : (s.issued.unfollow s.run.cur).next.me = { s.me.unblock with follow := none, stream := [] }.advance := by
    rw [State.next, State.me_updMe, State.me, run, State.frame_unfollow, ← s.me_issued]
    rfl
  have gen : (s.issued.frame s.run.cur).gen = s.me.gen := by
    show s.issued.me.gen = _
    rw [State.me_issued]
    rfl
  refine ⟨_, exec_unfol s, ?follow, ?stream, ?went, ?regs, State.sameBytes_of_mem mem, ?channel, fun j hj => ?others⟩
  case follow => rw [me, Frame.advance_eq]
  case stream => rw [me, Frame.advance_eq]
  case went =>
    rw [me]
    exact Frame.wentOn_advance rfl rfl
  case regs =>
    rw [me]
    exact Frame.sameRegs_advance _
  case channel =>
    rw [← gen]
    exact s.issued.stream_unfollow s.run.cur
  case others =>
    rw [← run] at hj
    rw [State.next, State.frame_updMe_ne _ _ hj, State.frame_unfollow_ne _ (run ▸ hj), State.frame_issued_ne _ (run ▸ hj)]

/-- Settles O31, by `fol_joins`, `exec_fol_fails` and `unfol_ends`. -/
theorem following : Obligations.Following := by
  unfold Obligations.Following
  intro s d a b ka kb A B c k
  exact ⟨fun hgo => ⟨fol_joins hgo, fun h => (exec_fol_fails hgo h).trans (congrArg _ (State.does_follow ..))⟩, unfol_ends s⟩

end Sys2Proof.Machine
end

section
/-! # O42: landings and replies at a frame, and the end of a slot transfer (R167, R210, R211, R220, R221, R491)

A landing and a reply fill a register in one way: a value or a poison cause, full and live. `Frame.fill` says so of one
register, `Frame.fillEs` of elements of a vector register, and `Frame.land_eq` gives a landing by the two. What is around it,
the wake of a core, the count of a frame counter and the answer, leaves the registers alone. -/

namespace Sys2Proof.Machine
variable {s t u : State} {f : Frame} {v : Res}

/-! ### What fills a register (R78, R210, R211) -/

/-- The bits that a reply leaves in its register: its value, or its cause. -/
def Res.word : Res → Word
  | .ok w => w
  | .err c => c.setWidth 64

def Res.failed : Res → Bool
  | .ok _ => false
  | .err _ => true

/-! ### A general register filled -/

theorem Frame.fill_g (f : Frame) {r : GReg} (h : r ≠ 0) (v : Res) : f.fill (.g r) v = { f with
    g := Tab.put f.g r.toNat v.word, gFull := setBit f.gFull r.toNat true,
    gPoison := setBit f.gPoison r.toNat v.failed, gLive := setBit f.gLive r.toNat true } := by
  cases v with
  | ok w => rw [Frame.fill, Frame.liveG, if_neg h, Frame.wrG, if_neg h]; rfl
  | err c => rw [Frame.fill, Frame.liveG, if_neg h, Frame.poisonG, if_neg h]; rfl

theorem Frame.fill_g_zero (f : Frame) (v : Res) : f.fill (.g 0) v = f := by cases v <;> rfl

theorem Frame.genReg_fill_g (f : Frame) {r : GReg} (h : r ≠ 0) (v : Res) :
    (f.fill (.g r) v).genReg r = (v.word, true, v.failed, true) := by
  rw [f.fill_g h, Frame.genReg, Frame.rdG, if_neg h, Frame.rawG]
  simp only [Tab.get?_put_self, Option.getD_some, getLsbD_setBit _ _ _ _ r.isLt, if_true]

theorem Frame.genReg_fill_g_ne (f : Frame) {r q : GReg} (h : q ≠ r ∨ q = 0) (v : Res) : (f.fill (.g r) v).genReg q = f.genReg q := by
  by_cases h0 : r = 0
  · rw [h0, Frame.fill_g_zero]
  · have hne : q.toNat ≠ r.toNat := fun e => by
      have e := BitVec.eq_of_toNat_eq e
      obtain h | h := h
      · exact h e
      · exact h0 (e ▸ h)
    rw [f.fill_g h0, Frame.genReg, Frame.rdG, Frame.rawG]
    simp only [Tab.get?_put_ne _ _ hne, getLsbD_setBit _ _ _ _ q.isLt, if_neg hne]
    rfl

/-- A filled general register is all that may differ. -/
theorem Frame.fill_g_eq (f : Frame) (r : GReg) (v : Res) :
    ∃ g full poison live, f.fill (.g r) v = { f with g := g, gFull := full, gPoison := poison, gLive := live } := by
  by_cases h : r = 0
  · rw [h, Frame.fill_g_zero]
    exact ⟨_, _, _, _, rfl⟩
  · exact ⟨_, _, _, _, f.fill_g h v⟩

/-! ### Elements of a vector register filled -/

/-- One element filled; of its register's live bit nothing is said yet. -/
def Frame.putE (f : Frame) (r : VReg) (e : Nat) (v : Res) : Frame :=
  { f with v := Tab.put f.v (8 * r.toNat + e) v.word, vFull := setBit f.vFull (8 * r.toNat + e) true,
           vPoison := setBit f.vPoison (8 * r.toNat + e) v.failed }

/-- Elements of a vector register, each filled with its value or cause. -/
def Frame.putEs (f : Frame) (r : VReg) (l : List Nat) (vals : Nat → Res) : Frame := l.foldl (fun f e => f.putE r e (vals e)) f

/-- The same, and the register is live. -/
def Frame.fillEs (f : Frame) (r : VReg) (l : List Nat) (vals : Nat → Res) : Frame := (f.putEs r l vals).liveV r

theorem Frame.fill_v (f : Frame) (r : VReg) (e : BitVec 3) (v : Res) : f.fill (.v r e) v = f.fillEs r [e.toNat] fun _ => v := by
  cases v <;> rfl

section
variable {r q : VReg} {e j : Nat} {l : List Nat} {vals : Nat → Res}

theorem Frame.vecReg_putE (f : Frame) (v : Res) (he : e < 8) (hj : j < 8) : (f.putE r e v).vecReg q j =
    if q = r ∧ j = e then (v.word, true, v.failed, f.vLive.getLsbD q.toNat) else f.vecReg q j := by
  have hlt : 8 * q.toNat + j < 256 := by omega
  unfold Frame.vecReg Frame.rdE Frame.rawE Frame.putE
  dsimp only
  rw [getLsbD_setBit _ _ _ _ hlt, getLsbD_setBit _ _ _ _ hlt]
  by_cases h : q = r ∧ j = e
  · rw [if_pos h]
    obtain ⟨rfl, rfl⟩ := h
    simp only [Tab.get?_put_self, Option.getD_some, if_true]
  · rw [if_neg h]
    have hne : 8 * q.toNat + j ≠ 8 * r.toNat + e := fun he => h ⟨BitVec.eq_of_toNat_eq (by omega), by omega⟩
    simp only [Tab.get?_put_ne _ _ hne, if_neg hne]

theorem Frame.vecReg_putEs (f : Frame) (hl : ∀ e ∈ l, e < 8) (hj : j < 8) : (f.putEs r l vals).vecReg q j =
    if q = r ∧ j ∈ l then ((vals j).word, true, (vals j).failed, f.vLive.getLsbD q.toNat) else f.vecReg q j := by
  induction l generalizing f with
  | nil => rw [if_neg (by simp)]; rfl
  | cons e l ih =>
    have he : e < 8 := hl e (by simp)
    rw [Frame.putEs, List.foldl_cons]
    refine (ih _ fun e h => hl e (by simp [h])).trans ?_
    rw [Frame.vecReg_putE _ _ he hj]
    by_cases hq : q = r
    · by_cases hje : j = e
      · simp [hq, hje, Frame.putE]
      · simp [hq, hje, Frame.putE]
    · simp [hq]

theorem Frame.putEs_eq (f : Frame) (r : VReg) (l : List Nat) (vals : Nat → Res) :
    ∃ x full poison, f.putEs r l vals = { f with v := x, vFull := full, vPoison := poison } := by
  induction l generalizing f with
  | nil => exact ⟨_, _, _, rfl⟩
  | cons e l ih =>
    obtain ⟨x, full, poison, h⟩ := ih (f.putE r e (vals e))
    exact ⟨x, full, poison, h⟩

/-- A filled vector register is all that may differ. -/
theorem Frame.fillEs_eq (f : Frame) (r : VReg) (l : List Nat) (vals : Nat → Res) :
    ∃ x full poison live, f.fillEs r l vals = { f with v := x, vFull := full, vPoison := poison, vLive := live } := by
  obtain ⟨x, full, poison, h⟩ := f.putEs_eq r l vals
  rw [Frame.fillEs, h]
  exact ⟨_, _, _, _, rfl⟩

theorem Frame.vecReg_liveV (f : Frame) (r : VReg) (q : VReg) (j : Nat) : (f.liveV r).vecReg q j =
    (f.rdE q j, f.vFull.getLsbD (8 * q.toNat + j), f.vPoison.getLsbD (8 * q.toNat + j), if q = r then true else f.vLive.getLsbD q.toNat) := by
  simp only [Frame.vecReg, Frame.liveV, getLsbD_setBit _ _ _ _ q.isLt, BitVec.toNat_inj]
  rfl

/-- Element j of the register that is filled. -/
theorem Frame.vecReg_fillEs (f : Frame) (hl : ∀ e ∈ l, e < 8) (h : j ∈ l) :
    (f.fillEs r l vals).vecReg r j = ((vals j).word, true, (vals j).failed, true) := by
  have put := f.vecReg_putEs (r := r) (q := r) (vals := vals) hl (hl j h)
  rw [if_pos ⟨rfl, h⟩] at put
  simp only [Frame.vecReg, Prod.mk.injEq] at put
  obtain ⟨value, full, poison, -⟩ := put
  rw [Frame.fillEs, Frame.vecReg_liveV, value, full, poison, if_pos rfl]

theorem Frame.vecReg_fillEs_ne (f : Frame) (hl : ∀ e ∈ l, e < 8) (hq : q ≠ r) (hj : j < 8) :
    (f.fillEs r l vals).vecReg q j = f.vecReg q j := by
  have put := f.vecReg_putEs (r := r) (q := q) (vals := vals) hl hj
  rw [if_neg fun h => hq h.1] at put
  rw [Frame.fillEs, Frame.vecReg_liveV, if_neg hq]
  exact put

/-- An element that is not filled, of the register of those that are. -/
theorem Frame.elem_fillEs_ne (f : Frame) (hl : ∀ e ∈ l, e < 8) (h : j ∉ l) (hj : j < 8) :
    (f.fillEs r l vals).rdE r j = f.rdE r j ∧ (f.fillEs r l vals).vFull.getLsbD (8 * r.toNat + j) = f.vFull.getLsbD (8 * r.toNat + j) := by
  have put := f.vecReg_putEs (r := r) (q := r) (vals := vals) hl hj
  rw [if_neg fun c => h c.2] at put
  simp only [Frame.vecReg, Prod.mk.injEq] at put
  obtain ⟨value, full, -⟩ := put
  exact ⟨value, full⟩

end

/-! ### A landing (R221) -/

/-- What a landing puts into a register: a word, or its cause. -/
def landRes (err : Option Byte) (w : Word) : Res :=
  match err with
  | some c => .err c
  | none => .ok w

/-- The registers that a landing fills. -/
def Frame.fillLanding (f : Frame) (la : LandAddr) (vs : List Word) (err : Option Byte) : Frame :=
  if la.cls = 0 then f.fill (.g la.reg) (landRes err (vs.headD 0))
  else f.fillEs (la.reg.setWidth 5) (if vs.length = 1 then [la.elem.toNat] else List.range 8) fun e =>
    landRes err (if vs.length = 1 then vs.headD 0 else vs.getD e 0)

theorem Frame.land_eq (f : Frame) (la : LandAddr) (vs : List Word) (err : Option Byte) :
    f.land la vs err = (f.fillLanding la vs err).wrC la.ctr.toNat ((f.fillLanding la vs err).rdC la.ctr.toNat + 1) := by
  have h : f.land la vs err = (fun g : Frame => g.wrC la.ctr.toNat (g.rdC la.ctr.toNat + 1)) (f.fillLanding la vs err) := by
    unfold Frame.land Frame.fillLanding
    cases err <;> split_ifs <;> rfl
  exact h

theorem Frame.fillLanding_eq (f : Frame) (la : LandAddr) (vs : List Word) (err : Option Byte) :
    ∃ g gf gp gl v vf vp vl, f.fillLanding la vs err = { f with
      g := g, gFull := gf, gPoison := gp, gLive := gl, v := v, vFull := vf, vPoison := vp, vLive := vl } := by
  unfold Frame.fillLanding
  split
  · obtain ⟨g, gf, gp, gl, h⟩ := f.fill_g_eq la.reg (landRes err (vs.headD 0))
    rw [h]
    exact ⟨_, _, _, _, _, _, _, _, rfl⟩
  · obtain ⟨v, vf, vp, vl, h⟩ := f.fillEs_eq (la.reg.setWidth 5) (if vs.length = 1 then [la.elem.toNat] else List.range 8) fun e =>
      landRes err (if vs.length = 1 then vs.headD 0 else vs.getD e 0)
    rw [h]
    exact ⟨_, _, _, _, _, _, _, _, rfl⟩

/-- A landing in a general register. -/
theorem Frame.landed_general (f : Frame) {la : LandAddr} (h0 : la.cls = 0) (vs : List Word) (err : Option Byte) :
    landed f (f.fillLanding la vs err) la vs err := by
  rw [Frame.fillLanding, if_pos h0]
  obtain ⟨g, gf, gp, gl, h⟩ := f.fill_g_eq la.reg (landRes err (vs.headD 0))
  refine ⟨fun q => by rw [h]; rfl, fun _ => ⟨fun hr => ?_, fun q hq => f.genReg_fill_g_ne hq _, fun q j => by rw [h]; rfl⟩,
    fun hc => absurd h0 hc⟩
  exact (f.genReg_fill_g hr _).trans (by cases err <;> rfl)

/-- A landing in one element of a vector register, or in all of it. -/
theorem Frame.landed_vector (f : Frame) {la : LandAddr} (h0 : la.cls ≠ 0) (vs : List Word) (err : Option Byte) :
    landed f (f.fillLanding la vs err) la vs err := by
  rw [Frame.fillLanding, if_neg h0]
  have below : ∀ e ∈ (if vs.length = 1 then [la.elem.toNat] else List.range 8), e < 8 := by
    intro e he
    split at he
    · exact List.mem_singleton.mp he ▸ la.elem.isLt
    · exact List.mem_range.mp he
  obtain ⟨v, vf, vp, vl, h⟩ := f.fillEs_eq (la.reg.setWidth 5) (if vs.length = 1 then [la.elem.toNat] else List.range 8) fun e =>
    landRes err (if vs.length = 1 then vs.headD 0 else vs.getD e 0)
  refine ⟨fun q => by rw [h]; rfl, fun hc => absurd hc h0, fun _ => ⟨fun q => by rw [h]; rfl,
    fun q j hq hj => f.vecReg_fillEs_ne below hq hj, fun one => ⟨?_, fun j hj hne => ?_⟩, fun whole j hj => ?_⟩⟩
  · refine (f.vecReg_fillEs below (by rw [if_pos one]; exact List.mem_singleton_self _)).trans ?_
    rw [if_pos one]
    cases err <;> rfl
  · exact f.elem_fillEs_ne below (by rw [if_pos one]; exact fun hm => hne (List.mem_singleton.mp hm)) hj
  · refine (f.vecReg_fillEs below (by rw [if_neg whole]; exact List.mem_range.mpr hj)).trans ?_
    rw [if_neg whole]
    cases err <;> rfl

theorem Frame.landed_fillLanding (f : Frame) (la : LandAddr) (vs : List Word) (err : Option Byte) :
    landed f (f.fillLanding la vs err) la vs err := by
  by_cases h0 : la.cls = 0
  · exact f.landed_general h0 vs err
  · exact f.landed_vector h0 vs err

/-- A blocked frame whose last source came may run (R221). -/
theorem State.stir_eq (s : State) (f : Frame) : ∃ st w t, s.stir f = { f with state := st, wait := w, since := t } := by
  unfold State.stir
  split
  · split <;> exact ⟨_, _, _, rfl⟩
  · exact ⟨_, _, _, rfl⟩

/-- A landing fills its registers and counts, whatever it does to the wait of its task. -/
theorem State.stir_land (s : State) (f : Frame) (la : LandAddr) (vs : List Word) (err : Option Byte) :
    landed f (s.stir (f.land la vs err)) la vs err ∧ (s.stir (f.land la vs err)).rdC la.ctr.toNat = f.rdC la.ctr.toNat + 1 := by
  obtain ⟨st, w, t, h⟩ := s.stir_eq (f.land la vs err)
  obtain ⟨g, gf, gp, gl, v, vf, vp, vl, hfill⟩ := f.fillLanding_eq la vs err
  have hland := f.landed_fillLanding la vs err
  rw [h, Frame.land_eq]
  rw [hfill] at hland ⊢
  exact ⟨hland, Tab.get_put_self ..⟩

/-! ### A reply (R210, R211) -/

theorem Frame.fill_eq (f : Frame) (dst : Dst) (v : Res) : ∃ g gf gp gl x xf xp xl fe, f.fill dst v = { f with
    g := g, gFull := gf, gPoison := gp, gLive := gl, v := x, vFull := xf, vPoison := xp, vLive := xl, fetched := fe } := by
  cases dst with
  | g r =>
    obtain ⟨g, gf, gp, gl, h⟩ := f.fill_g_eq r v
    rw [h]
    exact ⟨_, _, _, _, _, _, _, _, _, rfl⟩
  | v r e =>
    obtain ⟨x, xf, xp, xl, h⟩ := f.fillEs_eq r [e.toNat] fun _ => v
    rw [Frame.fill_v, h]
    exact ⟨_, _, _, _, _, _, _, _, _, rfl⟩
  | _ => exact ⟨_, _, _, _, _, _, _, _, _, rfl⟩

theorem Frame.genReg_fill_ne (f : Frame) {dst : Dst} {r : GReg} (h : dst ≠ .g r ∨ r = 0) (v : Res) : (f.fill dst v).genReg r = f.genReg r := by
  cases dst with
  | g q => exact f.genReg_fill_g_ne (h.imp (fun hne e => hne (by rw [e])) id) v
  | v q e =>
    obtain ⟨x, xf, xp, xl, hx⟩ := f.fillEs_eq q [e.toNat] fun _ => v
    rw [Frame.fill_v, hx]
    rfl
  | _ => rfl

theorem Frame.vecReg_fill_v (f : Frame) (r : VReg) (e : BitVec 3) (v : Res) :
    (f.fill (.v r e) v).vecReg r e.toNat = (v.word, true, v.failed, true) := by
  rw [Frame.fill_v]
  exact f.vecReg_fillEs (fun j hj => List.mem_singleton.mp hj ▸ e.isLt) (List.mem_singleton_self _)

theorem Frame.fetched_fill_code (f : Frame) (pa : Nat) (v : Res) : Tab.get? (f.fill (.code pa) v).fetched pa = some v :=
  Tab.get?_put_self ..

/-! ### Where traffic for a frame goes (R220) -/

/-- The fate of traffic is by the frames, and by the forwarding entries and the jobs of the cores. -/
theorem State.fate_congr (frames : t.frames = s.frames) (cores : ∀ a, (t.core a).fwd = (s.core a).fwd ∧ (t.core a).job = (s.core a).job)
    (o : Nat) (gen : BitVec 8) (job : Option (BitVec 12)) : t.fate o gen job = s.fate o gen job := by
  have frame (k : Nat) : t.frame k = s.frame k := congrArg (Tab.get · k Frame.reset) frames
  have tag : t.tagAt o = s.tagAt o := by rw [State.tagAt, State.tagAt, frame, (cores _).2]
  have home : t.homeOf o = s.homeOf o := by rw [State.homeOf, State.homeOf, State.fwdOf, State.fwdOf, frame, (cores _).1]
  unfold State.fate
  dsimp only
  rw [tag, home, frame, frame]

/-- A wake of a core changes its gate and clock, no fate. -/
theorem State.fate_rouse (s : State) (c o : Nat) (gen : BitVec 8) (job : Option (BitVec 12)) : (s.rouse c).fate o gen job = s.fate o gen job :=
  State.fate_congr (State.frames_rouse ..) (fun a => by
    obtain ⟨g, i, h⟩ := s.core_rouse c a
    rw [h]
    exact ⟨rfl, rfl⟩) o gen job

theorem State.deadCore_rouse (s : State) (c o : Nat) : (s.rouse c).deadCore o = s.deadCore o := by
  obtain ⟨g, i, h⟩ := s.core_rouse c (coreOfFrame o)
  have fwd : (s.rouse c).fwdOf o = s.fwdOf o := by rw [State.fwdOf, State.fwdOf, h]
  rw [State.deadCore, State.deadCore, fwd, State.frame, State.frames_rouse, State.frame]

theorem State.frame_rouse (s : State) (c k : Nat) : (s.rouse c).frame k = s.frame k := by rw [State.frame, State.frames_rouse, State.frame]

/-- A reply that is counted changes what its core counts. -/
theorem State.seen_eq (s : State) (c : Nat) (see : Option Nat) :
    ∃ cs n, s.seen c see = { s with cores := cs, clk := { s.clk with free := n } } := by
  unfold State.seen
  split
  · exact ⟨_, _, rfl⟩
  · dsimp only
    split
    · exact ⟨_, _, rfl⟩
    · split <;> exact ⟨_, _, rfl⟩

theorem State.fate_seen (s : State) (c : Nat) (see : Option Nat) (o : Nat) (gen : BitVec 8) (job : Option (BitVec 12)) :
    (s.seen c see).fate o gen job = s.fate o gen job :=
  State.fate_congr (s.seen_frames_mem c see).1 (fun a => by
    obtain ⟨w, l, h⟩ := s.core_seen c see a
    rw [h]
    exact ⟨rfl, rfl⟩) o gen job

/-! ### Answers on the chip (R215, R502) -/

theorem State.answer_own (s : State) (job : BitVec 12) (kind : BitVec 4) (m : Msg) : s.answer s.chip.chipNo job kind m = s.send m := if_pos rfl

theorem State.acked_own (s : State) (c e : Nat) (job : BitVec 12) (see : Option Nat) :
    s.acked (.core s.chip.chipNo c e) job see = s.send (.ack (.core s.chip.chipNo c e) see) := s.answer_own ..

theorem State.refused_own (s : State) (c e : Nat) (job : BitVec 12) (reason : Byte) :
    s.refused (.core s.chip.chipNo c e) job reason = s.send (.refusal (.core s.chip.chipNo c e) Cause.REFUSED reason) := s.answer_own ..

/-- The count of a frame counter wakes waiters of the chip; nothing else changes. -/
theorem State.wakeReached_frameCtr (s : State) (la : LandAddr) (v : Word) : ∃ ws sp net,
    s.wakeReached (.frameCtr la) v = { s with chip := { s.chip with waiters := ws, spilled := sp }, net := net } := by
  unfold State.wakeReached State.tidy
  dsimp only
  split
  · exact ⟨_, _, _, rfl⟩
  · exact ⟨_, _, _, rfl⟩

/-! ### A landing at its core (R220, R221, R224) -/

section
variable {n k c e : Nat} {who : TaskId} {job : BitVec 12} {la : LandAddr} {vs : List Word} {err : Option Byte}

/-- The state in which a landing has reached its target core. -/
def State.landsAt (s : State) (n : Nat) (la : LandAddr) : State := (s.dropMsg n).rouse la.core?

theorem State.net_landsAt (s : State) (n : Nat) (la : LandAddr) : (s.landsAt n la).net = dropAt s.net n := State.net_rouse ..
theorem State.mem_landsAt (s : State) (n : Nat) (la : LandAddr) : (s.landsAt n la).mem = s.mem := State.mem_rouse ..
theorem State.frames_landsAt (s : State) (n : Nat) (la : LandAddr) : (s.landsAt n la).frames = s.frames := State.frames_rouse ..
theorem State.chip_landsAt (s : State) (n : Nat) (la : LandAddr) : (s.landsAt n la).chip = s.chip := State.chip_rouse ..
theorem State.frame_landsAt (s : State) (n : Nat) (la : LandAddr) (k : Nat) : (s.landsAt n la).frame k = s.frame k := State.frame_rouse ..

/-- What a landing comes to, by its fate. -/
def State.meets (s : State) (fate : Fate) (x : Sender) (who : TaskId) (job : BitVec 12) (la : LandAddr) (vs : List Word) (err : Option Byte) : State :=
  match fate with
  | .refused => s.refused x job Cause.PERM
  | .dead => (s.countDead la.key).answer (x.chip s.chip.chipNo) job 2 (.deadRep x)
  | .held => s.holdAt la.key (.landing x who job la vs err)
  | .transfer k => s.holdIn k (.landing x who job la vs err)
  | .apply k =>
    let f := s.stir ((s.frame k).land la vs err)
    let s := (s.setFrame k f).wakeReached la.counter (f.rdC la.ctr.toNat)
    s.acked x job (s.seeSender x (some (some (tileOfCore la.core?), 7)))

theorem State.landAt_eq (s : State) (x : Sender) (who : TaskId) (job : BitVec 12) (la : LandAddr) (vs : List Word) (err : Option Byte) :
    s.landAt x who job la vs err = (s.rouse la.core?).meets ((s.rouse la.core?).fate la.key la.gen (some job)) x who job la vs err := rfl

theorem exec_landingArrival {x : Sender} {fate : Fate} (hd : s.deliverable n = some (.landing x who job la vs err))
    (hc : la.chip = s.chip.chipNo) (hf : s.fate la.key la.gen (some job) = fate) :
    exec (.landingArrival n) s = .next ((s.landsAt n la).meets fate x who job la vs err) := by
  have there : (s.landsAt n la).fate la.key la.gen (some job) = fate := (State.fate_rouse ..).trans hf
  show Host.Outcome.next (s.landingArrives n) = _
  rw [State.landingArrives, hd]
  refine congrArg _ ((if_neg fun h => h hc).trans ?_)
  rw [State.landAt_eq, ← State.landsAt, there]

/-- Around the frame that takes a landing, waiters of the chip and messages may change, and the acknowledgement goes last. -/
theorem State.meets_apply (s : State) (k c e : Nat) (who : TaskId) (job : BitVec 12) (la : LandAddr) (vs : List Word) (err : Option Byte) :
    ∃ chip net z, s.meets (.apply k) (.core s.chip.chipNo c e) who job la vs err =
      State.send { s.setFrame k (s.stir ((s.frame k).land la vs err)) with chip := chip, net := net } (.ack (.core s.chip.chipNo c e) z) := by
  obtain ⟨ws, sp, net, woken⟩ := (s.setFrame k (s.stir ((s.frame k).land la vs err))).wakeReached_frameCtr
    { la with cls := 2, reg := la.ctr.setWidth 6, elem := 0, ctr := 0 } ((s.stir ((s.frame k).land la vs err)).rdC la.ctr.toNat)
  rw [State.meets, LandAddr.counter]
  dsimp only
  rw [woken]
  exact ⟨_, _, _, State.acked_own ..⟩

section
variable (hd : s.deliverable n = some (.landing (.core s.chip.chipNo c e) who job la vs err)) (hc : la.chip = s.chip.chipNo)
include hd hc

theorem landing_refused (hf : s.fate la.key la.gen (some job) = .refused) : yields (.landingArrival n) s fun t =>
    t.frames = s.frames ∧ s.sameBytes t ∧ t.net = dropAt s.net n ++ [.refusal (.core s.chip.chipNo c e) Cause.REFUSED Cause.PERM] := by
  refine ⟨_, exec_landingArrival hd hc hf, ?_⟩
  rw [← s.chip_landsAt n la, State.meets, State.refused_own]
  exact ⟨s.frames_landsAt n la, State.sameBytes_of_mem (s.mem_landsAt n la), congrArg (· ++ _) (s.net_landsAt n la)⟩

theorem landing_dead (hf : s.fate la.key la.gen (some job) = .dead) : yields (.landingArrival n) s fun t =>
    t.frames = s.frames ∧ s.sameBytes t ∧ t.net = dropAt s.net n ++ [.deadRep (.core s.chip.chipNo c e)] ∧
      (t.core (s.deadCore la.key)).qdead = min ((s.core (s.deadCore la.key)).qdead + 1) 0xFFFFFFFF := by
  refine ⟨_, exec_landingArrival hd hc hf, ?_⟩
  have reported : (s.landsAt n la).meets .dead (.core s.chip.chipNo c e) who job la vs err =
      ((s.landsAt n la).countDead la.key).send (.deadRep (.core s.chip.chipNo c e)) := by
    rw [← s.chip_landsAt n la]
    exact ((s.landsAt n la).countDead la.key).answer_own job 2 _
  have counts : ((s.landsAt n la).core (s.deadCore la.key)).qdead = (s.core (s.deadCore la.key)).qdead := by
    obtain ⟨g, i, core⟩ := (s.dropMsg n).core_rouse la.core? (s.deadCore la.key)
    rw [State.landsAt, core]
    rfl
  have deadCore : (s.landsAt n la).deadCore la.key = s.deadCore la.key := State.deadCore_rouse ..
  rw [reported]
  refine ⟨s.frames_landsAt n la, State.sameBytes_of_mem (s.mem_landsAt n la), congrArg (· ++ _) (s.net_landsAt n la), ?_⟩
  rw [← counts, ← deadCore]
  exact congrArg Core.qdead (State.core_setCore ..)

theorem landing_held (hf : s.fate la.key la.gen (some job) = .held) : yields (.landingArrival n) s fun t =>
    t.frames = s.frames ∧ t.net = dropAt s.net n ∧ (t.core (coreOfFrame la.key)).traffic =
      (s.core (coreOfFrame la.key)).traffic ++ [.landing (.core s.chip.chipNo c e) who job la vs err] := by
  refine ⟨_, exec_landingArrival hd hc hf, s.frames_landsAt n la, s.net_landsAt n la, (congrArg Core.traffic (State.core_setCore ..)).trans ?_⟩
  obtain ⟨g, i, core⟩ := (s.dropMsg n).core_rouse la.core? (coreOfFrame la.key)
  rw [State.landsAt, core]
  rfl

theorem landing_transfer (hf : s.fate la.key la.gen (some job) = .transfer k) : yields (.landingArrival n) s fun t =>
    t.net = dropAt s.net n ∧ t.frame k =
      { s.frame k with heldMsgs := (s.frame k).heldMsgs ++ [.landing (.core s.chip.chipNo c e) who job la vs err] } := by
  refine ⟨_, exec_landingArrival hd hc hf, s.net_landsAt n la, (State.frame_setFrame ..).trans ?_⟩
  rw [State.frame_landsAt]

theorem landing_applied (hf : s.fate la.key la.gen (some job) = .apply k) : yields (.landingArrival n) s fun t =>
    onlyFrame s t k ∧ landed (s.frame k) (t.frame k) la vs err ∧
      (t.frame k).rdC la.ctr.toNat = (s.frame k).rdC la.ctr.toNat + 1 ∧ ∃ z, t.net.getLast? = some (.ack (.core s.chip.chipNo c e) z) := by
  refine ⟨_, exec_landingArrival hd hc hf, ?_⟩
  obtain ⟨chip, net, z, h⟩ := (s.landsAt n la).meets_apply k c e who job la vs err
  rw [s.frame_landsAt n la] at h
  rw [← s.chip_landsAt n la, h]
  obtain ⟨registers, count⟩ := (s.landsAt n la).stir_land (s.frame k) la vs err
  generalize (s.landsAt n la).stir ((s.frame k).land la vs err) = g at registers count
  have frame : ((s.landsAt n la).setFrame k g).frame k = g := State.frame_setFrame ..
  rw [← frame] at registers count
  exact ⟨⟨fun j hj => (State.frame_setFrame_ne _ _ hj).trans (s.frame_landsAt n la j), State.sameBytes_of_mem (s.mem_landsAt n la)⟩,
    registers, count, z, List.getLast?_concat ..⟩

end
end

/-! ### A reply at its task (R210, R354) -/

theorem Tab.get?_clear {α : Type} {lo hi i : Nat} (hlo : lo ≤ i) (hhi : i < hi) (t : Table α) : Tab.get? (Tab.clear t lo hi) i = none := by
  induction t with
  | nil => rfl
  | cons p t ih =>
    rw [Tab.clear, List.filter_cons]
    split
    next h =>
      have hne : p.1 ≠ i := fun e => by simp [e, hlo, hhi] at h
      exact (if_neg hne).trans ih
    · exact ih

section
variable {n k : Nat} {who : TaskId} {dst : Dst} {acq : Option (Scope × List Rel)} {see : Option Nat}

/-- The state in which a task's core has dropped the copies that its acquiring reply makes old. -/
def State.forgets (s : State) (c : Nat) (acq : Option (Scope × List Rel)) : State :=
  match acq with
  | some (sc, _) => s.acquireAt c sc
  | none => s

/-- What the task then knows. -/
def Frame.learns (f : Frame) (acq : Option (Scope × List Rel)) (chip : BitVec 11) (tile : Nat) : Frame :=
  match acq with
  | some (sc, rels) => f.acquires sc rels chip tile
  | none => f

theorem State.acquireAt_eq (s : State) (c : Nat) (sc : Scope) : ∃ l1 way, s.acquireAt c sc = { s with mem := { s.mem with l1 := l1, way := way } } ∧
    ∀ l, l < 2 ^ 36 → Tab.get? l1 (l1Key c l) = none := by
  have cleared (l : Nat) (hl : l < 2 ^ 36) : Tab.get? (Tab.clear s.mem.l1 (l1Key c 0) (l1Key (c + 1) 0)) (l1Key c l) = none :=
    Tab.get?_clear (by unfold l1Key; omega) (by unfold l1Key; omega) _
  cases sc <;> exact ⟨_, _, rfl, cleared⟩

theorem State.forgets_eq (s : State) (c : Nat) (acq : Option (Scope × List Rel)) :
    ∃ l1 way, s.forgets c acq = { s with mem := { s.mem with l1 := l1, way := way } } ∧
      ∀ p, acq = some p → ∀ l, l < 2 ^ 36 → Tab.get? l1 (l1Key c l) = none := by
  cases acq with
  | none => exact ⟨_, _, rfl, nofun⟩
  | some p =>
    obtain ⟨l1, way, h, cleared⟩ := s.acquireAt_eq c p.1
    exact ⟨l1, way, h, fun _ _ => cleared⟩

theorem Frame.learns_eq (f : Frame) (acq : Option (Scope × List Rel)) (chip : BitVec 11) (tile : Nat) :
    ∃ kn rl aq, f.learns acq chip tile = { f with knows := kn, rels := rl, acq := aq } := by
  cases acq <;> exact ⟨_, _, _, rfl⟩

/-- A task that acquires knows what the releases carry and what it knew (R354). -/
theorem acquiresFrom_acquires (s : State) (f : Frame) (k : Nat) (sc : Scope) (rels : List Rel) :
    acquiresFrom s f (f.acquires sc rels s.chip.chipNo (tileOfCore (f.coreAt k))) k sc rels := by
  have mem {i : Nat} (h : i ∈ acquired rels sc s.chip.chipNo (some (tileOfCore (f.coreAt k))) ++ f.knows) :
      i ∈ (f.acquires sc rels s.chip.chipNo (tileOfCore (f.coreAt k))).knows := List.mem_eraseDups.mpr h
  refine ⟨rfl, rfl, fun i hi => mem (List.mem_append_right _ hi), fun r hr => ?_⟩
  intro near hrel hown i hi
  have covers : (scopeCovers r.scope near && scopeCovers sc near) = true := by rw [hrel, hown]; rfl
  exact mem (List.mem_append_left _ (List.mem_flatMap.mpr ⟨r, hr, (if_pos covers).symm ▸ hi⟩))

/-- The frame of a task that a reply reached. -/
def State.replied (s : State) (k : Nat) (dst : Dst) (v : Res) (acq : Option (Scope × List Rel)) : Frame :=
  s.stir (((s.frame k).fill dst v).learns acq s.chip.chipNo (tileOfCore ((s.frame k).coreAt k)))

theorem Frame.coreAt_fill (f : Frame) (dst : Dst) (v : Res) (k : Nat) : (f.fill dst v).coreAt k = f.coreAt k := by
  obtain ⟨_, _, _, _, _, _, _, _, _, h⟩ := f.fill_eq dst v
  rw [h]
  rfl

theorem Frame.coreAt_acquires (f : Frame) (sc : Scope) (rels : List Rel) (chip : BitVec 11) (tile k : Nat) :
    (f.acquires sc rels chip tile).coreAt k = f.coreAt k := rfl

theorem State.fillAt_apply (hf : s.fate who.key who.gen none = .apply k) : s.fillAt who dst v acq =
    ((s.forgets ((s.frame k).coreAt k) acq).setFrame k (s.replied k dst v acq)).rouse ((s.frame k).coreAt k) := by
  rw [State.fillAt, hf]
  cases acq with
  | none =>
    dsimp only
    rw [Frame.coreAt_fill]
    rfl
  | some p =>
    dsimp only
    rw [Frame.coreAt_acquires, Frame.coreAt_fill]
    obtain ⟨_ | _ | _, rels⟩ := p <;> rfl

theorem exec_replyArrival (hd : s.deliverable n = some (.reply who dst v acq see)) :
    exec (.replyArrival n) s = .next (((s.dropMsg n).seen (s.issuer who dst) see).fillAt who dst v acq) := by
  show Host.Outcome.next (s.replyArrives n) = _
  rw [State.replyArrives, hd]

/-- Only the task's wait and what it knows may differ beside what the reply fills. -/
theorem State.replied_eq (s : State) (k : Nat) (dst : Dst) (v : Res) (acq : Option (Scope × List Rel)) : ∃ st w t kn rl aq,
    s.replied k dst v acq = { (s.frame k).fill dst v with state := st, wait := w, since := t, knows := kn, rels := rl, acq := aq } := by
  obtain ⟨kn, rl, aq, hl⟩ := ((s.frame k).fill dst v).learns_eq acq s.chip.chipNo (tileOfCore ((s.frame k).coreAt k))
  obtain ⟨st, w, t, h⟩ := s.stir_eq (((s.frame k).fill dst v).learns acq s.chip.chipNo (tileOfCore ((s.frame k).coreAt k)))
  rw [State.replied, h, hl]
  exact ⟨_, _, _, _, _, _, rfl⟩

theorem State.acquiresFrom_replied (s : State) (k : Nat) (dst : Dst) (v : Res) (sc : Scope) (rels : List Rel) :
    acquiresFrom s (s.frame k) (s.replied k dst v (some (sc, rels))) k sc rels := by
  obtain ⟨st, w, t, h⟩ := s.stir_eq (((s.frame k).fill dst v).learns (some (sc, rels)) s.chip.chipNo (tileOfCore ((s.frame k).coreAt k)))
  obtain ⟨_, _, _, _, _, _, _, _, _, hf⟩ := (s.frame k).fill_eq dst v
  have := acquiresFrom_acquires s (s.frame k) k sc rels
  rw [State.replied, h, hf]
  exact this

/-- A reply at its task. -/
theorem replyArrival_applied (hd : s.deliverable n = some (.reply who dst v acq see)) (hf : s.fate who.key who.gen none = .apply k) :
    yields (.replyArrival n) s fun t => onlyFrame s t k ∧ t.net = dropAt s.net n ∧ t.frame k = s.replied k dst v acq ∧
      ∀ p, acq = some p → ∀ l, l < 2 ^ 36 → Tab.get? t.mem.l1 (l1Key ((s.frame k).coreAt k) l) = none := by
  have fate := ((s.dropMsg n).fate_seen (s.issuer who dst) see who.key who.gen none).trans hf
  refine ⟨_, (exec_replyArrival hd).trans (congrArg Host.Outcome.next (State.fillAt_apply fate)), ?_⟩
  obtain ⟨cs, m, hseen⟩ := (s.dropMsg n).seen_eq (s.issuer who dst) see
  obtain ⟨l1, way, hforgets, cleared⟩ := ((s.dropMsg n).seen (s.issuer who dst) see).forgets_eq ((s.frame k).coreAt k) acq
  have frame (j : Nat) : ((s.dropMsg n).seen (s.issuer who dst) see).frame j = s.frame j := by rw [hseen]; rfl
  have replied : ((s.dropMsg n).seen (s.issuer who dst) see).replied k dst v acq = s.replied k dst v acq := by rw [hseen]; rfl
  rw [frame, replied, hforgets]
  refine ⟨⟨fun j hj => ?_, fun p => ?_⟩, ?_, ?_, fun p hp l hl => ?_⟩
  · rw [State.frame_rouse]
    exact (State.frame_setFrame_ne _ _ hj).trans (frame j)
  · refine (State.sameBytes_of_mem (State.mem_rouse ..) p).trans ?_
    rw [hseen]
    cases p <;> rfl
  · rw [State.net_rouse, hseen]
    rfl
  · rw [State.frame_rouse, State.frame_setFrame]
  · rw [State.mem_rouse]
    exact cleared p hp l hl

end

/-! ### The end of a slot transfer (R167, R491) -/

section
variable {k r : Nat} {loads : Bool}

/-- A frame whose slot transfer has ended, with no traffic held. -/
def State.transferred (s : State) (loads : Bool) (f : Frame) : Frame :=
  { f with transfer := none, heldMsgs := [],
           state := if loads = true ∧ f.state = .ready ∧ s.issueHeld f = false then .running else f.state }

theorem State.setFrame_setFrame (s : State) (k : Nat) (f g : Frame) : (s.setFrame k f).setFrame k g = s.setFrame k g := by
  simp [State.setFrame]

/-- Once the lines are loaded, the frame is in its slot or out of it, and its traffic is applied. -/
theorem exec_slotTransferEnd {w : State} (hw : (if (s.frame k).transfer = some true then s.loadMarked k else s) = w)
    (h : (w.frame k).transfer = some loads) :
    exec (.slotTransferEnd k) s = .next ((w.frame k).heldMsgs.foldl State.applyHeld (w.setFrame k (w.transferred loads (w.frame k)))) := by
  show Host.Outcome.next (s.transferEnd k) = _
  rw [State.transferEnd]
  dsimp only
  rw [hw, h]
  dsimp only
  rw [State.releaseTraffic, State.frame_setFrame, State.setFrame_setFrame]
  simp only [Bool.not_eq_true']
  rfl

theorem State.loadMarked_clean (h : s.mem.badArena = []) (k : Nat) : s.loadMarked k = s := by
  rw [State.loadMarked, h]
  rfl

theorem slotTransferEnd_clean (ht : (s.frame k).transfer = some loads) (hbad : loads = true → s.mem.badArena = []) :
    exec (.slotTransferEnd k) s = .next ((s.frame k).heldMsgs.foldl State.applyHeld (s.setFrame k (s.transferred loads (s.frame k)))) := by
  refine exec_slotTransferEnd ?_ ht
  split
  next hl => exact State.loadMarked_clean (hbad (Option.some.inj (ht.symm.trans hl))) k
  · rfl

/-! ### Registers loaded from uncorrectable lines (R211, R491) -/

/-- A general register holds the poison of what could not be read. -/
def Frame.spoiled (f : Frame) (r : Nat) : Prop := f.gPoison.getLsbD r = true ∧ f.rawG r = Cause.REFUSED.setWidth 64

theorem Frame.spoiled_poisonG_self (f : Frame) {q : GReg} (h : q ≠ 0) : (f.poisonG q Cause.REFUSED).spoiled q.toNat := by
  rw [Frame.poisonG, if_neg h]
  exact ⟨(getLsbD_setBit _ _ _ _ q.isLt).trans (if_pos rfl), congrArg (Option.getD · _) (Tab.get?_put_self ..)⟩

theorem Frame.spoiled_poisonG (hr : r < 64) (h : f.spoiled r) (q : GReg) : (f.poisonG q Cause.REFUSED).spoiled r := by
  by_cases hq : r = q.toNat ∧ q ≠ 0
  · rw [hq.1]
    exact f.spoiled_poisonG_self hq.2
  · rw [Frame.poisonG]
    split
    · exact h
    next h0 =>
      have hne : r ≠ q.toNat := fun e => hq ⟨e, h0⟩
      refine ⟨(getLsbD_setBit _ _ _ _ hr).trans ((if_neg hne).trans h.1), ?_⟩
      rw [Frame.rawG]
      dsimp only
      rw [Tab.get?_put_ne _ _ hne]
      exact h.2

/-- The registers that a load finds uncorrectable, file by file. -/
def Frame.poisonGs (f : Frame) (l : List Nat) : Frame := l.foldl (fun f n => f.poisonG (BitVec.ofNat 6 n) Cause.REFUSED) f
def Frame.poisonEs (f : Frame) (l : List Nat) : Frame := l.foldl (fun f i => f.poisonE (BitVec.ofNat 5 (i / 8)) (i % 8) Cause.REFUSED) f
def Frame.poisonMs (f : Frame) (l : List Nat) : Frame := l.foldl (fun f n =>
  { f with m := Tab.put f.m n (Cause.REFUSED.setWidth 64), mFull := setBit f.mFull n true, mPoison := setBit f.mPoison n true }) f

theorem Frame.spoiled_poisonGs (f : Frame) {l : List Nat} (h : r ∈ l) (hr : 0 < r) (hlt : r < 64) : (f.poisonGs l).spoiled r := by
  obtain ⟨l₁, l₂, rfl⟩ := List.append_of_mem h
  have toNat : (BitVec.ofNat 6 r).toNat = r := by rw [BitVec.toNat_ofNat]; omega
  have hne : BitVec.ofNat 6 r ≠ 0 := fun e => by
    rw [e] at toNat
    exact absurd toNat (by simpa using hr.ne)
  rw [Frame.poisonGs, List.foldl_append, List.foldl_cons]
  refine List.foldlRecOn (motive := fun g : Frame => g.spoiled r) _ _ ?_ fun g hg n _ => Frame.spoiled_poisonG hlt hg _
  have self := (Frame.poisonGs f l₁).spoiled_poisonG_self hne
  rwa [toNat] at self

theorem Frame.poisonGs_eq (f : Frame) (l : List Nat) : ∃ g gf gp, f.poisonGs l = { f with g := g, gFull := gf, gPoison := gp } := by
  refine List.foldlRecOn (motive := fun t : Frame => ∃ g gf gp, t = { f with g := g, gFull := gf, gPoison := gp }) _ _ ⟨_, _, _, rfl⟩ ?_
  rintro _ ⟨_, _, _, rfl⟩ n -
  unfold Frame.poisonG
  split <;> exact ⟨_, _, _, rfl⟩

theorem Frame.poisonEs_eq (f : Frame) (l : List Nat) : ∃ x xf xp, f.poisonEs l = { f with v := x, vFull := xf, vPoison := xp } := by
  refine List.foldlRecOn (motive := fun t : Frame => ∃ x xf xp, t = { f with v := x, vFull := xf, vPoison := xp }) _ _ ⟨_, _, _, rfl⟩ ?_
  rintro _ ⟨_, _, _, rfl⟩ n -
  exact ⟨_, _, _, rfl⟩

theorem Frame.poisonMs_eq (f : Frame) (l : List Nat) : ∃ x xf xp, f.poisonMs l = { f with m := x, mFull := xf, mPoison := xp } := by
  refine List.foldlRecOn (motive := fun t : Frame => ∃ x xf xp, t = { f with m := x, mFull := xf, mPoison := xp }) _ _ ⟨_, _, _, rfl⟩ ?_
  rintro _ ⟨_, _, _, rfl⟩ n -
  exact ⟨_, _, _, rfl⟩

/-- An uncorrectable doubleword of a frame image lies in the line of its register. -/
theorem State.bad_line (hr : r < 64) (h : s.localBad (.image k (8 * r)) 8 = true) : ∃ l ∈ s.mem.badArena, l / 64 = k ∧ l % 64 = r / 8 := by
  obtain ⟨l, hl, hat⟩ := List.any_eq_true.mp h
  simp only [Bool.and_eq_true, decide_eq_true_eq] at hat
  exact ⟨l, hl, by omega, by omega⟩

/-- A live general register is in an image line that is saved (R166). -/
theorem Frame.savesLine_live (hr : r < 64) (h : f.gLive.getLsbD r = true) : f.savesLine (r / 8) = true := by
  rw [Frame.savesLine, if_pos (by omega)]
  refine List.any_eq_true.mpr ⟨r % 8, List.mem_range.mpr (by omega), ?_⟩
  rw [Nat.div_add_mod, h]
  rfl

/-- The live general registers of a frame whose doublewords are uncorrectable. -/
def State.badGs (s : State) (k : Nat) : List Nat :=
  idxs 64 fun n => decide (n ≠ 0) && (s.frame k).gLive.getLsbD n && s.localBad (.image k (8 * n)) 8

/-- A load that reads a marked line poisons registers of all three files, halts the task and reports a fatal fault. -/
theorem State.loadMarked_eq (h : (s.mem.badArena.any fun l => decide (l / 64 = k) && (s.frame k).savesLine (l % 64)) = true) : ∃ vs ms,
    s.loadMarked k = (s.setFrame k (Frame.poisonMs { ((s.frame k).poisonGs (s.badGs k)).poisonEs vs with
      state := .parked, wait := .halted, since := s.clk.cycle } ms)).send (.fatal (s.frame k).job Cause.REFUSED (some (imageAddr k))) :=
  ⟨_, _, if_neg (by rw [h]; exact Bool.false_ne_true)⟩

theorem State.loadMarked_spoils (hr : 0 < r) (hlt : r < 64) (hlive : (s.frame k).gLive.getLsbD r = true)
    (hbad : s.localBad (.image k (8 * r)) 8 = true) : ∃ g : Frame,
    s.loadMarked k = (s.setFrame k g).send (.fatal (s.frame k).job Cause.REFUSED (some (imageAddr k))) ∧ g.spoiled r ∧
      g.state = .parked ∧ g.wait = .halted ∧ g.transfer = (s.frame k).transfer ∧ g.heldMsgs = (s.frame k).heldMsgs := by
  obtain ⟨l, hl, hk, hline⟩ := State.bad_line hlt hbad
  have marked : (s.mem.badArena.any fun l => decide (l / 64 = k) && (s.frame k).savesLine (l % 64)) = true :=
    List.any_eq_true.mpr ⟨l, hl, by rw [hk, hline, Frame.savesLine_live hlt hlive]; simp⟩
  have mem : r ∈ s.badGs k := List.mem_filter.mpr ⟨List.mem_range.mpr hlt, by simp [hlive, hbad, hr.ne']⟩
  have spoiled := (s.frame k).spoiled_poisonGs mem hr hlt
  obtain ⟨vs, ms, h⟩ := State.loadMarked_eq marked
  obtain ⟨g, gf, gp, hg⟩ := (s.frame k).poisonGs_eq (s.badGs k)
  refine ⟨_, h, ?_⟩
  obtain ⟨x, xf, xp, hx⟩ := ((s.frame k).poisonGs (s.badGs k)).poisonEs_eq vs
  rw [hx]
  obtain ⟨y, yf, yp, hy⟩ := Frame.poisonMs_eq { (s.frame k).poisonGs (s.badGs k) with
    v := x, vFull := xf, vPoison := xp, state := .parked, wait := .halted, since := s.clk.cycle } ms
  rw [hy]
  rw [hg] at spoiled ⊢
  exact ⟨spoiled, rfl, rfl, rfl, rfl⟩

theorem slotTransferEnd_spoils (ht : (s.frame k).transfer = some true) (hheld : (s.frame k).heldMsgs = []) (hr : 0 < r) (hlt : r < 64)
    (hlive : (s.frame k).gLive.getLsbD r = true) (hbad : s.localBad (.image k (8 * r)) 8 = true) :
    yields (.slotTransferEnd k) s fun t => (t.frame k).gPoison.getLsbD r = true ∧ (t.frame k).rawG r = Cause.REFUSED.setWidth 64 ∧
      (t.frame k).state = .parked ∧ (t.frame k).wait = .halted ∧ Msg.fatal (s.frame k).job Cause.REFUSED (some (imageAddr k)) ∈ t.net := by
  obtain ⟨g, h, spoiled, parked, halted, transfer, held⟩ := State.loadMarked_spoils hr hlt hlive hbad
  let w := (s.setFrame k g).send (.fatal (s.frame k).job Cause.REFUSED (some (imageAddr k)))
  have frame : w.frame k = g := State.frame_setFrame ..
  have hexec := exec_slotTransferEnd (w := w) ((if_pos ht).trans h) (by rw [frame, transfer, ht])
  rw [frame, held, hheld] at hexec
  refine ⟨_, hexec, ?_⟩
  have after : (w.setFrame k (w.transferred true g)).frame k = w.transferred true g := State.frame_setFrame ..
  have stays : (w.transferred true g).state = .parked := by
    refine (if_neg fun ⟨_, ready, _⟩ => ?_).trans parked
    exact absurd (ready.symm.trans parked) nofun
  obtain ⟨poison, value⟩ := spoiled
  beta_reduce
  rw [List.foldl_nil, after]
  exact ⟨poison, value, stays, halted, List.mem_append_right _ (List.mem_singleton_self _)⟩

end

/-- Settles O42, clause by clause: the fates of a landing, a reply, and the two ends of a slot transfer. -/
theorem frameArrivals : Obligations.FrameArrivals := by
  unfold Obligations.FrameArrivals
  intro s n k c e who job la vs err dst v acq see loads x m f rest poison value
  refine ⟨fun hd hc => ⟨landing_applied hd hc, landing_refused hd hc, landing_dead hd hc, landing_held hd hc, landing_transfer hd hc⟩,
    fun hd hf => ?reply, fun ht hheld r hr hlt => slotTransferEnd_spoils ht hheld hr hlt, slotTransferEnd_clean⟩
  case reply =>
    obtain ⟨t, hexec, only, net, frame, cleared⟩ := replyArrival_applied hd hf
    have filled : ∃ st w since kn rl aq, s.replied k dst v acq = { f.fill dst v with
        state := st, wait := w, since := since, knows := kn, rels := rl, acq := aq } := s.replied_eq k dst v acq
    obtain ⟨st, w, since, kn, rl, aq, filled⟩ := filled
    have result : (v.word, true, v.failed, true) = (value, true, poison, true) := by cases v <;> rfl
    refine ⟨t, hexec, only, net, ?specials, fun r hdst hr => ?general, fun r hdst => ?others, fun r j hdst => ?element, fun pa hdst => ?code,
      fun sc rels hacq => ⟨?acquires, cleared _ hacq⟩⟩
    case specials =>
      obtain ⟨_, _, _, _, _, _, _, _, _, h⟩ := f.fill_eq dst v
      rw [frame, filled, h]
      rfl
    case general =>
      rw [frame, filled, hdst]
      exact (f.genReg_fill_g hr v).trans result
    case others =>
      rw [frame, filled]
      exact f.genReg_fill_ne hdst v
    case element =>
      rw [frame, filled, hdst]
      exact (f.vecReg_fill_v r j v).trans result
    case code =>
      rw [frame, filled, hdst]
      exact f.fetched_fill_code pa v
    case acquires =>
      rw [frame, hacq]
      exact s.acquiresFrom_replied k dst v sc rels

end Sys2Proof.Machine
end

section
/-! # O2: the worked words of the spec (R188, R189, R191, R194, R195, R246, R65) -/

namespace Sys2Proof.Encoding

/-- Settles O2: each instruction is in its ranges and is encoded as its word, so O1 gives it back; no row has major 0. -/
theorem decodeExamples : Obligations.DecodeExamples := by
  unfold Obligations.DecodeExamples
  refine ⟨decodeEncode _ _ ?_ rfl, decodeEncode _ _ ?_ rfl, decodeEncode _ _ ?_ rfl, decodeEncode _ _ ?_ rfl,
    decodeEncode _ _ ?_ rfl, decodeEncode _ _ ?_ rfl, ?major0⟩
  case major0 =>
    have illegal : decode 0 = .error .major := rfl
    exact fun i h => nomatch illegal.symm.trans h
  all_goals decide

end Sys2Proof.Encoding
end

section
/-! # O7: the scalar forms of two registers (R186–R188)

The lemmas `Alu.…_eq` say as arithmetic on numbers what each operation of the model gives. -/

namespace Sys2Proof.Machine

/-! ### Forms with one operation on full sources -/

section
variable {s : State} {i : Instr} {d a b : GReg} {ka kb : Bool} {v : Word}

theorem exec_alu {op : Word → Word → Word} (hgo : s.goes [.g a ka, .g b kb]) (h : exec i s = .next (s.alu op d a b ka kb))
    (hv : op (s.me.rdG a) (s.me.rdG b) = v) : exec i s = .next (s.gives d v) := by
  rw [h, State.alu_go hgo, hv]

theorem exec_alu1 {op : Word → Word} (hgo : s.goes [.g a ka]) (h : exec i s = .next (s.alu1 op d a ka))
    (hv : op (s.me.rdG a) = v) : exec i s = .next (s.gives d v) := by
  rw [h, State.alu1_go hgo, hv]

end

section
variable (A B : Word)

/-! ### Products -/

theorem Alu.mul_eq : Alu.mul A B = BitVec.ofNat 64 (A.toNat * B.toNat) := BitVec.eq_of_toNat_eq (by simp [Alu.mul])

theorem extractHigh_ofInt (p : Int) : (BitVec.ofInt 128 p).extractLsb' 64 64 = BitVec.ofInt 64 (p / 2 ^ 64) := by
  apply BitVec.eq_of_toNat_eq
  rw [BitVec.extractLsb'_toNat, BitVec.toNat_ofInt, BitVec.toNat_ofInt, Nat.shiftRight_eq_div_pow]
  omega

theorem extractHigh_ofNat (p : Nat) : (BitVec.ofNat 128 p).extractLsb' 64 64 = BitVec.ofNat 64 (p / 2 ^ 64) := by
  rw [← BitVec.ofInt_natCast, extractHigh_ofInt, ← BitVec.ofInt_natCast]
  rfl

theorem Alu.mulh_eq : Alu.mulh A B = BitVec.ofInt 64 (A.toInt * B.toInt / 2 ^ 64) := by
  rw [← extractHigh_ofInt, BitVec.ofInt_mul]
  rfl

theorem Alu.mulhu_eq : Alu.mulhu A B = BitVec.ofNat 64 (A.toNat * B.toNat / 2 ^ 64) := by
  rw [← extractHigh_ofNat, BitVec.ofNat_mul, BitVec.ofNat_toNat, BitVec.ofNat_toNat]
  rfl

/-! ### Shifts -/

theorem shiftLeft_eq_ofNat (n : Nat) : A <<< n = BitVec.ofNat 64 (A.toNat * 2 ^ n) :=
  BitVec.eq_of_toNat_eq (by simp [Nat.shiftLeft_eq])

theorem ushiftRight_eq_ofNat (n : Nat) : A >>> n = BitVec.ofNat 64 (A.toNat / 2 ^ n) := by
  rw [← Nat.shiftRight_eq_div_pow, ← BitVec.toNat_ushiftRight, BitVec.ofNat_toNat, BitVec.setWidth_eq]

theorem sshiftRight_eq_ofInt (n : Nat) : A.sshiftRight n = BitVec.ofInt 64 (A.toInt / 2 ^ n) := by
  rw [BitVec.sshiftRight, Int.shiftRight_eq_div_pow, Nat.cast_pow]
  rfl

/-! ### Choices and compares -/

/-- A choice between the words of two numbers is the word of the number chosen. -/
theorem ite_lt_eq_min {α : Type} [LinearOrder α] (word : α → Word) (x y : α) :
    (if x < y then word x else word y) = word (min x y) := by
  rcases lt_or_ge x y with h | h
  · rw [if_pos h, min_eq_left h.le]
  · rw [if_neg h.not_gt, min_eq_right h]

theorem ite_lt_eq_max {α : Type} [LinearOrder α] (word : α → Word) (x y : α) :
    (if x < y then word y else word x) = word (max x y) := by
  rcases lt_or_ge x y with h | h
  · rw [if_pos h, max_eq_right h.le]
  · rw [if_neg h.not_gt, max_eq_left h]

theorem Alu.min_eq : Alu.min A B = BitVec.ofInt 64 (Min.min A.toInt B.toInt) := by
  simpa [Alu.min, BitVec.slt_eq_decide] using ite_lt_eq_min (BitVec.ofInt 64) A.toInt B.toInt

theorem Alu.max_eq : Alu.max A B = BitVec.ofInt 64 (Max.max A.toInt B.toInt) := by
  simpa [Alu.max, BitVec.slt_eq_decide] using ite_lt_eq_max (BitVec.ofInt 64) A.toInt B.toInt

theorem Alu.minu_eq : Alu.minu A B = BitVec.ofNat 64 (Min.min A.toNat B.toNat) := by
  simpa [Alu.minu, BitVec.ult_eq_decide] using ite_lt_eq_min (BitVec.ofNat 64) A.toNat B.toNat

theorem Alu.maxu_eq : Alu.maxu A B = BitVec.ofNat 64 (Max.max A.toNat B.toNat) := by
  simpa [Alu.maxu, BitVec.ult_eq_decide] using ite_lt_eq_max (BitVec.ofNat 64) A.toNat B.toNat

theorem Alu.bit_decide (p : Prop) [Decidable p] : Alu.bit (decide p) = if p then 1 else 0 := by
  simp [Alu.bit]

/-! ### Bit fields (R188) -/

/-- The field of A that B names. -/
def bitField : BitVec (Alu.bfw B) := A.extractLsb' (fld B 0 6) (Alu.bfw B)

theorem toNat_bitField : (bitField A B).toNat = A.toNat / 2 ^ fld B 0 6 % 2 ^ Alu.bfw B := fld_eq ..

theorem Alu.bfx_eq : Alu.bfx A B = BitVec.ofNat 64 (bitField A B).toNat := by rw [toNat_bitField]; rfl

theorem msb_bitField (h : 0 < Alu.bfw B) : (bitField A B).msb = A.getLsbD (fld B 0 6 + Alu.bfw B - 1) := by
  rw [bitField, BitVec.msb_eq_getLsbD_last, BitVec.getLsbD_extractLsb', decide_eq_true (by omega), Bool.true_and,
    Nat.add_sub_assoc h]

/-- `bfxs` gives the field as a signed number; an empty field has no sign bit, and is 0. -/
theorem Alu.bfxs_eq : Alu.bfxs A B = BitVec.ofInt 64 (bitField A B).toInt := by
  rcases Nat.eq_zero_or_pos (Alu.bfw B) with empty | pos
  · have value : (bitField A B).toInt = 0 := by
      rw [BitVec.toInt_eq_toNat_cond, toNat_bitField, empty]
      simp [Nat.mod_one]
    rw [Alu.bfxs, if_pos empty, value]
    rfl
  · have minus (m : Nat) : BitVec.ofNat 64 (bitField A B).toNat - BitVec.ofNat 64 m =
        BitVec.ofInt 64 ((bitField A B).toNat - m) := by
      rw [Int.sub_eq_add_neg, BitVec.ofInt_add, BitVec.ofInt_neg, BitVec.ofInt_natCast, BitVec.ofInt_natCast,
        BitVec.sub_eq_add_neg]
    rw [Alu.bfxs, if_neg pos.ne', ← msb_bitField A B pos, BitVec.toInt_eq_msb_cond, Alu.bfx_eq, minus,
      apply_ite (BitVec.ofInt 64), BitVec.ofInt_natCast]

end

theorem scalarRegisterRule_holds : scalarRegisterRule := by
  intro s d a b ka kb hgo A B n w x
  have hn : fld B 0 6 = n := fld_lo B 6
  have hw : Alu.bfw B = w := by rw [Alu.bfw, hn, fld_eq]; rfl
  have hx : (bitField A B).toNat = x := by rw [toNat_bitField, hn, hw]
  have gives {op v i} (h : exec i s = .next (s.alu op d a b ka kb)) (hv : op A B = v) : exec i s = .next (s.gives d v) :=
    exec_alu hgo h hv
  refine ⟨gives rfl rfl, gives rfl rfl, gives rfl (Alu.mul_eq ..), gives rfl (Alu.mulh_eq ..), gives rfl (Alu.mulhu_eq ..),
    gives rfl rfl, gives rfl rfl, gives rfl rfl, gives rfl rfl, gives rfl ?shl, gives rfl ?shr, gives rfl ?sar,
    gives rfl (Alu.min_eq ..), gives rfl (Alu.max_eq ..), gives rfl (Alu.minu_eq ..), gives rfl (Alu.maxu_eq ..),
    gives rfl (Alu.bit_decide _), gives rfl ((Alu.bit_decide _).trans (ite_not ..)), gives rfl (Alu.bit_decide _),
    gives rfl (Alu.bit_decide _), gives rfl ?bfx, gives rfl ?bfxs⟩
  case shl => rw [← hn, ← shiftLeft_eq_ofNat]; rfl
  case shr => rw [← hn, ← ushiftRight_eq_ofNat]; rfl
  case sar => rw [← hn, ← sshiftRight_eq_ofInt]; rfl
  case bfx => rw [Alu.bfx_eq, hx]
  case bfxs => rw [Alu.bfxs_eq, BitVec.toInt_eq_toNat_cond, hx, hw, Nat.cast_pow]; rfl

/-! ### Division (R187) -/

section
variable {A B : Word}

theorem toInt_eq_min_iff : A.toInt = -2 ^ 63 ↔ A = BitVec.intMin 64 := BitVec.toInt_inj (y := BitVec.intMin 64)
theorem toInt_eq_neg_one_iff : B.toInt = -1 ↔ B = BitVec.allOnes 64 := BitVec.toInt_inj (y := BitVec.allOnes 64)

/-- But for the two corners the quotient and the remainder are words. -/
theorem Alu.toInt_div_rem (hB : B ≠ 0) (h : ¬(A = BitVec.intMin 64 ∧ B = BitVec.allOnes 64)) :
    (Alu.div A B).toInt = A.toInt.tdiv B.toInt ∧ (Alu.rem A B).toInt = A.toInt.tmod B.toInt := by
  have fits : A ≠ BitVec.intMin 64 ∨ B ≠ -1#64 := not_and_or.mp h
  rw [Alu.div, Alu.rem, if_neg hB, if_neg hB, if_neg h, if_neg h, ← BitVec.toInt_sdiv_of_ne_or_ne A B fits,
    ← BitVec.toInt_srem, BitVec.ofInt_toInt, BitVec.ofInt_toInt]
  exact ⟨rfl, rfl⟩

theorem Alu.toNat_divu (hB : B ≠ 0) : (Alu.divu A B).toNat = A.toNat / B.toNat := by
  rw [Alu.divu, if_neg hB, BitVec.toNat_ofNat, Nat.mod_eq_of_lt ((Nat.div_le_self ..).trans_lt A.isLt)]

theorem Alu.toNat_remu (hB : B ≠ 0) : (Alu.remu A B).toNat = A.toNat % B.toNat := by
  rw [Alu.remu, if_neg hB, BitVec.toNat_ofNat, Nat.mod_eq_of_lt ((Nat.mod_le ..).trans_lt A.isLt)]

end

section
variable {x y : Int}

theorem pos_of_tmod_pos (h : 0 < x.tmod y) : 0 < x := by
  rw [← Int.sign_eq_one_iff_pos, Int.sign_tmod] at *
  split at h
  · cases h
  · exact h

theorem neg_of_tmod_neg (h : x.tmod y < 0) : x < 0 := by
  by_contra hx
  exact absurd (Int.tmod_nonneg y (not_lt.mp hx)) h.not_ge

theorem natAbs_tmod_lt (x : Int) (h : y ≠ 0) : (x.tmod y).natAbs < y.natAbs := by
  rw [Int.natAbs_tmod]
  exact Nat.mod_lt _ (Int.natAbs_pos.mpr h)

end

theorem divisionRule_holds : divisionRule := by
  intro s d a b ka kb hgo A B
  refine ⟨⟨Alu.div A B, Alu.rem A B, exec_alu hgo rfl rfl, exec_alu hgo rfl rfl, fun h0 => ?byZero, fun hA hB => ?overflow,
    fun hB h => ?signed⟩,
    Alu.divu A B, Alu.remu A B, exec_alu hgo rfl rfl, exec_alu hgo rfl rfl, fun h0 => ?byZeroUnsigned, fun hB => ?unsigned⟩
  case byZero =>
    rw [Alu.div, Alu.rem, if_pos h0, if_pos h0]
    exact ⟨rfl, rfl⟩
  case overflow =>
    have corner := And.intro (toInt_eq_min_iff.mp hA) (toInt_eq_neg_one_iff.mp hB)
    have ne : B ≠ 0 := by rw [corner.right]; decide
    rw [Alu.div, Alu.rem, if_neg ne, if_neg ne, if_pos corner, if_pos corner]
    exact ⟨rfl, rfl⟩
  case signed =>
    rw [toInt_eq_min_iff, toInt_eq_neg_one_iff] at h
    obtain ⟨quotient, remainder⟩ := Alu.toInt_div_rem hB h
    have ne : B.toInt ≠ 0 := fun e => hB (BitVec.eq_of_toInt_eq e)
    rw [quotient, remainder]
    exact ⟨(Int.tdiv_mul_add_tmod ..).symm, natAbs_tmod_lt _ ne, pos_of_tmod_pos, neg_of_tmod_neg⟩
  case byZeroUnsigned =>
    rw [Alu.divu, Alu.remu, if_pos h0, if_pos h0]
    exact ⟨rfl, rfl⟩
  case unsigned =>
    have pos : 0 < B.toNat := Nat.pos_of_ne_zero fun e => hB (BitVec.eq_of_toNat_eq e)
    rw [Alu.toNat_divu hB, Alu.toNat_remu hB]
    exact ⟨(Nat.div_add_mod' ..).symm, Nat.mod_lt _ pos⟩

/-- Settles O7: `exec_alu` with the value of each operation; division by its two corners and the rest. -/
theorem scalarArithmetic : Obligations.ScalarArithmetic := by
  unfold Obligations.ScalarArithmetic
  exact ⟨scalarRegisterRule_holds, divisionRule_holds⟩

end Sys2Proof.Machine
end

section
/-! # O8: unary forms, conditional moves and immediates (R186, R189–R192) -/

namespace Sys2Proof.Machine

/-! ### Counts of bits (R186) -/

/-- Where a search of the numbers below m stops. -/
theorem findIdx_range (p : Nat → Bool) (m : Nat) : let n := (List.range m).findIdx p
    n ≤ m ∧ (∀ i, i < n → p i = false) ∧ (n < m → p n = true) := by
  have le : (List.range m).findIdx p ≤ m := by simpa using List.findIdx_le_length (p := p) (xs := List.range m)
  refine ⟨le, fun i h => ?before, fun h => ?here⟩
  case before => simpa using List.not_of_lt_findIdx h
  case here =>
    have found := List.findIdx_getElem (p := p) (xs := List.range m) (w := by rwa [List.length_range])
    rwa [List.getElem_range] at found

theorem toNat_lt_of_leading {A : Word} {n : Nat} (before : ∀ i, i < n → A.getLsbD (63 - i) = false) :
    A.toNat < 2 ^ (64 - n) := by
  refine Nat.lt_pow_two_of_testBit _ fun j hj => ?_
  rcases Nat.lt_or_ge j 64 with hlt | hge
  · have bit := before (63 - j) (by omega)
    rwa [show 63 - (63 - j) = j by omega] at bit
  · exact BitVec.getLsbD_of_ge A j hge

theorem toNat_mod_of_trailing {A : Word} {n : Nat} (before : ∀ i, i < n → A.getLsbD i = false) : A.toNat % 2 ^ n = 0 := by
  refine Nat.eq_of_testBit_eq fun j => ?_
  rw [Nat.testBit_mod_two_pow, Nat.zero_testBit]
  by_cases h : j < n
  · rw [decide_eq_true h, Bool.true_and]; exact before j h
  · rw [decide_eq_false h, Bool.false_and]

theorem length_filter_range (p : Nat → Bool) (m : Nat) :
    ((List.range m).filter p).length = (Finset.univ.filter fun i : Fin m => p i = true).card := by
  rw [← List.map_coe_finRange_eq_range, List.filter_map, List.length_map, Fin.univ_def]
  simp [Finset.card, Finset.filter, Function.comp_def]

/-! ### Byte reversal (R186) -/

theorem leNat_digit (bs : List Byte) (i : Nat) (h : i < bs.length) : leNat bs / 256 ^ i % 256 = bs[i].toNat := by
  induction bs generalizing i with
  | nil => cases h
  | cons b bs ih =>
    have lt := b.isLt
    cases i with
    | zero => simp only [leNat, pow_zero, List.getElem_cons_zero]; omega
    | succ i =>
      rw [leNat, pow_succ', ← Nat.div_div_eq_div_mul, show (b.toNat + 256 * leNat bs) / 256 = leNat bs by omega]
      exact ih i (Nat.lt_of_succ_lt_succ h)

theorem leNat_lt (bs : List Byte) : leNat bs < 256 ^ bs.length := by
  induction bs with
  | nil => exact Nat.one_pos
  | cons b bs ih =>
    have lt := b.isLt
    rw [leNat, List.length_cons, pow_succ']
    omega

theorem getElem_leBytes (v n i : Nat) (h : i < (leBytes v n).length) : (leBytes v n)[i] = BitVec.ofNat 8 (v / 256 ^ i) := by
  induction n generalizing v i with
  | zero => cases h
  | succ n ih =>
    cases i with
    | zero => simp [leBytes]
    | succ i =>
      rw [pow_succ', ← Nat.div_div_eq_div_mul]
      exact ih (v / 256) i (Nat.lt_of_succ_lt_succ h)

theorem beNat_eq (bs : List Byte) : beNat bs = leNat bs.reverse := by
  rw [beNat, List.foldl_eq_foldr_reverse]
  induction bs.reverse with
  | nil => rfl
  | cons b bs ih => rw [List.foldr_cons, ih, leNat, Nat.mul_comm, Nat.add_comm]

theorem getElem_reverse_leBytes (A : Word) {i : Nat} (hi : i < 8) :
    (leBytes A.toNat 8).reverse[7 - i]'(by rw [List.length_reverse, length_leBytes]; omega) = A.extractLsb' (8 * i) 8 := by
  rw [List.getElem_reverse, getElem_leBytes, length_leBytes, show 8 - 1 - (7 - i) = i by omega]
  apply BitVec.eq_of_toNat_eq
  rw [BitVec.toNat_ofNat, BitVec.extractLsb'_toNat, Nat.shiftRight_eq_div_pow, pow_mul]
  rfl

theorem Alu.extract_bswap (A : Word) {i : Nat} (hi : i < 8) :
    (Alu.bswap A).extractLsb' (8 * (7 - i)) 8 = A.extractLsb' (8 * i) 8 := by
  have len : (leBytes A.toNat 8).reverse.length = 8 := by rw [List.length_reverse, length_leBytes]
  have fits : leNat (leBytes A.toNat 8).reverse < 2 ^ 64 := by
    have := leNat_lt (leBytes A.toNat 8).reverse
    rwa [len] at this
  have digit := leNat_digit (leBytes A.toNat 8).reverse (7 - i) (by omega)
  rw [getElem_reverse_leBytes A hi] at digit
  apply BitVec.eq_of_toNat_eq
  rw [← digit, BitVec.extractLsb'_toNat, Nat.shiftRight_eq_div_pow, Alu.bswap, beNat_eq, BitVec.toNat_ofNat,
    Nat.mod_eq_of_lt fits, pow_mul]
  rfl

theorem scalarBitsRule_holds : scalarBitsRule := by
  intro s d a ka hgo A
  obtain ⟨leadingLe, leading, top⟩ := findIdx_range (fun i => A.getLsbD (63 - i)) 64
  obtain ⟨trailingLe, trailing, bottom⟩ := findIdx_range A.getLsbD 64
  refine ⟨⟨_, exec_alu1 hgo rfl rfl, leadingLe, toNat_lt_of_leading leading, fun h => Nat.ge_two_pow_of_testBit (top h)⟩,
    ⟨_, exec_alu1 hgo rfl rfl, trailingLe, toNat_mod_of_trailing trailing, bottom⟩, exec_alu1 hgo rfl ?popc,
    _, exec_alu1 hgo rfl rfl, fun i hi => Alu.extract_bswap A hi⟩
  case popc => exact congrArg _ (length_filter_range A.getLsbD 64)

/-! ### Conditional moves (R189) -/

theorem conditionalMoveRule_holds : conditionalMoveRule := by
  intro s d a b ka kb hgo A B
  have move (c : Word → Bool) : s.movIf c d a b ka kb = if c B then s.gives d A else s.does fun f => f := by
    rw [State.movIf, State.issue_go hgo, State.rdG_issued, State.rdG_issued, State.retG_issued, State.next_issued]
  refine ⟨congrArg _ ((move _).trans ?movz), congrArg _ ((move _).trans ?movn), fun r => ?kept⟩
  case movz => simp only [decide_eq_true_eq]
  case movn => simp only [decide_eq_true_eq, ne_eq, ite_not]
  case kept => simp

/-! ### Immediates (R190–R192) -/

/-- Only at a count of 0 does the model's second shift differ from the library's: by 0 there, by 64 here. -/
theorem Alu.rol_eq (A : Word) (c : BitVec 6) : Alu.rol A c = A.rotateLeft c.toNat := by
  rw [BitVec.rotateLeft_eq_rotateLeftAux_of_lt c.isLt, Alu.rol, BitVec.rotateLeftAux]
  rcases Nat.eq_zero_or_pos c.toNat with zero | pos
  · have gone : A >>> 64 = 0 := BitVec.ushiftRight_eq_zero (Nat.le_refl 64)
    simp [zero, gone]
  · rw [Nat.mod_eq_of_lt (by omega)]

section
variable (j : BitVec 19) (D : Word)

theorem Alu.lim_eq_putFld : Alu.lim j D = putFld D 19 19 j.toNat := by
  have mask : BitVec.ofNat 64 (2 ^ 19 - 1) = 0x7FFFF#64 := by decide
  rw [Alu.lim, putFld, Nat.mod_eq_of_lt j.isLt, BitVec.ofNat_toNat, mask]

/-- The three fields of the result make up its number. -/
theorem Alu.lim_eq :
    Alu.lim j D = BitVec.ofNat 64 (D.toNat % 2 ^ 19 + j.toNat * 2 ^ 19 + D.toNat / 2 ^ 38 * 2 ^ 38) := by
  have low : fld (Alu.lim j D) 0 19 = fld D 0 19 := by
    rw [Alu.lim_eq_putFld]
    exact congrArg _ (extract_putFld_ne D 19 19 0 19 _ (by omega) (by omega))
  have middle : fld (Alu.lim j D) 19 19 = j.toNat := by
    rw [Alu.lim_eq_putFld]
    exact congrArg _ (extract_putFld_self D 19 19 j (by omega))
  have high : fld (Alu.lim j D) 38 26 = fld D 38 26 := by
    rw [Alu.lim_eq_putFld]
    exact congrArg _ (extract_putFld_ne D 19 19 38 26 _ (by omega) (by omega))
  rw [fld_eq] at middle
  rw [fld_lo, fld_lo] at low
  rw [fld_eq, fld_eq] at high
  apply BitVec.eq_of_toNat_eq
  rw [BitVec.toNat_ofNat]
  omega

theorem Alu.lih_eq : Alu.lih j D = BitVec.ofNat 64 (D.toNat % 2 ^ 38 + j.toNat * 2 ^ 38) := by
  have mask : D.toNat &&& 0x3FFFFFFFFF = D.toNat % 2 ^ 38 := Nat.and_two_pow_sub_one_eq_mod D.toNat 38
  have low : D.toNat % 2 ^ 38 < 2 ^ 38 := Nat.mod_lt _ (by decide)
  have fits : j.toNat <<< 38 < 2 ^ 64 := by rw [Nat.shiftLeft_eq]; omega
  apply BitVec.eq_of_toNat_eq
  rw [Alu.lih, BitVec.toNat_or, BitVec.toNat_and, BitVec.toNat_shiftLeft, BitVec.toNat_setWidth_of_le (by decide),
    BitVec.toNat_ofNat, BitVec.toNat_ofNat, Nat.mod_eq_of_lt fits, Nat.or_comm]
  refine (congrArg _ mask).trans ?_
  rw [← Nat.shiftLeft_add_eq_or_of_lt low, Nat.shiftLeft_eq]
  omega

end

theorem scalarImmediateRule_holds : scalarImmediateRule := by
  intro s d a ka i c j A D
  refine ⟨fun hgo => ?oneSource, rfl, fun hgo => ⟨exec_alu1 hgo rfl (Alu.lim_eq ..), exec_alu1 hgo rfl (Alu.lih_eq ..)⟩⟩
  case oneSource =>
    exact ⟨exec_alu1 hgo rfl rfl, exec_alu1 hgo rfl rfl, exec_alu1 hgo rfl (shiftLeft_eq_ofNat ..),
      exec_alu1 hgo rfl (ushiftRight_eq_ofNat ..), exec_alu1 hgo rfl (sshiftRight_eq_ofInt ..),
      exec_alu1 hgo rfl (Alu.rol_eq ..)⟩

/-- Settles O8: bits and bytes by what a search, a filter and a reversal of lists give; immediates by their arithmetic. -/
theorem scalarUnaryAndImmediate : Obligations.ScalarUnaryAndImmediate := by
  unfold Obligations.ScalarUnaryAndImmediate
  exact ⟨scalarBitsRule_holds, conditionalMoveRule_holds, scalarImmediateRule_holds⟩

end Sys2Proof.Machine
end

section
/-! # O9: branches and jumps outside a repeat (R193–R195) -/

namespace Sys2Proof.Machine

/-! ### Where the task goes on -/

/-- The task goes on at another place. -/
def Frame.goTo (f : Frame) (pc : Word) : Frame := { f with pc := pc }

/-- It goes on there, with the address of the next word in a register. -/
def Frame.jump (f : Frame) (link : GReg) (pc : Word) : Frame := (f.wrG link (f.pc + 4)).goTo pc

section
variable {f : Frame} (h : f.rpt = none)
include h

theorem Frame.wordAddr_of_rpt : f.wordAddr = f.pc := by rw [Frame.wordAddr, h]

theorem Frame.advance_of_rpt : f.advance = f.goTo (f.pc + 4) := by
  obtain ⟨pc, rpt⟩ := f.advance_pc h
  rw [Frame.advance_eq, pc, rpt, ← h]
  rfl

end

theorem sext64_mul_four {n : Nat} (o : BitVec n) : sext64 o * 4 = BitVec.ofInt 64 (4 * o.toInt) := by
  rw [mul_comm, BitVec.ofInt_mul]
  rfl

section
variable {s : State} (hrpt : s.me.rpt = none)
include hrpt

/-- Outside a repeat the word that issues is the one at the program counter. -/
theorem State.updMe_wordAddr (u : Frame → Word → Frame) :
    (s.issued.updMe fun f => u f f.wordAddr) = s.issued.updMe fun f => u f f.pc := by
  refine congrArg s.issued.setMe (congrArg (u s.issued.me) ?_)
  rw [State.me_issued]
  exact Frame.wordAddr_of_rpt hrpt

theorem State.does_nothing : (s.does fun f => f) = s.issued.updMe fun f => f.goTo (f.pc + 4) := by
  refine congrArg s.issued.setMe ?_
  rw [State.me_issued]
  exact Frame.advance_of_rpt hrpt

/-! ### The instructions -/

theorem exec_branch {i : Instr} {a b : GReg} {o : BitVec 13} {taken : Word → Word → Bool} {p : Bool}
    (hgo : s.goes [.g a false, .g b false]) (h : exec i s = .next (s.branch taken a b o))
    (hp : taken (s.me.rdG a) (s.me.rdG b) = p) :
    exec i s = .next (s.issued.updMe fun f => f.goTo (if p then f.pc + BitVec.ofInt 64 (4 * o.toInt) else f.pc + 4)) := by
  rw [h, State.branch_go hgo, hp, ← sext64_mul_four]
  cases p with
  | true => exact congrArg _ (State.updMe_wordAddr hrpt fun f pc => f.goTo (pc + sext64 o * 4))
  | false => exact congrArg _ (State.does_nothing hrpt)

theorem exec_jal (o : BitVec 25) :
    exec (.jal o) s = .next (s.issued.updMe fun f => f.jump 63 (f.pc + BitVec.ofInt 64 (4 * o.toInt))) := by
  rw [← sext64_mul_four]
  exact congrArg _ (State.updMe_wordAddr hrpt fun f pc => (f.wrG 63 (pc + 4)).goTo (pc + sext64 o * 4))

theorem exec_jalr {d a : GReg} {ka : Bool} {i : BitVec 12} {t : Word} (hgo : s.goes [.g a ka])
    (ht : s.me.rdG a + sext64 i = t) : exec (.jalr d a ka i) s = .next (if t.toNat % 4 ≠ 0
      then s.issued.trapAt Cause.ALIGN t s.me.pc false else s.issued.updMe fun f => f.jump d t) := by
  have trap : s.issued.trap Cause.ALIGN t = s.issued.trapAt Cause.ALIGN t s.me.pc false := by
    rw [State.trap, State.wordAddr_issued, Frame.wordAddr_of_rpt hrpt]
  have jump : (s.issued.updMe fun f => (f.wrG d (f.wordAddr + 4)).goTo t) = s.issued.updMe fun f => f.jump d t :=
    State.updMe_wordAddr hrpt fun f pc => (f.wrG d (pc + 4)).goTo t
  rw [← trap, ← jump, ← ht, ← State.rdG_issued]
  exact congrArg _ (State.issue_go hgo _)

end

theorem branchesRule_holds : branchesRule := by
  intro s a b o hrpt hgo A B go
  have goes {i taken p} (h : exec i s = .next (s.branch taken a b o)) (hp : taken A B = p) : exec i s = .next (go p) :=
    exec_branch hrpt hgo h hp
  refine ⟨goes rfl rfl, goes rfl rfl, goes rfl rfl, goes rfl ?bge, goes rfl rfl, goes rfl ?bgeu⟩
  case bge => rw [BitVec.slt_eq_decide, ← decide_not, decide_eq_decide, not_lt]
  case bgeu => rw [BitVec.ult_eq_decide, ← decide_not, decide_eq_decide, not_lt]

theorem jumpsRule_holds : jumpsRule := by
  intro s d a ka i o hrpt
  refine ⟨exec_jal hrpt o, fun hgo => ⟨fun ht => ?aligned, fun ht => ?misaligned⟩⟩
  case aligned => exact (exec_jalr hrpt hgo rfl).trans (congrArg _ (if_neg (not_not.mpr ht)))
  case misaligned => exact (exec_jalr hrpt hgo rfl).trans (congrArg _ (if_pos ht))

/-- Settles O9: outside a repeat the word's address is the program counter; a target's two low bits decide the trap. -/
theorem transfers : Obligations.Transfers := by
  unfold Obligations.Transfers
  exact ⟨branchesRule_holds, jumpsRule_holds⟩

end Sys2Proof.Machine
end

section
/-! # O22: addresses that trap (R200, R202, R210)

Every form checks its address before it does anything else, so its trap depends on the address alone (`addressCause`). -/

namespace Sys2Proof.Machine

/-- The cause that an address traps with before it is a place: a bit above the limit, then alignment. -/
def addressCause (va : Word) (n : Nat) : Option Byte :=
  if beyond va then some Cause.PERM else if va.toNat % n ≠ 0 then some Cause.ALIGN else none

variable {s : State} {va : Word} {n : Nat} {c : Byte}

theorem beyond_iff (va : Word) : beyond va = true ↔ va.toNat / 2 ^ 57 ≠ 0 := by
  rw [beyond, decide_eq_true_iff, fld_eq, Nat.mod_eq_of_lt (by omega)]

theorem addressCause_beyond (n : Nat) (h : va.toNat / 2 ^ 57 ≠ 0) : addressCause va n = some Cause.PERM :=
  if_pos ((beyond_iff va).mpr h)

theorem addressCause_misaligned (h : va.toNat / 2 ^ 57 = 0) (hn : va.toNat % n ≠ 0) : addressCause va n = some Cause.ALIGN := by
  rw [addressCause, if_neg (fun hb => (beyond_iff va).mp hb h), if_pos hn]

/-- Where an instruction checks its address itself, it traps. -/
theorem State.checked_traps (h : addressCause va n = some c) (t : State) :
    (if beyond va then s.trap Cause.PERM va else if va.toNat % n ≠ 0 then s.trap Cause.ALIGN va else t) = s.trap c va := by
  unfold addressCause at h
  split at h
  next hb => rw [if_pos hb, Option.some.inj h]
  next hb =>
    split at h
    next hn => rw [if_neg hb, if_pos hn, Option.some.inj h]
    next => cases h

theorem State.target_traps (h : addressCause va n = some c) (use : Use) : s.target va n use = (s, .trap c) := by
  unfold addressCause at h
  split at h
  next hb => rw [State.target, if_pos hb, Option.some.inj h]
  next hb =>
    split at h
    next hn => rw [State.target, if_neg hb, if_pos hn, Option.some.inj h]
    next => cases h

theorem State.access_traps (h : addressCause va n = some c) (use : Use) (k : State → Place → State) :
    s.access va n use k = s.trap c va := by
  rw [State.access, State.target_traps h]

theorem State.accessStore_traps (h : addressCause va n = some c) (use : Use) (k : State → Place → Bool → State) :
    s.accessStore va n use k = s.trap c va := by
  rw [State.accessStore, State.target_traps h]

theorem State.acquired_issue {i : Instr} {srcs : List Src} {k : State → State} (hgo : s.goes srcs) (hacq : s.acquiring = false)
    (hi : exec i s = .next (s.issue srcs fun s => s.afterAcquire k)) : exec i s = .next (k s.issued) := by
  rw [exec_issue hgo hi, State.afterAcquire, s.acquiring_issued, hacq, if_neg Bool.false_ne_true]

/-- An access of which the continuation traps with the cause of the address. -/
theorem traps_by_address {i : Instr} {srcs : List Src} {k : State → State} (hacq : s.acquiring = false)
    (hi : exec i s = .next (s.issue srcs fun s => s.afterAcquire k))
    (hk : ∀ c, addressCause va n = some c → k s.issued = s.issued.trap c va) (hgo : s.goes srcs) :
    (va.toNat / 2 ^ 57 ≠ 0 → exec i s = .next (s.issued.trap Cause.PERM va)) ∧
    (va.toNat / 2 ^ 57 = 0 → va.toNat % n ≠ 0 → exec i s = .next (s.issued.trap Cause.ALIGN va)) := by
  rw [State.acquired_issue hgo hacq hi]
  exact ⟨fun h => congrArg _ (hk _ (addressCause_beyond n h)), fun h hn => congrArg _ (hk _ (addressCause_misaligned h hn))⟩

/-- The offset of a vector access is in lines of 64 bytes (R226). -/
theorem vmBase_eq (f : Frame) (b : GReg) (o : BitVec 10) : vmBase f b o = f.rdG b + BitVec.ofInt 64 (o.toInt * 64) := by
  rw [vmBase, BitVec.ofInt_mul]
  rfl

/-- The address of a scalar load or store at issue. -/
theorem State.address_issued (s : State) (a : GReg) (i : BitVec 12) (n : Nat) :
    s.issued.me.rdG a + sext64 i * BitVec.ofNat 64 n = s.me.rdG a + BitVec.ofInt 64 (i.toInt * n) := by
  rw [State.rdG_issued, sext64_mul]

theorem State.vmBase_issued (s : State) (b : GReg) (o : BitVec 10) :
    vmBase s.issued.me b o = s.me.rdG b + BitVec.ofInt 64 (o.toInt * 64) := by
  rw [vmBase_eq, State.rdG_issued]

/-- A vector load reads its destination only under a mask that may keep elements of it (R226). -/
theorem exec_vld (s : State) (d : VReg) (b : GReg) (m : MReg) (ka : Bool) (o : BitVec 10) : exec (.vld d b m ka o) s =
    .next (s.issue ((if m ≠ 0 then [.v d ka] else []) ++ [.m m ka, .g b ka]) fun s => s.afterAcquire fun s =>
      if beyond (vmBase s.me b o) then s.trap Cause.PERM (vmBase s.me b o)
      else if (vmBase s.me b o).toNat % 64 ≠ 0 then s.trap Cause.ALIGN (vmBase s.me b o)
      else s.vload d m fun i => vmBase s.me b o + BitVec.ofNat 64 (8 * i)) := by
  have hload : exec (.vld d b m ka o) s = .next (s.vld d b m ka o) := rfl
  rw [hload, State.vld]
  simp only [decide_eq_true_eq]

/-- Settles O22: what each form does first with its address. -/
theorem addressTraps : Obligations.AddressTraps := by
  unfold Obligations.AddressTraps
  intro s d a b v m w ka kb i o z hacq
  have load (n : Nat) {x : Instr} (hx : exec x s = .next (s.load n d a ka i)) := traps_by_address
    (va := s.me.rdG a + BitVec.ofInt 64 (i.toInt * n)) (n := n) hacq hx fun c hc => by
      rw [← s.address_issued] at hc ⊢
      exact State.access_traps hc ..
  have store (n : Nat) {x : Instr} (hx : exec x s = .next (s.store n d a ka i)) := traps_by_address
    (va := s.me.rdG a + BitVec.ofInt 64 (i.toInt * n)) (n := n) hacq hx fun c hc => by
      rw [← s.address_issued] at hc ⊢
      exact State.accessStore_traps hc ..
  have land (n : Nat) {whole : Bool} {x : Instr} (hx : exec x s = .next (s.lnd n whole a b ka kb)) := traps_by_address
    (va := s.me.rdG a) (n := n) hacq hx fun c hc => by
      rw [← s.rdG_issued a] at hc ⊢
      exact State.checked_traps hc _
  have amo {x : Instr} (dbl : Bool) {op srcs posted v D} (hx : exec x s = .next (s.amo dbl op srcs posted v D d a)) := traps_by_address
    (va := s.me.rdG a) (n := if dbl then 8 else 4) hacq hx fun c hc => by
      rw [← s.rdG_issued a] at hc ⊢
      exact State.access_traps hc ..
  have vector {x : Instr} {srcs : List Src} {k : State → Word → State} (hx : exec x s = .next (s.issue srcs fun s => s.afterAcquire fun s =>
        if beyond (vmBase s.me a o) then s.trap Cause.PERM (vmBase s.me a o)
        else if (vmBase s.me a o).toNat % 64 ≠ 0 then s.trap Cause.ALIGN (vmBase s.me a o) else k s (vmBase s.me a o))) := traps_by_address
    (va := s.me.rdG a + BitVec.ofInt 64 (o.toInt * 64)) (n := 64) hacq hx fun c hc => by
      rw [← s.vmBase_issued] at hc ⊢
      exact State.checked_traps hc _
  simp only [addressForms, List.forall_mem_cons, List.not_mem_nil, false_imp_iff, implies_true, and_true]
  refine ⟨load 1 rfl, load 2 rfl, load 4 rfl, load 8 rfl, store 1 rfl, store 2 rfl, store 4 rfl, store 8 rfl, land _ rfl, land 64 rfl,
    ?counted, ?vld, ?vst, amo w rfl, amo w rfl, amo w rfl, amo w rfl, amo false rfl⟩
  case counted =>
    refine traps_by_address hacq rfl fun c hc => ?_
    rw [← s.rdG_issued a] at hc ⊢
    exact State.accessStore_traps hc ..
  case vld => exact vector (k := fun s ea => s.vload v m fun i => ea + BitVec.ofNat 64 (8 * i)) (exec_vld s v a m ka o)
  case vst => exact vector (k := fun s ea => s.elements (vmUse .write) (vmElems s.me m fun i => ea + BitVec.ofNat 64 (8 * i)) false _) rfl

end Sys2Proof.Machine
end

section
/-! # O24: fences and prefetch (R229–R232)

What a task has of its own after a fence or an access is `Frame.going`: its registers and its place in the program are
those it had, and it runs. -/

namespace Sys2Proof.Machine

variable {s u : State}

/-! ### A task that goes on -/

/-- The frame of a task whose instruction issues, but for what the task knows of writes and releases (R354, R364). -/
def Frame.going (f g : Frame) : Prop := ∃ kn rl aq, g = { f.unblock with knows := kn, rels := rl, acq := aq }

namespace Frame.going
variable {f g : Frame}

theorem unblock (f : Frame) : f.going f.unblock := ⟨f.knows, f.rels, f.acq, rfl⟩

theorem sameRegs (h : f.going g) : f.sameRegs g := by
  obtain ⟨_, _, _, rfl⟩ := h
  exact ⟨fun _ => rfl, fun _ _ => rfl, fun _ => rfl, rfl, rfl⟩

theorem sameRegs_advance (h : f.going g) : f.sameRegs g.advance := h.sameRegs.trans g.sameRegs_advance

theorem wentOn_advance (h : f.going g) : f.wentOn g.advance := by
  obtain ⟨_, _, _, rfl⟩ := h
  exact Frame.wentOn_advance rfl rfl

theorem state_advance (h : f.going g) : g.advance.state = .running := by
  obtain ⟨_, _, _, rfl⟩ := h
  rw [Frame.state_advance]
  rfl

end Frame.going

theorem State.going_issued (s : State) : s.me.going s.issued.me := by
  rw [State.me_issued]
  exact .unblock _

theorem State.me_next (s : State) : s.next.me = s.me.advance := s.me_updMe _

/-- An instruction that blocks at issue changes its own frame only, and is evaluated again at the same word (R10). -/
theorem State.block_issued (s : State) : s.onlyMe (s.issued.block .retry) ∧ (s.issued.block .retry).me.state = .waiting ∧
    (s.issued.block .retry).me.wait = .retry ∧ (s.issued.block .retry).me.pc = s.me.pc := by
  obtain ⟨hstate, hwait, hpc, _⟩ := waits_block (.refl s.issued)
  exact ⟨by simp [State.onlyMe, State.block, State.issued, State.updMe], hstate, hwait, hpc⟩

/-! ### `fence.a` (R232) -/

/-- The acquire of a task that `fence.a` widens, to the wider of its own scope and the fence's. -/
def State.widened (s : State) (near : Scope) : State :=
  (s.acquireAt s.myCore near).updMe fun f => { f.acquires near f.rels s.chip.chipNo s.myTile with acq := none }

theorem exec_fenceA_none (z : BitVec 2) (hacq : s.acquiring = false) (h : s.me.acq = none) :
    exec (.fenceA z) s = .next (s.does fun f => f) := by
  have hq : s.issued.me.acq = none := by rw [State.me_issued]; exact h
  rw [State.acquired_issue s.goes_nil hacq rfl, hq]
  rfl

theorem exec_fenceA_some (z : BitVec 2) {q : Scope} (hacq : s.acquiring = false) (h : s.me.acq = some q) :
    exec (.fenceA z) s = .next (s.issued.widened (if scopeCovers q (scopeOf z) then q else scopeOf z)).next := by
  have hq : s.issued.me.acq = some q := by rw [State.me_issued]; exact h
  rw [State.acquired_issue s.goes_nil hacq rfl, hq]
  rfl

theorem State.me_widened (s : State) (near : Scope) :
    (s.widened near).me = { s.me.acquires near s.me.rels s.chip.chipNo s.myTile with acq := none } := by
  have hme : (s.acquireAt s.myCore near).me = s.me := by cases near <;> rfl
  rw [State.widened, State.me_updMe, hme]

theorem State.l1_acquireAt (s : State) (sc : Scope) {c k : Nat} (hlo : c * 2 ^ 36 ≤ k) (hhi : k < (c + 1) * 2 ^ 36) :
    Tab.get? (s.acquireAt c sc).mem.l1 k = none := by
  obtain ⟨l1, way, heq, cleared⟩ := s.acquireAt_eq c sc
  have hk : k = l1Key c (k - c * 2 ^ 36) := by unfold l1Key; omega
  rw [heq, hk]
  exact cleared _ (by omega)

theorem State.widened_going (s : State) (near : Scope) : s.me.going (s.issued.widened near).me := by
  rw [State.me_widened, State.me_issued]
  exact ⟨_, _, _, rfl⟩

/-! ### A prefetch (R229) -/

/-- Line copies may differ beside what a check of an address and a read change, nothing else. -/
def State.copied (s v : State) : Prop := ∃ t n rs l1 way,
  v = { s with chip := { s.chip with tlb := t }, clk := { s.clk with free := n }, mem := { s.mem with reads := rs, l1 := l1, way := way } }

namespace State.copied

theorem refl (s : State) : s.copied s := ⟨s.chip.tlb, s.clk.free, s.mem.reads, s.mem.l1, s.mem.way, rfl⟩

theorem trans {v : State} (h : s.copied u) (h' : u.copied v) : s.copied v := by
  obtain ⟨_, _, _, _, _, rfl⟩ := h
  obtain ⟨t, n, rs, l1, way, rfl⟩ := h'
  exact ⟨t, n, rs, l1, way, rfl⟩

theorem fresh (s : State) : s.copied s.fresh := ⟨s.chip.tlb, _, s.mem.reads, s.mem.l1, s.mem.way, rfl⟩

theorem fillL1 (s : State) (c pa : Nat) (l : CLine) : s.copied (s.fillL1 c pa l) := by
  unfold State.fillL1
  split
  · exact ⟨s.chip.tlb, s.clk.free, s.mem.reads, _, s.mem.way, rfl⟩
  · exact refl s

theorem fillWay (s : State) (t pa : Nat) (l : CLine) : s.copied (s.fillWay t pa l) := by
  unfold State.fillWay
  split
  · exact ⟨s.chip.tlb, s.clk.free, s.mem.reads, s.mem.l1, _, rfl⟩
  · exact refl s

theorem renew (s : State) (c pa : Nat) : s.copied (s.renew c pa) := by
  unfold State.renew
  dsimp only
  split <;> split
  · exact (fillL1 ..).trans (fillWay ..)
  · exact fillL1 ..
  · exact fillWay ..
  · exact refl s

theorem of_consulted (h : s.consulted u) : s.copied u := by
  obtain ⟨t, n, rs, rfl⟩ := h
  exact ⟨t, n, rs, s.mem.l1, s.mem.way, rfl⟩

end State.copied

/-- A prefetch makes line copies, and goes on. -/
theorem State.prefetch_copied {a : GReg} {ka : Bool} (hgo : s.goes [.g a ka]) (d : GReg) (i : BitVec 12) :
    ∃ u, s.issued.copied u ∧ s.prefetch d a ka i = u.next := by
  rw [State.prefetch, State.issue_go hgo]
  dsimp only
  split
  · exact ⟨_, .refl _, rfl⟩
  · have ht := State.copied.of_consulted (.translate (s := s.issued) (coreLevels s.issued.myCore) s.issued.me.job s.issued.me.svc .read
      (s.issued.me.rdG a + sext64 i * 64))
    split
    next u pa hu =>
      rw [hu] at ht
      split
      · exact ⟨_, ht, rfl⟩
      · split
        · exact ⟨_, ((ht.trans (.renew ..)).trans (.fillL1 ..)).trans (.fresh _), rfl⟩
        · split
          · exact ⟨_, (ht.trans (.fillWay ..)).trans (.fresh _), rfl⟩
          · exact ⟨_, ht, rfl⟩
    next u _ _ hu =>
      rw [hu] at ht
      exact ⟨_, ht, rfl⟩

theorem State.copied.next_keeps (h : s.issued.copied u) : s.me.going u.me ∧ s.sameBytes u.next ∧ u.next.net = s.net ∧
    u.next.parks = s.parks := by
  obtain ⟨_, _, _, _, _, rfl⟩ := h
  exact ⟨s.going_issued, fun p => by cases p <;> rfl, rfl, rfl⟩

theorem exec_fenceP (s : State) : exec .fenceP s =
    .next (if s.entriesOf s.me.taskId = true then s.issued.block .retry else s.does fun f => f) := by
  have entries : s.issued.entriesOf s.issued.me.taskId = s.entriesOf s.me.taskId := by rw [State.taskId_issued]; rfl
  rw [← entries]
  exact exec_issue (k := fun s => if s.entriesOf s.me.taskId then s.block .retry else s.next) s.goes_nil rfl

theorem exec_fenceR (s : State) (z : BitVec 2) : exec (.fenceR z) s =
    .next (if s.writesDone s.me.taskId = true then s.does fun f => f else s.issued.block .retry) := by
  have writes : s.issued.writesDone s.issued.me.taskId = s.writesDone s.me.taskId := by rw [State.taskId_issued]; rfl
  rw [← writes]
  exact exec_issue (k := fun s => s.release State.next) s.goes_nil rfl

/-- Settles O24: a fence is its condition; a prefetch makes line copies, and goes on. -/
theorem fencesAndPrefetch : Obligations.FencesAndPrefetch := by
  unfold Obligations.FencesAndPrefetch
  intro s d a ka i z waits
  refine ⟨fun h => ?_, fun h => ?_, fun h => ?_, fun h => ?_, exec_fenceA_none z, fun hacq h => ?widens, fun hgo => ?prefetch⟩
  · rw [exec_fenceP, h, if_neg Bool.false_ne_true]
  · exact ⟨_, by rw [exec_fenceP, if_pos h], s.block_issued⟩
  · rw [exec_fenceR, if_pos h]
  · exact ⟨_, by rw [exec_fenceR, h, if_neg Bool.false_ne_true], s.block_issued⟩
  case widens =>
    obtain ⟨q, hq⟩ := Option.ne_none_iff_exists'.mp h
    have going := s.widened_going (if scopeCovers q (scopeOf z) then q else scopeOf z)
    refine ⟨_, exec_fenceA_some z hacq hq, ?_, ?_, ?_, ?_, fun k hlo hhi => ?_⟩
    · rw [State.me_next, Frame.advance_eq, State.me_widened]
    · rw [State.me_next]; exact going.wentOn_advance
    · rw [State.me_next]; exact going.sameRegs_advance
    · exact s.issued.sameBytes_acquireAt s.issued.myCore _
    · rw [← s.myCore_issued] at hlo hhi
      exact s.issued.l1_acquireAt _ hlo hhi
  case prefetch =>
    obtain ⟨u, hu, heq⟩ := State.prefetch_copied hgo d i
    obtain ⟨going, bytes, net, parks⟩ := hu.next_keeps
    refine ⟨_, congrArg Host.Outcome.next heq, ?_, ?_, ?_, bytes, net, parks⟩ <;> rw [u.me_next]
    · exact going.sameRegs_advance
    · exact going.wentOn_advance
    · exact going.state_advance

end Sys2Proof.Machine
end

section
/-! # O20: scalar stores, local and posted, and counted stores (R209, R212, R225)

`State.underway` is what every step of a store's issue keeps; the entry and the message are read off the steps of which it is
made (`cores_enter`, `postWrite_sent`), so that a posted store is `posts_underway`. -/

namespace Sys2Proof.Machine

variable {s u v : State}

/-! ### The bytes that the places name -/

/-- The memories of which places name bytes. -/
def Memories.stores (m : Memories) : List Host.Cell × List Host.Cell × List Host.Cell × List Host.Cell × List Host.Cell :=
  (m.dev, m.host, m.bank, m.sram, m.arena)

theorem State.sameBytes_of_stores (h : u.mem.stores = s.mem.stores) : s.sameBytes u := fun p => by
  simp only [Memories.stores, Prod.mk.injEq] at h
  obtain ⟨dev, host, bank, sram, arena⟩ := h
  cases p <;> simp only [State.byteAt, State.bankByte, State.sramByte, dev, host, bank, sram, arena]

/-! ### An instruction under way -/

/-- An instruction of the current task has begun, and no other task has changed. -/
structure State.underway (s t : State) : Prop where
  cur : t.run.cur = s.run.cur
  going : s.me.going t.me
  others : ∀ k, k ≠ s.run.cur → t.frame k = s.frame k
  chipNo : t.chip.chipNo = s.chip.chipNo

namespace State.underway

theorem of_consulted (h : s.issued.consulted u) : s.underway u := by
  have hme := h.me
  obtain ⟨_, _, _, rfl⟩ := h
  exact ⟨rfl, hme ▸ s.going_issued, fun k hk => s.frame_issued_ne hk, rfl⟩

/-- A step that changes no frame. -/
theorem of_frames (h : s.underway u) (run : v.run = u.run) (frames : v.frames = u.frames) (chipNo : v.chip.chipNo = u.chip.chipNo) :
    s.underway v where
  cur := by rw [run, h.cur]
  going := by
    have hme : v.me = u.me := by rw [State.me, State.frame, frames, run]; rfl
    rw [hme]
    exact h.going
  others k hk := by
    rw [← h.others k hk, State.frame, frames]
    rfl
  chipNo := by rw [chipNo, h.chipNo]

/-- A write of the task takes a number (R364). -/
theorem newWrite (h : s.underway u) : s.underway u.newWrite.1 where
  cur := h.cur
  going := by
    obtain ⟨_, rl, aq, hg⟩ := h.going
    have hme : u.newWrite.1.me = { u.me with knows := u.newWrite.2.id :: u.me.knows } := State.me_updMe ..
    rw [hme, hg]
    exact ⟨_, rl, aq, rfl⟩
  others k hk := by
    rw [← h.others k hk]
    exact State.frame_updMe_ne _ _ (by rw [← h.cur] at hk; exact hk)
  chipNo := h.chipNo

variable (h : s.underway u)
include h

theorem taskId : u.me.taskId = s.me.taskId := by
  obtain ⟨_, _, _, hg⟩ := h.going
  rw [hg]
  rfl

theorem job : u.me.job = s.me.job := by
  obtain ⟨_, _, _, hg⟩ := h.going
  rw [hg]
  rfl

theorem myCore : u.myCore = s.myCore := by
  obtain ⟨_, _, _, hg⟩ := h.going
  rw [State.myCore, hg, h.cur]
  rfl

theorem entrySender (e : Nat) : u.entrySender e = .core s.chip.chipNo s.myCore e := by
  rw [State.entrySender, h.chipNo, h.myCore]

theorem next_me : s.me.sameRegs u.next.me ∧ s.me.wentOn u.next.me := by
  rw [State.me_next]
  exact ⟨h.going.sameRegs_advance, h.going.wentOn_advance⟩

theorem next_others (k : Nat) (hk : k ≠ s.run.cur) : u.next.frame k = s.frame k := by
  rw [← h.others k hk]
  exact State.frame_updMe_ne _ _ (by rw [← h.cur] at hk; exact hk)

end State.underway

/-! ### A posted write (R212, R214) -/

/-- The entry of a posted operation of the current task, transmitted. -/
def State.entryOf (s : State) (kind : BitVec 4) (dest : Word) (n : Nat) (write : Bool) (ctr : Option Place) : JEntry :=
  { kind := kind, state := 1, task := s.me.taskId, dest := dest, reason := 0, bounces := 0, copies := n, bounced := [], write := write,
    ctr := ctr, job := s.me.job }

theorem State.cores_setJournal_setJournal (s : State) (c e : Nat) (x y : JEntry) :
    ((s.setJournal c e (some x)).setJournal c e (some y)).cores = (s.setJournal c e (some y)).cores := by
  simp [State.setJournal]

theorem State.cores_setJournal (h : u.cores = v.cores) (c e : Nat) (x : Option JEntry) :
    (u.setJournal c e x).cores = (v.setJournal c e x).cores := by
  simp only [State.setJournal, State.setCore_cores, State.core, h]

theorem State.cores_enter (h : s.underway u) (hc : u.cores = v.cores) (e : Nat) (kind : BitVec 4) (dest : Word) (n : Nat) (write : Bool) :
    (u.enter e kind dest n write).cores = (v.setJournal s.myCore e (some (s.entryOf kind dest n write none))).cores := by
  rw [State.enter, h.taskId, h.job, h.myCore]
  exact State.cores_setJournal hc ..

/-- A `pst` names its counter in its entry (R225). -/
theorem State.cores_enterCtr (h : s.underway u) {x : JEntry} {e : Nat} (hc : u.cores = (v.setJournal s.myCore e (some x)).cores)
    (c : Option Place) : (u.enterCtr e c).cores = (v.setJournal s.myCore e (some { x with ctr := c })).cores := by
  have hx : u.journal s.myCore e = some x := by
    rw [← v.journal_setJournal s.myCore e (some x), State.journal, State.core, hc]
    rfl
  rw [State.enterCtr, h.myCore, hx]
  dsimp only
  rw [State.cores_setJournal hc, State.cores_setJournal_setJournal]

/-- An instruction under way that has filled the lowest free entry, and sent its messages, has posted them once it goes on. -/
theorem posts_underway {t : State} {e : Nat} {x : JEntry} {kind : BitVec 4} {dest : Word} {ms : Sender → List Msg}
    (he : (s.core s.myCore).freeEntries.head? = some e) (h : s.underway t) (stores : t.mem.stores = s.mem.stores)
    (net : t.net = s.net ++ ms (.core s.chip.chipNo s.myCore e)) (cores : t.cores = (s.setJournal s.myCore e (some x)).cores)
    (hx : x.kind = kind ∧ x.state = 1 ∧ x.task = s.me.taskId ∧ x.dest = dest ∧ x.job = s.me.job) : postsAll s t.next kind dest ms := by
  have journal (k : Nat) : t.next.journal s.myCore k = (s.setJournal s.myCore e (some x)).journal s.myCore k := by
    rw [State.journal, State.journal, State.core, State.core, ← cores]
    rfl
  obtain ⟨regs, on⟩ := h.next_me
  refine ⟨e, he, net, ⟨x, ?_, hx⟩, fun k hk => ?_, regs, on, State.sameBytes_of_stores stores⟩
  · rw [journal, State.journal_setJournal]
  · rw [journal, State.journal_setJournal_ne (some x) (.inr hk)]

/-- A store sends its write, or parks it with its entry, and updates the copy of the own core (R124, R212). -/
def State.postWrite (s : State) (ea : Word) (parked : Bool) (e : Nat) (pst : Bool) (ctr : Option Place) (n : WNo) (w : Place × List Byte) :
    State :=
  let s := if parked then s else s.storeL1 w.1 w.2
  s.post ea parked (.store (s.entrySender e) s.me.taskId s.me.job w.1 w.2 pst ctr n)

theorem State.storeL1_eq (s : State) (p : Place) (bs : List Byte) : ∃ l1, s.storeL1 p bs = { s with mem := { s.mem with l1 := l1 } } := by
  unfold State.storeL1
  split
  · unfold State.patchL1
    split
    · exact ⟨s.mem.l1, rfl⟩
    · exact ⟨_, rfl⟩
  · exact ⟨s.mem.l1, rfl⟩

/-- The write of a store, as it leaves. -/
def State.writeMsg (s : State) (e : Nat) (pst : Bool) (ctr : Option Place) (n : WNo) (w : Place × List Byte) : Msg :=
  .store (.core s.chip.chipNo s.myCore e) s.me.taskId s.me.job w.1 w.2 pst ctr n

theorem State.underway.postWrite_sent (h : s.underway u) (ea : Word) (e : Nat) (pst : Bool) (ctr : Option Place) (n : WNo) (w : Place × List Byte) :
    ∃ l1, u.postWrite ea false e pst ctr n w = { u with mem := { u.mem with l1 := l1 }, net := u.net ++ [s.writeMsg e pst ctr n w] } := by
  obtain ⟨l1, hl1⟩ := u.storeL1_eq w.1 w.2
  have hu : s.underway (u.storeL1 w.1 w.2) := h.of_frames (by rw [hl1]) (by rw [hl1]) (by rw [hl1])
  refine ⟨l1, ?_⟩
  rw [State.postWrite]
  dsimp only [State.post]
  rw [if_neg Bool.false_ne_true, if_neg Bool.false_ne_true, hu.entrySender, hu.taskId, hu.job, hl1]
  rfl

/-! ### Scalar stores elsewhere (R212) -/

theorem State.withEntry_some {e : Nat} (h : s.issued.consulted u) (he : (s.core s.myCore).freeEntries.head? = some e) (k : State → Nat → State) :
    u.withEntry k = k u e := by
  have hcore : u.core u.myCore = s.core s.myCore := by rw [State.myCore_consulted h, State.core, h.cores]; rfl
  rw [State.withEntry, hcore, he]

theorem State.withEntry_none (h : s.issued.consulted u) (he : (s.core s.myCore).freeEntries = []) (k : State → Nat → State) :
    u.withEntry k = u.block .retry := by
  have hcore : u.core u.myCore = s.core s.myCore := by rw [State.myCore_consulted h, State.core, h.cores]; rfl
  rw [State.withEntry, hcore, he]
  rfl

/-- The entry of a posted store is filled; a `pst` names its counter there. -/
def State.enterStore (s : State) (e : Nat) (kind : BitVec 4) (ea : Word) (pst : Bool) (ctr : Option Place) : State :=
  if pst then (s.enter e kind ea 1 true).enterCtr e ctr else s.enter e kind ea 1 true

theorem State.enterCtr_only (s : State) (e : Nat) (ctr : Option Place) : s.enterCtr e ctr = { s with cores := (s.enterCtr e ctr).cores } := by
  unfold State.enterCtr
  split <;> rfl

theorem State.enterStore_only (s : State) (e : Nat) (kind : BitVec 4) (ea : Word) (pst : Bool) (ctr : Option Place) :
    s.enterStore e kind ea pst ctr = { s with cores := (s.enterStore e kind ea pst ctr).cores } := by
  cases pst with
  | false => rfl
  | true => exact State.enterCtr_only ..

theorem State.cores_enterStore (h : s.underway u) (hc : u.cores = v.cores) (e : Nat) (kind : BitVec 4) (ea : Word) (pst : Bool) (ctr : Option Place) :
    (u.enterStore e kind ea pst ctr).cores =
      (v.setJournal s.myCore e (some (s.entryOf kind ea 1 true (if pst then ctr else none)))).cores := by
  have entered := State.cores_enter h hc e kind ea 1 true
  cases pst with
  | false => exact entered
  | true => exact State.cores_enterCtr (u := u.enter e kind ea 1 true) (State.underway.of_frames h rfl rfl rfl) entered ctr

theorem State.underway.enterStore (h : s.underway u) (e : Nat) (kind : BitVec 4) (ea : Word) (pst : Bool) (ctr : Option Place) :
    s.underway (u.enterStore e kind ea pst ctr) := by
  rw [State.enterStore_only]
  exact h.of_frames rfl rfl rfl

/-- What a posted store of one write does once it has an entry. -/
def State.posting (s : State) (kind : BitVec 4) (ea : Word) (pst : Bool) (ctr : Option Place) (w : Place × List Byte) (e : Nat) : State :=
  ((s.newWrite.1.enterStore e kind ea pst ctr).postWrite ea false e pst ctr s.newWrite.2 w).next

theorem State.posting_posts {e : Nat} (h : s.issued.consulted u) (he : (s.core s.myCore).freeEntries.head? = some e) (kind : BitVec 4)
    (ea : Word) (pst : Bool) (ctr : Option Place) (w : Place × List Byte) :
    ∃ n, n.knows = s.me.knows ∧ posts s (u.posting kind ea pst ctr w e) kind ea fun x => .store x s.me.taskId s.me.job w.1 w.2 pst ctr n := by
  have hn : s.underway u.newWrite.1 := .newWrite (.of_consulted h)
  have cores := State.cores_enterStore hn (v := s) h.cores e kind ea pst ctr
  have hknows : u.newWrite.2.knows = s.me.knows := by rw [State.newWrite, h.me, State.knows_issued]
  have hent := State.enterStore_only u.newWrite.1 e kind ea pst ctr
  obtain ⟨l1, hpost⟩ := (hn.enterStore e kind ea pst ctr).postWrite_sent ea e pst ctr u.newWrite.2 w
  refine ⟨u.newWrite.2, hknows, posts_underway he ?_ ?_ ?_ ((congrArg State.cores hpost).trans cores) ⟨rfl, rfl, rfl, rfl, rfl⟩⟩
  all_goals rw [hpost, hent]
  · exact hn.of_frames rfl rfl rfl
  · obtain ⟨_, _, _, rfl⟩ := h
    rfl
  · obtain ⟨_, _, _, rfl⟩ := h
    rfl

theorem State.store_at {n : Nat} {d a : GReg} {ka : Bool} {i : BitVec 12} {p : Place} (hgo : s.goes [.g d ka, .g a ka])
    (hacq : s.acquiring = false) (ht : s.issued.target (s.me.rdG a + BitVec.ofInt 64 (i.toInt * n)) n (plainUse .write n) = (u, .ok p)) :
    s.store n d a ka i = if p.isLocal s.myCore
      then u.whenLocal p n fun s' => (s'.newWrite.1.localStore s'.newWrite.2 p (leBytes (s.me.rdG d).toNat n)).next
      else u.withEntry (State.posting · JKind.st (s.me.rdG a + BitVec.ofInt 64 (i.toInt * n)) false none (p, leBytes (s.me.rdG d).toNat n)) := by
  have hcore := State.myCore_consulted (.target ht)
  rw [← s.address_issued] at ht ⊢
  rw [State.store, State.issue_go hgo, State.afterAcquire, s.acquiring_issued, hacq, if_neg Bool.false_ne_true]
  dsimp only
  rw [plainUse] at ht
  rw [State.accessStore, ht, s.rdG_issued d]
  dsimp only
  rw [hcore]
  rfl

/-! ### Bytes at a place -/

/-- The memories after bytes are written at a place. -/
def Memories.write (m : Memories) (p : Place) (bs : List Byte) : Memories :=
  match p with
  | .dev pa => { m with dev := Mem.puts none m.dev pa bs }
  | .host a => { m with host := Mem.puts none m.host a bs }
  | .bank t off => { m with bank := Mem.puts (some 0) m.bank (bankKey t off) bs }
  | .sram c off => { m with sram := Mem.puts (some 0) m.sram (sramKey c off) bs }
  | _ => m

/-- Bytes from a place on lie within its tile's banks, or its core's scratchpad. -/
def Place.fits (p : Place) (n : Nat) : Prop :=
  match p with
  | .bank _ off => off + n ≤ 0x300000
  | .sram _ off => off + n ≤ 0x10000
  | _ => True

/-- Bytes from a place on have keys of its tile, or of its core. -/
def Place.inRow (p : Place) (n : Nat) : Prop :=
  match p with
  | .bank _ off => off + n ≤ 2 ^ 22
  | .sram _ off => off + n ≤ 2 ^ 16
  | _ => True

theorem Place.fits.inRow {p : Place} {n : Nat} (h : p.fits n) : p.inRow n := by
  cases p with
  | bank t off => exact Nat.le_trans h (by decide)
  | sram c off => exact h
  | _ => trivial

/-- Bytes were written at a place, and no other byte of a memory changed. -/
def State.wrote (s t : State) (p : Place) (bs : List Byte) : Prop := t.mem.stores = (s.mem.write p bs).stores

namespace State.wrote
variable {t : State} {p : Place} {bs : List Byte}

theorem byteAt_eq (h : s.wrote t p bs) (q : Place) : t.byteAt q = State.byteAt { s with mem := s.mem.write p bs } q :=
  State.sameBytes_of_stores (s := { s with mem := s.mem.write p bs }) h q

/-- What is written reads back. -/
theorem byteAt (h : s.wrote t p bs) (hp : p.word.isSome = true) (hf : p.fits bs.length) {j : Nat} (hj : j < bs.length) :
    t.byteAt (p.plus j) = bs[j]? := by
  rw [h.byteAt_eq, List.getElem?_eq_getElem hj]
  cases p with
  | dev pa => exact Mem.get?_puts_none _ _ _ _ hj
  | host a => exact Mem.get?_puts_none _ _ _ _ hj
  | bank t off =>
    have hlt : off + j < 0x300000 := by simp only [Place.fits] at hf; omega
    refine (if_pos hlt).trans (congrArg some ?_)
    rw [State.bankByte, show bankKey t (off + j) = bankKey t off + j from (Nat.add_assoc ..).symm]
    exact Mem.get_puts_in _ _ _ _ _ hj
  | sram c off =>
    have hlt : off + j < 0x10000 := by simp only [Place.fits] at hf; omega
    refine (if_pos hlt).trans (congrArg some ?_)
    rw [State.sramByte, show sramKey c (off + j) = sramKey c off + j from (Nat.add_assoc ..).symm]
    exact Mem.get_puts_in _ _ _ _ _ hj
  | _ => cases hp

/-- Bytes of a bank or a scratchpad, read back together. -/
theorem localBytes {c : Nat} (h : s.wrote t p bs) (hp : p.isLocal c = true) : t.localBytes p bs.length = bs := by
  simp only [State.wrote, Memories.stores, Prod.mk.injEq] at h
  obtain ⟨_, _, hbank, hsram, _⟩ := h
  refine List.ext_getElem (State.length_localBytes hp _) fun i _ hi => ?_
  cases p with
  | bank t off =>
    simp only [State.localBytes, List.getElem_map, List.getElem_range, State.bankByte, hbank]
    rw [show bankKey t (off + i) = bankKey t off + i from (Nat.add_assoc ..).symm]
    exact Mem.get_puts_in _ _ _ _ _ hi
  | sram k off =>
    simp only [State.localBytes, List.getElem_map, List.getElem_range, State.sramByte, hsram]
    rw [show sramKey k (off + i) = sramKey k off + i from (Nat.add_assoc ..).symm]
    exact Mem.get_puts_in _ _ _ _ _ hi
  | _ => cases hp

/-- No byte outside is written. -/
theorem outside (h : s.wrote t p bs) (hf : p.inRow bs.length) : s.sameBytesBut t p bs.length := by
  intro q hq
  rw [h.byteAt_eq]
  cases p with
  | dev pa => exact State.sameBytesBut_dev (s := s) (owner := s.mem.owner) (bad := s.mem.bad) (past := s.mem.past) rfl q hq
  | host a => exact State.sameBytesBut_host rfl q hq
  | bank t off =>
    cases q with
    | bank u o =>
      simp only [Place.overlaps, Bool.and_eq_false_iff, decide_eq_false_iff_not] at hq
      simp only [State.byteAt, State.bankByte]
      split
      next ho =>
        simp only [Place.inRow] at hf
        refine congrArg (fun x : Option Byte => some (x.getD 0)) (Mem.get?_puts_out _ _ _ _ _ ?_)
        unfold bankKey
        omega
      next => rfl
    | _ => rfl
  | sram c off =>
    cases q with
    | sram k o =>
      simp only [Place.overlaps, Bool.and_eq_false_iff, decide_eq_false_iff_not] at hq
      simp only [State.byteAt, State.sramByte]
      split
      next ho =>
        simp only [Place.inRow] at hf
        refine congrArg (fun x : Option Byte => some (x.getD 0)) (Mem.get?_puts_out _ _ _ _ _ ?_)
        unfold sramKey
        omega
      next => rfl
    | _ => rfl
  | _ => rfl

theorem sameBytesBut (h : s.wrote t p bs) (hf : p.fits bs.length) : s.sameBytesBut t p bs.length := h.outside hf.inRow

end State.wrote

/-! ### A store that is done at once (R209, R212) -/

/-- Where no counter lies, R340 has nothing to say. -/
theorem State.spoil_none {p : Place} {n : Nat} (hp : ∀ k off, p ≠ .image k off) (h : ∀ c ∈ s.mem.counters, (s.located p).overlaps n c 8 = false) :
    s.spoil p n = s := by
  have hnone : (s.mem.counters.filter fun c => (s.located p).overlaps n c 8) = [] :=
    List.filter_eq_nil_iff.mpr fun c hc hover => by rw [h c hc] at hover; cases hover
  unfold State.spoil
  split
  next k off => exact absurd rfl (hp k off)
  next => rw [hnone]; rfl

theorem State.localPut_only (s : State) (p : Place) (bs : List Byte) : s.localPut p bs = { s with mem := (s.localPut p bs).mem } := by
  cases p <;> rfl

theorem State.counters_localPut (s : State) (p : Place) (bs : List Byte) : (s.localPut p bs).mem.counters = s.mem.counters := by
  cases p <;> rfl

theorem State.recorded_eq (s t : State) (w : WNo) (atom : Bool) (p : Place) (bs : List Byte) :
    ∃ past, s.recorded t w atom p bs = { t with mem := { t.mem with past := past } } := ⟨_, rfl⟩

/-- A local store writes its bytes, and nothing but the memories changes. -/
theorem State.localStore_writes {p : Place} {c : Nat} {bs : List Byte} (hp : p.isLocal c = true) (hc : noCounter s p bs.length) (w : WNo) :
    ∃ m, s.localStore w p bs = { s with mem := m } ∧ m.stores = (s.mem.write p bs).stores ∧ m.counters = s.mem.counters := by
  have himage (k off : Nat) : p ≠ .image k off := by
    rintro rfl
    cases hp
  have hnone : s.localStore w p bs = s.recorded (s.localPut p bs) w false p bs := by
    refine State.spoil_none himage fun x hx => ?_
    rw [State.located_local hp]
    exact hc x ((s.counters_localPut p bs) ▸ hx)
  obtain ⟨past, hrec⟩ := State.recorded_eq s (s.localPut p bs) w false p bs
  rw [hnone, hrec, State.localPut_only]
  refine ⟨_, rfl, ?_, s.counters_localPut p bs⟩
  cases p with
  | bank t off => rfl
  | sram k off => rfl
  | _ => cases hp

/-! ### Where a local address lies (R201) -/

/-- The byte of a bank or a scratchpad that an address of the tile window names, from a core of a tile. -/
def windowPlace (tile : Nat) (va : Word) : Place :=
  let t := if fld va 32 8 = 0xFF then tile else tileKey (fld va 40 1) (fld va 32 8)
  let off := fld va 0 32
  if off < 0x300000 then .bank t off else .sram (t * 32 + (off - 0x01000000) / 0x10000) (off % 0x10000)

/-- A row of the window that is no byte of a bank or a scratchpad. -/
def farRow (c : Nat) (o : Option Place) : Prop := ∀ p, o = some p → p.isLocal c = false

namespace farRow
variable {c : Nat}

theorem none : farRow c none := nofun

theorem some {p : Place} (h : p.isLocal c = false) : farRow c (some p) := fun _ hq => Option.some.inj hq ▸ h

theorem ite {P : Prop} [Decidable P] {a b : Option Place} (ha : farRow c a) (hb : farRow c b) : farRow c (if P then a else b) := by
  split
  · exact ha
  · exact hb

end farRow

theorem State.windowRow_local {own svc : Bool} {t off : Nat} {use : Use} {p : Place} {c : Nat}
    (h : s.windowRow own t off svc use = some p) (hp : p.isLocal c = true) :
    p = (if off < 0x300000 then .bank t off else .sram (t * 32 + (off - 0x01000000) / 0x10000) (off % 0x10000)) := by
  rw [State.windowRow] at h
  dsimp only at h
  by_cases hbank : off < 0x300000
  · rw [if_pos hbank] at h ⊢
    split at h
    · exact (Option.some.inj h).symm
    · cases h
  · rw [if_neg hbank] at h ⊢
    by_cases hsram : 0x01000000 ≤ off ∧ off < 0x01000000 + 0x10000 * 31
    · rw [if_pos hsram] at h
      split at h
      · exact (Option.some.inj h).symm
      · cases h
    · rw [if_neg hsram] at h
      have row : farRow c (if svc && use.plain && decide (use.size = 8) && decide (off % 8 = 0) then Option.some (.win t off) else Option.none) :=
        .ite (.some rfl) .none
      refine absurd hp (Bool.eq_false_iff.mp (farRow.ite (.ite (.some rfl) .none) ?_ p h))
      exact .ite (.ite (.some rfl) (.ite (.some rfl) .none)) <| .ite row <| .ite row <| .ite row <| .ite (.ite row .none) <| .ite row <|
        .ite row <| .ite row <| .ite (.ite row .none) <| .ite row <| .ite row <| .ite row <| .ite row .none

theorem State.window_local {tile : Nat} {svc : Bool} {va : Word} {use : Use} {p : Place} {c : Nat}
    (h : s.window tile svc va use = some p) (hp : p.isLocal c = true) : p = windowPlace tile va := by
  rw [State.window] at h
  split at h
  · cases h
  · rw [windowPlace]
    split at h
    next hown => rw [if_pos hown]; exact State.windowRow_local h hp
    next hown =>
      split at h
      · cases h
      · rw [if_neg hown]
        exact State.windowRow_local h hp

theorem State.checkLeaf_far {leaf : Word} {lg : Nat} {svc : Bool} {acc : AccKind} {va : Word} {p : Place}
    (h : s.checkLeaf leaf lg svc acc va = .ok p) (c : Nat) : p.isLocal c = false := by
  have hleaf : (s.leafPlace leaf lg va).isLocal c = false := by
    unfold State.leafPlace
    dsimp only
    split
    · rfl
    · split
      · split <;> rfl
      · rfl
  unfold State.checkLeaf at h
  split at h
  · cases h
  · split at h
    · cases h
    · split at h
      · cases h
      · split at h
        · cases h
        · exact Xl.ok.inj h ▸ hleaf

/-- A translation yields no byte of a bank or a scratchpad. -/
theorem State.translate_far {levels : List TlbAt} {job : BitVec 12} {svc : Bool} {acc : AccKind} {va : Word} {p : Place}
    (h : (s.translate levels job svc acc va).2 = .ok p) (c : Nat) : p.isLocal c = false := by
  unfold State.translate at h
  split at h
  · exact State.checkLeaf_far h c
  · split at h
    · cases h
    · exact State.checkLeaf_far h c

/-- A local place is the one that the address names in the window; the check of its address has changed nothing. -/
theorem State.target_local {va : Word} {n : Nat} {use : Use} {p : Place} {c : Nat} (h : s.target va n use = (u, .ok p)) (hp : p.isLocal c = true) :
    u = s ∧ p = windowPlace s.myTile va ∧ va.toNat % n = 0 := by
  unfold State.target at h
  split at h
  · cases h
  · split at h
    · cases h
    next hal =>
      split at h
      · split at h
        next q hw =>
          cases h
          exact ⟨rfl, State.window_local hw hp, not_not.mp hal⟩
        · cases h
      · split at h
        next v q ht =>
          cases h
          rw [State.translate_far (congrArg Prod.snd ht) c] at hp
          cases hp
        · cases h
        · cases h
        · cases h

/-- A line of the window lies in one tile's banks, or one scratchpad. -/
theorem windowPlace_add (tile : Nat) {va : Word} {k : Nat} (ha : va.toNat % 64 = 0) (hk : k < 64) :
    windowPlace tile (va + BitVec.ofNat 64 k) = (windowPlace tile va).plus k := by
  have hva := va.isLt
  have hsum : (va + BitVec.ofNat 64 k).toNat = va.toNat + k := by
    rw [BitVec.toNat_add, BitVec.toNat_ofNat]
    omega
  have high (lo len : Nat) (h : 6 ≤ lo) : fld (va + BitVec.ofNat 64 k) lo len = fld va lo len := by
    rw [fld_eq, fld_eq, hsum]
    congr 1
    obtain ⟨j, rfl⟩ := Nat.exists_eq_add_of_le h
    rw [Nat.pow_add, ← Nat.div_div_eq_div_mul, ← Nat.div_div_eq_div_mul]
    congr 1
    omega
  have low : fld (va + BitVec.ofNat 64 k) 0 32 = fld va 0 32 + k := by
    rw [fld_low, fld_low, hsum]
    omega
  have hal : fld va 0 32 % 64 = 0 := by
    rw [fld_low]
    omega
  rw [windowPlace, windowPlace, low, high 32 8 (by decide), high 40 1 (by decide)]
  generalize fld va 0 32 = off at hal ⊢
  by_cases hbank : off < 0x300000
  · rw [if_pos hbank, if_pos (by omega)]
    rfl
  · have core : (off + k - 0x01000000) / 0x10000 = (off - 0x01000000) / 0x10000 := by omega
    have place : (off + k) % 0x10000 = off % 0x10000 + k := by omega
    rw [if_neg hbank, if_neg (by omega), core, place]
    rfl

theorem windowPlace_fits {n : Nat} (tile : Nat) {va : Word} (hn : n ∣ 64) (ha : va.toNat % n = 0) : (windowPlace tile va).fits n := by
  obtain ⟨m, hm⟩ := hn
  have hal : fld va 0 32 % n = 0 := by
    rw [fld_low, Nat.mod_mod_of_dvd _ (Dvd.dvd.trans ⟨m, hm⟩ (by decide : 64 ∣ 2 ^ 32)), ha]
  have fits {off size : Nat} (h : off % n = 0) (hs : size % n = 0) (hlt : off < size) : off + n ≤ size := by
    obtain ⟨x, rfl⟩ := Nat.dvd_of_mod_eq_zero h
    obtain ⟨y, rfl⟩ := Nat.dvd_of_mod_eq_zero hs
    rw [← Nat.mul_succ]
    exact Nat.mul_le_mul_left n (Nat.lt_of_mul_lt_mul_left hlt)
  have hsize {size : Nat} (h : size % 64 = 0) : size % n = 0 :=
    Nat.mod_eq_zero_of_dvd (Dvd.dvd.trans ⟨m, hm⟩ (Nat.dvd_of_mod_eq_zero h))
  rw [windowPlace]
  split
  next h => exact fits hal (hsize rfl) h
  next h =>
    refine fits ?_ (hsize rfl) (Nat.mod_lt _ (by decide))
    rw [Nat.mod_mod_of_dvd _ (Nat.dvd_of_mod_eq_zero (hsize rfl)), hal]

/-- A local place lies within its tile's banks or its core's scratchpad. -/
theorem State.target_fits {va : Word} {n : Nat} {use : Use} {p : Place} {c : Nat} (h : s.target va n use = (u, .ok p)) (hp : p.isLocal c = true)
    (hn : n ∣ 64) : p.fits n := by
  obtain ⟨_, hw, hal⟩ := State.target_local h hp
  exact hw ▸ windowPlace_fits _ hn hal

theorem State.whenLocal_open {p : Place} {n : Nat} (h : openNow s u p n) (k : State → State) : u.whenLocal p n k = k u := by
  obtain ⟨_, htouch, hpend⟩ := h
  rw [State.whenLocal, htouch]
  dsimp only
  rw [hpend, if_neg Bool.false_ne_true]

theorem localStores_holds : localStoresRule := by
  intro s u d a ka i p hgo hacq x hx ea ht ho hc
  have hexec : exec x.2 s = .next (s.store x.1 d a ka i) ∧ x.1 ∣ 64 := by
    simp only [List.mem_cons, List.not_mem_nil, or_false] at hx
    obtain rfl | rfl | rfl | rfl := hx <;> exact ⟨rfl, by norm_num⟩
  obtain ⟨hexec, hdvd⟩ := hexec
  have hp := ho.1
  have hu : s.issued.consulted u := .target ht
  have hlen : (leBytes (s.me.rdG d).toNat x.1).length = x.1 := length_leBytes ..
  have hn : s.underway u.newWrite.1 := .newWrite (.of_consulted hu)
  have hno : noCounter u.newWrite.1 p (leBytes (s.me.rdG d).toNat x.1).length := by
    obtain ⟨_, _, _, rfl⟩ := hu
    rw [hlen]
    exact hc
  obtain ⟨m, hstore, hwrite, _⟩ := State.localStore_writes hp hno u.newWrite.2
  have hend : exec x.2 s = .next (State.next { u.newWrite.1 with mem := m }) := by
    rw [hexec, State.store_at hgo hacq ht, if_pos hp, State.whenLocal_open ho, hstore]
  have wrote : s.wrote (State.next { u.newWrite.1 with mem := m }) p (leBytes (s.me.rdG d).toNat x.1) := by
    obtain ⟨_, _, _, rfl⟩ := hu
    cases p with
    | bank t off => exact hwrite
    | sram k off => exact hwrite
    | _ => cases hp
  have hnext : s.underway { u.newWrite.1 with mem := m } := hn.of_frames rfl rfl rfl
  have bytes := wrote.localBytes hp
  have others := wrote.sameBytesBut (hlen.symm ▸ State.target_fits ht hp hdvd)
  rw [hlen] at bytes others
  obtain ⟨regs, on⟩ := hnext.next_me
  refine ⟨_, hend, bytes, others, ?_, regs, on, hnext.next_others⟩
  obtain ⟨_, _, _, rfl⟩ := hu
  rfl

/-! ### Counted stores (R225) -/

theorem State.consulted.counter {va : Word} {use : CtrUse} {r : Target} (h : s.counter va use = (v, r)) : s.consulted v := by
  suffices hs : s.consulted (s.counter va use).1 by rwa [h] at hs
  unfold State.counter
  split
  · dsimp only
    split
    · exact .refl s
    · split <;> exact .refl s
  · split
    · exact .refl s
    · split
      · exact .refl s
      · split
        next ht => exact .target ht
        next ht => exact .target ht
        next ht =>
          split
          · exact .target ht
          · exact .target ht
        next ht =>
          split
          · exact .target ht
          · split
            · exact .target ht
            · exact .target ht
        next => exact .target rfl

section
variable {d a b : GReg} {ka kb : Bool} {z : BitVec 2} {p c : Place} (hgo : s.goes [.g d ka, .g a ka, .g b kb]) (hacq : s.acquiring = false)
  (ht : s.issued.target (s.me.rdG a) (2 ^ z.toNat) (formUse .write (2 ^ z.toNat)) = (u, .ok p))
include hgo hacq ht

theorem exec_pst_at : exec (.pst d a b ka kb z) s = .next (
    let post (t : State) (c : Option Place) : State :=
      t.withEntry (State.posting · JKind.pst (s.me.rdG a) true c (p, leBytes (s.me.rdG d).toNat (2 ^ z.toNat)))
    if s.me.rdG b = 0 then post u none else u.withCounter (s.me.rdG b) .add fun s c => post s (some c)) := by
  rw [State.acquired_issue hgo hacq rfl]
  dsimp only
  rw [formUse] at ht
  rw [sizeOf2, s.rdG_issued, s.rdG_issued, s.rdG_issued, State.accessStore, ht]
  rfl

end

theorem postedStores_holds : postedStoresRule := by
  intro s u v d a b ka kb i z p c n id bytes hacq
  have entry (h : (s.core s.myCore).freeEntries ≠ []) : ∃ e, (s.core s.myCore).freeEntries.head? = some e :=
    ⟨_, List.head?_eq_some_head h⟩
  refine ⟨?scalar, fun hgo hf ht => ⟨fun hb => ?plain, fun hb hc => ?counted⟩⟩
  case scalar =>
    intro hgo x hx ea ht hp
    have hexec : exec x.2 s = .next (s.store x.1 d a ka i) := by
      simp only [List.mem_cons, List.not_mem_nil, or_false] at hx
      obtain rfl | rfl | rfl | rfl := hx <;> rfl
    have hu : s.issued.consulted u := .target ht
    rw [hexec, State.store_at hgo hacq ht, if_neg (by rw [hp]; exact Bool.false_ne_true)]
    refine ⟨fun hf => ?_, fun hf => ?_⟩
    · obtain ⟨e, he⟩ := entry hf
      obtain ⟨w, hw, hposts⟩ := State.posting_posts hu he JKind.st ea false none (p, bytes x.1)
      exact ⟨_, w, hw, congrArg _ (State.withEntry_some hu he _), hposts⟩
    · exact ⟨_, congrArg _ (State.withEntry_none hu hf _), waits_block hu⟩
  case plain =>
    obtain ⟨e, he⟩ := entry hf
    have hu : s.issued.consulted u := .target ht
    obtain ⟨w, hw, hposts⟩ := State.posting_posts hu he JKind.pst (s.me.rdG a) true none (p, bytes n)
    refine ⟨_, w, hw, ?_, hposts⟩
    rw [exec_pst_at hgo hacq ht]
    dsimp only
    rw [if_pos hb, State.withEntry_some hu he]
  case counted =>
    obtain ⟨e, he⟩ := entry hf
    have hv : s.issued.consulted v := State.consulted.trans (.target ht) (.counter hc)
    obtain ⟨w, hw, hposts⟩ := State.posting_posts hv he JKind.pst (s.me.rdG a) true (some c) (p, bytes n)
    refine ⟨_, w, hw, ?_, hposts⟩
    rw [exec_pst_at hgo hacq ht]
    dsimp only
    rw [if_neg hb, State.withCounter, hc]
    dsimp only
    rw [State.withEntry_some hv he]

/-- Settles O20: a local store is one write at once, a posted one an entry and a message. -/
theorem stores : Obligations.Stores := by
  unfold Obligations.Stores
  exact ⟨localStores_holds, postedStores_holds⟩

end Sys2Proof.Machine
end

section
/-! # O21: landings as they issue (R217–R219) -/

namespace Sys2Proof.Machine

variable {s u : State}

theorem State.landValid_issued (s : State) (w : Word) (whole : Bool) : s.issued.landValid w whole = s.landValid w whole := by
  simp only [State.landValid, State.svc_issued]
  rfl

theorem State.landOf_consulted (h : s.issued.consulted u) (w : Word) : u.landOf w = s.landOf w := by
  obtain ⟨_, _, _, rfl⟩ := h
  rfl

/-- An instruction that has an entry, fills it, sends one message and goes on has posted it. -/
theorem posts_sent {e : Nat} (h : s.issued.consulted u) (he : (s.core s.myCore).freeEntries.head? = some e) (kind : BitVec 4) (dest : Word)
    (n : Nat) (write : Bool) (m : Sender → Msg) :
    posts s ((u.enter e kind dest n write).send (m (.core s.chip.chipNo s.myCore e))).next kind dest m := by
  have hu : s.underway u := .of_consulted h
  refine posts_underway he (hu.of_frames rfl rfl rfl) ?_ ?_ (State.cores_enter hu (v := s) h.cores e kind dest n write)
    ⟨rfl, rfl, rfl, rfl, rfl⟩
  all_goals
    obtain ⟨_, _, _, rfl⟩ := h
    rfl

theorem addressCause_none_iff {va : Word} {n : Nat} : addressCause va n = none ↔ beyond va = false ∧ va.toNat % n = 0 := by
  unfold addressCause
  split
  next h => simp [h]
  next h =>
    split
    next hn => simp [hn]
    next hn => simp [Bool.eq_false_iff.mpr h, not_not.mp hn]

/-- An address that names a place has passed the checks of its limit and its alignment. -/
theorem addressCause_ok {va : Word} {n : Nat} {use : Use} {p : Place} (h : s.target va n use = (u, .ok p)) : addressCause va n = none := by
  cases hc : addressCause va n with
  | none => rfl
  | some c =>
    rw [State.target_traps hc] at h
    cases h

/-! ### `lnd` (R218) -/

section
variable {a b : GReg} {ka kb : Bool} {n : Nat} {whole : Bool} {i : Instr} (hi : exec i s = .next (s.lnd n whole a b ka kb))
  (hgo : s.goes [.g a ka, .g b kb]) (hacq : s.acquiring = false)
include hi hgo hacq

theorem exec_lnd_eq : exec i s = .next (
    if beyond (s.me.rdG a) then s.issued.trap Cause.PERM (s.me.rdG a)
    else if (s.me.rdG a).toNat % n ≠ 0 then s.issued.trap Cause.ALIGN (s.me.rdG a)
    else if !s.landValid (s.me.rdG b) whole then s.issued.trap Cause.PERM (s.me.rdG b)
    else s.issued.access (s.me.rdG a) n (formUse .read n) fun t p => t.afterFills p n fun t => t.withEntry fun t e =>
      let v := t.enter e JKind.lnd (s.me.rdG b) 1 true
      (v.send (.lndRead (v.entrySender e) v.me.taskId v.me.job p n (v.landOf (s.me.rdG b)) v.me.knows)).next) := by
  rw [State.acquired_issue hgo hacq hi]
  dsimp only
  rw [s.rdG_issued, s.rdG_issued, State.landValid_issued]
  rfl

theorem exec_lnd_refused (hb : beyond (s.me.rdG a) = false) (hal : (s.me.rdG a).toNat % n = 0) (hl : s.landValid (s.me.rdG b) whole = false) :
    exec i s = .next (s.issued.trap Cause.PERM (s.me.rdG b)) := by
  rw [exec_lnd_eq hi hgo hacq, hb, if_neg Bool.false_ne_true, if_neg (not_not.mpr hal), hl]
  rfl

theorem exec_lnd_posts {p : Place} (hl : s.landValid (s.me.rdG b) whole = true)
    (ht : s.issued.target (s.me.rdG a) n (formUse .read n) = (u, .ok p)) (hf : u.fillPending p n = false)
    (hfree : (s.core s.myCore).freeEntries ≠ []) :
    ∃ t, exec i s = .next t ∧ posts s t 3 (s.me.rdG b) fun x =>
      .lndRead x s.me.taskId s.me.job p n (s.landOf (s.me.rdG b)) s.me.knows := by
  obtain ⟨e, he⟩ : ∃ e, (s.core s.myCore).freeEntries.head? = some e := ⟨_, List.head?_eq_some_head hfree⟩
  have hu : s.issued.consulted u := .target ht
  have hw : s.underway (u.enter e JKind.lnd (s.me.rdG b) 1 true) := State.underway.of_frames (.of_consulted hu) rfl rfl rfl
  have hland : (u.enter e JKind.lnd (s.me.rdG b) 1 true).landOf (s.me.rdG b) = s.landOf (s.me.rdG b) := State.landOf_consulted hu _
  have hknows : (u.enter e JKind.lnd (s.me.rdG b) 1 true).me.knows = s.me.knows := (congrArg Frame.knows hu.me).trans s.knows_issued
  refine ⟨_, ?_, posts_sent hu he 3 (s.me.rdG b) 1 true _⟩
  obtain ⟨hb, hal⟩ := addressCause_none_iff.mp (addressCause_ok ht)
  rw [exec_lnd_eq hi hgo hacq, hb, if_neg Bool.false_ne_true, if_neg (not_not.mpr hal), hl, State.access, ht]
  dsimp only
  rw [State.afterFills, hf, if_neg Bool.false_ne_true, State.withEntry_some hu he, hw.entrySender, hw.taskId, hw.job, hland, hknows]
  rfl

end

/-! ### `rput` (R219) -/

section
variable {a : GReg} {ka whole : Bool} {src : Src} {vals : Frame → List Word} {i : Instr} (hi : exec i s = .next (s.rput whole src vals a ka))
  (hgo : s.goes [.g a ka, src])
include hi hgo

theorem exec_rput_refused (hl : s.landValid (s.me.rdG a) whole = false) : exec i s = .next (s.issued.trap Cause.PERM (s.me.rdG a)) := by
  rw [exec_issue hgo hi]
  dsimp only
  rw [s.rdG_issued, State.landValid_issued, hl]
  rfl

theorem exec_rput_posts (hl : s.landValid (s.me.rdG a) whole = true) (hfree : (s.core s.myCore).freeEntries ≠ []) :
    ∃ t, exec i s = .next t ∧ posts s t 2 (s.me.rdG a) fun x =>
      .landing x s.me.taskId s.me.job (s.landOf (s.me.rdG a)) (vals s.me.unblock) none := by
  obtain ⟨e, he⟩ : ∃ e, (s.core s.myCore).freeEntries.head? = some e := ⟨_, List.head?_eq_some_head hfree⟩
  have hu : s.issued.consulted s.issued := .refl _
  have hw : s.underway (s.issued.enter e JKind.rput (s.me.rdG a) 1 true) := State.underway.of_frames (.of_consulted hu) rfl rfl rfl
  have hland : (s.issued.enter e JKind.rput (s.me.rdG a) 1 true).landOf (s.me.rdG a) = s.landOf (s.me.rdG a) := State.landOf_consulted hu _
  have hme : (s.issued.enter e JKind.rput (s.me.rdG a) 1 true).me = s.me.unblock := s.me_issued
  refine ⟨_, ?_, posts_sent hu he 2 (s.me.rdG a) 1 true _⟩
  rw [exec_issue hgo hi]
  dsimp only
  rw [s.rdG_issued, State.landValid_issued, hl, State.withEntry_some hu he, hw.entrySender, hw.taskId, hw.job, hland, hme]
  rfl

end

/-- Settles O21: the two forms of `lnd` and the two of `rput`. -/
theorem landings : Obligations.Landings := by
  unfold Obligations.Landings
  intro s u a b w ka kb z p id A B
  refine ⟨fun hgo hacq x hx => ?lnd, fun hgo => ?rput, fun hgo => ?vector⟩
  case lnd =>
    have hi : exec x.2.2 s = .next (s.lnd x.1 x.2.1 a b ka kb) := by
      simp only [List.mem_cons, List.not_mem_nil, or_false] at hx
      obtain rfl | rfl := hx <;> rfl
    exact ⟨exec_lnd_refused hi hgo hacq, exec_lnd_posts hi hgo hacq⟩
  case rput => exact ⟨exec_rput_refused rfl hgo, exec_rput_posts (vals := fun f => [f.rdG b]) rfl hgo⟩
  case vector =>
    have hw : (w.setWidth 6).setWidth 5 = w := BitVec.setWidth_setWidth_of_le w (by decide)
    have hi : exec (.rputV a (w.setWidth 6) ka kb) s =
        .next (s.rput true (.v w kb) (fun f => (List.range 8).map fun e => f.rdE w e) a ka) := by
      conv_rhs => rw [← hw]
      rfl
    exact exec_rput_posts hi hgo

end Sys2Proof.Machine
end

section
/-! # O23: vector loads, gathers, stores and scatters as they issue (R226–R228) -/

namespace Sys2Proof.Machine

variable {s u v : State}

/-! ### The elements and their places (R227) -/

theorem State.consulted.myTile (h : s.consulted u) : u.myTile = s.myTile := by
  obtain ⟨_, _, _, rfl⟩ := h
  rfl

theorem State.targets_addresses (use : Use) (es : List (Nat × Word)) (s : State) :
    (s.targets use es).2.map (fun e => (e.1, e.2.1)) = es := by
  induction es generalizing s with
  | nil => rfl
  | cons e es ih => exact congrArg (e :: ·) (ih _)

/-- A local element lies where its address names a byte of the window. -/
theorem State.targets_local (use : Use) (es : List (Nat × Word)) {i c : Nat} {va : Word} {p : Place} (s : State)
    (h : (i, va, Target.ok p) ∈ (s.targets use es).2) (hp : p.isLocal c = true) : p = windowPlace s.myTile va ∧ va.toNat % 8 = 0 := by
  induction es generalizing s with
  | nil => cases h
  | cons e es ih =>
    rcases List.mem_cons.mp h with heq | hrest
    · obtain ⟨j, a⟩ := e
      simp only [Prod.mk.injEq] at heq
      obtain ⟨rfl, rfl, ht⟩ := heq
      obtain ⟨_, hw, hal⟩ := State.target_local (u := (s.target va 8 use).1) (Prod.ext rfl ht.symm) hp
      exact ⟨hw, hal⟩
    · have hsame : s.consulted (s.target e.2 8 use).1 := .target rfl
      obtain ⟨hw, hal⟩ := ih _ hrest
      exact ⟨hsame.myTile ▸ hw, hal⟩

/-- An element with the place it may be accessed at; `true` marks a host-owned page. -/
def placed (e : Nat × Word × Target) : Option (Nat × Word × Place × Bool) :=
  match e.2.2 with
  | .ok p => some (e.1, e.2.1, p, false)
  | .own p => some (e.1, e.2.1, p, true)
  | _ => none

/-- The lowest element that fails decides (R227). -/
theorem State.elements_trap {use : Use} {l : List (Nat × Word)} {loads : Bool} {k : State → List (Nat × Word × Place × Bool) → State}
    {c : Byte} {va : Word} (h : firstTrap (s.targets use l).2 = some (c, va)) : s.elements use l loads k = (s.targets use l).1.trap c va := by
  unfold State.elements
  dsimp only
  split
  next hfirst =>
    cases hfirst.symm.trans h
    rfl
  next hnone => cases hnone.symm.trans h

/-- Where every element has a place, the instruction goes on with them (R227). -/
theorem State.elements_placed {use : Use} {l : List (Nat × Word)} {loads : Bool} {k : State → List (Nat × Word × Place × Bool) → State}
    (h : ∀ e ∈ (s.targets use l).2, ∃ p, e.2.2 = .ok p ∨ (e.2.2 = .own p ∧ loads = false)) :
    s.elements use l loads k = k (s.targets use l).1 ((s.targets use l).2.filterMap placed) := by
  have none_of {β : Type} (g : Nat × Word × Target → Option β) (hok : ∀ e p, e.2.2 = .ok p → g e = none)
      (hown : ∀ e p, e.2.2 = .own p → loads = false → g e = none) : (s.targets use l).2.findSome? g = none := by
    refine List.findSome?_eq_none_iff.mpr fun e he => ?_
    obtain ⟨p, hp | ⟨hp, hl⟩⟩ := h e he
    · exact hok e p hp
    · exact hown e p hp hl
  unfold State.elements
  dsimp only
  rw [none_of _ (fun e p he => by rw [he]) (fun e p he _ => by rw [he])]
  dsimp only
  rw [none_of _ (fun e p he => by rw [he]) (fun e p he _ => by rw [he])]
  dsimp only
  split
  next hown => 
    rw [none_of _ (fun e p he => by rw [he]) (fun e p _ hl => by cases hl)] at hown
    cases hown
  next => rfl

/-- Elements of one kind, all with a place. -/
theorem places_of {mk : Place → Target} {es : List (Nat × Word × Target)} (h : ∀ e ∈ es, ∃ p, e.2.2 = mk p) :
    ∃ ps : List (Nat × Word × Place), es = ps.map fun e => (e.1, e.2.1, mk e.2.2) := by
  induction es with
  | nil => exact ⟨[], rfl⟩
  | cons e es ih =>
    obtain ⟨p, hp⟩ := h e (List.mem_cons_self ..)
    obtain ⟨ps, hes⟩ := ih fun e he => h e (List.mem_cons_of_mem _ he)
    obtain ⟨i, va, _⟩ := e
    subst hp
    exact ⟨(i, va, p) :: ps, congrArg _ hes⟩

theorem filterMap_placed {mk : Place → Target} {parked : Bool} (h : ∀ i va p, placed (i, va, mk p) = some (i, va, p, parked))
    (ps : List (Nat × Word × Place)) :
    (ps.map fun e => (e.1, e.2.1, mk e.2.2)).filterMap placed = ps.map fun e => (e.1, e.2.1, e.2.2, parked) := by
  rw [List.filterMap_map, ← List.filterMap_eq_map']
  exact congrArg (List.filterMap · ps) (funext fun e => h e.1 e.2.1 e.2.2)

/-- No element has to wait for a bank or for an earlier access of the task. -/
theorem State.whenAllLocal_open (hc : u.myCore = s.myCore) (k : State → State) {ps : List Place}
    (h : ∀ p ∈ ps, p.isLocal s.myCore = false ∨ openNow s u p 8) : u.whenAllLocal ps k = k u := by
  induction ps with
  | nil => rfl
  | cons p ps ih =>
    have rest := ih fun q hq => h q (List.mem_cons_of_mem _ hq)
    rw [State.whenAllLocal, hc]
    rcases h p (List.mem_cons_self ..) with hp | ho
    · rw [if_neg (by rw [hp]; exact Bool.false_ne_true), rest]
    · rw [if_pos ho.1, State.whenLocal_open ho, rest]

/-! ### Vector loads and gathers (R227) -/

/-- The elements that a mask leaves on. -/
def Frame.onElems (f : Frame) (m : MReg) : List Nat := (List.range 8).filter fun i => (f.rdM m).getLsbD i

theorem Frame.mem_onElems {f : Frame} {m : MReg} {i : Nat} : i ∈ f.onElems m ↔ i < 8 ∧ (f.rdM m).getLsbD i = true := by
  rw [onElems, List.mem_filter, List.mem_range]

theorem Frame.onElems_nodup (f : Frame) (m : MReg) : (f.onElems m).Nodup := List.nodup_range.filter _

theorem State.vmElems_issued (s : State) (m : MReg) (addr : Nat → Word) :
    vmElems s.issued.me m addr = (s.me.onElems m).map fun i => (i, addr i) := by
  rw [vmElems, State.me_issued]
  rfl

/-- What a line of the L1 that serves a load gives. -/
theorem State.l1Hit_some {p : Place} {n : Nat} {bs : List Byte} (h : s.l1Hit p n = some bs) :
    ∃ pa l, p = .dev pa ∧ s.l1Line s.myCore pa (tagOf s.me.job) = some l ∧ bs = (l.bytes.drop (pa % 64)).take n := by
  unfold State.l1Hit at h
  split at h
  next pa =>
    split at h
    next l hl =>
      dsimp only at h
      split at h
      · cases h
      · exact ⟨pa, l, rfl, hl, (Option.some.inj h).symm⟩
    · cases h
  · cases h

/-- The current task has sent messages, elements of v d wait for their answers, and only what reads returned has changed beside. -/
structure State.reading (s v : State) (d : VReg) (js : List Nat) (ms : List Msg) : Prop where
  mem : ∃ rs, v.mem = { s.mem with reads := rs }
  cores : v.cores = s.cores
  cur : v.run.cur = s.run.cur
  net : v.net = s.net ++ ms
  me : ∃ full at_, v.me = { s.me.unblock with vFull := full, issuedAt := at_ } ∧
    ∀ k, k < 256 → full.getLsbD k = (s.me.vFull.getLsbD k && !js.any fun j => decide (k = 8 * d.toNat + j))

/-- The message of an element, as the statement tells it. -/
def elementAsked (s : State) (d : VReg) (x : Nat × Place) (m : Msg) : Prop :=
  (x.2.isLocal s.myCore = true → ∃ r, m = .reply s.me.taskId (.v d (BitVec.ofNat 3 x.1)) r none none ∧ readsLocal s x.2 8 r) ∧
  (x.2.isLocal s.myCore = false → m = .read s.me.taskId s.me.job x.2 8 (.v d (BitVec.ofNat 3 x.1)) s.me.knows ∨
    ∃ pa l, x.2 = .dev pa ∧ s.l1Line s.myCore pa (tagOf s.me.job) = some l ∧
      m = .reply s.me.taskId (.v d (BitVec.ofNat 3 x.1)) (.ok (leWord ((l.bytes.drop (pa % 64)).take 8))) none none)

namespace State.reading
variable {d : VReg} {js : List Nat} {ms : List Msg}

theorem of_consulted (h : s.issued.consulted u) (d : VReg) : s.reading u d [] [] := by
  have hme := h.me
  obtain ⟨_, _, rs, rfl⟩ := h
  refine ⟨⟨rs, rfl⟩, rfl, rfl, (List.append_nil _).symm, s.me.vFull, s.me.issuedAt, hme.trans s.me_issued, fun k _ => ?_⟩
  rw [List.any_nil, Bool.not_false, Bool.and_true]

section
variable (h : s.reading v d js ms)
include h

theorem myCore : v.myCore = s.myCore := by
  obtain ⟨_, _, hme, _⟩ := h.me
  rw [State.myCore, hme, h.cur]
  rfl

theorem taskId : v.me.taskId = s.me.taskId := by
  obtain ⟨_, _, hme, _⟩ := h.me
  rw [hme]
  rfl

theorem job : v.me.job = s.me.job := by
  obtain ⟨_, _, hme, _⟩ := h.me
  rw [hme]
  rfl

theorem knows : v.me.knows = s.me.knows := by
  obtain ⟨_, _, hme, _⟩ := h.me
  rw [hme]
  rfl

/-- What a local element brings is read of memory. -/
theorem brings {p : Place} {c n : Nat} {r : Res} (hp : p.isLocal c = true) (hr : readsLocal v p n r) : readsLocal s p n r := by
  obtain ⟨rs, hmem⟩ := h.mem
  have bad : v.localBad p n = s.localBad p n := by cases p <;> simp only [State.localBad, hmem]
  have bytes : v.localBytes p n = s.localBytes p n := by
    cases p <;> simp only [State.localBytes, State.bankByte, State.sramByte, hmem]
  rw [readsLocal, unrecorded, State.located_local hp, bad, bytes, hmem] at hr
  rw [readsLocal, unrecorded, State.located_local hp]
  exact hr

/-- One element more waits for an answer. -/
theorem sent {j : Nat} (hj : j < 8) (rs : List (TaskId × Place × Nat)) (m : Msg) :
    s.reading ((({ v with mem := { v.mem with reads := rs } }.updMe fun f => f.emptyDst (.v d (BitVec.ofNat 3 j))).send m).fresh)
      d (js ++ [j]) (ms ++ [m]) := by
  obtain ⟨⟨_, hmem⟩, hcores, hcur, hnet, full, at_, hme, hfull⟩ := h
  have hd : 8 * d.toNat + j < 256 := by omega
  refine ⟨⟨rs, ?_⟩, hcores, hcur, ?_, setBit full (8 * d.toNat + j) false, Tab.del at_ (64 + 8 * d.toNat + j), ?_, fun k hk => ?_⟩
  · exact (congrArg (fun x : Memories => { x with reads := rs }) hmem).trans rfl
  · exact (congrArg (· ++ [m]) hnet).trans (List.append_assoc ..)
  · have hupd : ((({ v with mem := { v.mem with reads := rs } }.updMe fun f => f.emptyDst (.v d (BitVec.ofNat 3 j))).send m).fresh).me =
        v.me.emptyE d (BitVec.ofNat 3 j).toNat :=
      State.me_updMe { v with mem := { v.mem with reads := rs } } fun f => f.emptyDst (.v d (BitVec.ofNat 3 j))
    rw [hupd, hme, BitVec.toNat_ofNat, Nat.mod_eq_of_lt hj]
    rfl
  · rw [getLsbD_setBit _ _ _ _ hk, hfull k hk, List.any_append]
    by_cases hkj : k = 8 * d.toNat + j
    · simp [hkj]
    · simp [hkj]

/-- One more element is asked for. -/
theorem startRead {j : Nat} (hj : j < 8) (p : Place) :
    ∃ m, s.reading (v.startRead p 8 (.v d (BitVec.ofNat 3 j))) d (js ++ [j]) (ms ++ [m]) ∧ elementAsked s d (j, p) m := by
  rw [State.startRead, h.myCore, h.taskId, h.job, h.knows]
  by_cases hp : p.isLocal s.myCore = true
  · rw [if_pos hp]
    have hr : readsLocal s p 8 (v.lookGot s.me.taskId s.me.knows p (v.localGot p 8)).2.res := h.brings hp (readsLocal_lookGot hp ..)
    obtain ⟨rs, hlook⟩ : ∃ rs, (v.lookGot s.me.taskId s.me.knows p (v.localGot p 8)).1 = { v with mem := { v.mem with reads := rs } } := by
      cases v.localGot p 8 with
      | bytes bs => exact ⟨_, rfl⟩
      | err c => exact ⟨v.mem.reads, rfl⟩
    dsimp only
    rw [hlook]
    exact ⟨_, h.sent hj rs _, fun _ => ⟨_, rfl, hr⟩, fun hfar => by rw [hp] at hfar; cases hfar⟩
  · rw [if_neg hp]
    have far (m : Msg) (hm : m = .read s.me.taskId s.me.job p 8 (.v d (BitVec.ofNat 3 j)) s.me.knows ∨ ∃ pa l, p = .dev pa ∧
        s.l1Line s.myCore pa (tagOf s.me.job) = some l ∧
        m = .reply s.me.taskId (.v d (BitVec.ofNat 3 j)) (.ok (leWord ((l.bytes.drop (pa % 64)).take 8))) none none) :
        elementAsked s d (j, p) m := ⟨fun hlocal => absurd hlocal hp, fun _ => hm⟩
    split
    next bs hbs =>
      refine ⟨_, h.sent hj _ _, far _ (.inr ?_)⟩
      obtain ⟨pa, l, rfl, hl, rfl⟩ := State.l1Hit_some hbs
      rw [h.myCore, h.job] at hl
      obtain ⟨_, hmem⟩ := h.mem
      rw [State.l1Line, hmem] at hl
      exact ⟨pa, l, rfl, hl, rfl⟩
    next => exact ⟨_, h.sent hj v.mem.reads _, far _ (.inl rfl)⟩

end

/-- The elements are asked for in their order. -/
theorem foldl_startRead (ps : List (Nat × Word × Place)) (hps : ∀ x ∈ ps, x.1 < 8) {v : State} {js : List Nat} {ms : List Msg}
    (h : s.reading v d js ms) :
    ∃ ms', s.reading (ps.foldl (fun s e => s.startRead e.2.2 8 (.v d (BitVec.ofNat 3 e.1))) v) d (js ++ ps.map (·.1)) (ms ++ ms') ∧
      List.Forall₂ (fun x m => elementAsked s d (x.1, x.2.2) m) ps ms' := by
  induction ps generalizing v js ms with
  | nil => exact ⟨[], by simpa using h, .nil⟩
  | cons x ps ih =>
    obtain ⟨m, hm, hask⟩ := h.startRead (hps x (List.mem_cons_self ..)) x.2.2
    obtain ⟨ms', hms, hall⟩ := ih (fun y hy => hps y (List.mem_cons_of_mem _ hy)) hm
    refine ⟨m :: ms', ?_, .cons hask hall⟩
    simpa using hms

end State.reading

section
variable {d : VReg} {b : GReg} {m : MReg} {ka : Bool} {o : BitVec 10}

theorem exec_vld_at (hgo : s.goes ((if m ≠ 0 then [.v d ka] else []) ++ [.m m ka, .g b ka])) (hacq : s.acquiring = false)
    (h : addressCause (s.me.rdG b + BitVec.ofInt 64 (o.toInt * 64)) 64 = none) : exec (.vld d b m ka o) s =
      .next (s.issued.vload d m fun i => s.me.rdG b + BitVec.ofInt 64 (o.toInt * 64) + BitVec.ofNat 64 (8 * i)) := by
  obtain ⟨hb, hal⟩ := addressCause_none_iff.mp h
  rw [State.acquired_issue hgo hacq (exec_vld s d b m ka o), State.vmBase_issued, hb, if_neg Bool.false_ne_true, if_neg (not_not.mpr hal)]

theorem exec_vgath_at (hgo : s.goes ((if m ≠ 0 then [.v d ka] else []) ++ [.v (d + 1) ka, .m m ka, .g b ka])) (hacq : s.acquiring = false) :
    exec (.vgath d b m ka o) s =
      .next (s.issued.vload d m fun i => s.me.rdG b + BitVec.ofInt 64 (o.toInt * 64) + s.me.rdE (d + 1) i) := by
  have hgath : exec (.vgath d b m ka o) s = .next (s.issue ((if m ≠ 0 then [.v d ka] else []) ++ [.v (d + 1) ka, .m m ka, .g b ka]) fun s =>
      s.afterAcquire fun s => s.vload d m fun i => vmBase s.me b o + s.me.rdE (d + 1) i) := by
    have hload : exec (.vgath d b m ka o) s = .next (s.vgath d b m ka o) := rfl
    rw [hload, State.vgath]
    simp only [decide_eq_true_eq]
  rw [State.acquired_issue hgo hacq hgath, State.vmBase_issued]
  simp only [State.rdE_issued]

end

section
variable {use : Use} {m : MReg} {addr : Nat → Word} {es : List (Nat × Word × Target)}
  (ht : s.issued.targets use ((s.me.onElems m).map fun i => (i, addr i)) = (u, es))
include ht

theorem consulted_of_targets : s.issued.consulted u := by
  have h := State.consulted.targets use ((s.me.onElems m).map fun i => (i, addr i)) s.issued
  rwa [ht] at h

/-- The elements, each with the address and the place that it has. -/
theorem targets_elements {mk : Place → Target} {ps : List (Nat × Word × Place)} (hes : es = ps.map fun e => (e.1, e.2.1, mk e.2.2)) :
    ps.map (fun e => (e.1, e.2.1)) = (s.me.onElems m).map fun i => (i, addr i) := by
  have h := State.targets_addresses use ((s.me.onElems m).map fun i => (i, addr i)) s.issued
  rw [ht, hes, List.map_map] at h
  exact h

theorem targets_address {mk : Place → Target} {ps : List (Nat × Word × Place)} (hes : es = ps.map fun e => (e.1, e.2.1, mk e.2.2))
    {x : Nat × Word × Place} (hx : x ∈ ps) : x.2.1 = addr x.1 := by
  have hmem : (x.1, x.2.1) ∈ ps.map fun e => (e.1, e.2.1) := List.mem_map_of_mem hx
  rw [targets_elements ht hes] at hmem
  obtain ⟨j, _, hj⟩ := List.mem_map.mp hmem
  obtain ⟨hj1, hj2⟩ := Prod.mk.inj hj
  rw [← hj2, ← hj1]

theorem targets_indices {mk : Place → Target} {ps : List (Nat × Word × Place)} (hes : es = ps.map fun e => (e.1, e.2.1, mk e.2.2)) :
    ps.map (·.1) = s.me.onElems m := by
  have h := congrArg (List.map Prod.fst) (targets_elements ht hes)
  rwa [List.map_map, List.map_map, List.map_id''] at h
  exact fun _ => rfl

end

section
variable {d : VReg} {m : MReg} {addr : Nat → Word} {es : List (Nat × Word × Target)}
  (ht : s.issued.targets (vmUse .read) ((s.me.onElems m).map fun i => (i, addr i)) = (u, es))
include ht

theorem vload_traps {c : Byte} {va : Word} (h : firstTrap es = some (c, va)) : s.issued.vload d m addr = u.trap c va := by
  rw [State.vload, State.vmElems_issued, State.elements_trap (by rw [ht]; exact h), ht]

theorem vload_placed {ps : List (Nat × Word × Place)} (hes : es = ps.map fun e => (e.1, e.2.1, .ok e.2.2)) :
    s.issued.vload d m addr = if ps.any fun e => u.fillPending e.2.2 8 then u.block .retry
      else u.whenAllLocal (ps.map (·.2.2)) fun s => (ps.foldl (fun s e => s.startRead e.2.2 8 (.v d (BitVec.ofNat 3 e.1))) s).next := by
  have hok : ∀ e ∈ es, ∃ p, e.2.2 = .ok p ∨ (e.2.2 = .own p ∧ true = false) := by
    rw [hes]
    intro e he
    obtain ⟨x, _, rfl⟩ := List.mem_map.mp he
    exact ⟨x.2.2, .inl rfl⟩
  rw [State.vload, State.vmElems_issued, State.elements_placed (by rw [ht]; exact hok), ht, hes, filterMap_placed fun _ _ _ => rfl]
  simp only [List.any_map, List.map_map, List.foldl_map]
  rfl

/-- Every element is asked for, in order. -/
theorem vload_asks {ps : List (Nat × Word × Place)} (hes : es = ps.map fun e => (e.1, e.2.1, .ok e.2.2))
    (hopen : ∀ x ∈ ps, u.fillPending x.2.2 8 = false ∧ (x.2.2.isLocal s.myCore = false ∨ openNow s u x.2.2 8)) :
    ∃ v ms, s.issued.vload d m addr = v.next ∧ s.reading v d (s.me.onElems m) ms ∧
      List.Forall₂ (fun x m => elementAsked s d (x.1, x.2.2) m) ps ms := by
  have hu := consulted_of_targets ht
  have hjs := targets_indices ht hes
  have hlt : ∀ x ∈ ps, x.1 < 8 := fun x hx => (Frame.mem_onElems.mp (hjs ▸ List.mem_map_of_mem hx)).1
  have hfill : ¬(ps.any fun e => u.fillPending e.2.2 8) = true := by
    rw [List.any_eq_true]
    rintro ⟨x, hx, hf⟩
    rw [(hopen x hx).1] at hf
    cases hf
  have hwhen (k : State → State) : u.whenAllLocal (ps.map (·.2.2)) k = k u := by
    refine State.whenAllLocal_open (State.myCore_consulted hu) k fun p hp => ?_
    obtain ⟨x, hx, rfl⟩ := List.mem_map.mp hp
    exact (hopen x hx).2
  obtain ⟨ms, hread, hall⟩ := State.reading.foldl_startRead ps hlt (.of_consulted hu d)
  rw [hjs] at hread
  exact ⟨_, ms, by rw [vload_placed ht hes, if_neg hfill, hwhen], hread, hall⟩

end

/-- What a vector load leaves of its task and of the rest. -/
theorem State.reading.next_keeps {d : VReg} {m : MReg} {ms : List Msg} (h : s.reading v d (s.me.onElems m) ms) :
    (∀ i, i < 8 → (s.me.rdM m).getLsbD i = true → v.next.me.vFull.getLsbD (8 * d.toNat + i) = false) ∧
    (∀ i, i < 8 → (s.me.rdM m).getLsbD i = false → v.next.me.vecReg d i = s.me.vecReg d i) ∧
    (∀ r e, e < 8 → r ≠ d → v.next.me.vecReg r e = s.me.vecReg r e) ∧ (∀ r, v.next.me.genReg r = s.me.genReg r) ∧
    (∀ r, v.next.me.maskReg r = s.me.maskReg r) ∧ v.next.me.specials = s.me.specials ∧ v.next.me.vfx = s.me.vfx ∧
    s.me.wentOn v.next.me ∧ v.next.me.state = .running ∧ s.sameBytes v.next ∧ v.next.cores = s.cores := by
  obtain ⟨⟨rs, hmem⟩, hcores, -, -, full, at_, hme, hfull⟩ := h
  have kept {r : VReg} {e : Nat} (he : e < 8) (hno : ∀ j ∈ s.me.onElems m, 8 * r.toNat + e ≠ 8 * d.toNat + j) :
      Frame.vecReg { s.me.unblock with vFull := full, issuedAt := at_ } r e = s.me.vecReg r e := by
    have hbit : full.getLsbD (8 * r.toNat + e) = s.me.vFull.getLsbD (8 * r.toNat + e) := by
      rw [hfull _ (by omega), List.any_eq_false.mpr fun j hj => by simpa using hno j hj, Bool.not_false, Bool.and_true]
    rw [Frame.vecReg, Frame.vecReg, hbit]
    rfl
  rw [State.me_next, hme]
  refine ⟨fun i hi hon => ?_, fun i hi hoff => ?_, fun r e he hr => ?_, fun r => ?_, fun r => ?_, ?_, ?_, Frame.wentOn_advance rfl rfl, ?_,
    State.sameBytes_of_stores ((congrArg Memories.stores hmem).trans rfl), hcores⟩
  · have hmem := Frame.mem_onElems.mpr ⟨hi, hon⟩
    rw [Frame.advance_eq]
    dsimp only
    rw [hfull _ (by omega), List.any_eq_true.mpr ⟨i, hmem, decide_eq_true rfl⟩, Bool.not_true, Bool.and_false]
  · rw [Frame.vecReg_advance]
    refine kept hi fun j hj heq => ?_
    rw [Nat.add_left_cancel heq, (Frame.mem_onElems.mp hj).2] at hoff
    cases hoff
  · rw [Frame.vecReg_advance]
    refine kept he fun j hj heq => hr (BitVec.eq_of_toNat_eq ?_)
    have := (Frame.mem_onElems.mp hj).1
    omega
  · rw [Frame.genReg_advance]
    rfl
  · rw [Frame.maskReg_advance]
    rfl
  · rw [Frame.specials_advance]
    rfl
  · rw [Frame.vfx_advance]
    rfl
  · rw [Frame.state_advance]
    rfl

theorem State.l1Line_consulted (h : s.issued.consulted u) : u.l1Line = s.l1Line := by
  obtain ⟨_, _, _, rfl⟩ := h
  rfl

theorem vectorLoads_holds : vectorLoadsRule := by
  intro s d b m ka o base id on vd hacq x hx hgo haligned u es
  obtain ⟨hexec, ht⟩ : exec x.1 s = .next (s.issued.vload d m x.2.2) ∧
      s.issued.targets (vmUse .read) ((s.me.onElems m).map fun i => (i, x.2.2 i)) = (u, es) := by
    refine ⟨?_, rfl⟩
    simp only [List.mem_cons, List.not_mem_nil, or_false] at hx
    obtain rfl | rfl := hx
    · obtain ⟨hb, hal⟩ := haligned rfl
      exact exec_vld_at hgo hacq (addressCause_none_iff.mpr ⟨Bool.eq_false_iff.mpr fun h => (beyond_iff _).mp h hb, hal⟩)
    · exact exec_vgath_at hgo hacq
  have hu := consulted_of_targets ht
  rw [hexec]
  refine ⟨fun c va h => congrArg _ (vload_traps ht h), fun hok hfill => ?_, fun hopen => ?_⟩
  · obtain ⟨ps, hes⟩ := places_of (mk := .ok) hok
    have hany : (ps.any fun e => u.fillPending e.2.2 8) = true := by
      obtain ⟨e, he, p, hp, hf⟩ := hfill
      rw [hes] at he
      obtain ⟨y, hy, rfl⟩ := List.mem_map.mp he
      exact List.any_eq_true.mpr ⟨y, hy, Target.ok.inj hp ▸ hf⟩
    exact ⟨_, by rw [vload_placed ht hes, if_pos hany], waits_block hu⟩
  · obtain ⟨ps, hes⟩ := places_of (mk := .ok) fun e he => (hopen e he).imp fun _ h => h.1
    have hps : ∀ y ∈ ps, u.fillPending y.2.2 8 = false ∧ (y.2.2.isLocal s.myCore = false ∨ openNow s u y.2.2 8) := by
      intro y hy
      obtain ⟨p, hp, h⟩ := hopen _ (hes ▸ List.mem_map_of_mem hy)
      exact Target.ok.inj hp ▸ h
    obtain ⟨v, ms, hload, hread, hall⟩ := vload_asks ht hes hps
    have haddr := targets_elements ht hes
    refine ⟨v.next, ms, congrArg _ hload, hread.net, ?_, fun i e he => ?_, hread.next_keeps⟩
    · rw [← hall.length_eq, ← List.length_map (f := fun e : Nat × Word × Place => (e.1, e.2.1)), haddr, List.length_map]
      rfl
    · obtain ⟨hi, rfl⟩ := List.getElem?_eq_some_iff.mp he
      have hlt : i < ps.length := hall.length_eq ▸ hi
      obtain ⟨near, far⟩ := hall.get hlt hi
      have hes_i : es[i]? = some (ps[i].1, ps[i].2.1, .ok ps[i].2.2) := by
        rw [hes, List.getElem?_map, List.getElem?_eq_getElem hlt]
        rfl
      rw [← State.l1Line_consulted hu] at far
      exact ⟨_, _, targets_address ht hes (List.getElem_mem hlt) ▸ hes_i, near, far⟩

end Sys2Proof.Machine
end

section
/-! # O23: `vst` (R226, R228) -/

namespace Sys2Proof.Machine

variable {s u v : State}

/-! ### The writes of a `vst` -/

/-- The writes of a vector store at the places of its elements. -/
def writesOf (ps : List (Nat × Word × Place)) (bytes : Nat → List Byte) : List (Place × List Byte) :=
  if ps.length = 8 then (ps.head?.map fun x => (x.2.2, (List.range 8).flatMap bytes)).toList else ps.map fun x => (x.2.2, bytes x.1)

theorem vectorWrites_places {mk : Place → Target} {place : Target → Option Place} (h : ∀ p, place (mk p) = some p)
    (ps : List (Nat × Word × Place)) (bytes : Nat → List Byte) :
    vectorWrites (ps.map fun e => (e.1, e.2.1, mk e.2.2)) place bytes = writesOf ps bytes := by
  have hps : (ps.map fun e => (e.1, e.2.1, mk e.2.2)).filterMap (fun e => (place e.2.2).map fun p => (e.1, p)) =
      ps.map fun e => (e.1, e.2.2) := by
    rw [List.filterMap_map, ← List.filterMap_eq_map']
    refine congrArg (List.filterMap · ps) (funext fun e => ?_)
    simp only [Function.comp_apply, h]
    rfl
  rw [vectorWrites, hps, writesOf]
  simp only [List.length_map, List.head?_map, Option.map_map, List.map_map]
  rfl

/-- What a `vst` does with the elements that have a place (R228). -/
def State.vstWith (s : State) (f : Frame) (d : VReg) (ea : Word) (es : List (Nat × Word × Place × Bool)) : State :=
  match es with
  | [] => s.next
  | (_, _, p0, parked) :: _ =>
    let writes : List (Place × List Byte) :=
      if es.length = 8 then [(p0, (List.range 8).flatMap fun i => elemBytes f d i)]
      else es.map fun x => (x.2.2.1, elemBytes f d x.1)
    if p0.isLocal s.myCore then
      s.whenAllLocal (es.map fun e => e.2.2.1) fun s =>
        (writes.foldl (fun t w => t.localStore s.newWrite.2 w.1 w.2) s.newWrite.1).next
    else s.withEntry fun s e =>
      (writes.foldl (fun t w => t.postWrite ea parked e false none s.newWrite.2 w) (s.newWrite.1.enter e JKind.vst ea writes.length true)).next

theorem State.vstWith_places (s : State) (f : Frame) (d : VReg) (ea : Word) (parked : Bool) (x : Nat × Word × Place) (ps : List (Nat × Word × Place)) :
    s.vstWith f d ea ((x :: ps).map fun e => (e.1, e.2.1, e.2.2, parked)) =
      let ws := writesOf (x :: ps) (elemBytes f d)
      if x.2.2.isLocal s.myCore then
        s.whenAllLocal ((x :: ps).map (·.2.2)) fun s => (ws.foldl (fun t w => t.localStore s.newWrite.2 w.1 w.2) s.newWrite.1).next
      else s.withEntry fun s e =>
        (ws.foldl (fun t w => t.postWrite ea parked e false none s.newWrite.2 w) (s.newWrite.1.enter e JKind.vst ea ws.length true)).next := by
  have hws : (if ((x :: ps).map fun e => (e.1, e.2.1, e.2.2, parked)).length = 8 then [(x.2.2, (List.range 8).flatMap fun i => elemBytes f d i)]
      else ((x :: ps).map fun e => (e.1, e.2.1, e.2.2, parked)).map fun x => (x.2.2.1, elemBytes f d x.1)) = writesOf (x :: ps) (elemBytes f d) := by
    rw [writesOf, List.length_map, List.map_map]
    rfl
  rw [List.map_cons, State.vstWith, ← List.map_cons (f := fun e : Nat × Word × Place => (e.1, e.2.1, e.2.2, parked)), hws, List.map_map]
  rfl

section
variable {d : VReg} {b : GReg} {m : MReg} {ka : Bool} {o : BitVec 10}

theorem exec_vst_at (hgo : s.goes [.v d ka, .m m ka, .g b ka]) (hacq : s.acquiring = false)
    (h : addressCause (s.me.rdG b + BitVec.ofInt 64 (o.toInt * 64)) 64 = none) : exec (.vst d b m ka o) s =
      .next (s.issued.elements (vmUse .write)
        ((s.me.onElems m).map fun i => (i, s.me.rdG b + BitVec.ofInt 64 (o.toInt * 64) + BitVec.ofNat 64 (8 * i))) false
        fun t es => t.vstWith s.issued.me d (s.me.rdG b + BitVec.ofInt 64 (o.toInt * 64)) es) := by
  obtain ⟨hb, hal⟩ := addressCause_none_iff.mp h
  rw [State.acquired_issue hgo hacq rfl]
  dsimp only
  rw [State.vmBase_issued, hb, if_neg Bool.false_ne_true, if_neg (not_not.mpr hal), State.vmElems_issued]
  rfl

end

/-! ### Writes done at once -/

theorem Place.overlaps_part {p q : Place} {n m i : Nat} (h : p.overlaps n q m = false) (hi : i < m) : p.overlaps n (q.plus i) 1 = false := by
  cases p <;> cases q
  case frameCtr.frameCtr => exact h
  case peer.peer =>
    simp only [Place.overlaps, Place.plus, Bool.and_eq_false_iff, decide_eq_false_iff_not] at h ⊢
    exact h.imp_right fun h => by omega
  all_goals simp only [Place.overlaps, Place.plus, Bool.and_eq_false_iff, decide_eq_false_iff_not] at h ⊢ <;> omega

theorem State.localBytes_congr {t : State} {p : Place} {c n : Nat} (hp : p.isLocal c = true) (hf : p.fits n)
    (h : ∀ i, i < n → t.byteAt (p.plus i) = s.byteAt (p.plus i)) : t.localBytes p n = s.localBytes p n := by
  cases p with
  | bank k off =>
    refine List.map_congr_left fun i hi => ?_
    have hlt : off + i < 0x300000 := by
      have := List.mem_range.mp hi
      simp only [Place.fits] at hf
      omega
    have hbyte := h i (List.mem_range.mp hi)
    simp only [Place.plus, State.byteAt, if_pos hlt] at hbyte
    exact Option.some.inj hbyte
  | sram k off =>
    refine List.map_congr_left fun i hi => ?_
    have hlt : off + i < 0x10000 := by
      have := List.mem_range.mp hi
      simp only [Place.fits] at hf
      omega
    have hbyte := h i (List.mem_range.mp hi)
    simp only [Place.plus, State.byteAt, if_pos hlt] at hbyte
    exact Option.some.inj hbyte
  | _ => cases hp

/-- A write that a task may do at once: to bytes of a bank or a scratchpad, where no counter lies. -/
def State.atOnce (s : State) (w : Place × List Byte) : Prop :=
  w.1.isLocal s.myCore = true ∧ w.1.fits w.2.length ∧ noCounter s w.1 w.2.length

/-- Writes done one after the other, none over another. -/
theorem State.foldl_localStore (n : WNo) {ws : List (Place × List Byte)} (hws : ∀ w ∈ ws, s.atOnce w)
    (hdisj : ws.Pairwise fun w x => x.1.overlaps x.2.length w.1 w.2.length = false) {v : State} (hc : v.mem.counters = s.mem.counters) :
    ∃ m, ws.foldl (fun t w => t.localStore n w.1 w.2) v = { v with mem := m } ∧
      (∀ w ∈ ws, State.localBytes { v with mem := m } w.1 w.2.length = w.2) ∧
      ∀ q, (∀ w ∈ ws, w.1.overlaps w.2.length q 1 = false) → State.byteAt { v with mem := m } q = v.byteAt q := by
  induction ws generalizing v with
  | nil => exact ⟨v.mem, rfl, nofun, fun _ _ => rfl⟩
  | cons w ws ih =>
    obtain ⟨hlocal, hfits, hno⟩ := hws w (List.mem_cons_self ..)
    obtain ⟨hover, hrest⟩ := List.pairwise_cons.mp hdisj
    have hnov : noCounter v w.1 w.2.length := fun c hcm => hno c (hc ▸ hcm)
    obtain ⟨m₁, hstore, hwrite, hcount⟩ := State.localStore_writes hlocal hnov n
    have wrote : v.wrote { v with mem := m₁ } w.1 w.2 := hwrite
    obtain ⟨m, hfold, hbytes, hout⟩ := ih (fun x hx => hws x (List.mem_cons_of_mem _ hx)) hrest (v := { v with mem := m₁ }) (hcount.trans hc)
    refine ⟨m, by rw [List.foldl_cons, hstore, hfold], fun x hx => ?_, fun q hq => ?_⟩
    · rcases List.mem_cons.mp hx with rfl | hx
      · refine (State.localBytes_congr hlocal hfits fun i hi => ?_).trans (wrote.localBytes hlocal)
        exact hout _ fun y hy => Place.overlaps_part (hover y hy) hi
      · exact hbytes x hx
    · rw [hout q fun x hx => hq x (List.mem_cons_of_mem _ hx)]
      exact wrote.sameBytesBut hfits q (hq w (List.mem_cons_self ..))

/-! ### Writes sent, or parked (R124, R212) -/

theorem State.underway.postWrite_parked (h : s.underway u) (ea : Word) (e : Nat) (pst : Bool) (ctr : Option Place) (n : WNo) (w : Place × List Byte) :
    ∃ p, u.postWrite ea true e pst ctr n w = { u with parks := u.parks ++ [p] } ∧ (p.own, p.job, p.va) = (true, s.me.job, ea) :=
  ⟨_, rfl, by rw [← h.job]; rfl⟩

theorem State.underway.foldl_sent (h : s.underway v) (ea : Word) (e : Nat) (n : WNo) (ws : List (Place × List Byte)) :
    ∃ l1, ws.foldl (fun t w => t.postWrite ea false e false none n w) v =
      { v with mem := { v.mem with l1 := l1 }, net := v.net ++ ws.map (s.writeMsg e false none n) } := by
  induction ws generalizing v with
  | nil => exact ⟨v.mem.l1, by rw [List.map_nil, List.append_nil]; rfl⟩
  | cons w ws ih =>
    obtain ⟨l1, hw⟩ := h.postWrite_sent ea e false none n w
    rw [List.foldl_cons, hw]
    obtain ⟨l2, hfold⟩ := ih (h.of_frames (v := { v with mem := { v.mem with l1 := l1 }, net := v.net ++ [s.writeMsg e false none n w] }) rfl rfl rfl)
    exact ⟨l2, hfold.trans (congrArg (fun n => { v with mem := { v.mem with l1 := l2 }, net := n }) (List.append_cons ..).symm)⟩

theorem State.underway.foldl_parked (h : s.underway v) (ea : Word) (e : Nat) (n : WNo) (ws : List (Place × List Byte)) :
    ∃ ps, ws.foldl (fun t w => t.postWrite ea true e false none n w) v = { v with parks := v.parks ++ ps } ∧
      ps.map (fun p => (p.own, p.job, p.va)) = ws.map fun _ => (true, s.me.job, ea) := by
  induction ws generalizing v with
  | nil => exact ⟨[], by rw [List.append_nil]; rfl, rfl⟩
  | cons w ws ih =>
    obtain ⟨p, hw, hp⟩ := h.postWrite_parked ea e false none n w
    rw [List.foldl_cons, hw]
    obtain ⟨ps, hfold, hps⟩ := ih (h.of_frames (v := { v with parks := v.parks ++ [p] }) rfl rfl rfl)
    exact ⟨p :: ps, hfold.trans (congrArg (fun n => { v with parks := n }) (List.append_cons ..).symm), congrArg₂ List.cons hp hps⟩
/-! ### The places of a line's elements (R201, R228) -/

theorem Place.plus_zero (p : Place) : p.plus 0 = p := by cases p <;> rfl

theorem Place.isLocal_plus {p : Place} (c i : Nat) : (p.plus i).isLocal c = p.isLocal c := by cases p <;> rfl

/-- Two words of eight bytes at different multiples of eight from a local place. -/
theorem Place.plus_disjoint {p : Place} {c i j : Nat} (hp : p.isLocal c = true) (h : i ≠ j) :
    (p.plus (8 * i)).overlaps 8 (p.plus (8 * j)) 8 = false := by
  cases p with
  | bank t off => simp only [Place.overlaps, Place.plus, Bool.and_eq_false_iff, decide_eq_false_iff_not]; omega
  | sram k off => simp only [Place.overlaps, Place.plus, Bool.and_eq_false_iff, decide_eq_false_iff_not]; omega
  | _ => cases hp

/-- What eight words do not meet, their line does not meet. -/
theorem Place.overlaps_line {p q : Place} {c n : Nat} (hp : p.isLocal c = true) (hn : 0 < n)
    (h : ∀ i, i < 8 → (p.plus (8 * i)).overlaps 8 q n = false) : p.overlaps 64 q n = false := by
  have far (a b : Nat) (hall : ∀ i, i < 8 → ¬(a + 8 * i < b + n ∧ b < a + 8 * i + 8)) : ¬(a < b + n ∧ b < a + 64) := by
    by_cases hle : b < a
    · have := hall 0 (by decide)
      omega
    · have := hall ((b - a) / 8)
      omega
  cases p with
  | bank t off =>
    cases q
    case bank k o =>
      simp only [Place.overlaps, Place.plus, ← Bool.decide_and, decide_eq_false_iff_not] at h ⊢
      rintro ⟨hk, hover⟩
      exact far off o (fun i hi hx => h i hi ⟨hk, hx⟩) hover
    all_goals rfl
  | sram t off =>
    cases q
    case sram k o =>
      simp only [Place.overlaps, Place.plus, ← Bool.decide_and, decide_eq_false_iff_not] at h ⊢
      rintro ⟨hk, hover⟩
      exact far off o (fun i hi hx => h i hi ⟨hk, hx⟩) hover
    all_goals rfl
  | _ => cases hp

/-- The bytes of eight words together. -/
theorem length_flatMap_bytes {bytes : Nat → List Byte} (h : ∀ i, (bytes i).length = 8) : ((List.range 8).flatMap bytes).length = 64 := by
  simp [List.length_flatMap, h]

/-- A mask that leaves eight elements on leaves all on. -/
theorem Frame.onElems_full {f : Frame} {m : MReg} (h : (f.onElems m).length = 8) : f.onElems m = List.range 8 :=
  List.filter_sublist.eq_of_length (h.trans List.length_range.symm)

section
variable {ps : List (Nat × Word × Place)} {bytes : Nat → List Byte} {m : MReg} {tile : Nat} {base : Word} (hbytes : ∀ i, (bytes i).length = 8)
  (hon : ps.map (·.1) = s.me.onElems m) (hbase : base.toNat % 64 = 0)
  (hplace : ∀ x ∈ ps, x.2.2 = (windowPlace tile base).plus (8 * x.1)) (hlocal : ∀ x ∈ ps, x.2.2.isLocal s.myCore = true ∧ noCounter s x.2.2 8)
include hbytes hon hbase hplace hlocal

/-- The writes of a local `vst` may be done at once, none over another. -/
theorem writesOf_atOnce : (∀ w ∈ writesOf ps bytes, s.atOnce w) ∧
    (writesOf ps bytes).Pairwise fun w x => x.1.overlaps x.2.length w.1 w.2.length = false := by
  have hfits : ∀ x ∈ ps, x.2.2.fits 8 := fun x hx => by
    have h8 : x.1 < 8 := (Frame.mem_onElems.mp (hon ▸ List.mem_map_of_mem hx)).1
    rw [hplace x hx, ← windowPlace_add tile hbase (by omega)]
    refine windowPlace_fits tile (by norm_num) ?_
    rw [BitVec.toNat_add, BitVec.toNat_ofNat]
    omega
  rw [writesOf]
  split
  next hlen =>
    have hall : ps.map (·.1) = List.range 8 := hon.trans (Frame.onElems_full (by rw [← hon, List.length_map, hlen]))
    cases ps with
    | nil => cases hlen
    | cons x ps =>
      have hx := hlocal x (List.mem_cons_self ..)
      have hzero : x.1 = 0 := (List.cons.inj hall).1
      have hfirst : x.2.2 = windowPlace tile base := by rw [hplace x (List.mem_cons_self ..), hzero, Place.plus_zero]
      simp only [List.head?_cons, Option.map_some, Option.toList_some, List.mem_singleton, forall_eq, List.pairwise_singleton, and_true]
      refine ⟨hx.1, ?_, fun c hc => ?_⟩
      · rw [length_flatMap_bytes hbytes, hfirst]
        exact windowPlace_fits tile (by norm_num) hbase
      · rw [length_flatMap_bytes hbytes]
        refine Place.overlaps_line hx.1 (by decide) fun i hi => ?_
        obtain ⟨y, hy, hyi⟩ := List.mem_map.mp (hall ▸ List.mem_range.mpr hi)
        rw [hfirst, ← hyi, ← hplace y hy]
        exact (hlocal y hy).2 c hc
  next =>
    have hne : ps.Pairwise fun x y => x.1 ≠ y.1 := List.pairwise_map.mp (hon ▸ s.me.onElems_nodup m)
    refine ⟨fun w hw => ?_, List.pairwise_map.mpr (hne.imp_of_mem fun {x y} hx hy hxy => ?_)⟩
    · obtain ⟨x, hx, rfl⟩ := List.mem_map.mp hw
      refine ⟨(hlocal x hx).1, ?_, ?_⟩
      · rw [hbytes]
        exact hfits x hx
      · rw [hbytes]
        exact (hlocal x hx).2
    · rw [hbytes, hbytes, hplace x hx, hplace y hy]
      refine Place.plus_disjoint (c := s.myCore) ?_ hxy.symm
      rw [← Place.isLocal_plus, ← hplace x hx]
      exact (hlocal x hx).1

end
/-! ### `vst` (R228) -/

theorem elemBytes_issued (s : State) (d : VReg) : elemBytes s.issued.me d = fun i => leBytes (s.me.rdE d i).toNat 8 := by
  funext i
  rw [elemBytes, State.rdE_issued]

section
variable {d : VReg} {b : GReg} {m : MReg} {ka : Bool} {o : BitVec 10} {base : Word} {es : List (Nat × Word × Target)}
  (hexec : exec (.vst d b m ka o) s = .next (s.issued.elements (vmUse .write)
    ((s.me.onElems m).map fun i => (i, base + BitVec.ofNat 64 (8 * i))) false fun t es => t.vstWith s.issued.me d base es))
  (ht : s.issued.targets (vmUse .write) ((s.me.onElems m).map fun i => (i, base + BitVec.ofNat 64 (8 * i))) = (u, es))
include hexec ht

theorem vst_traps {c : Byte} {va : Word} (h : firstTrap es = some (c, va)) : exec (.vst d b m ka o) s = .next (u.trap c va) := by
  rw [hexec, State.elements_trap (by rw [ht]; exact h), ht]

theorem vst_placed {mk : Place → Target} {parked : Bool} (hmk : ∀ i va p, placed (i, va, mk p) = some (i, va, p, parked))
    (htarget : ∀ p, mk p = .ok p ∨ mk p = .own p) {ps : List (Nat × Word × Place)} (hes : es = ps.map fun e => (e.1, e.2.1, mk e.2.2)) :
    exec (.vst d b m ka o) s = .next (u.vstWith s.issued.me d base (ps.map fun e => (e.1, e.2.1, e.2.2, parked))) := by
  have hplaced : ∀ e ∈ es, ∃ p, e.2.2 = .ok p ∨ (e.2.2 = .own p ∧ false = false) := by
    rw [hes]
    intro e he
    obtain ⟨x, _, rfl⟩ := List.mem_map.mp he
    exact ⟨x.2.2, (htarget x.2.2).imp_right fun h => ⟨h, rfl⟩⟩
  rw [hexec, State.elements_placed (by rw [ht]; exact hplaced), ht, hes, filterMap_placed hmk]

/-- With no element unmasked it only goes on. -/
theorem vst_none (hon : s.me.onElems m = []) : exec (.vst d b m ka o) s = .next s.issued.next := by
  rw [hon] at ht
  cases ht
  exact vst_placed (mk := .ok) (u := s.issued) hexec (by rw [hon]; rfl) (parked := false) (fun _ _ _ => rfl) (fun _ => .inl rfl) (ps := []) rfl

/-- In the own tile the writes are done at once. -/
theorem vst_local (hon : s.me.onElems m ≠ []) (hbase : base.toNat % 64 = 0) {ps : List (Nat × Word × Place)}
    (hes : es = ps.map fun e => (e.1, e.2.1, .ok e.2.2)) (hps : ∀ x ∈ ps, openNow s u x.2.2 8 ∧ noCounter s x.2.2 8) :
    ∃ t, exec (.vst d b m ka o) s = .next t ∧ (∀ w ∈ writesOf ps fun i => leBytes (s.me.rdE d i).toNat 8, t.localBytes w.1 w.2.length = w.2) ∧
      (∀ q, (∀ w ∈ writesOf ps fun i => leBytes (s.me.rdE d i).toNat 8, w.1.overlaps w.2.length q 1 = false) → t.byteAt q = s.byteAt q) ∧
      t.net = s.net ∧ t.cores = s.cores ∧ s.me.sameRegs t.me ∧ s.me.wentOn t.me := by
  have hu := consulted_of_targets ht
  have hidx := targets_indices ht hes
  have hplace : ∀ x ∈ ps, x.2.2 = (windowPlace s.issued.myTile base).plus (8 * x.1) := fun x hx => by
    have h8 : x.1 < 8 := (Frame.mem_onElems.mp (hidx ▸ List.mem_map_of_mem hx)).1
    have hmem : (x.1, x.2.1, Target.ok x.2.2) ∈ (s.issued.targets (vmUse .write)
        ((s.me.onElems m).map fun i => (i, base + BitVec.ofNat 64 (8 * i)))).2 := by
      rw [ht, hes]
      exact List.mem_map_of_mem hx
    rw [(State.targets_local _ _ _ hmem (hps x hx).1.1).1, targets_address ht hes hx, windowPlace_add _ hbase (by omega)]
  obtain ⟨hws, hdisj⟩ := writesOf_atOnce (bytes := fun i => leBytes (s.me.rdE d i).toNat 8) (fun _ => length_leBytes ..) hidx hbase hplace
    fun x hx => ⟨(hps x hx).1.1, (hps x hx).2⟩
  have hexec' := vst_placed hexec ht (mk := .ok) (parked := false) (fun _ _ _ => rfl) (fun _ => .inl rfl) hes
  obtain ⟨mem, hfold, hbytes, hout⟩ := State.foldl_localStore u.newWrite.2 hws hdisj (v := u.newWrite.1) (by obtain ⟨_, _, _, rfl⟩ := hu; rfl)
  have hnext : s.underway { u.newWrite.1 with mem := mem } := (State.underway.newWrite (.of_consulted hu)).of_frames rfl rfl rfl
  obtain ⟨regs, went⟩ := hnext.next_me
  refine ⟨State.next { u.newWrite.1 with mem := mem }, ?_, hbytes, fun q hq => (hout q hq).trans ?_, ?_, ?_, regs, went⟩
  · rw [hexec']
    cases ps with
    | nil => exact absurd hidx.symm hon
    | cons x ps =>
      rw [State.vstWith_places, elemBytes_issued, State.myCore_consulted hu, if_pos (hps x (List.mem_cons_self ..)).1.1]
      refine congrArg _ ((State.whenAllLocal_open (State.myCore_consulted hu) _ fun p hp => ?_).trans ?_)
      · obtain ⟨y, hy, rfl⟩ := List.mem_map.mp hp
        exact .inr (hps y hy).1
      · exact congrArg State.next hfold
  all_goals
    obtain ⟨_, _, _, rfl⟩ := hu
    rfl

/-- What is not local is posted with one entry, or blocks. -/
theorem vst_far (hon : s.me.onElems m ≠ []) {mk : Place → Target} {parked : Bool} (hmk : ∀ i va p, placed (i, va, mk p) = some (i, va, p, parked))
    (htarget : ∀ p, mk p = .ok p ∨ mk p = .own p) {ps : List (Nat × Word × Place)} (hes : es = ps.map fun e => (e.1, e.2.1, mk e.2.2))
    (hps : ∀ x ∈ ps, x.2.2.isLocal s.myCore = false) :
    let ws := writesOf ps fun i => leBytes (s.me.rdE d i).toNat 8
    exec (.vst d b m ka o) s = .next (u.withEntry fun s e =>
      (ws.foldl (fun t w => t.postWrite base parked e false none s.newWrite.2 w) (s.newWrite.1.enter e JKind.vst base ws.length true)).next) := by
  have hu := consulted_of_targets ht
  have hidx := targets_indices ht hes
  rw [vst_placed hexec ht hmk htarget hes]
  cases ps with
  | nil => exact absurd hidx.symm hon
  | cons x ps =>
    rw [State.vstWith_places, elemBytes_issued, State.myCore_consulted hu]
    dsimp only
    rw [hps x (List.mem_cons_self ..), if_neg Bool.false_ne_true]

end

theorem vst_holds : vstRule := by
  intro s d b m ka o base id on u es bytes ws owned hacq hgo hbeyond hal
  have hexec := exec_vst_at hgo hacq (addressCause_none_iff.mpr ⟨Bool.eq_false_iff.mpr fun h => (beyond_iff _).mp h hbeyond, hal⟩)
  have ht : s.issued.targets (vmUse .write) ((s.me.onElems m).map fun i => (i, base + BitVec.ofNat 64 (8 * i))) = (u, es) := rfl
  clear_value u es
  have hu := consulted_of_targets ht
  have hentered (e n : Nat) : s.underway (u.newWrite.1.enter e JKind.vst base n true) :=
    (State.underway.newWrite (.of_consulted hu)).of_frames rfl rfl rfl
  have hcores (e n : Nat) := State.cores_enter (.newWrite (.of_consulted hu)) (v := s) hu.cores e JKind.vst base n true
  refine ⟨fun c va h => vst_traps hexec ht h, fun hon => ?none, fun hon hlocal => ?here, fun hon hfar => ?far, fun hon hown hfree => ?own⟩
  case none =>
    have h : s.underway s.issued := .of_consulted (.refl _)
    obtain ⟨regs, went⟩ := h.next_me
    exact ⟨_, vst_none hexec ht hon, rfl, rfl, regs, went, State.sameBytes_of_stores rfl⟩
  case here =>
    obtain ⟨ps, hes⟩ := places_of (mk := .ok) fun e he => (hlocal e he).imp fun _ h => h.1
    have hws : ws = writesOf ps bytes := by rw [← vectorWrites_places (mk := .ok) (place := okPlace) (fun _ => rfl) ps bytes, ← hes]
    rw [hws]
    refine vst_local hexec ht hon hal hes fun x hx => ?_
    obtain ⟨p, hp, h⟩ := hlocal _ (hes ▸ List.mem_map_of_mem hx)
    exact Target.ok.inj hp ▸ h
  case far =>
    obtain ⟨ps, hes⟩ := places_of (mk := .ok) fun e he => (hfar e he).imp fun _ h => h.1
    have hws : ws = writesOf ps bytes := by rw [← vectorWrites_places (mk := .ok) (place := okPlace) (fun _ => rfl) ps bytes, ← hes]
    have hps : ∀ x ∈ ps, x.2.2.isLocal s.myCore = false := fun x hx => by
      obtain ⟨p, hp, h⟩ := hfar _ (hes ▸ List.mem_map_of_mem hx)
      exact Target.ok.inj hp ▸ h
    have hposted := vst_far hexec ht hon (parked := false) (fun _ _ _ => rfl) (fun _ => .inl rfl) hes hps
    rw [hws]
    refine ⟨fun hf => ⟨_, hposted.trans (congrArg _ (State.withEntry_none hu hf _)), waits_block hu⟩, fun hf => ?_⟩
    have he := List.head?_eq_some_head hf
    generalize (s.core s.myCore).freeEntries.head hf = e at he
    obtain ⟨l1, hfold⟩ := (hentered e (writesOf ps bytes).length).foldl_sent base e u.newWrite.2 (writesOf ps bytes)
    refine ⟨_, u.newWrite.2, by rw [State.newWrite, hu.me, State.knows_issued], hposted.trans (congrArg _ (State.withEntry_some hu he _)), ?_⟩
    refine posts_underway he (x := s.entryOf JKind.vst base (writesOf ps bytes).length true none) ?_ ?_ ?_
      ((congrArg State.cores hfold).trans (hcores e _)) ⟨rfl, rfl, rfl, rfl, rfl⟩
    all_goals rw [hfold]
    · exact (hentered e (writesOf ps bytes).length).of_frames rfl rfl rfl
    all_goals
      obtain ⟨_, _, _, rfl⟩ := hu
      rfl
  case own =>
    obtain ⟨ps, hes⟩ := places_of (mk := .own) fun e he => (hown e he).imp fun _ h => h.1
    have hws : owned = writesOf ps bytes := by rw [← vectorWrites_places (mk := .own) (place := ownPlace) (fun _ => rfl) ps bytes, ← hes]
    have hps : ∀ x ∈ ps, x.2.2.isLocal s.myCore = false := fun x hx => by
      obtain ⟨p, hp, h⟩ := hown _ (hes ▸ List.mem_map_of_mem hx)
      exact Target.own.inj hp ▸ h
    have hposted := vst_far hexec ht hon (parked := true) (fun _ _ _ => rfl) (fun _ => .inr rfl) hes hps
    rw [hws]
    have he := List.head?_eq_some_head hfree
    generalize (s.core s.myCore).freeEntries.head hfree = e at he
    obtain ⟨qs, hfold, hqs⟩ := (hentered e (writesOf ps bytes).length).foldl_parked base e u.newWrite.2 (writesOf ps bytes)
    refine ⟨_, hposted.trans (congrArg _ (State.withEntry_some hu he _)), ?_, ?_⟩
    · refine posts_underway he (x := s.entryOf JKind.vst base (writesOf ps bytes).length true none) ?_ ?_ ?_
        ((congrArg State.cores hfold).trans (hcores e _)) ⟨rfl, rfl, rfl, rfl, rfl⟩
      all_goals rw [hfold]
      · exact (hentered e (writesOf ps bytes).length).of_frames rfl rfl rfl
      · obtain ⟨_, _, _, rfl⟩ := hu
        rfl
      · rw [List.append_nil]
        obtain ⟨_, _, _, rfl⟩ := hu
        rfl
    · have hparks : (State.next (List.foldl (fun t w => t.postWrite base true e false none u.newWrite.2 w)
          (u.newWrite.1.enter e JKind.vst base (writesOf ps bytes).length true) (writesOf ps bytes))).parks = s.parks ++ qs := by
        rw [hfold]
        obtain ⟨_, _, _, rfl⟩ := hu
        rfl
      rw [hparks, List.drop_left]
      exact hqs

end Sys2Proof.Machine
end

section
/-! # O23: `vscat` (R226, R228) -/

namespace Sys2Proof.Machine

variable {s u v t : State}

/-! ### Elements of a scatter -/

theorem Place.overlaps_comm (p q : Place) (n m : Nat) : p.overlaps n q m = q.overlaps m p n := by
  cases p <;> cases q <;> simp only [Place.overlaps, eq_comm, Bool.and_comm]

/-- The elements that are written at once, that are sent, and that park, each with its place. -/
def nearOf (c : Nat) (xs : List (Nat × Word × Place × Bool)) : List (Nat × Place) :=
  xs.filterMap fun x => if x.2.2.2 then none else if x.2.2.1.isLocal c then some (x.1, x.2.2.1) else none
def farOf (c : Nat) (xs : List (Nat × Word × Place × Bool)) : List (Nat × Place) :=
  xs.filterMap fun x => if x.2.2.2 then none else if x.2.2.1.isLocal c then none else some (x.1, x.2.2.1)
def ownedOf (xs : List (Nat × Word × Place × Bool)) : List (Nat × Place) :=
  xs.filterMap fun x => if x.2.2.2 then some (x.1, x.2.2.1) else none

theorem nearOf_placed (c : Nat) (es : List (Nat × Word × Target)) : nearOf c (es.filterMap placed) =
    es.filterMap fun e => (okPlace e.2.2).bind fun p => if p.isLocal c then some (e.1, p) else none := by
  rw [nearOf, List.filterMap_filterMap]
  refine congrArg (List.filterMap · es) (funext fun e => ?_)
  obtain ⟨i, va, r⟩ := e
  cases r <;> rfl

theorem farOf_placed (c : Nat) (es : List (Nat × Word × Target)) : farOf c (es.filterMap placed) =
    es.filterMap fun e => (okPlace e.2.2).bind fun p => if p.isLocal c then none else some (e.1, p) := by
  rw [farOf, List.filterMap_filterMap]
  refine congrArg (List.filterMap · es) (funext fun e => ?_)
  obtain ⟨i, va, r⟩ := e
  cases r <;> rfl

theorem ownedOf_placed (es : List (Nat × Word × Target)) : ownedOf (es.filterMap placed) =
    es.filterMap fun e => (ownPlace e.2.2).map fun p => (e.1, p) := by
  rw [ownedOf, List.filterMap_filterMap]
  refine congrArg (List.filterMap · es) (funext fun e => ?_)
  obtain ⟨i, va, r⟩ := e
  cases r <;> rfl

/-- An element that a scatter writes: it parks, is sent, or is done at once where no counter lies. -/
inductive State.scatterable (s : State) : Nat × Word × Place × Bool → Prop
  | owned (i va p) (hp : p.isLocal s.myCore = false) : s.scatterable (i, va, p, true)
  | far (i va p) (hp : p.isLocal s.myCore = false) : s.scatterable (i, va, p, false)
  | near (i va p) (hp : p.isLocal s.myCore = true) (hf : p.fits 8) (hc : noCounter s p 8) : s.scatterable (i, va, p, false)

theorem farOf_owned (c i : Nat) (va : Word) (p : Place) (xs : List (Nat × Word × Place × Bool)) : farOf c ((i, va, p, true) :: xs) = farOf c xs := rfl
theorem ownedOf_owned (i : Nat) (va : Word) (p : Place) (xs : List (Nat × Word × Place × Bool)) :
    ownedOf ((i, va, p, true) :: xs) = (i, p) :: ownedOf xs := rfl
theorem ownedOf_placed_cons (i : Nat) (va : Word) (p : Place) (xs : List (Nat × Word × Place × Bool)) :
    ownedOf ((i, va, p, false) :: xs) = ownedOf xs := rfl

section
variable {c i : Nat} {va : Word} {p : Place} {xs : List (Nat × Word × Place × Bool)}

theorem nearOf_far (hp : p.isLocal c = false) : nearOf c ((i, va, p, false) :: xs) = nearOf c xs := by
  simp [nearOf, hp]

theorem farOf_far (hp : p.isLocal c = false) : farOf c ((i, va, p, false) :: xs) = (i, p) :: farOf c xs := by
  simp [farOf, hp]

theorem nearOf_near (hp : p.isLocal c = true) : nearOf c ((i, va, p, false) :: xs) = (i, p) :: nearOf c xs := by
  simp [nearOf, hp]

theorem farOf_near (hp : p.isLocal c = true) : farOf c ((i, va, p, false) :: xs) = farOf c xs := by
  simp [farOf, hp]

end

/-- Those that need an entry. -/
theorem length_notLocal {xs : List (Nat × Word × Place × Bool)} (h : ∀ x ∈ xs, s.scatterable x) :
    (xs.filter fun x => !x.2.2.1.isLocal s.myCore).length = (farOf s.myCore xs).length + (ownedOf xs).length := by
  induction xs with
  | nil => rfl
  | cons x xs ih =>
    have rest := ih fun y hy => h y (List.mem_cons_of_mem _ hy)
    cases h x (List.mem_cons_self ..) with
    | owned i va p hp =>
      rw [List.filter_cons_of_pos (by simp [hp]), farOf_owned, ownedOf_owned, List.length_cons, List.length_cons, rest]
      rfl
    | far i va p hp =>
      rw [List.filter_cons_of_pos (by simp [hp]), farOf_far hp, ownedOf_placed_cons, List.length_cons, List.length_cons, rest, Nat.add_right_comm]
    | near i va p hp =>
      rw [List.filter_cons_of_neg (by simp [hp]), farOf_near hp, ownedOf_placed_cons, rest]

/-! ### The entries of a scatter -/

/-- The lowest free entry is taken. -/
theorem Core.freeEntries_put {c : Core} {e : Nat} (he : c.freeEntries.head? = some e) (x : JEntry) :
    (Core.freeEntries { c with journal := Tab.put c.journal e x }).length + 1 = c.freeEntries.length := by
  have hmem : e ∈ c.freeEntries := List.mem_of_mem_head? he
  have hnodup : c.freeEntries.Nodup := List.nodup_range.filter _
  have herase : Core.freeEntries { c with journal := Tab.put c.journal e x } = c.freeEntries.erase e := by
    rw [hnodup.erase_eq_filter, Core.freeEntries, Core.freeEntries, idxs, idxs, List.filter_filter]
    refine List.filter_congr fun k _ => ?_
    by_cases hk : k = e
    · subst hk
      simp [Tab.get?_put_self]
    · simp [Tab.get?_put_ne, hk]
  rw [herase, List.length_erase_of_mem hmem]
  have := List.length_pos_of_mem hmem
  omega

/-- One element of a scatter. -/
def State.scatter (s : State) (bytes : Nat → List Byte) (x : Nat × Word × Place × Bool) : State :=
  if x.2.2.1.isLocal s.myCore then s.newWrite.1.localStore s.newWrite.2 x.2.2.1 (bytes x.1)
  else match (s.core s.myCore).freeEntries.head? with
    | none => s
    | some e => (s.newWrite.1.enter e JKind.vscat x.2.1 1 true).postWrite x.2.1 x.2.2.2 e false none s.newWrite.2 (x.2.2.1, bytes x.1)


/-- What a scatter has done with its elements. -/
structure State.scattered (s v t : State) (bytes : Nat → List Byte) (xs : List (Nat × Word × Place × Bool)) : Prop where
  underway : s.underway t
  counters : t.mem.counters = s.mem.counters
  sent : ∃ ms, t.net = v.net ++ ms ∧
    List.Forall₂ (fun x m => ∃ from_ w, m = .store from_ s.me.taskId s.me.job x.2 (bytes x.1) false none w) (farOf s.myCore xs) ms
  parked : t.parks.length = v.parks.length + (ownedOf xs).length
  entries : (t.core s.myCore).freeEntries.length + (farOf s.myCore xs).length + (ownedOf xs).length = (v.core s.myCore).freeEntries.length
  written : ∀ x ∈ nearOf s.myCore xs, (∀ y ∈ nearOf s.myCore xs, y ≠ x → x.2.overlaps 8 y.2 8 = false) → t.localBytes x.2 8 = bytes x.1
  others : ∀ q, (∀ x ∈ nearOf s.myCore xs, x.2.overlaps 8 q 1 = false) → t.byteAt q = v.byteAt q

/-- An element of the scatter is of one that comes before. -/
theorem fst_mem_of_nearOf {c : Nat} {xs : List (Nat × Word × Place × Bool)} {x : Nat × Place} (h : x ∈ nearOf c xs) : x.1 ∈ xs.map (·.1) := by
  obtain ⟨y, hy, hyx⟩ := List.mem_filterMap.mp h
  refine List.mem_map.mpr ⟨y, hy, ?_⟩
  split at hyx
  · cases hyx
  · split at hyx
    · rw [← Option.some.inj hyx]
    · cases hyx

/-- An element that is not local takes the lowest free entry. -/
theorem State.scatter_entry (h : s.underway v) {bytes : Nat → List Byte} {i : Nat} {va : Word} {p : Place} {b : Bool}
    (hp : p.isLocal s.myCore = false) {e : Nat} (he : (v.core s.myCore).freeEntries.head? = some e) :
    v.scatter bytes (i, va, p, b) = (v.newWrite.1.enter e JKind.vscat va 1 true).postWrite va b e false none v.newWrite.2 (p, bytes i) ∧
      s.underway (v.newWrite.1.enter e JKind.vscat va 1 true) ∧
      ((v.newWrite.1.enter e JKind.vscat va 1 true).core s.myCore).freeEntries.length + 1 = (v.core s.myCore).freeEntries.length := by
  refine ⟨?_, h.newWrite.of_frames rfl rfl rfl, ?_⟩
  · rw [State.scatter, h.myCore]
    dsimp only
    rw [hp, if_neg Bool.false_ne_true, he]
  · have hcores := State.cores_enter h.newWrite (v := v) rfl e JKind.vscat va 1 true
    rw [State.core, hcores, State.setJournal, State.setCore_cores, Tab.get_put_self]
    exact Core.freeEntries_put he _

namespace State.scattered
variable {bytes : Nat → List Byte} {xs : List (Nat × Word × Place × Bool)} {i : Nat} {va : Word} {p : Place}

theorem nil (h : s.underway v) (hc : v.mem.counters = s.mem.counters) : s.scattered v v bytes [] :=
  ⟨h, hc, ⟨[], (List.append_nil _).symm, .nil⟩, rfl, rfl, nofun, fun _ _ => rfl⟩

/-- An element on a host-owned page has parked with its entry. -/
theorem owned (h : s.scattered u t bytes xs) (hnet : u.net = v.net) (hparks : u.parks.length = v.parks.length + 1)
    (hentry : (u.core s.myCore).freeEntries.length + 1 = (v.core s.myCore).freeEntries.length) (hsame : v.sameBytes u) :
    s.scattered v t bytes ((i, va, p, true) :: xs) where
  underway := h.underway
  counters := h.counters
  sent := by
    rw [farOf_owned, ← hnet]
    exact h.sent
  parked := by
    rw [h.parked, hparks, ownedOf_owned, List.length_cons]
    omega
  entries := by
    have := h.entries
    rw [farOf_owned, ownedOf_owned, List.length_cons]
    omega
  written := h.written
  others q hq := (h.others q hq).trans (hsame q)

/-- An element elsewhere was sent with its entry. -/
theorem far (h : s.scattered u t bytes xs) (hp : p.isLocal s.myCore = false) {from_ : Sender} {w : WNo}
    (hnet : u.net = v.net ++ [.store from_ s.me.taskId s.me.job p (bytes i) false none w]) (hparks : u.parks = v.parks)
    (hentry : (u.core s.myCore).freeEntries.length + 1 = (v.core s.myCore).freeEntries.length) (hsame : v.sameBytes u) :
    s.scattered v t bytes ((i, va, p, false) :: xs) where
  underway := h.underway
  counters := h.counters
  sent := by
    obtain ⟨ms, hms, hall⟩ := h.sent
    rw [farOf_far hp]
    exact ⟨_ :: ms, by rw [hms, hnet, List.append_assoc]; rfl, .cons ⟨from_, w, rfl⟩ hall⟩
  parked := by
    rw [h.parked, hparks]
    rfl
  entries := by
    have := h.entries
    rw [farOf_far hp, ownedOf_placed_cons, List.length_cons]
    omega
  written := by
    rw [nearOf_far hp]
    exact h.written
  others q hq := by
    rw [nearOf_far hp] at hq
    exact (h.others q hq).trans (hsame q)

/-- An element of the own tile was written at once. -/
theorem near (h : s.scattered u t bytes xs) (hp : p.isLocal s.myCore = true) (hf : p.fits 8) (hlen : (bytes i).length = 8)
    (hi : i ∉ xs.map (·.1)) (hwrote : v.wrote u p (bytes i)) (hnet : u.net = v.net) (hparks : u.parks = v.parks) (hcores : u.cores = v.cores) :
    s.scattered v t bytes ((i, va, p, false) :: xs) where
  underway := h.underway
  counters := h.counters
  sent := by
    rw [farOf_near hp, ← hnet]
    exact h.sent
  parked := by
    rw [h.parked, hparks]
    rfl
  entries := by
    rw [farOf_near hp, ownedOf_placed_cons, h.entries, State.core, hcores]
    rfl
  written x hx hdisj := by
    rw [nearOf_near hp] at hx hdisj
    have rest (y) (hy : y ∈ nearOf s.myCore xs) := hdisj y (List.mem_cons_of_mem _ hy)
    rcases List.mem_cons.mp hx with rfl | hx
    · refine (State.localBytes_congr hp hf fun k hk => h.others _ fun y hy => ?_).trans (hlen ▸ hwrote.localBytes hp)
      have hne : y ≠ (i, p) := by
        rintro rfl
        exact hi (fst_mem_of_nearOf hy)
      exact Place.overlaps_part (Place.overlaps_comm .. ▸ rest y hy hne) hk
    · exact h.written x hx rest
  others q hq := by
    rw [nearOf_near hp] at hq
    rw [h.others q fun x hx => hq x (List.mem_cons_of_mem _ hx)]
    exact hwrote.sameBytesBut (hlen.symm ▸ hf) q (hlen.symm ▸ hq _ (List.mem_cons_self ..))

end State.scattered

/-- The elements of a scatter, in their order. -/
theorem State.underway.foldl_scatter {bytes : Nat → List Byte} (hbytes : ∀ i, (bytes i).length = 8) {xs : List (Nat × Word × Place × Bool)}
    (hxs : ∀ x ∈ xs, s.scatterable x) (hnodup : (xs.map (·.1)).Nodup) (h : s.underway v) (hc : v.mem.counters = s.mem.counters)
    (hfree : (farOf s.myCore xs).length + (ownedOf xs).length ≤ (v.core s.myCore).freeEntries.length) :
    s.scattered v (xs.foldl (·.scatter bytes ·) v) bytes xs := by
  induction xs generalizing v with
  | nil => exact .nil h hc
  | cons x xs ih =>
    have rest : ∀ y ∈ xs, s.scatterable y := fun y hy => hxs y (List.mem_cons_of_mem _ hy)
    obtain ⟨hi, hunique⟩ := List.nodup_cons.mp hnodup
    rw [List.foldl_cons]
    have entry (hpos : 0 < (v.core s.myCore).freeEntries.length) : ∃ e, (v.core s.myCore).freeEntries.head? = some e :=
      ⟨_, List.head?_eq_some_head (List.ne_nil_of_length_pos hpos)⟩
    cases hxs x (List.mem_cons_self ..) with
    | owned i va p hp =>
      rw [farOf_owned, ownedOf_owned, List.length_cons] at hfree
      obtain ⟨e, he⟩ := entry (by omega)
      obtain ⟨hstep, hunder, hcount⟩ := State.scatter_entry h (bytes := bytes) (i := i) (va := va) (b := true) hp he
      obtain ⟨q, hpost, -⟩ := hunder.postWrite_parked va e false none v.newWrite.2 (p, bytes i)
      rw [hstep, hpost]
      refine .owned (ih rest hunique (hunder.of_frames rfl rfl rfl) hc ?_) rfl ?_ hcount (State.sameBytes_of_stores rfl)
      · exact Nat.le_of_lt_succ (Nat.lt_of_lt_of_eq (by omega) hcount.symm)
      · exact List.length_append
    | far i va p hp =>
      rw [farOf_far hp, ownedOf_placed_cons, List.length_cons] at hfree
      obtain ⟨e, he⟩ := entry (by omega)
      obtain ⟨hstep, hunder, hcount⟩ := State.scatter_entry h (bytes := bytes) (i := i) (va := va) (b := false) hp he
      obtain ⟨l1, hpost⟩ := hunder.postWrite_sent va e false none v.newWrite.2 (p, bytes i)
      rw [hstep, hpost]
      refine .far (ih rest hunique (hunder.of_frames rfl rfl rfl) hc ?_) hp rfl rfl hcount (State.sameBytes_of_stores rfl)
      exact Nat.le_of_lt_succ (Nat.lt_of_lt_of_eq (by omega) hcount.symm)
    | near i va p hp hf hno =>
      rw [farOf_near hp, ownedOf_placed_cons] at hfree
      have hnov : noCounter v.newWrite.1 p (bytes i).length := by
        rw [hbytes]
        exact fun c hcm => hno c (hc ▸ hcm)
      obtain ⟨m, hstore, hwrite, hcount⟩ := State.localStore_writes hp hnov v.newWrite.2
      have hstep : v.scatter bytes (i, va, p, false) = { v.newWrite.1 with mem := m } := by
        rw [State.scatter, h.myCore]
        dsimp only
        rw [if_pos hp, hstore]
      have hwrote : v.wrote { v.newWrite.1 with mem := m } p (bytes i) := by
        cases p with
        | bank t off => exact hwrite
        | sram k off => exact hwrite
        | _ => cases hp
      rw [hstep]
      exact .near (ih rest hunique (h.newWrite.of_frames rfl rfl rfl) (hcount.trans hc) hfree) hp hf (hbytes i) hi hwrote rfl rfl rfl

/-! ### `vscat` -/

theorem exec_vscat_at {d : VReg} {b : GReg} {m : MReg} {ka : Bool} {o : BitVec 10} (hgo : s.goes [.v d ka, .v (d + 1) ka, .m m ka, .g b ka])
    (hacq : s.acquiring = false) : exec (.vscat d b m ka o) s = .next (s.issued.elements (vmUse .write)
      ((s.me.onElems m).map fun i => (i, s.me.rdG b + BitVec.ofInt 64 (o.toInt * 64) + s.me.rdE (d + 1) i)) false fun t es =>
        if (t.core t.myCore).freeEntries.length < (es.filter fun e => !e.2.2.1.isLocal t.myCore).length then t.block .retry
        else t.whenAllLocal (es.map fun e => e.2.2.1) fun t => (es.foldl (·.scatter (elemBytes s.issued.me d) ·) t).next) := by
  have hbase (i : Nat) : vmBase s.issued.me b o + s.issued.me.rdE (d + 1) i = s.me.rdG b + BitVec.ofInt 64 (o.toInt * 64) + s.me.rdE (d + 1) i := by
    rw [State.vmBase_issued, State.rdE_issued]
  rw [State.acquired_issue hgo hacq rfl]
  dsimp only
  rw [State.vmElems_issued]
  simp only [hbase]
  rfl

theorem map_fst_placed {es : List (Nat × Word × Target)} (h : ∀ e ∈ es, ∃ p, e.2.2 = .ok p ∨ e.2.2 = .own p) :
    (es.filterMap placed).map (·.1) = es.map (·.1) := by
  rw [List.map_filterMap, ← List.filterMap_eq_map']
  refine List.filterMap_congr fun e he => ?_
  obtain ⟨i, va, r⟩ := e
  obtain ⟨p, rfl | rfl⟩ := h _ he <;> rfl

theorem mem_placed {es : List (Nat × Word × Target)} {x : Nat × Word × Place × Bool} (h : x ∈ es.filterMap placed) :
    (∃ va p, (x.1, va, Target.ok p) ∈ es ∧ x = (x.1, va, p, false)) ∨ ∃ va p, (x.1, va, Target.own p) ∈ es ∧ x = (x.1, va, p, true) := by
  obtain ⟨⟨i, va, r⟩, he, hx⟩ := List.mem_filterMap.mp h
  cases r with
  | ok p =>
    obtain rfl := Option.some.inj hx
    exact .inl ⟨va, p, he, rfl⟩
  | own p =>
    obtain rfl := Option.some.inj hx
    exact .inr ⟨va, p, he, rfl⟩
  | _ => cases hx

theorem vscat_holds : vscatRule := by
  intro s d b m ka o base id on u es bytes here near far owned hacq hgo
  have ht : s.issued.targets (vmUse .write) ((s.me.onElems m).map fun i => (i, base + s.me.rdE (d + 1) i)) = (u, es) := rfl
  have hfar : far = farOf s.myCore (es.filterMap placed) := (farOf_placed ..).symm
  have hnear : near = nearOf s.myCore (es.filterMap placed) := (nearOf_placed ..).symm
  have howned : owned = ownedOf (es.filterMap placed) := (ownedOf_placed ..).symm
  clear_value u es far near owned
  have hu := consulted_of_targets ht
  have hcore : (u.core s.myCore).freeEntries = (s.core s.myCore).freeEntries := by rw [State.core, hu.cores]; rfl
  rw [exec_vscat_at hgo hacq]
  refine ⟨fun c va h => ?_, fun hes => ?_⟩
  · rw [State.elements_trap (by rw [ht]; exact h), ht]
  have hplaced : ∀ e ∈ es, ∃ p, e.2.2 = .ok p ∨ (e.2.2 = .own p ∧ false = false) := fun e he =>
    (hes e he).imp fun p hp => hp.imp (·.1) fun hp => ⟨hp.1, rfl⟩
  have hscat : ∀ x ∈ es.filterMap placed, s.scatterable x ∧ (x.2.2.1.isLocal s.myCore = false ∨ openNow s u x.2.2.1 8) := fun x hx => by
    rcases mem_placed hx with ⟨va, p, he, hx⟩ | ⟨va, p, he, hx⟩
    · rw [hx]
      obtain ⟨q, ⟨hq, hfar | ⟨hopen, hno⟩⟩ | ⟨hq, _⟩⟩ := hes _ he
      · rw [← Target.ok.inj hq] at hfar
        exact ⟨.far _ _ _ hfar, .inl hfar⟩
      · rw [← Target.ok.inj hq] at hopen hno
        obtain ⟨hw, hal⟩ := State.targets_local _ _ s.issued (by rw [ht]; exact he) hopen.1
        exact ⟨.near _ _ _ hopen.1 (hw ▸ windowPlace_fits _ (by norm_num) hal) hno, .inr hopen⟩
      · cases hq
    · rw [hx]
      obtain ⟨q, ⟨hq, _⟩ | ⟨hq, hfar⟩⟩ := hes _ he
      · cases hq
      · rw [← Target.own.inj hq] at hfar
        exact ⟨.owned _ _ _ hfar, .inl hfar⟩
  have hunique : ((es.filterMap placed).map (·.1)).Nodup := by
    have haddr := State.targets_addresses (vmUse .write) ((s.me.onElems m).map fun i => (i, base + s.me.rdE (d + 1) i)) s.issued
    have hidx := congrArg (List.map Prod.fst) haddr
    rw [ht, List.map_map, List.map_map, List.map_id''] at hidx
    · rw [map_fst_placed fun e he => (hplaced e he).imp fun p hp => hp.imp_right (·.1)]
      exact hidx ▸ s.me.onElems_nodup m
    · exact fun _ => rfl
  rw [State.elements_placed (by rw [ht]; exact hplaced), ht, State.myCore_consulted hu, hcore, length_notLocal fun x hx => (hscat x hx).1, hfar,
    howned, hnear, elemBytes_issued]
  generalize es.filterMap placed = xs at *
  refine ⟨fun hfew => ⟨_, by rw [if_pos hfew], waits_block hu⟩, fun hfree => ?_⟩
  have hwhen (k : State → State) : u.whenAllLocal (xs.map fun e => e.2.2.1) k = k u :=
    State.whenAllLocal_open (State.myCore_consulted hu) k fun p hp => by
      obtain ⟨x, hx, rfl⟩ := List.mem_map.mp hp
      exact (hscat x hx).2
  have hdone := State.underway.foldl_scatter (bytes := bytes) (fun _ => length_leBytes ..) (fun x hx => (hscat x hx).1) hunique (.of_consulted hu)
    (by obtain ⟨_, _, _, rfl⟩ := hu; rfl) (by rw [hcore]; exact hfree)
  rw [if_neg (Nat.not_lt.mpr hfree), hwhen]
  generalize xs.foldl (·.scatter bytes ·) u = t at *
  obtain ⟨ms, hnet, hall⟩ := hdone.sent
  obtain ⟨regs, went⟩ := hdone.underway.next_me
  have hentries := hdone.entries
  rw [hcore] at hentries
  have hstart : u.net = s.net ∧ u.parks = s.parks ∧ s.sameBytes u := by
    obtain ⟨_, _, _, rfl⟩ := hu
    exact ⟨rfl, rfl, State.sameBytes_of_stores rfl⟩
  obtain ⟨hunet, huparks, hubytes⟩ := hstart
  rw [hunet] at hnet
  refine ⟨t.next, ms, rfl, hnet, hall.length_eq.symm, fun i e he => ?_, huparks ▸ hdone.parked, hentries,
    hdone.written, fun q hq => (hdone.others q hq).trans (hubytes q), regs, went⟩
  obtain ⟨hi, rfl⟩ := List.getElem?_eq_some_iff.mp he
  have hlt : i < (farOf s.myCore xs).length := hall.length_eq ▸ hi
  obtain ⟨from_, w, hm⟩ := hall.get hlt hi
  exact ⟨_, _, from_, w, List.getElem?_eq_getElem hlt, hm⟩

/-- Settles O23: a vector access asks for, writes or posts its unmasked elements one after the other. -/
theorem vectorMemory : Obligations.VectorMemory := by
  unfold Obligations.VectorMemory
  exact ⟨vectorLoads_holds, vst_holds, vscat_holds⟩

end Sys2Proof.Machine
end

section
/-! # O41: posted and counted stores at their homes (R212, R225, R340, R355, R489)

A write at its home is the bytes that `State.homeSet` puts there, then what R340 makes of the counters among them
(`State.homeWrite_done`); what its sender is told is `State.stored_told`. -/

namespace Sys2Proof.Machine

variable {s t u v : State}

/-! ### Counters under a write (R340) -/

/-- Nothing but memory and the source of free values differs; owners of lines are as before. -/
def State.memoryOnly (s t : State) : Prop :=
  ∃ clk mem, t = { s with clk := clk, mem := mem } ∧ mem.owner = s.mem.owner

theorem State.memoryOnly.refl (s : State) : s.memoryOnly s := ⟨s.clk, s.mem, rfl, rfl⟩

theorem State.memoryOnly.trans (h : s.memoryOnly t) (h' : t.memoryOnly u) : s.memoryOnly u := by
  obtain ⟨_, _, rfl, ho⟩ := h
  obtain ⟨_, _, rfl, ho'⟩ := h'
  exact ⟨_, _, rfl, ho'.trans ho⟩

theorem State.spoilOne_memoryOnly (s : State) (c : Place) : s.memoryOnly (s.spoilOne c) := by
  cases c with
  | dev pa => exact ⟨_, _, rfl, rfl⟩
  | bank t off => exact ⟨_, _, rfl, rfl⟩
  | host a => exact ⟨_, _, rfl, rfl⟩
  | _ => exact .refl s

theorem State.spoilOne_outside {c q : Place} (hc : ∀ t off, c = .bank t off → c.inRow 8) (hq : c.overlaps 8 q 1 = false) :
    (s.spoilOne c).byteAt q = s.byteAt q := by
  have hlen : (leBytes (Config.freeWord s.clk.free 30).toNat 8).length = 8 := length_leBytes ..
  have wrote (hw : s.wrote (s.spoilOne c) c (leBytes (Config.freeWord s.clk.free 30).toNat 8)) (hrow : c.inRow 8) :
      (s.spoilOne c).byteAt q = s.byteAt q := hw.outside (hlen.symm ▸ hrow) q (hlen.symm ▸ hq)
  cases c with
  | dev pa => exact wrote rfl trivial
  | bank t off => exact wrote rfl (hc t off rfl)
  | host a => exact wrote rfl trivial
  | _ => rfl

theorem State.foldl_spoilOne (cs : List Place) (hcs : ∀ c ∈ cs, ∀ t off, c = .bank t off → c.inRow 8) (s : State) :
    s.memoryOnly (cs.foldl State.spoilOne s) ∧
      ∀ q, (∀ c ∈ cs, c.overlaps 8 q 1 = false) → (cs.foldl State.spoilOne s).byteAt q = s.byteAt q := by
  induction cs generalizing s with
  | nil => exact ⟨.refl s, fun _ _ => rfl⟩
  | cons c cs ih =>
    obtain ⟨honly, hout⟩ := ih (fun d hd => hcs d (List.mem_cons_of_mem _ hd)) (s.spoilOne c)
    refine ⟨(s.spoilOne_memoryOnly c).trans honly, fun q hq => ?_⟩
    rw [List.foldl_cons, hout q fun d hd => hq d (List.mem_cons_of_mem _ hd)]
    exact State.spoilOne_outside (hcs c (List.mem_cons_self ..)) (hq c (List.mem_cons_self ..))

/-- A place of device memory, host memory, a bank or a scratchpad, but for publish counters. -/
def Place.plainHome (p : Place) : Prop :=
  match p with
  | .dev pa => pubOf pa = none
  | .bank .. => True
  | .host _ => True
  | .sram .. => True
  | _ => False

theorem Place.plainHome.not_image {p : Place} (h : p.plainHome) (k off : Nat) : p ≠ .image k off := by
  rintro rfl
  exact h

theorem Place.plainHome.located {p : Place} {n : Nat} (hp : p.plainHome) (hf : p.fits n) :
    (s.located p).fits n ∧ (s.located p).word.isSome = true := by
  cases p with
  | bank t off => exact ⟨hf, rfl⟩
  | sram c off => exact ⟨hf, rfl⟩
  | host a => exact ⟨trivial, rfl⟩
  | dev pa => exact ⟨trivial, rfl⟩
  | _ => exact hp.elim

/-- A byte that lies under none of the counters that n bytes from a place on meet. -/
def State.clearOf (s : State) (p : Place) (n : Nat) (q : Place) : Prop :=
  ∀ c ∈ s.mem.counters, p.overlaps n c 8 = true → c.overlaps 8 q 1 = false

theorem State.spoil_done {p : Place} {n : Nat} (hp : p.plainHome) (hf : p.fits n) :
    s.memoryOnly (s.spoil p n) ∧ (noCounter s (s.located p) n → s.spoil p n = s) ∧
      ∀ q, s.clearOf (s.located p) n q → (s.spoil p n).byteAt q = s.byteAt q := by
  have hrow : ∀ c ∈ s.mem.counters.filter fun c => (s.located p).overlaps n c 8, ∀ t off, c = .bank t off → c.inRow 8 := by
    rintro c hc t off rfl
    have hover := (List.mem_filter.mp hc).2
    cases p with
    | bank k o =>
      simp only [State.located, Place.overlaps, Bool.and_eq_true, decide_eq_true_eq] at hover
      simp only [Place.fits] at hf
      simp only [Place.inRow]
      omega
    | _ => cases hover
  have hspoil : s.spoil p n = (s.mem.counters.filter fun c => (s.located p).overlaps n c 8).foldl State.spoilOne s := by
    unfold State.spoil
    split
    next k off => exact absurd rfl (hp.not_image k off)
    next => rfl
  obtain ⟨honly, hout⟩ := State.foldl_spoilOne _ hrow s
  refine ⟨hspoil ▸ honly, State.spoil_none hp.not_image, fun q hq => ?_⟩
  rw [hspoil]
  refine hout q fun c hc => ?_
  obtain ⟨hc, hover⟩ := List.mem_filter.mp hc
  exact hq c hc hover

/-! ### A write at its home (R211, R212, R469) -/

/-- The place refuses every job: its bank accepts no accesses, the scratchpad ends before it, or the host is not there. -/
def State.shut (s : State) (p : Place) : Prop :=
  match p with
  | .bank t off => (s.tile t).bankOpen (off / 0x20000) = false
  | .sram c off => (s.core c).split.toNat * 0x4000 ≤ off
  | .host _ => s.hostUp = false
  | _ => False

section
variable {job : BitVec 12} {p : Place}

theorem State.homeOpen_gone (h : (s.job job).removed = true) : s.homeOpen job p = (s, .error (.fail Cause.PERM)) := by
  unfold State.homeOpen
  exact if_pos h

theorem State.homeOpen_plain (h : ¬(s.job job).removed = true) (hp : p.plainHome) : s.homeOpen job p = s.engOpen p := by
  unfold State.homeOpen
  rw [if_neg h]
  cases p with
  | win t off => exact hp.elim
  | cap off svc => exact hp.elim
  | _ => rfl

theorem State.homeOpen_shut (hp : p.plainHome) (h : (s.job job).removed = true ∨ s.shut p) :
    s.homeOpen job p = (s, .error (.fail Cause.PERM)) := by
  by_cases hgone : (s.job job).removed = true
  · exact State.homeOpen_gone hgone
  have hs : s.shut p := h.resolve_left hgone
  rw [State.homeOpen_plain hgone hp]
  cases p with
  | bank t off =>
    rw [State.engOpen, hs]
    rfl
  | sram c off => exact if_neg (Nat.not_lt.mpr hs)
  | host a =>
    rw [State.engOpen, hs]
    rfl
  | _ => exact hs.elim

theorem State.homeOpen_open (hgone : ¬(s.job job).removed = true) (hp : p.plainHome) (hs : ¬s.shut p) (ht : s.touch p = (s, true)) :
    s.homeOpen job p = (s, .ok ()) := by
  rw [State.homeOpen_plain hgone hp]
  cases p with
  | bank t off =>
    rw [State.engOpen, (Bool.not_eq_false _).mp hs, ht]
    rfl
  | sram c off => exact if_pos (Nat.not_le.mp hs)
  | host a =>
    rw [State.engOpen, (Bool.not_eq_false _).mp hs]
    rfl
  | dev pa => rfl
  | _ => exact hp.elim

variable {bs : List Byte} {wn : WNo} {atom : Bool}

theorem State.homeWrite_stopped {r : EngStop} (h : s.homeSet job p bs = (s, .error r)) : s.homeWrite wn atom job p bs = (s, .error r) := by
  have hput : s.homePut job p bs = (s, .error r) := by
    rw [State.homePut, h]
  rw [State.homeWrite, hput]

/-- A write that its home serves, with what becomes of the counters it meets. -/
theorem State.homeWrite_done {m : Memories} (h : s.homeSet job p bs = ({ s with mem := m }, .ok ())) (hm : m.counters = s.mem.counters)
    (hp : p.plainHome) (hf : p.fits bs.length) : ∃ clk mem, s.homeWrite wn atom job p bs = ({ s with clk := clk, mem := mem }, .ok ()) ∧
      mem.owner = m.owner ∧ (noCounter s (s.located p) bs.length → mem.stores = m.stores) ∧
      ∀ q, s.clearOf (s.located p) bs.length q → State.byteAt { s with clk := clk, mem := mem } q = State.byteAt { s with mem := m } q := by
  obtain ⟨⟨clk, mem, hspoil, howner⟩, hnone, hout⟩ := State.spoil_done (s := { s with mem := m }) hp hf
  have hput : s.homePut job p bs = (State.spoil { s with mem := m } p bs.length, .ok ()) := by
    rw [State.homePut, h]
    cases p with
    | dev pa =>
      dsimp only
      rw [show pubOf pa = none from hp]
    | _ => rfl
  obtain ⟨past, hrec⟩ := State.recorded_eq s (State.spoil { s with mem := m } p bs.length) wn atom p bs
  rw [State.homeWrite, hput]
  dsimp only
  rw [hrec, hspoil]
  refine ⟨clk, _, rfl, howner, fun hno => ?_, fun q hq => ?_⟩
  · have hmem : mem = m := congrArg State.mem (hspoil.symm.trans (hnone fun c hc => hno c (hm ▸ hc)))
    rw [← hmem]
    rfl
  · have hstores : State.byteAt { s with clk := clk, mem := { mem with past := past } } q = State.byteAt { s with clk := clk, mem := mem } q :=
      State.sameBytes_of_stores (s := { s with clk := clk, mem := mem }) rfl q
    refine hstores.trans ((congrArg (State.byteAt · q) hspoil).symm.trans (hout q fun c hc => hq c (hm ▸ hc)))

end

/-! ### What each home puts (R212, R469, R489) -/

section
variable {job : BitVec 12} {p : Place} {bs : List Byte}

theorem State.homeSet_shut (h : s.homeOpen job p = (s, .error (.fail Cause.PERM))) :
    s.homeSet job p bs = (s, .error (.fail Cause.PERM)) := by
  unfold State.homeSet
  rw [h]

/-- A home other than device memory puts the bytes in place. -/
theorem State.homeSet_open (h : s.homeOpen job p = (s, .ok ())) (hp : p.plainHome) (hdev : ∀ pa, p ≠ .dev pa) :
    ∃ m, s.homeSet job p bs = ({ s with mem := m }, .ok ()) ∧ m.counters = s.mem.counters ∧ s.wrote { s with mem := m } (s.located p) bs := by
  unfold State.homeSet
  rw [h]
  cases p with
  | bank t off => exact ⟨_, rfl, rfl, rfl⟩
  | sram c off => exact ⟨_, rfl, rfl, rfl⟩
  | host a => exact ⟨_, rfl, rfl, rfl⟩
  | dev pa => exact absurd rfl (hdev pa)
  | _ => exact hp.elim

/-- What lies outside a cleared range stays. -/
theorem Tab.get?_clear_out {α : Type} {lo hi i : Nat} (h : i < lo ∨ hi ≤ i) (t : Table α) :
    Tab.get? (Tab.clear t lo hi) i = Tab.get? t i := by
  induction t with
  | nil => rfl
  | cons p t ih =>
    rw [Tab.clear, List.filter_cons]
    split
    · exact ite_congr rfl (fun _ => rfl) fun _ => ih
    next hp =>
      have hne : p.1 ≠ i := by
        simp only [Bool.not_eq_true', Bool.and_eq_false_iff, decide_eq_false_iff_not] at hp
        omega
      exact ih.trans (if_neg hne).symm

/-- The bytes of a line that its home writes: a line of another owner loses its old bytes (R489). -/
def Memories.written (m : Memories) (taken : Bool) (pa : Nat) (bs : List Byte) : Memories :=
  Memories.write { m with dev := if taken then Tab.clear m.dev (64 * (pa / 64)) (64 * (pa / 64) + 64) else m.dev } (.dev pa) bs

theorem State.devWrite_refused {tag : Owner} {pa : Nat} (hpa : pa < Config.devBytes) (h : s.ownerCheck tag (s.lineOwner pa) = .refused) :
    s.devWrite tag pa bs = none := by
  unfold State.devWrite
  rw [if_neg (Nat.not_le.mpr hpa), if_pos h]

theorem State.devWrite_taken {tag : Owner} {pa : Nat} (hpa : pa < Config.devBytes) (h : s.ownerCheck tag (s.lineOwner pa) ≠ .refused) :
    ∃ m, s.devWrite tag pa bs = some { s with mem := m } ∧ m.counters = s.mem.counters ∧ m.owner = Tab.put s.mem.owner (pa / 64) tag ∧
      m.stores = (s.mem.written (decide (s.ownerCheck tag (s.lineOwner pa) ≠ .served)) pa bs).stores := by
  unfold State.devWrite
  rw [if_neg (Nat.not_le.mpr hpa), if_neg h]
  refine ⟨_, rfl, rfl, rfl, ?_⟩
  cases hc : s.ownerCheck tag (s.lineOwner pa) with
  | served => rfl
  | stale => rfl
  | refused => exact absurd hc h

theorem State.homeSet_dev {pa : Nat} (hopen : s.homeOpen job (.dev pa) = (s, .ok ())) (hpub : pubOf pa = none)
    (hw : s.devWrite (tagOf job) pa bs = some t) : s.homeSet job (.dev pa) bs = (t, .ok ()) := by
  unfold State.homeSet
  rw [hopen]
  dsimp only
  rw [hpub, hw]

theorem State.homeSet_dev_refused {pa : Nat} (hopen : s.homeOpen job (.dev pa) = (s, .ok ())) (hpub : pubOf pa = none)
    (hw : s.devWrite (tagOf job) pa bs = none) : s.homeSet job (.dev pa) bs = (s, .error (.fail Cause.PERM)) := by
  unfold State.homeSet
  rw [hopen]
  dsimp only
  rw [hpub, hw]

/-- A line that its home writes for a tag has that tag's owner (R489). -/
theorem State.lineOwner_written {tag : Owner} {pa : Nat} (h : s.ownerCheck tag (s.lineOwner pa) ≠ .refused)
    (ht : t.mem.owner = Tab.put s.mem.owner (pa / 64) tag) : t.lineOwner pa = some tag := by
  unfold State.lineOwner at h ⊢
  split
  next hres =>
    rw [if_pos hres, State.ownerCheck] at h
    split at h
    next heq => exact congrArg some heq
    next => exact absurd rfl h
  next =>
    rw [ht, Tab.get?_put_self]

end

/-! ### What the sender is told (R212, R225, R355) -/

section
variable {n c e : Nat} {who : TaskId} {job : BitVec 12} {p : Place} {bs : List Byte} {pst : Bool} {ctr : Option Place} {wn : WNo}

/-- The event of a store at its home. -/
def storeEvent (pst : Bool) (n : Nat) : Instr := if pst then .pstHome n else .postedStorePerform n

theorem exec_storeEvent (pst : Bool) (n : Nat) (s : State) : exec (storeEvent pst n) s = s.storeAt n pst := by
  cases pst <;> rfl

theorem State.patchOwn_only (s : State) (who : TaskId) (p : Place) (bs : List Byte) :
    ∃ l1 way, s.patchOwn who p bs = { s with mem := { s.mem with l1 := l1, way := way } } := by
  unfold State.patchOwn State.patchL1 State.patchWay
  split
  · split
    · split
      · split <;> exact ⟨_, _, rfl⟩
      · split <;> exact ⟨_, _, rfl⟩
    · exact ⟨_, _, rfl⟩
  · exact ⟨_, _, rfl⟩

theorem State.unstore_only (s : State) (x : Sender) (p : Place) : ∃ l1, s.unstore x p = { s with mem := { s.mem with l1 := l1 } } := by
  unfold State.unstore
  split
  · split
    · exact ⟨_, rfl⟩
    · exact ⟨s.mem.l1, rfl⟩
  · exact ⟨s.mem.l1, rfl⟩

/-- What the sender of a store is told: an acknowledgement, or the add to the counter of a `pst`. -/
def toldOf (s t : State) (n c e : Nat) (who : TaskId) (job : BitVec 12) (size : Nat) (ctr : Option Place) (wn : WNo) : Prop :=
  match ctr with
  | none => ∃ see, t.net = dropAt s.net n ++ [.ack (.core s.chip.chipNo c e) see]
  | some q => t.net = dropAt s.net n ++ [.add (.pst (.core s.chip.chipNo c e)) (some who) job q (BitVec.ofNat 64 size)
      (some { scope := .domain, chip := s.chip.chipNo, tile := some (c / 32), knows := [wn.id] })] ∧
    ∀ j, s.journal c e = some j → t.journal c e = some { j with state := 4 }

/-- The entry of a `pst` waits for its add. -/
theorem State.awaitAdd_own (s : State) (c e : Nat) : ∃ cores, s.awaitAdd (.core s.chip.chipNo c e) = { s with cores := cores } ∧
    ∀ j, s.journal c e = some j → State.journal { s with cores := cores } c e = some { j with state := 4 } := by
  have hown : s.awaitAdd (.core s.chip.chipNo c e) = match s.journal c e with
      | some j => s.setJournal c e (some { j with state := 4 })
      | none => s := if_pos rfl
  rw [hown]
  cases hj : s.journal c e with
  | none => exact ⟨s.cores, rfl, nofun⟩
  | some j =>
    refine ⟨_, rfl, fun k hk => ?_⟩
    cases hk
    exact s.journal_setJournal c e (some { j with state := 4 })

theorem State.stored_told (hwho : who.chip = s.chip.chipNo) (hnet : u.net = dropAt s.net n) (hcores : u.cores = s.cores) (hchip : u.chip = s.chip)
    (p : Place) (size : Nat) : ∃ t, (u.stored (.core s.chip.chipNo c e) who job p size ctr wn).fresh = t ∧ toldOf s t n c e who job size ctr wn ∧
      t.frames = u.frames ∧ t.mem = u.mem := by
  unfold State.stored
  cases ctr with
  | none =>
    dsimp only
    rw [← hchip, State.acked_own]
    refine ⟨_, rfl, ⟨u.seeSender (.core u.chip.chipNo c e) (u.seenAt p false false), ?_⟩, rfl, rfl⟩
    rw [← hnet, ← hchip]
    rfl
  | some q =>
    obtain ⟨cores, hwait, hentry⟩ := u.awaitAdd_own c e
    have hown (v : State) (hv : v.chip = s.chip) (m : Msg) : v.answer who.chip job 4 m = v.send m := by
      rw [hwho, ← hv, State.answer_own]
    dsimp only
    rw [← hchip, hwait, hown { u with cores := cores } hchip]
    refine ⟨_, rfl, ⟨?_, fun j hj => hentry j ?_⟩, rfl, rfl⟩
    · rw [← hnet, hwho, ← hchip]
      rfl
    · rw [State.journal, State.core, hcores]
      exact hj

/-- What a store that its home serves leaves. -/
theorem State.storeAt_done (hdel : s.deliverable n = some (.store (.core s.chip.chipNo c e) who job p bs pst ctr wn)) (hwho : who.chip = s.chip.chipNo)
    (hp : p.plainHome) (hf : p.fits bs.length) {m : Memories} (hset : s.homeSet job p bs = ({ s with mem := m }, .ok ()))
    (hm : m.counters = s.mem.counters) : ∃ t, exec (storeEvent pst n) s = .next t ∧ toldOf s t n c e who job bs.length ctr wn ∧
      t.frames = s.frames ∧ t.mem.owner = m.owner ∧ (noCounter s (s.located p) bs.length → t.mem.stores = m.stores) ∧
      ∀ q, s.clearOf (s.located p) bs.length q → t.byteAt q = State.byteAt { s with mem := m } q := by
  obtain ⟨clk, mem, hwrite, howner, hno, hout⟩ := State.homeWrite_done (wn := wn) (atom := false) hset hm hp hf
  obtain ⟨l1, way, hpatch⟩ := (State.dropMsg { s with clk := clk, mem := mem } n).patchOwn_only who p bs
  have hstore : exec (storeEvent pst n) s =
      .next (((State.dropMsg { s with clk := clk, mem := mem } n).patchOwn who p bs).stored (.core s.chip.chipNo c e) who job p bs.length ctr
        wn).fresh := by
    rw [exec_storeEvent]
    unfold State.storeAt
    rw [hdel]
    dsimp only
    rw [if_neg (fun h => h rfl), hwrite]
    cases p with
    | peer => exact hp.elim
    | _ => rfl
  obtain ⟨t, ht, htold, hframes, hmem⟩ := State.stored_told (s := s) (n := n) (c := c) (e := e) (ctr := ctr) (job := job) (wn := wn) hwho
    (u := (State.dropMsg { s with clk := clk, mem := mem } n).patchOwn who p bs) (by rw [hpatch]; rfl) (by rw [hpatch]; rfl) (by rw [hpatch]; rfl)
    p bs.length
  rw [hpatch] at hframes hmem
  have same : State.sameBytes { s with clk := clk, mem := mem } t := State.sameBytes_of_stores (by rw [hmem]; rfl)
  refine ⟨t, by rw [hstore, ht], htold, hframes, by rw [hmem]; exact howner, fun h => by rw [hmem]; exact hno h,
    fun q hq => (same q).trans (hout q hq)⟩

/-- A store that its home refuses changes no byte. -/
theorem State.storeAt_refused (hdel : s.deliverable n = some (.store (.core s.chip.chipNo c e) who job p bs pst ctr wn)) (hp : p.plainHome)
    {r : Byte} (hset : s.homeSet job p bs = (s, .error (.fail r))) : ∃ t, exec (storeEvent pst n) s = .next t ∧
      t.net = dropAt s.net n ++ [.refusal (.core s.chip.chipNo c e) Cause.REFUSED r] ∧ s.sameBytes t ∧ t.frames = s.frames := by
  have hwrite := State.homeWrite_stopped (wn := wn) (atom := false) hset
  obtain ⟨l1, hdrop⟩ := (s.dropMsg n).unstore_only (.core s.chip.chipNo c e) p
  have hstore : exec (storeEvent pst n) s = .next (((s.dropMsg n).unstore (.core s.chip.chipNo c e) p).refused (.core s.chip.chipNo c e) job r).fresh := by
    rw [exec_storeEvent]
    unfold State.storeAt
    rw [hdel]
    dsimp only
    rw [if_neg (fun h => h rfl), hwrite]
    cases p with
    | peer => exact hp.elim
    | _ => rfl
  have hown : State.refused ((s.dropMsg n).unstore (.core s.chip.chipNo c e) p) (.core s.chip.chipNo c e) job r =
      State.send ((s.dropMsg n).unstore (.core s.chip.chipNo c e) p) (.refusal (.core s.chip.chipNo c e) Cause.REFUSED r) := by
    rw [hdrop]
    exact State.refused_own (State.mk ..) c e job r
  rw [hstore, hown, hdrop]
  exact ⟨_, rfl, rfl, State.sameBytes_of_stores rfl, rfl⟩

/-- A store that its home serves is performed (R212, R340). -/
theorem State.storeAt_performed (hdel : s.deliverable n = some (.store (.core s.chip.chipNo c e) who job p bs pst ctr wn))
    (hwho : who.chip = s.chip.chipNo) (hp : p.plainHome) (hf : p.fits bs.length) {m : Memories} (hset : s.homeSet job p bs = ({ s with mem := m }, .ok ()))
    (hm : m.counters = s.mem.counters) (hw : s.wrote { s with mem := m } (s.located p) bs) :
    ∃ t, exec (storeEvent pst n) s = .next t ∧ toldOf s t n c e who job bs.length ctr wn ∧ sameOutside s t (s.located p) bs.length ∧
      t.frames = s.frames ∧ (noCounter s (s.located p) bs.length → ∀ j, j < bs.length → t.byteAt ((s.located p).plus j) = bs[j]?) := by
  obtain ⟨t, ht, htold, hframes, -, hno, hout⟩ := State.storeAt_done hdel hwho hp hf hset hm
  obtain ⟨hfits, hword⟩ := hp.located (s := s) hf
  refine ⟨t, ht, htold, fun q hq hclear => (hout q hclear).trans (hw.sameBytesBut hfits q hq), hframes, fun hc j hj => ?_⟩
  have wrote : s.wrote t (s.located p) bs := (hno hc).trans hw
  exact wrote.byteAt hword hfits hj

/-- A store to a line that its home does not refuse (R489). -/
theorem State.storeAt_line {pa : Nat} (hdel : s.deliverable n = some (.store (.core s.chip.chipNo c e) who job (.dev pa) bs pst ctr wn))
    (hwho : who.chip = s.chip.chipNo) (hpub : pubOf pa = none) (hline : pa % 64 + bs.length ≤ 64) {m : Memories} {taken : Bool}
    (hset : s.homeSet job (.dev pa) bs = ({ s with mem := m }, .ok ())) (hm : m.counters = s.mem.counters)
    (howner : m.owner = Tab.put s.mem.owner (pa / 64) (tagOf job)) (hcheck : s.ownerCheck (tagOf job) (s.lineOwner pa) ≠ .refused)
    (hstores : m.stores = (s.mem.written taken pa bs).stores) :
    ∃ t, exec (storeEvent pst n) s = .next t ∧ toldOf s t n c e who job bs.length ctr wn ∧ t.lineOwner pa = some (tagOf job) ∧
      (noCounter s (.dev pa) bs.length → (∀ j, j < bs.length → t.byteAt (.dev (pa + j)) = bs[j]?) ∧
        s.sameBytesBut t (.dev (64 * (pa / 64))) 64) := by
  obtain ⟨t, ht, htold, -, hown, hno, -⟩ := State.storeAt_done hdel hwho hpub trivial hset hm
  refine ⟨t, ht, htold, State.lineOwner_written hcheck (hown.trans howner), fun hc => ?_⟩
  have wrote : State.wrote { s with mem := { s.mem with
      dev := if taken then Tab.clear s.mem.dev (64 * (pa / 64)) (64 * (pa / 64) + 64) else s.mem.dev } } t (.dev pa) bs := (hno hc).trans hstores
  refine ⟨fun j hj => wrote.byteAt rfl trivial hj, fun q hq => (wrote.sameBytesBut trivial q ?_).trans ?_⟩
  · cases q with
    | dev a =>
      simp only [Place.overlaps, Bool.and_eq_false_iff, decide_eq_false_iff_not] at hq ⊢
      omega
    | _ => rfl
  · cases q with
    | dev a =>
      simp only [Place.overlaps, Bool.and_eq_false_iff, decide_eq_false_iff_not] at hq
      simp only [State.byteAt]
      split
      · exact Tab.get?_clear_out (by rcases hq with hq | hq <;> omega) _
      · rfl
    | _ => rfl

end

/-- Settles O41: a store that its home serves puts its bytes there and tells its sender; one that is refused only tells it. -/
theorem homeStores : Obligations.HomeStores := by
  unfold Obligations.HomeStores
  intro s n c e who job bs pst ctr wn p x i told no done hdel hwho gone
  have refused (hp : p.plainHome) (h : s.homeOpen job p = (s, .error (.fail Cause.PERM))) : no :=
    State.storeAt_refused hdel hp (State.homeSet_shut h)
  have served (hp : p.plainHome) (hdev : ∀ pa, p ≠ .dev pa) (hf : p.fits bs.length) (h : s.homeOpen job p = (s, .ok ())) : done := by
    obtain ⟨m, hset, hm, hw⟩ := State.homeSet_open (bs := bs) h hp hdev
    exact State.storeAt_performed hdel hwho hp hf hset hm hw
  refine ⟨fun k off hp hf => ?_, fun k off hp hf => ?_, fun a hp => ?_, fun pa hp hpa hpub hline => ?_, fun k pa hp => ?_⟩
  case refine_1 =>
    subst hp
    exact ⟨fun h => refused trivial (State.homeOpen_shut trivial h), fun hgone hopen ht => served trivial nofun hf
      (State.homeOpen_open hgone trivial (fun h : _ = false => by rw [hopen] at h; cases h) ht)⟩
  case refine_2 =>
    subst hp
    exact ⟨fun h => refused trivial (State.homeOpen_shut trivial h), fun hgone hopen => served trivial nofun hf
      (State.homeOpen_open hgone trivial (Nat.not_le.mpr hopen) rfl)⟩
  case refine_3 =>
    subst hp
    exact ⟨fun h => refused trivial (State.homeOpen_shut trivial h), fun hgone hopen => served trivial nofun trivial
      (State.homeOpen_open hgone trivial (fun h : _ = false => by rw [hopen] at h; cases h) rfl)⟩
  case refine_4 =>
    subst hp
    have taken (hgone : ¬gone) (hcheck : s.ownerCheck (tagOf job) (s.lineOwner pa) ≠ .refused) :
        ∃ m, s.homeSet job (.dev pa) bs = ({ s with mem := m }, .ok ()) ∧ m.counters = s.mem.counters ∧
          m.owner = Tab.put s.mem.owner (pa / 64) (tagOf job) ∧
          m.stores = (s.mem.written (decide (s.ownerCheck (tagOf job) (s.lineOwner pa) ≠ .served)) pa bs).stores := by
      obtain ⟨m, hwrite, hm⟩ := State.devWrite_taken (bs := bs) hpa hcheck
      exact ⟨m, State.homeSet_dev (State.homeOpen_open hgone hpub not_false rfl) hpub hwrite, hm⟩
    refine ⟨fun h => ?_, fun hgone hcheck => ?_, fun hgone hcheck => ?_⟩
    · by_cases hgone : gone
      · exact refused hpub (State.homeOpen_gone hgone)
      · exact State.storeAt_refused hdel hpub (State.homeSet_dev_refused (State.homeOpen_open hgone hpub not_false rfl) hpub
          (State.devWrite_refused hpa (h.resolve_left hgone)))
    · obtain ⟨m, hset, hm, -, hstores⟩ := taken hgone (by rw [hcheck]; decide)
      refine State.storeAt_performed hdel hwho hpub trivial hset hm ?_
      rw [hcheck] at hstores
      exact hstores
    · obtain ⟨m, hset, hm, howner, hstores⟩ := taken hgone hcheck
      exact State.storeAt_line hdel hwho hpub hline hset hm howner hcheck hstores
  case refine_5 =>
    subst hp
    refine ⟨(s.dropMsg n).toPeer k job false 0 (.msg (.store x who job (.peer k pa) bs pst ctr wn)), ?_, rfl, State.sameBytes_of_mem rfl,
      State.stream_toPeer ..⟩
    rw [show i = storeEvent pst n from rfl, exec_storeEvent]
    unfold State.storeAt
    rw [hdel]
    exact if_neg fun h => h rfl

end Sys2Proof.Machine
end

section
/-! # O40: what reads return, and reads and data atomics at their homes (R211, R218, R223, R357, R360, R366)

`State.homeServes` is what a home gives an operation it serves; `atHome_of` derives from it each clause of the statement. -/

namespace Sys2Proof.Machine

variable {s t u v : State}

/-! ### Locations of bytes (R363) -/

theorem Place.word_lt {p q : Place} {off : Nat} (h : p.word = some (q, off)) : off < 8 := by
  cases p <;> cases h <;> exact Nat.mod_lt _ (by decide)

/-- The location of a place as records name it. -/
theorem State.word_located {p q : Place} {off : Nat} (h : p.word = some (q, off)) : (s.located p).word = some (s.located q, off) := by
  cases p with
  | host a =>
    cases h
    have hkey (b : Bool) : hostKey b a / 8 * 8 = hostKey b (a / 8 * 8) ∧ hostKey b a % 8 = a % 8 := by
      unfold hostKey
      omega
    rw [State.located, Place.word, (hkey _).1, (hkey _).2]
    rfl
  | dev pa => cases h; rfl
  | bank k o => cases h; rfl
  | sram k o => cases h; rfl
  | _ => cases h

/-- Bytes of one location are one piece. -/
theorem Place.pieces_single {p q : Place} {off : Nat} {bs : List Byte} (hp : p.word = some (q, off)) (hlen : off + bs.length ≤ 8)
    (hpos : 0 < bs.length) : p.pieces bs = [(q, off, bs)] := by
  have hone : (off + bs.length + 7) / 8 = 1 := by omega
  rw [Place.pieces, hp]
  dsimp only
  rw [hone]
  have htake : (bs.drop (8 * 0 - off)).take (8 - off) = bs := by
    rw [Nat.mul_zero, Nat.zero_sub, List.drop_zero, List.take_of_length_le (by omega)]
  rw [List.range_one, List.map_singleton, if_pos rfl, htake, Nat.mul_zero, Place.plus_zero]

/-! ### The value that a read returns (R340, R366, R367) -/

theorem State.view_unrecorded {p : Place} {bs : List Byte} (h : unrecorded s p bs.length) (who : Option TaskId) (known : List Nat) :
    (s.view who known p bs).1 = bs := by
  rw [State.view]
  cases hword : p.word with
  | none => rfl
  | some w =>
    obtain ⟨q, off⟩ := w
    have hlocated := State.word_located (s := s) hword
    have hpast : ∀ x ∈ (s.located p).pieces bs, ∀ y ∈ s.mem.past, y.at_ ≠ x.1 := by
      intro x hx
      have hmem : x.1 ∈ ((s.located p).pieces (List.replicate bs.length 0)).map (·.1) := by
        rw [← (s.located p).map_fst_pieces (bs := bs) (List.length_replicate).symm]
        exact List.mem_map_of_mem hx
      obtain ⟨y, hy, hyx⟩ := List.mem_map.mp hmem
      exact hyx ▸ h y hy
    refine Eq.trans ?_ (Place.flatMap_pieces bs hlocated (Place.word_lt hword))
    dsimp only
    rw [List.flatMap_map]
    conv_rhs => rw [← List.zipIdx_map_fst 0 ((s.located p).pieces bs), List.flatMap_map]
    exact List.flatMap_congr fun x hx => State.viewWord_unrecorded (hpast _ (List.fst_mem_of_mem_zipIdx hx)) _ _

/-- A read of bytes of one location. -/
theorem State.look_single {p q : Place} {off : Nat} {bs : List Byte} (hp : p.word = some (q, off)) (hlen : off + bs.length ≤ 8)
    (hpos : 0 < bs.length) (who : TaskId) (ks : List Nat) : (s.look who ks p bs).2 =
      (s.viewWord (ks ++ s.returned (some who) (s.located q, off, bs)) 0 (s.located q, off, bs)).1 := by
  rw [State.look, State.view, hp]
  dsimp only
  rw [Place.pieces_single (State.word_located hp) hlen hpos]
  exact List.append_nil _

/-- The write that covers a location and is the last of those taken is what the read returns. -/
theorem shown_last (ws : List Write) {y : Write} (hoff : y.off = 0) {i : Nat} (hi : i < y.bytes.length) :
    shown (ws ++ [y]) i = some (y.bytes[i], y.id) := by
  rw [shown, List.foldl_append, List.foldl_cons, List.foldl_nil, if_pos (hoff ▸ Nat.zero_le i), hoff, Nat.sub_zero,
    List.getElem?_eq_getElem hi]

/-- A write of a location, with its place in the record, is among those that a read takes (R366). -/
def State.readTakes (s : State) (known : List Nat) (i : Nat) (x : Write × Nat) : Bool :=
  decide (x.1.id = 0) || known.contains x.1.id || Config.freeBool s.clk.free (1000 + 64 * i + x.2)

/-- A known write that was performed last and lies after all others is taken last. -/
theorem State.taken_last {known : List Nat} {here : List Write} {y : Write} (hlast : here.getLast? = some y) (hknown : y.id ∈ known)
    (hafter : ∀ z ∈ here, z ≠ y → z.id ∈ y.after ∧ y.id ∉ z.after) (hself : y.id ∉ y.after) (i : Nat) :
    ∃ ws, s.taken known i here = ws ++ [y] := by
  obtain ⟨init, rfl⟩ : ∃ init, here = init ++ [y] := ⟨_, (List.dropLast_append_getLast? y hlast).symm⟩
  have htakes (k : Nat) : s.readTakes known i (y, k) = true := by
    have : known.contains y.id = true := List.elem_eq_true_of_mem hknown
    simp only [State.readTakes, this, Bool.or_true, Bool.true_or]
  have hws : (((init ++ [y]).zipIdx.filter (s.readTakes known i)).map (·.1)) = ((init.zipIdx.filter (s.readTakes known i)).map (·.1)) ++ [y] := by
    rw [List.zipIdx_append, List.filter_append, List.map_append]
    congr 1
    exact congrArg (List.map Prod.fst) (List.filter_cons_of_pos (htakes _))
  have hmem : ∀ z ∈ (init.zipIdx.filter (s.readTakes known i)).map (·.1), z ∈ init ++ [y] := by
    intro z hz
    obtain ⟨x, hx, rfl⟩ := List.mem_map.mp hz
    exact List.mem_append_left _ (List.fst_mem_of_mem_zipIdx (List.mem_filter.mp hx).1)
  unfold State.taken
  dsimp only
  rw [show ((init ++ [y]).zipIdx.filter fun x => decide (x.1.id = 0) || known.contains x.1.id ||
    Config.freeBool s.clk.free (1000 + 64 * i + x.2)).map (·.1) = _ from hws]
  generalize (init.zipIdx.filter (s.readTakes known i)).map (·.1) = ws at hmem
  split
  · exact ⟨ws, rfl⟩
  next p hp =>
    have hp : p ∈ init ++ [y] := List.mem_of_getElem? hp
    by_cases hpy : p = y
    · subst hpy
      have hnone : (ws ++ [p]).filter (fun z => z.after.contains p.id) = [] := by
        refine List.filter_eq_nil_iff.mpr fun z hz hlater => ?_
        have hlater : p.id ∈ z.after := List.mem_of_elem_eq_true hlater
        by_cases hzp : z = p
        · exact hself (hzp ▸ hlater)
        · refine (hafter z ?_ hzp).2 hlater
          rcases List.mem_append.mp hz with hz | hz
          · exact hmem z hz
          · exact List.mem_append_right _ hz
      rw [hnone]
      exact ⟨_, rfl⟩
    · have hlater : y.after.contains p.id = true := List.elem_eq_true_of_mem (hafter p hp hpy).1
      have hend : (ws ++ [y]).filter (fun z => z.after.contains p.id) = ws.filter (fun z => z.after.contains p.id) ++ [y] := by
        rw [List.filter_append]
        exact congrArg _ (List.filter_cons_of_pos hlater)
      rw [hend, ← List.cons_append, ← List.append_assoc]
      exact ⟨_, rfl⟩

/-- A counter has one value (R340). -/
theorem State.viewWord_counter {known : List Nat} {i : Nat} {x : Place × Nat × List Byte} (h : s.mem.counters.contains x.1 = true) :
    (s.viewWord known i x).1 = x.2.2 := by
  rw [State.viewWord]
  dsimp only
  rw [if_pos (by rw [h, Bool.or_true, Bool.true_or])]

theorem State.viewWord_last {known : List Nat} {i : Nat} {x : Place × Nat × List Byte} {y : Write}
    (hlast : (s.mem.past.filter fun z => decide (z.at_ = x.1)).getLast? = some y) (hknown : y.id ∈ known) (hoff : y.off = 0)
    (hbytes : y.bytes.length = 8) (hlen : x.2.1 + x.2.2.length ≤ 8)
    (hafter : ∀ z ∈ s.mem.past, z.at_ = x.1 → z ≠ y → z.id ∈ y.after ∧ y.id ∉ z.after) (hself : y.id ∉ y.after) :
    (s.viewWord known i x).1 = x.2.2 ∨ (s.viewWord known i x).1 = (y.bytes.drop x.2.1).take x.2.2.length := by
  rw [State.viewWord]
  split
  · exact .inl rfl
  · right
    obtain ⟨ws, hws⟩ := State.taken_last (s := s) hlast hknown (fun z hz hzy => by
      obtain ⟨hz, hat⟩ := List.mem_filter.mp hz
      exact hafter z hz (of_decide_eq_true hat) hzy) hself i
    dsimp only
    rw [hws]
    refine List.ext_getElem (by simp; omega) fun j hj _ => ?_
    simp only [List.length_zipWith, List.length_map, List.length_range, Nat.min_self] at hj
    simp only [List.getElem_zipWith, List.getElem_map, List.getElem_range, List.getElem_take, List.getElem_drop]
    rw [shown_last ws hoff (by omega)]
    rfl

theorem readValues_holds : readValuesRule := by
  intro s who ks p q off bs got known
  refine ⟨fun h => State.view_unrecorded h _ _, fun h => ?none, fun hp hlen hpos => ⟨fun hc => ?counter, fun y hlast hknown hoff hbytes hafter hself =>
    ?last⟩,
    fun r hr x j hj hrx => ?again⟩
  case none =>
    change (s.view (some who) ks p bs).1 = bs
    rw [State.view, h]
  case counter =>
    change (s.look who ks p bs).2 = bs
    rw [State.look_single hp hlen hpos]
    exact State.viewWord_counter hc
  case last =>
    change (s.look who ks p bs).2 = bs ∨ (s.look who ks p bs).2 = _
    rw [State.look_single hp hlen hpos]
    exact State.viewWord_last hlast hknown hoff hbytes hlen hafter hself
  case again =>
    refine List.mem_map.mpr ⟨(who, r), List.mem_filter.mpr ⟨List.mem_append_left _ (List.mem_map_of_mem hr), ?_⟩, rfl⟩
    simp only [decide_true, Bool.true_and, List.any_eq_true, List.mem_range, decide_eq_true_eq]
    exact ⟨j, hj, hrx⟩

/-! ### What a home serves (R205, R211, R440, R469, R489) -/

/-- The home at a place serves an operation of a job, which meets these bytes there. -/
structure State.homeServes (s : State) (job : BitVec 12) (p : Place) (n : Nat) (bs : List Byte) : Prop where
  plain : p.plainHome
  stays : ¬(s.job job).removed = true
  isOpen : ¬s.shut p
  ready : s.touch p = (s, true)
  inMemory : ∀ pa, p = .dev pa → pa < Config.devBytes
  got : s.homeGet job p n = (s, .ok bs)
  length : bs.length = n

section
variable {job : BitVec 12} {p : Place} {n : Nat}

theorem State.homeGet_stopped {r : EngStop} (h : s.homeOpen job p = (s, .error r)) : s.homeGet job p n = (s, .error r) := by
  unfold State.homeGet
  rw [h]

theorem State.homeGet_local {c : Nat} (h : s.homeOpen job p = (s, .ok ())) (hp : p.isLocal c = true) :
    s.homeGet job p n = (s, (s.localGot p n).eng) := by
  unfold State.homeGet
  rw [h]
  cases p with
  | bank t off => rfl
  | sram k off => rfl
  | _ => cases hp

theorem State.homeGet_host {a : Nat} (h : s.homeOpen job (.host a) = (s, .ok ())) :
    s.homeGet job (.host a) n = (s, if s.hostAnswers a then .ok (s.hostBytes a n) else .error (.fail Cause.PERM)) := by
  unfold State.homeGet
  rw [h]

theorem State.homeGet_dev {pa : Nat} (h : s.homeOpen job (.dev pa) = (s, .ok ())) (hpub : pubOf pa = none) {bs : List Byte}
    (hread : s.devRead (tagOf job) pa n = .bytes bs) : s.homeGet job (.dev pa) n = (s, .ok bs) := by
  unfold State.homeGet
  rw [h]
  dsimp only
  rw [hpub, hread]

theorem State.homeGet_dev_failed {pa : Nat} (h : s.homeOpen job (.dev pa) = (s, .ok ())) (hpub : pubOf pa = none) {r : Byte}
    (hread : s.devRead (tagOf job) pa n = .err r) : s.homeGet job (.dev pa) n = (s, .error (.fail r)) := by
  unfold State.homeGet
  rw [h]
  dsimp only
  rw [hpub, hread]

/-- What an operation meets at its home, from what the home yields. -/
theorem atHome_of {ok : List Byte → Prop} {no : Byte → Prop} (hok : ∀ bs, s.homeServes job p n bs → ok bs)
    (hno : ∀ r, p.plainHome → s.homeGet job p n = (s, .error (.fail r)) → no r) : atHome s job p n ok no := by
  have refused (hp : p.plainHome) (h : (s.job job).removed = true ∨ s.shut p) : no Cause.PERM :=
    hno _ hp (State.homeGet_stopped (State.homeOpen_shut hp h))
  have here {c : Nat} (hp : p.isLocal c = true) (hplain : p.plainHome) (hgone : ¬(s.job job).removed = true) (hopen : ¬s.shut p)
      (ht : s.touch p = (s, true)) : (s.localBad p n = true → no Cause.REFUSED) ∧ (s.localBad p n = false → ok (s.localBytes p n)) := by
    have hget := State.homeGet_local (n := n) (State.homeOpen_open hgone hplain hopen ht) hp
    refine ⟨fun hbad => hno _ hplain (hget.trans ?_), fun hgood =>
      hok _ ⟨hplain, hgone, hopen, ht, ?_, hget.trans ?_, State.length_localBytes hp n⟩⟩
    · rw [State.localGot, hbad]
      rfl
    · rintro pa rfl
      cases hp
    · rw [State.localGot, hgood]
      rfl
  refine ⟨fun k off hp => ?bank, fun c off hp => ?sram, fun a hp => ?host, fun pa hp hpa hpub => ?dev⟩
  case bank =>
    subst hp
    have hlocal : (Place.bank k off).isLocal (k * 32) = true := decide_eq_true (Nat.mul_div_cancel k (by decide)).symm
    exact ⟨refused trivial, fun hgone hopen ht => here hlocal trivial hgone (fun h : _ = false => by rw [hopen] at h; cases h) ht⟩
  case sram =>
    subst hp
    exact ⟨refused trivial, fun hgone hopen => here (c := c) (decide_eq_true rfl) trivial hgone (Nat.not_le.mpr hopen) rfl⟩
  case host =>
    subst hp
    refine ⟨fun h => refused trivial (.inl h), fun hgone => ?_⟩
    cases hans : s.hostAnswers a with
    | false =>
      refine .inl ⟨rfl, ?_⟩
      by_cases hshut : s.shut (.host a)
      · exact refused trivial (.inr hshut)
      · refine hno _ trivial ((State.homeGet_host (State.homeOpen_open hgone trivial hshut rfl)).trans ?_)
        rw [hans]
        rfl
    | true =>
      have hopen : ¬s.shut (.host a) := fun hdown : s.hostUp = false => by
        rw [State.hostAnswers, hdown] at hans
        cases hans
      refine .inr ⟨rfl, hok _ ⟨trivial, hgone, hopen, rfl, nofun, (State.homeGet_host (State.homeOpen_open hgone trivial hopen rfl)).trans ?_, ?_⟩⟩
      · rw [hans]
        rfl
      · rw [State.hostBytes, State.portBytes, List.length_map, List.length_range]
  case dev =>
    subst hp
    have hopen (hgone : ¬(s.job job).removed = true) := State.homeOpen_open hgone (p := .dev pa) hpub not_false rfl
    have serves (hgone : ¬(s.job job).removed = true) {bs : List Byte} (hread : s.devRead (tagOf job) pa n = .bytes bs) (hlen : bs.length = n) : ok bs :=
      hok _ ⟨hpub, hgone, not_false, rfl, fun _ h => Place.dev.inj h ▸ hpa, State.homeGet_dev (hopen hgone) hpub hread, hlen⟩
    have fails (hgone : ¬(s.job job).removed = true) {r : Byte} (hread : s.devRead (tagOf job) pa n = .err r) : no r :=
      hno _ hpub (State.homeGet_dev_failed (hopen hgone) hpub hread)
    have hin : ¬Config.devBytes ≤ pa := Nat.not_le.mpr hpa
    refine ⟨fun h => ?_, fun hgone hc hbad => fails hgone ?_, fun hgone hc hgood => ?_, fun hgone hc hgood => serves hgone ?_ ?_⟩
    · by_cases hgone : (s.job job).removed = true
      · exact refused hpub (.inl hgone)
      · refine fails hgone ?_
        rw [State.devRead, if_neg hin, h.resolve_left hgone]
    · rw [State.devRead, if_neg hin, hbad]
      cases hcheck : s.ownerCheck (tagOf job) (s.lineOwner pa) with
      | refused => exact absurd hcheck hc
      | stale => rfl
      | served => rfl
    · refine ⟨freeBytes s.clk.free pa n, ?_, serves hgone ?_ ?_⟩
      · rw [freeBytes, List.length_map, List.length_range]
      · rw [State.devRead, if_neg hin, hc, hgood]
        rfl
      · rw [freeBytes, List.length_map, List.length_range]
    · rw [State.devRead, if_neg hin, hc, hgood]
      rfl
    · rw [List.length_map, List.length_range]

end

/-! ### Loads and landing reads at their homes (R211, R218) -/

section
variable {n size c e : Nat} {who : TaskId} {job : BitVec 12} {p : Place} {dst : Dst} {la : LandAddr} {ks : List Nat} {bs : List Byte}

/-- A read that its home has served, and the copies made of its line, change no byte and nothing that others see. -/
theorem State.copied.sameBytes (h : s.copied t) : s.sameBytes t := by
  obtain ⟨_, _, _, _, _, rfl⟩ := h
  exact State.sameBytes_of_stores rfl

theorem State.copied.frames (h : s.copied t) : t.frames = s.frames := by
  obtain ⟨_, _, _, _, _, rfl⟩ := h
  rfl

theorem State.copied.net (h : s.copied t) : t.net = s.net := by
  obtain ⟨_, _, _, _, _, rfl⟩ := h
  rfl

theorem State.copied.chipNo (h : s.copied t) : t.chip.chipNo = s.chip.chipNo := by
  obtain ⟨_, _, _, _, _, rfl⟩ := h
  rfl

theorem State.copied.stores (h : s.copied t) : t.mem.stores = s.mem.stores := by
  obtain ⟨_, _, _, _, _, rfl⟩ := h
  rfl

theorem State.copied.look (s : State) (who : TaskId) (ks : List Nat) (p : Place) (bs : List Byte) : s.copied (s.look who ks p bs).1 :=
  ⟨s.chip.tlb, s.clk.free, _, s.mem.l1, s.mem.way, rfl⟩

theorem State.copied.refreshL1 (s : State) (c pa : Nat) (l : CLine) : s.copied (s.refreshL1 c pa l) := by
  unfold State.refreshL1
  split
  · exact .fillL1 ..
  · exact .refl s

theorem State.copied.refreshWay (s : State) (t pa : Nat) (l : CLine) : s.copied (s.refreshWay t pa l) := by
  unfold State.refreshWay
  split
  · exact .fillWay ..
  · exact .refl s

theorem State.copied.refill2 (s : State) (who : TaskId) (job : BitVec 12) (p : Place) : s.copied (s.refill2 who job p) := by
  unfold State.refill2
  split
  · split
    · exact (State.copied.refreshL1 ..).trans (.refreshWay ..)
    · exact .refl s
  · exact .refl s

theorem State.copied.renewFor (s : State) (who : TaskId) (p : Place) : s.copied (s.renewFor who p) := by
  unfold State.renewFor
  split
  · split
    · exact .renew ..
    · exact .refl s
  · exact .refl s

theorem State.replyAt_own (hwho : who.chip = s.chip.chipNo) (job : BitVec 12) (v : Res) (acq : Option (Scope × List Rel)) (see : Option Nat) :
    s.replyAt n who job dst v acq see = s.swapMsg n (.reply who dst v acq see) := if_pos hwho

/-- What a read at its home returns, and what it records of it. -/
theorem State.readView_got (s : State) (who : TaskId) (dst : Dst) (ks : List Nat) (p : Place) (bs : List Byte) :
    s.copied (s.readView who dst ks p bs).1 ∧ (unrecorded s p bs.length → (s.readView who dst ks p bs).2 = bs) := by
  cases dst with
  | code _ => exact ⟨.refl s, fun _ => rfl⟩
  | engine _ _ => exact ⟨.refl s, fun h => State.view_unrecorded h _ _⟩
  | _ => exact ⟨.look .., fun h => State.view_unrecorded h _ _⟩

/-- A message takes the place of the one that was served. -/
theorem State.copied.answers (hv : s.copied v) {m : Msg} (ht : (v.swapMsg n m).copied t) :
    t.net = setAt s.net n m ∧ t.frames = s.frames ∧ s.sameBytes t := by
  refine ⟨ht.net.trans ?_, ht.frames.trans hv.frames, fun q => (ht.sameBytes q).trans ?_⟩
  · rw [← hv.net]
    rfl
  · exact (State.sameBytes_of_mem rfl q).trans (hv.sameBytes q)

section
variable (hdel : s.deliverable n = some (.read who job p size dst ks))
include hdel

section
variable (hp : p.plainHome) (hway : s.wayHit who job p size ks = none)
include hp hway

theorem exec_homeRead : exec (.homeReadRequest n) s = match s.homeGet job p size with
    | (x, .error e) => s.homeStop x e fun s c => s.replyAt n who job dst (.err c) none (s.seeTask who dst (s.seenAt p false false))
    | (s, .ok bs) => .next (((s.readView who dst ks p bs).1.replyAt n who job dst (.ok (leWord (s.readView who dst ks p bs).2)) none
        (s.seeTask who dst (s.seenAt p false false))).refill2 who job p).fresh := by
  change s.readAt n = _
  unfold State.readAt
  rw [hdel]
  dsimp only
  rw [hway]
  cases p with
  | peer => exact hp.elim
  | _ => rfl

theorem homeRead_served (hwho : who.chip = s.chip.chipNo) (h : s.homeServes job p size bs) : ∃ got, (unrecorded s p size → got = bs) ∧
    ∃ t see, exec (.homeReadRequest n) s = .next t ∧ t.net = setAt s.net n (.reply who dst (.ok (leWord got)) none see) ∧
      t.frames = s.frames ∧ s.sameBytes t := by
  obtain ⟨hview, hgot⟩ := s.readView_got who dst ks p bs
  have hexec := exec_homeRead hdel hp hway
  rw [h.got] at hexec
  dsimp only at hexec
  rw [State.replyAt_own (hwho.trans hview.chipNo.symm)] at hexec
  exact ⟨_, h.length ▸ hgot, _, s.seeTask who dst (s.seenAt p false false), hexec, hview.answers ((State.copied.refill2 ..).trans (.fresh _))⟩

theorem homeRead_failed (hwho : who.chip = s.chip.chipNo) {r : Byte} (h : s.homeGet job p size = (s, .error (.fail r))) :
    ∃ t see, exec (.homeReadRequest n) s = .next t ∧ t.net = setAt s.net n (.reply who dst (.err r) none see) ∧
      t.frames = s.frames ∧ s.sameBytes t := by
  have hexec := exec_homeRead hdel hp hway
  rw [h] at hexec
  dsimp only [State.homeStop] at hexec
  rw [State.replyAt_own hwho] at hexec
  exact ⟨_, s.seeTask who dst (s.seenAt p false false), hexec, (State.copied.refl s).answers (.fresh _)⟩

end

theorem homeRead_peer {k : BitVec 11} {pa : Nat} (hp : p = .peer k pa) : ∃ t, exec (.homeReadRequest n) s = .next t ∧
    t.net = setAt s.net n (.remote who dst false) ∧
    (t.stream k).unsent = (s.stream k).unsent ++ [s.packet k job false 1 (.msg (.read who job p size dst ks))] ∧ s.sameBytes t := by
  subst hp
  refine ⟨s.departs n k job 1 (.read who job (.peer k pa) size dst ks) (.remote who dst false), ?_, rfl, State.stream_toPeer ..,
    State.sameBytes_of_mem rfl⟩
  change s.readAt n = _
  unfold State.readAt
  rw [hdel]

end

section
variable {x : Sender} (hdel : s.deliverable n = some (.lndRead x who job p size la ks)) (hp : p.plainHome) (hla : la.chip = s.chip.chipNo)
include hdel hp hla

/-- The words that the read of an `lnd` lands. -/
def landedWords (size : Nat) (bs : List Byte) : List Word :=
  if size = 64 then (List.range 8).map fun i => leWord ((bs.drop (8 * i)).take 8) else [leWord bs]

theorem lndRead_served (h : s.homeServes job p size bs) : ∃ got, (unrecorded s p size → got = bs) ∧ ∃ t, exec (.lndHomeRead n) s = .next t ∧
    t.net = setAt s.net n (.landing x who job la (landedWords size got) none) ∧ t.frames = s.frames ∧ s.sameBytes t := by
  have hview : s.copied (((s.look who ks p (s.look who ks p bs).2).1).renewFor who p) := (State.copied.look ..).trans (.renewFor ..)
  have hexec : exec (.lndHomeRead n) s =
      .next ((((s.look who ks p (s.look who ks p bs).2).1).renewFor who p).swapMsg n
        (.landing x who job la (landedWords size (s.look who ks p bs).2) none)).fresh := by
    change s.lndReadAt n = _
    unfold State.lndReadAt
    rw [hdel]
    dsimp only
    rw [h.got]
    dsimp only
    rw [if_pos (hla.trans hview.chipNo.symm)]
    cases p with
    | peer => exact hp.elim
    | _ => rfl
  exact ⟨_, fun hun => State.view_unrecorded (h.length ▸ hun) _ _, _, hexec, hview.answers (.fresh _)⟩

theorem lndRead_failed {r : Byte} (h : s.homeGet job p size = (s, .error (.fail r))) : ∃ t, exec (.lndHomeRead n) s = .next t ∧
    t.net = setAt s.net n (.landing x who job la (List.replicate (if size = 64 then 8 else 1) 0) (some r)) ∧ t.frames = s.frames ∧ s.sameBytes t := by
  have hexec : exec (.lndHomeRead n) s =
      .next (s.swapMsg n (.landing x who job la (List.replicate (if size = 64 then 8 else 1) 0) (some r))).fresh := by
    change s.lndReadAt n = _
    unfold State.lndReadAt
    rw [hdel]
    dsimp only [State.homeStop]
    rw [h]
    cases p with
    | peer => exact hp.elim
    | _ => exact congrArg (fun t : State => Host.Outcome.next t.fresh) (if_pos hla)
  exact ⟨_, hexec, (State.copied.refl s).answers (.fresh _)⟩

end
end

/-! ### Data atomics at their homes (R357, R360) -/

theorem State.touch_withMem {p : Place} {m : Memories} (h : s.touch p = (s, true)) :
    State.touch { s with mem := m } p = ({ s with mem := m }, true) := by
  cases p with
  | bank t off =>
    rw [State.touch, State.bankTouch] at h ⊢
    dsimp only at h ⊢
    split at h
    · cases (Prod.mk.inj h).2
    next hbusy =>
      split at h
      · cases (Prod.mk.inj h).2
      next hgate => exact (if_neg hbusy).trans (if_neg hgate)
  | _ => rfl

section
variable {n size c e : Nat} {who : TaskId} {job : BitVec 12} {p : Place} {dst : Dst} {dbl : Bool} {op : AmoOp} {v d : Word} {wn : WNo} {bs : List Byte}

/-- A home that serves a read of bytes puts new ones there, but for a line of another owner. -/
theorem State.homeServes.homeSet (h : s.homeServes job p size bs) (hdev : ∀ pa, p = .dev pa → s.ownerCheck (tagOf job) (s.lineOwner pa) = .served)
    {rs : List (TaskId × Place × Nat)} (new : List Byte) :
    let u : State := { s with mem := { s.mem with reads := rs } }
    ∃ m, u.homeSet job p new = ({ u with mem := m }, .ok ()) ∧ m.counters = s.mem.counters ∧ u.wrote { u with mem := m } (s.located p) new := by
  intro u
  have hshut : ¬u.shut p := by
    have := h.isOpen
    cases p <;> exact this
  have hopen : u.homeOpen job p = (u, .ok ()) := State.homeOpen_open h.stays h.plain hshut (State.touch_withMem h.ready)
  by_cases hp : ∃ pa, p = .dev pa
  · obtain ⟨pa, rfl⟩ := hp
    have hcheck : u.ownerCheck (tagOf job) (u.lineOwner pa) = .served := hdev pa rfl
    obtain ⟨m, hwrite, hm, -, hstores⟩ := State.devWrite_taken (s := u) (bs := new) (h.inMemory pa rfl) (tag := tagOf job) (by rw [hcheck]; decide)
    rw [hcheck] at hstores
    exact ⟨m, State.homeSet_dev hopen h.plain hwrite, hm, hstores⟩
  · exact State.homeSet_open hopen h.plain fun pa hpa => hp ⟨pa, hpa⟩

/-- What an atomic leaves in memory (R357). -/
def amoLeaves (s t : State) (p : Place) (dbl : Bool) (op : AmoOp) (v d : Word) (bs : List Byte) : Prop :=
  let w := if dbl then 8 else 4
  match amoNew op (8 * w) (leNat bs) (v.toNat % 2 ^ (8 * w)) (d.toNat % 2 ^ (8 * w)) with
  | none => s.sameBytes t
  | some y => sameOutside s t (s.located p) w ∧ (noCounter s (s.located p) w → ∀ i, i < w → t.byteAt ((s.located p).plus i) = (leBytes y w)[i]?)

/-- The write of an atomic that its home serves. -/
def State.amoPut (s : State) (wn : WNo) (job : BitVec 12) (p : Place) (dbl : Bool) (op : AmoOp) (v d : Word) (bs : List Byte) : State :=
  let size := if dbl then 8 else 4
  match amoNew op (8 * size) (leNat bs) (v.toNat % 2 ^ (8 * size)) (d.toNat % 2 ^ (8 * size)) with
  | some y => (s.homeWrite wn true job p (leBytes y size)).1
  | none => s

theorem State.homeServes.amoPut (h : s.homeServes job p (if dbl then 8 else 4) bs)
    (hdev : ∀ pa, p = .dev pa → s.ownerCheck (tagOf job) (s.lineOwner pa) = .served) (hf : p.fits (if dbl then 8 else 4))
    (rs : List (TaskId × Place × Nat)) (wn : WNo) : ∃ clk mem,
      State.amoPut { s with mem := { s.mem with reads := rs } } wn job p dbl op v d bs = { s with clk := clk, mem := mem } ∧
      ∀ t : State, t.mem.stores = mem.stores → amoLeaves s t p dbl op v d bs := by
  unfold State.amoPut amoLeaves
  dsimp only
  generalize (if dbl then 8 else 4) = w at h hf ⊢
  cases amoNew op (8 * w) (leNat bs) (v.toNat % 2 ^ (8 * w)) (d.toNat % 2 ^ (8 * w)) with
  | none => exact ⟨_, _, rfl, fun t ht => State.sameBytes_of_stores ht⟩
  | some y =>
    obtain ⟨m, hset, hm, hw⟩ := h.homeSet hdev (rs := rs) (leBytes y w)
    have hlen : (leBytes y w).length = w := length_leBytes ..
    obtain ⟨clk, mem, hwrite, -, hno, hout⟩ := State.homeWrite_done (wn := wn) (atom := true) hset hm h.plain (hlen.symm ▸ hf)
    rw [hlen] at hno hout
    obtain ⟨hfits, hword⟩ := h.plain.located (s := s) hf
    refine ⟨clk, mem, congrArg Prod.fst hwrite, fun t ht => ⟨fun q hq hclear => ?_, fun hc i hi => ?_⟩⟩
    · have bytes := (State.sameBytes_of_stores (s := { s with clk := clk, mem := mem }) ht q).trans (hout q hclear)
      refine bytes.trans ((hw.sameBytesBut (hlen.symm ▸ hfits) q (hlen.symm ▸ hq)).trans ?_)
      exact State.sameBytes_of_stores rfl q
    · have wrote : State.wrote { s with mem := { s.mem with reads := rs } } t (s.located p) (leBytes y w) := (ht.trans (hno hc)).trans hw
      exact wrote.byteAt hword (hlen.symm ▸ hfits) (hlen.symm ▸ hi)

/-- What the sender of an atomic is told where it was performed. -/
def State.atomicAnswer (s : State) (n : Nat) (x : Option Sender) (who : TaskId) (job : BitVec 12) (dst : Dst) (p : Place) (old : Nat) : State :=
  match x with
  | some y => (s.dropMsg n).acked y job (s.seeSender y (s.seenAt p true true))
  | none => s.replyAt n who job dst (.ok (BitVec.ofNat 64 old)) none (s.seeTask who dst (s.seenAt p true true))

/-- What it is told where its home refused it. -/
def State.atomicFails (n : Nat) (x : Option Sender) (who : TaskId) (job : BitVec 12) (dst : Dst) (p : Place) (s : State) (r : Byte) : State :=
  match x with
  | some y => (s.dropMsg n).refused y job r
  | none => s.replyAt n who job dst (.err r) none (s.seeTask who dst (s.seenAt p true true))

section
variable {x : Option Sender} (hdel : s.deliverable n = some (.atomic x who job p dbl op v d dst wn))
include hdel

theorem exec_atomicHome (hp : p.plainHome) (hop : (∀ a, p ≠ .host a) ∨ op.byHost = true) :
    exec (.atomicHome n) s = match s.homeGet job p (if dbl then 8 else 4) with
      | (y, .error e) => s.homeStop y e (State.atomicFails n x who job dst p)
      | (s, .ok bs) =>
        .next (((State.amoPut (if x.isNone then s.sawLast who p (if dbl then 8 else 4) else s) wn job p dbl op v d bs).renewFor who p).atomicAnswer
          n x who job dst p (leNat bs)).fresh := by
  change s.atomicAt n = _
  unfold State.atomicAt
  rw [hdel]
  dsimp only
  cases p with
  | host a =>
    rw [hop.resolve_left fun h => h a rfl]
    rfl
  | bank t off => rfl
  | sram t off => rfl
  | dev pa => rfl
  | _ => exact hp.elim

/-- An atomic that its home serves has put its new value; the copies of its task's core are renewed. -/
theorem atomicHome_served (h : s.homeServes job p (if dbl then 8 else 4) bs) (hop : (∀ a, p ≠ .host a) ∨ op.byHost = true)
    (hdev : ∀ pa, p = .dev pa → s.ownerCheck (tagOf job) (s.lineOwner pa) = .served) (hf : p.fits (if dbl then 8 else 4)) :
    ∃ u : State, exec (.atomicHome n) s = .next (u.atomicAnswer n x who job dst p (leNat bs)).fresh ∧ u.net = s.net ∧
      u.chip.chipNo = s.chip.chipNo ∧ ∀ t : State, t.mem.stores = u.mem.stores → amoLeaves s t p dbl op v d bs := by
  obtain ⟨rs, hrs⟩ : ∃ rs, (if x.isNone then s.sawLast who p (if dbl then 8 else 4) else s) = { s with mem := { s.mem with reads := rs } } := by
    split
    · exact ⟨_, rfl⟩
    · exact ⟨s.mem.reads, rfl⟩
  obtain ⟨clk, mem, hput, hleaves⟩ := h.amoPut (op := op) (v := v) (d := d) hdev hf rs wn
  have hexec := exec_atomicHome hdel h.plain hop
  rw [h.got] at hexec
  dsimp only at hexec
  rw [hrs, hput] at hexec
  have hrenew := State.copied.renewFor { s with clk := clk, mem := mem } who p
  exact ⟨_, hexec, hrenew.net, hrenew.chipNo, fun t ht => hleaves t (ht.trans hrenew.stores)⟩

end

section
variable (hwho : who.chip = s.chip.chipNo) (hdel : s.deliverable n = some (.atomic none who job p dbl op v d dst wn))
include hwho hdel

theorem atomicHome_replies (h : s.homeServes job p (if dbl then 8 else 4) bs) (hop : (∀ a, p ≠ .host a) ∨ op.byHost = true)
    (hdev : ∀ pa, p = .dev pa → s.ownerCheck (tagOf job) (s.lineOwner pa) = .served) (hf : p.fits (if dbl then 8 else 4)) :
    ∃ t see, exec (.atomicHome n) s = .next t ∧ t.net = setAt s.net n (.reply who dst (.ok (BitVec.ofNat 64 (leNat bs))) none see) ∧
      amoLeaves s t p dbl op v d bs := by
  obtain ⟨u, hexec, hnet, hchip, hleaves⟩ := atomicHome_served hdel h hop hdev hf
  rw [State.atomicAnswer, State.replyAt_own (hwho.trans hchip.symm)] at hexec
  exact ⟨_, u.seeTask who dst (u.seenAt p true true), hexec, hnet ▸ rfl, hleaves _ rfl⟩

theorem atomicHome_failed (hp : p.plainHome) (hop : (∀ a, p ≠ .host a) ∨ op.byHost = true) {r : Byte}
    (h : s.homeGet job p (if dbl then 8 else 4) = (s, .error (.fail r))) :
    ∃ t see, exec (.atomicHome n) s = .next t ∧ t.net = setAt s.net n (.reply who dst (.err r) none see) ∧ s.sameBytes t := by
  have hexec := exec_atomicHome hdel hp hop
  rw [h] at hexec
  dsimp only [State.homeStop, State.atomicFails] at hexec
  rw [State.replyAt_own hwho] at hexec
  exact ⟨_, s.seeTask who dst (s.seenAt p true true), hexec, rfl, State.sameBytes_of_mem rfl⟩

/-- An atomic that hosts do not make fails on host memory (R360). -/
theorem atomicHome_host {a : Nat} (hp : p = .host a) (hop : op.byHost = false) :
    ∃ t see, exec (.atomicHome n) s = .next t ∧ t.net = setAt s.net n (.reply who dst (.err Cause.ATOMTYPE) none see) ∧ s.sameBytes t := by
  subst hp
  have hexec : exec (.atomicHome n) s =
      .next (State.replyAt s n who job dst (.err Cause.ATOMTYPE) none (s.seeTask who dst (s.seenAt (.host a) true true))) := by
    change s.atomicAt n = _
    unfold State.atomicAt
    rw [hdel]
    dsimp only
    rw [hop]
    rfl
  rw [State.replyAt_own hwho] at hexec
  exact ⟨_, s.seeTask who dst (s.seenAt (.host a) true true), hexec, rfl, State.sameBytes_of_mem rfl⟩

end

section
variable (hdel : s.deliverable n = some (.atomic (some (.core s.chip.chipNo c e)) who job p dbl op v d dst wn))
include hdel

theorem atomicHome_acked (h : s.homeServes job p (if dbl then 8 else 4) bs) (hop : (∀ a, p ≠ .host a) ∨ op.byHost = true)
    (hdev : ∀ pa, p = .dev pa → s.ownerCheck (tagOf job) (s.lineOwner pa) = .served) (hf : p.fits (if dbl then 8 else 4)) :
    ∃ t see, exec (.atomicHome n) s = .next t ∧ t.net = dropAt s.net n ++ [.ack (.core s.chip.chipNo c e) see] ∧ amoLeaves s t p dbl op v d bs := by
  obtain ⟨u, hexec, hnet, hchip, hleaves⟩ := atomicHome_served hdel h hop hdev hf
  have hacked : u.atomicAnswer n (some (.core s.chip.chipNo c e)) who job dst p (leNat bs) =
      (u.dropMsg n).send (.ack (.core s.chip.chipNo c e) (u.seeSender (.core s.chip.chipNo c e) (u.seenAt p true true))) := by
    rw [State.atomicAnswer, ← hchip]
    exact (u.dropMsg n).acked_own c e job _
  rw [hacked] at hexec
  exact ⟨_, u.seeSender (.core s.chip.chipNo c e) (u.seenAt p true true), hexec, by rw [← hnet]; rfl, hleaves _ rfl⟩

theorem atomicHome_refused (hp : p.plainHome) (hop : (∀ a, p ≠ .host a) ∨ op.byHost = true) {r : Byte}
    (h : s.homeGet job p (if dbl then 8 else 4) = (s, .error (.fail r))) : ∃ t, exec (.atomicHome n) s = .next t ∧
      t.net = dropAt s.net n ++ [.refusal (.core s.chip.chipNo c e) Cause.REFUSED r] ∧ s.sameBytes t := by
  have hexec := exec_atomicHome hdel hp hop
  rw [h] at hexec
  dsimp only [State.homeStop, State.atomicFails] at hexec
  have hrefused : (s.dropMsg n).refused (.core s.chip.chipNo c e) job r =
      (s.dropMsg n).send (.refusal (.core s.chip.chipNo c e) Cause.REFUSED r) := (s.dropMsg n).refused_own c e job r
  rw [hrefused] at hexec
  exact ⟨_, hexec, rfl, State.sameBytes_of_mem rfl⟩

end
end

theorem readHomes_holds : readHomesRule := by
  intro s n size c e who job p dst la ks dbl op v d wn hwho x w seen
  refine ⟨fun hdel => ⟨fun hway => ?read, fun k pa hp => homeRead_peer hdel hp⟩, fun hdel hla => ?landing, fun hop => ?atomic,
    fun hdel ⟨a, hp⟩ hop => atomicHome_host hwho hdel hp hop⟩
  case read =>
    exact atHome_of (fun bs h => homeRead_served hdel h.plain hway hwho h) fun r hp h => homeRead_failed hdel hp hway hwho h
  case landing =>
    exact atHome_of (fun bs h => lndRead_served hdel h.plain hla h) fun r hp h => lndRead_failed hdel hp hla h
  case atomic =>
    intro next _ hbank hsram
    have hf : p.fits w := by
      cases p with
      | bank k off => exact hbank k off rfl
      | sram k off => exact hsram k off rfl
      | _ => trivial
    exact ⟨fun hdel => atHome_of (fun bs h hdev => atomicHome_replies hwho hdel h hop hdev hf) fun r hp h => atomicHome_failed hwho hdel hp hop h,
      fun hdel => atHome_of (fun bs h hdev => atomicHome_acked hdel h hop hdev hf) fun r hp h => atomicHome_refused hdel hp hop h⟩

/-- Settles O40: what reads return, and what their homes do with reads and data atomics. -/
theorem homeReads : Obligations.HomeReads := by
  unfold Obligations.HomeReads
  exact ⟨readValues_holds, readHomes_holds⟩

end Sys2Proof.Machine
end

section
/-! # O52: register writes from the inside (R204–R208, R237, R429, R439, R446, R447, R512)

A TSCTL write goes bank by bank: `State.bankWrite_done` says what a bank's turn does to it, `State.bankWrite_turnsOnly` what it leaves of
the others, and `State.foldl_bankWrite` carries both over the banks of the tile. -/

namespace Sys2Proof.Machine

variable {s t u v : State}

/-! ### `lsplit` (R204) -/

section
variable {c : Nat} {v : Word}

theorem State.lsplitWrite_same (h : 4 < v.toNat % 8 ∨ v.toNat % 8 = (s.core c).split.toNat) : s.lsplitWrite c v = s := by
  rw [State.lsplitWrite, fld_low]
  exact if_pos h

/-- The bytes that change side are cleared. -/
theorem State.sramByte_clear {off lo hi : Nat} (hhi : hi ≤ 2 ^ 16) (hoff : off < 2 ^ 16) {m : Memories}
    (hm : m.sram = Tab.clear s.mem.sram (sramKey c lo) (sramKey c hi)) (k : Nat) :
    State.sramByte { s with mem := m } k off = if k = c ∧ lo ≤ off ∧ off < hi then 0 else s.sramByte k off := by
  rw [State.sramByte, State.sramByte, Tab.get, Tab.get, hm]
  by_cases h : k = c ∧ lo ≤ off ∧ off < hi
  · obtain ⟨rfl, hl, hh⟩ := h
    have hnone : Tab.get? (Tab.clear s.mem.sram (sramKey k lo) (sramKey k hi)) (sramKey k off) = none :=
      Tab.get?_clear (Nat.add_le_add_left hl _) (Nat.add_lt_add_left hh _) _
    rw [if_pos ⟨rfl, hl, hh⟩, hnone]
    rfl
  · rw [if_neg h]
    refine congrArg (Option.getD · 0) (Tab.get?_clear_out ?_ _)
    unfold sramKey
    omega

theorem lsplitWrite_moves (hn : v.toNat % 8 ≤ 4) (hne : v.toNat % 8 ≠ (s.core c).split.toNat) :
    let n := v.toNat % 8
    let o := (s.core c).split.toNat
    yields (.lsplitWrite c v) s fun u => (u.core c).split.toNat = n ∧ u.frames = s.frames ∧
      (∀ off, off < 0x10000 → u.byteAt (.sram c off) =
        if 0x4000 * min n o ≤ off ∧ off < 0x4000 * max n o then some 0 else s.byteAt (.sram c off)) ∧
      (∀ p, (∀ off, p ≠ .sram c off) → u.byteAt p = s.byteAt p) ∧
      (n = 4 → ∀ l, l < 2 ^ 36 → Tab.get? u.mem.l1 (l1Key c l) = none) := by
  intro n o
  obtain ⟨m, hwrite, hsram, hothers, hl1⟩ : ∃ m,
      s.lsplitWrite c v = (State.setCore { s with mem := m } c { s.core c with split := BitVec.ofNat 3 n }).fresh ∧
      m.sram = Tab.clear s.mem.sram (sramKey c (0x4000 * min n o)) (sramKey c (min 0x10000 (0x4000 * max n o))) ∧
      (m.dev, m.host, m.bank, m.arena) = (s.mem.dev, s.mem.host, s.mem.bank, s.mem.arena) ∧
      (n = 4 → m.l1 = Tab.clear s.mem.l1 (l1Key c 0) (l1Key (c + 1) 0)) := by
    rw [State.lsplitWrite, fld_low]
    exact ⟨_, if_neg (by omega), rfl, rfl, fun h => if_pos h⟩
  have ho := (s.core c).split.isLt
  have hbyte (k off : Nat) (hoff : off < 0x10000) := State.sramByte_clear (s := s) (c := c) (off := off) (lo := 0x4000 * min n o)
    (hi := min 0x10000 (0x4000 * max n o)) (Nat.min_le_left ..) hoff hsram k
  have hbytes (q : Place) : (State.setCore { s with mem := m } c { s.core c with split := BitVec.ofNat 3 n }).fresh.byteAt q =
      State.byteAt { s with mem := m } q := State.sameBytes_of_mem (s := { s with mem := m }) rfl q
  refine ⟨_, congrArg Host.Outcome.next hwrite, ?_, rfl, fun off hoff => ?_, fun p hp => ?_, fun h l hl => ?_⟩
  · have hcore : (State.setCore { s with mem := m } c { s.core c with split := BitVec.ofNat 3 n }).fresh.core c =
        { s.core c with split := BitVec.ofNat 3 n } := State.core_setCore ..
    rw [hcore]
    exact BitVec.toNat_ofNat .. ▸ Nat.mod_eq_of_lt (by omega)
  · rw [hbytes]
    simp only [State.byteAt, if_pos hoff]
    rw [hbyte c off hoff]
    by_cases hside : 0x4000 * min n o ≤ off ∧ off < 0x4000 * max n o
    · rw [if_pos hside, if_pos ⟨rfl, hside.1, Nat.lt_min.mpr ⟨hoff, hside.2⟩⟩]
    · rw [if_neg hside, if_neg fun h => hside ⟨h.2.1, Nat.lt_of_lt_of_le h.2.2 (Nat.min_le_right ..)⟩]
  · rw [hbytes]
    simp only [Prod.mk.injEq] at hothers
    obtain ⟨dev, host, bank, arena⟩ := hothers
    cases p with
    | sram k off =>
      simp only [State.byteAt]
      split
      next hoff =>
        have hk : ¬(k = c ∧ 0x4000 * min n o ≤ off ∧ off < min 0x10000 (0x4000 * max n o)) := fun hk => hp off (hk.1 ▸ rfl)
        rw [hbyte k off hoff, if_neg hk]
      next => rfl
    | _ => simp only [State.byteAt, State.bankByte, dev, host, bank, arena]
  · change Tab.get? m.l1 _ = none
    rw [hl1 h]
    refine Tab.get?_clear ?_ ?_ _
    · exact Nat.add_le_add_left (Nat.zero_le l) _
    · unfold l1Key
      omega

end

/-! ### TSCTL (R205, R206, R208) -/

section
variable {tile n k : Nat} {w : Word}

/-- What the turn of a bank may change: its tile, the memory of its bank with the marks and copies of the tile, and free values. -/
structure State.banked (s t : State) (tile : Nat) : Prop where
  frames : t.frames = s.frames
  cores : t.cores = s.cores
  cycle : t.clk.cycle = s.clk.cycle
  waiters : (t.tile tile).waiters = (s.tile tile).waiters
  wlock : (t.tile tile).wlock = (s.tile tile).wlock

theorem State.banked.refl (s : State) (tile : Nat) : s.banked s tile := ⟨rfl, rfl, rfl, rfl, rfl⟩

theorem State.banked.trans (h : s.banked t tile) (h' : t.banked u tile) : s.banked u tile :=
  ⟨h'.frames.trans h.frames, h'.cores.trans h.cores, h'.cycle.trans h.cycle, h'.waiters.trans h.waiters, h'.wlock.trans h.wlock⟩

/-- Which banks are depended on stays. -/
theorem State.banked.busy (h : s.banked t tile) (n : Nat) : t.bankBusy tile n = s.bankBusy tile n := by
  rw [State.bankBusy, State.bankBusy, h.waiters, h.cores]

theorem State.wayLost_only (s : State) (tile : Nat) : ∃ clk way, s.wayLost tile = { s with clk := clk, mem := { s.mem with way := way } } ∧
    clk.cycle = s.clk.cycle := by
  unfold State.wayLost
  split
  · exact ⟨_, _, rfl, rfl⟩
  · exact ⟨s.clk, _, rfl, rfl⟩

/-- A bank's bytes are lost: its mode changes, or it is gated. -/
def Tile.loses (x : Tile) (w : Word) (n : Nat) : Bool := decide (w.getLsbD n ≠ x.mode.getLsbD n) || (w.getLsbD (24 + n) && !x.gate.getLsbD n)

/-- A bank begins its wake. -/
def Tile.wakes (x : Tile) (w : Word) (n : Nat) : Bool := !w.getLsbD (24 + n) && x.gate.getLsbD n

/-- A TSCTL write has a bank do something. -/
def Tile.turns (x : Tile) (w : Word) (n : Nat) : Bool := x.loses w n || x.wakes w n

/-- A tile after the turn of a bank that nothing depends on. -/
def Tile.turned (x : Tile) (w : Word) (n cycle : Nat) : Tile :=
  { x with
    mode := setBit x.mode n (w.getLsbD n), gate := setBit x.gate n (w.getLsbD (24 + n)),
    changing := if x.loses w n then x.changing ++ [n] else x.changing,
    waking := if w.getLsbD (24 + n) && !x.gate.getLsbD n then x.waking.filter (fun w => decide (w.1 ≠ n))
      else if x.wakes w n then x.waking ++ [(n, cycle)] else x.waking }

theorem State.bankWrite_eq (s : State) (tile : Nat) (w : Word) (n : Nat) : s.bankWrite tile w n =
    if !(s.tile tile).turns w n then s
    else if s.bankBusy tile n then s.setTile tile { s.tile tile with err := true }
    else if (s.tile tile).loses w n then ((s.setTile tile ((s.tile tile).turned w n s.clk.cycle)).bankClear tile n).wayLost tile
    else s.setTile tile ((s.tile tile).turned w n s.clk.cycle) := by
  rw [Tile.turns, Tile.loses, Tile.wakes, Bool.not_or, Bool.not_or]
  rfl

theorem State.bankWrite_still (h : (s.tile tile).turns w n = false) : s.bankWrite tile w n = s := by
  rw [State.bankWrite_eq, h]
  rfl

theorem State.bankWrite_busy (h : (s.tile tile).turns w n = true) (hb : s.bankBusy tile n = true) :
    s.bankWrite tile w n = s.setTile tile { s.tile tile with err := true } := by
  rw [State.bankWrite_eq, h, hb]
  rfl

/-- The memory after the turn of a bank. -/
theorem State.bankWrite_turned (ht : (s.tile tile).turns w n = true) (hb : s.bankBusy tile n = false) :
    ∃ clk mem, s.bankWrite tile w n = { s.setTile tile ((s.tile tile).turned w n s.clk.cycle) with clk := clk, mem := mem } ∧
      clk.cycle = s.clk.cycle ∧
      mem.bank = if (s.tile tile).loses w n then Tab.clear s.mem.bank (bankKey tile (0x20000 * n)) (bankKey tile (0x20000 * (n + 1))) else s.mem.bank := by
  have hturn : s.bankWrite tile w n = if (s.tile tile).loses w n then
      ((s.setTile tile ((s.tile tile).turned w n s.clk.cycle)).bankClear tile n).wayLost tile
      else s.setTile tile ((s.tile tile).turned w n s.clk.cycle) := by
    rw [State.bankWrite_eq, ht, hb]
    rfl
  rw [hturn]
  split
  · obtain ⟨clk, way, hway, hcycle⟩ := ((s.setTile tile ((s.tile tile).turned w n s.clk.cycle)).bankClear tile n).wayLost_only tile
    exact ⟨clk, _, hway, hcycle, rfl⟩
  · exact ⟨s.clk, s.mem, rfl, rfl, rfl⟩

/-- Bytes of a bank read zero where its bank is cleared, or where they did. -/
theorem bankByte_cleared {m : Memories} (hm : m.bank = Tab.clear s.mem.bank (bankKey tile (0x20000 * n)) (bankKey tile (0x20000 * (n + 1))))
    {off : Nat} (h : 0x20000 * n ≤ off ∧ off < 0x20000 * (n + 1) ∨ s.bankByte tile off = 0) : State.bankByte { s with mem := m } tile off = 0 := by
  rw [State.bankByte, Tab.get, hm]
  by_cases hin : 0x20000 * n ≤ off ∧ off < 0x20000 * (n + 1)
  · have hnone : Tab.get? (Tab.clear s.mem.bank (bankKey tile (0x20000 * n)) (bankKey tile (0x20000 * (n + 1)))) (bankKey tile off) = none :=
      Tab.get?_clear (Nat.add_le_add_left hin.1 _) (Nat.add_lt_add_left hin.2 _) _
    rw [hnone]
    rfl
  · have hout : Tab.get? (Tab.clear s.mem.bank (bankKey tile (0x20000 * n)) (bankKey tile (0x20000 * (n + 1)))) (bankKey tile off) =
        Tab.get? s.mem.bank (bankKey tile off) := by
      refine Tab.get?_clear_out ?_ _
      unfold bankKey
      omega
    rw [hout]
    exact h.resolve_left hin

/-- What the turn of a bank leaves of the others. -/
structure State.turnsOnly (s t : State) (tile n : Nat) : Prop extends s.banked t tile where
  mode : ∀ k, k < 24 → k ≠ n → (t.tile tile).mode.getLsbD k = (s.tile tile).mode.getLsbD k
  gate : ∀ k, k < 24 → k ≠ n → (t.tile tile).gate.getLsbD k = (s.tile tile).gate.getLsbD k
  err : (s.tile tile).err = true → (t.tile tile).err = true
  changing : ∀ k ∈ (s.tile tile).changing, k ∈ (t.tile tile).changing
  waking : ∀ x ∈ (s.tile tile).waking, x.1 ≠ n → x ∈ (t.tile tile).waking
  zero : ∀ off, s.bankByte tile off = 0 → t.bankByte tile off = 0

theorem State.bankWrite_turnsOnly (s : State) (tile : Nat) (w : Word) (n : Nat) : s.turnsOnly (s.bankWrite tile w n) tile n := by
  cases ht : (s.tile tile).turns w n with
  | false =>
    rw [State.bankWrite_still ht]
    exact ⟨.refl s tile, fun _ _ _ => rfl, fun _ _ _ => rfl, id, fun _ => id, fun _ h _ => h, fun _ => id⟩
  | true =>
  cases hb : s.bankBusy tile n with
  | true =>
    rw [State.bankWrite_busy ht hb]
    have htile := s.tile_setTile tile { s.tile tile with err := true }
    refine ⟨⟨rfl, rfl, rfl, ?_, ?_⟩, fun _ _ _ => ?_, fun _ _ _ => ?_, fun _ => ?_, fun _ h => ?_, fun _ h _ => ?_, fun _ => id⟩ <;> rw [htile]
    · exact h
    · exact h
  | false =>
    obtain ⟨clk, mem, hwrite, hcycle, hbank⟩ := State.bankWrite_turned ht hb
    have htile : (s.bankWrite tile w n).tile tile = (s.tile tile).turned w n s.clk.cycle := by
      rw [hwrite]
      exact s.tile_setTile tile _
    refine ⟨⟨?_, ?_, ?_, ?_, ?_⟩, fun k hk hne => ?_, fun k hk hne => ?_, fun h => ?_, fun k h => ?_, fun x h hne => ?_, fun off h => ?_⟩
    · rw [hwrite]
      rfl
    · rw [hwrite]
      rfl
    · rw [hwrite]
      exact hcycle
    · rw [htile]
      rfl
    · rw [htile]
      rfl
    · rw [htile]
      exact (getLsbD_setBit _ _ _ _ hk).trans (if_neg hne)
    · rw [htile]
      exact (getLsbD_setBit _ _ _ _ hk).trans (if_neg hne)
    · rw [htile]
      exact h
    · rw [htile, Tile.turned]
      dsimp only
      split
      · exact List.mem_append_left _ h
      · exact h
    · rw [htile, Tile.turned]
      dsimp only
      split
      · exact List.mem_filter.mpr ⟨h, decide_eq_true hne⟩
      · split
        · exact List.mem_append_left _ h
        · exact h
    · rw [hwrite]
      split at hbank
      · exact bankByte_cleared hbank (.inr h)
      · rw [State.bankByte, hbank]
        exact h

/-- A bank after its turn, by what it was and whether anything depended on it. -/
structure State.bankDone (t : State) (tile : Nat) (w : Word) (n : Nat) (mode gate busy : Bool) (cycle : Nat) : Prop where
  held : busy = true → (t.tile tile).mode.getLsbD n = mode ∧ (t.tile tile).gate.getLsbD n = gate ∧
    (mode ≠ w.getLsbD n ∨ gate ≠ w.getLsbD (24 + n) → (t.tile tile).err = true)
  set : busy = false → (t.tile tile).mode.getLsbD n = w.getLsbD n ∧ (t.tile tile).gate.getLsbD n = w.getLsbD (24 + n)
  lost : busy = false → mode ≠ w.getLsbD n ∨ (gate = false ∧ w.getLsbD (24 + n) = true) → n ∈ (t.tile tile).changing ∧
    ∀ off, 0x20000 * n ≤ off → off < 0x20000 * (n + 1) → t.bankByte tile off = 0
  wakes : busy = false → gate = true → w.getLsbD (24 + n) = false → (n, cycle) ∈ (t.tile tile).waking

/-- The turn of another bank leaves it so. -/
theorem State.bankDone.keeps {mode gate busy : Bool} {cycle : Nat} (h : s.bankDone tile w n mode gate busy cycle) (ht : s.turnsOnly t tile k)
    (hn : n < 24) (hne : n ≠ k) : t.bankDone tile w n mode gate busy cycle where
  held hb := by
    obtain ⟨hm, hg, he⟩ := h.held hb
    exact ⟨(ht.mode n hn hne).trans hm, (ht.gate n hn hne).trans hg, fun hd => ht.err (he hd)⟩
  set hb := by
    obtain ⟨hm, hg⟩ := h.set hb
    exact ⟨(ht.mode n hn hne).trans hm, (ht.gate n hn hne).trans hg⟩
  lost hb hl := by
    obtain ⟨hc, hz⟩ := h.lost hb hl
    exact ⟨ht.changing n hc, fun off hlo hhi => ht.zero off (hz off hlo hhi)⟩
  wakes hb hg hw := ht.waking _ (h.wakes hb hg hw) hne

theorem Tile.loses_iff (x : Tile) (w : Word) (n : Nat) : x.loses w n = true ↔
    x.mode.getLsbD n ≠ w.getLsbD n ∨ (x.gate.getLsbD n = false ∧ w.getLsbD (24 + n) = true) := by
  rw [Tile.loses, Bool.or_eq_true, Bool.and_eq_true, decide_eq_true_eq, Bool.not_eq_true', ne_comm, and_comm]

/-- A bank that does nothing is as the write has it. -/
theorem Tile.turns_false {x : Tile} (h : x.turns w n = false) : x.mode.getLsbD n = w.getLsbD n ∧ x.gate.getLsbD n = w.getLsbD (24 + n) := by
  obtain ⟨hl, hw⟩ := Bool.or_eq_false_iff.mp h
  obtain ⟨hm, hg⟩ := not_or.mp (mt (x.loses_iff w n).mpr (by rw [hl]; exact Bool.false_ne_true))
  refine ⟨not_not.mp hm, ?_⟩
  rw [Tile.wakes] at hw
  cases hx : x.gate.getLsbD n <;> cases hv : w.getLsbD (24 + n)
  · rfl
  · exact absurd ⟨hx, hv⟩ hg
  · rw [hx, hv] at hw
    cases hw
  · rfl

/-- The turn of a bank. -/
theorem State.bankWrite_done (s : State) (tile : Nat) (w : Word) (hn : n < 24) : (s.bankWrite tile w n).bankDone tile w n
    ((s.tile tile).mode.getLsbD n) ((s.tile tile).gate.getLsbD n) (s.bankBusy tile n) s.clk.cycle := by
  cases ht : (s.tile tile).turns w n with
  | false =>
    obtain ⟨hm, hg⟩ := Tile.turns_false ht
    rw [State.bankWrite_still ht]
    refine ⟨fun _ => ⟨rfl, rfl, fun h => ?_⟩, fun _ => ⟨hm, hg⟩, fun _ h => ?_, fun _ hgate hw => ?_⟩
    · exact (h.elim (absurd hm) (absurd hg))
    · rcases h with h | ⟨h, hw⟩
      · exact absurd hm h
      · rw [h, hw] at hg
        cases hg
    · rw [hgate, hw] at hg
      cases hg
  | true =>
  cases hb : s.bankBusy tile n with
  | true =>
    rw [State.bankWrite_busy ht hb]
    have htile := s.tile_setTile tile { s.tile tile with err := true }
    refine ⟨fun _ => ?_, fun h => ?_, fun h => ?_, fun h => ?_⟩
    · rw [htile]
      exact ⟨rfl, rfl, fun _ => rfl⟩
    all_goals cases h
  | false =>
    obtain ⟨clk, mem, hwrite, hcycle, hbank⟩ := State.bankWrite_turned ht hb
    have htile : (s.bankWrite tile w n).tile tile = (s.tile tile).turned w n s.clk.cycle := by
      rw [hwrite]
      exact s.tile_setTile tile _
    refine ⟨fun h => ?_, fun _ => ?_, fun _ h => ?_, fun _ hgate hw => ?_⟩
    · cases h
    · rw [htile]
      exact ⟨(getLsbD_setBit _ _ _ _ hn).trans (if_pos rfl), (getLsbD_setBit _ _ _ _ hn).trans (if_pos rfl)⟩
    · have hl := ((s.tile tile).loses_iff w n).mpr h
      refine ⟨?_, fun off hlo hhi => ?_⟩
      · rw [htile, Tile.turned]
        dsimp only
        rw [if_pos hl]
        exact List.mem_append_right _ (List.mem_singleton_self n)
      · rw [if_pos hl] at hbank
        rw [hwrite]
        exact bankByte_cleared hbank (.inl ⟨hlo, hhi⟩)
    · rw [htile, Tile.turned, Tile.wakes, hw, hgate]
      exact List.mem_append_right _ (List.mem_singleton_self (n, s.clk.cycle))

/-- The banks of a tile take their turns one after the other. -/
theorem State.foldl_bankWrite (s : State) (tile : Nat) (w : Word) {m : Nat} (hm : m ≤ 24) :
    let t := (List.range m).foldl (fun s n => s.bankWrite tile w n) s
    s.banked t tile ∧
    (∀ n, n < m → t.bankDone tile w n ((s.tile tile).mode.getLsbD n) ((s.tile tile).gate.getLsbD n) (s.bankBusy tile n) s.clk.cycle) ∧
    ∀ n, m ≤ n → n < 24 → (t.tile tile).mode.getLsbD n = (s.tile tile).mode.getLsbD n ∧
      (t.tile tile).gate.getLsbD n = (s.tile tile).gate.getLsbD n := by
  induction m with
  | zero => exact ⟨.refl s tile, fun n hn => absurd hn (Nat.not_lt_zero n), fun _ _ _ => ⟨rfl, rfl⟩⟩
  | succ m ih =>
    obtain ⟨hbanked, hdone, hrest⟩ := ih (Nat.le_of_succ_le hm)
    rw [List.range_succ, List.foldl_append, List.foldl_cons, List.foldl_nil]
    generalize (List.range m).foldl (fun s n => s.bankWrite tile w n) s = t at *
    have hturn := t.bankWrite_turnsOnly tile w m
    refine ⟨hbanked.trans hturn.tobanked, fun n hn => ?_, fun n hn h24 => ?_⟩
    · by_cases hnm : n = m
      · subst hnm
        obtain ⟨hmode, hgate⟩ := hrest n (Nat.le_refl n) hm
        have hthis := t.bankWrite_done tile w (n := n) hm
        rwa [hmode, hgate, hbanked.busy, hbanked.cycle] at hthis
      · exact (hdone n (by omega)).keeps hturn (by omega) hnm
    · obtain ⟨hmode, hgate⟩ := hrest n (by omega) h24
      exact ⟨(hturn.mode n h24 (by omega)).trans hmode, (hturn.gate n h24 (by omega)).trans hgate⟩

theorem tsctl_written (tile : Nat) (w : Word) :
    let y := s.tile tile
    yields (.tsctlWrite tile w) s fun u => (u.tile tile).wlock = w.getLsbD 61 ∧ u.frames = s.frames ∧
      (∀ n, n < 24 →
        let change := y.mode.getLsbD n ≠ w.getLsbD n
        let gating := y.gate.getLsbD n = false ∧ w.getLsbD (24 + n) = true
        (s.bankBusy tile n = true → (u.tile tile).mode.getLsbD n = y.mode.getLsbD n ∧ (u.tile tile).gate.getLsbD n = y.gate.getLsbD n ∧
          (change ∨ y.gate.getLsbD n ≠ w.getLsbD (24 + n) → (u.tile tile).err = true)) ∧
        (s.bankBusy tile n = false → (u.tile tile).mode.getLsbD n = w.getLsbD n ∧ (u.tile tile).gate.getLsbD n = w.getLsbD (24 + n) ∧
          (change ∨ gating → n ∈ (u.tile tile).changing ∧
            ∀ off, 0x20000 * n ≤ off → off < 0x20000 * (n + 1) → u.byteAt (.bank tile off) = some 0) ∧
          (y.gate.getLsbD n = true → w.getLsbD (24 + n) = false → (n, s.clk.cycle) ∈ (u.tile tile).waking))) := by
  intro y
  obtain ⟨v, hv⟩ : ∃ v, s.setTile tile { y with wlock := w.getLsbD 61, err := y.err && !w.getLsbD 62 } = v := ⟨_, rfl⟩
  have htile : v.tile tile = { y with wlock := w.getLsbD 61, err := y.err && !w.getLsbD 62 } := hv ▸ s.tile_setTile tile _
  have hexec : exec (.tsctlWrite tile w) s = .next ((List.range 24).foldl (fun s n => s.bankWrite tile w n) v) := hv ▸ rfl
  obtain ⟨hbanked, hdone, -⟩ := v.foldl_bankWrite tile w (Nat.le_refl 24)
  have hbusy (n : Nat) : v.bankBusy tile n = s.bankBusy tile n := by
    rw [State.bankBusy, State.bankBusy, htile, ← hv]
    rfl
  have hcycle : v.clk.cycle = s.clk.cycle := hv ▸ rfl
  refine ⟨_, hexec, hbanked.wlock.trans (by rw [htile]), hbanked.frames.trans (hv ▸ rfl), fun n hn => ?_⟩
  have h := hdone n hn
  rw [hbusy, htile, hcycle] at h
  refine ⟨h.held, fun hb => ⟨(h.set hb).1, (h.set hb).2, fun hl => ⟨(h.lost hb hl).1, fun off hlo hhi => ?_⟩, h.wakes hb⟩⟩
  have hlt : off < 0x300000 := by omega
  exact (if_pos hlt).trans (congrArg some ((h.lost hb hl).2 off hlo hhi))

end

/-! ### Register rows (R207, R429, R437, R439) -/

section
variable {tile j r : Nat} {w : Word}

/-- TROOT's entries (R439). -/
theorem State.rowWrite_troot (hj : j < 4096) : s.rowWrite tile (0xF4000000 + 8 * j) w =
    { s with chip := { s.chip with troot := Tab.put s.chip.troot j (w &&& 0x800FFFFFFFFFC000) } } := by
  have hindex : (0xF4000000 + 8 * j - 0xF4000000) / 8 = j := by omega
  rw [State.rowWrite, if_neg (by omega), if_neg (by omega), if_neg (by omega), if_pos (by omega), hindex]
  rfl

/-- DEADTRAP lies in the status row of a core (R163). -/
theorem State.rowWrite_deadtrap (hr : r < 32) : s.rowWrite tile (0xF0000000 + 0x100 * r + 0x18) w =
    s.setCore (tile * 32 + r) { s.core (tile * 32 + r) with deadtrap := w.getLsbD 0 } := by
  have hcore : (0xF0000000 + 0x100 * r + 0x18 - 0xF0000000) / 0x100 = r := by omega
  have hreg : (0xF0000000 + 0x100 * r + 0x18) % 0x100 / 8 = 3 := by omega
  rw [State.rowWrite, if_pos (by omega), hcore, hreg]
  rfl

/-- A row that the map leaves out takes no write. -/
theorem State.rowWrite_none (hj : j < 4096) : s.rowWrite tile (0xF9000000 + 8 * j) w = s := by
  rw [State.rowWrite, if_neg (by omega), if_neg (by omega), if_neg (by omega), if_neg (by omega), if_neg (by omega), if_neg (by omega),
    if_neg (by omega), if_neg (by omega), if_neg (by omega)]

end

/-! ### The pager's notification (R447) -/

/-- The header of a notification. -/
theorem pagerHdr_toNat (chip : BitVec 11) {d g : Nat} (hd : d < 2) (hg : g ≤ 175) (cls : BitVec 4) :
    (coreHdr chip (svcOfTile (tileKey d g)) + at64 cls.toNat 35 + at64 3 32).toNat =
      chip.toNat * 2 ^ 53 + d * 2 ^ 52 + g * 2 ^ 44 + 31 * 2 ^ 39 + cls.toNat * 2 ^ 35 + 3 * 2 ^ 32 := by
  have hchip := chip.isLt
  have hcls := cls.isLt
  have hdie : dieOfTile (tileOfCore (svcOfTile (tileKey d g))) % 2 = d := by
    unfold dieOfTile tileOfCore svcOfTile tileKey
    omega
  have htile : tileNo (tileOfCore (svcOfTile (tileKey d g))) = g := by
    unfold tileNo tileOfCore svcOfTile tileKey
    omega
  have hcore : coreNo (svcOfTile (tileKey d g)) = 31 := by
    unfold coreNo svcOfTile
    omega
  rw [coreHdr, hdie, htile, hcore]
  simp only [at64, ← BitVec.ofNat_add, BitVec.toNat_ofNat]
  omega

theorem pagerNotify_sends {d : Nat} (hen : (s.die d).pgEn = true) (hnotif : (s.die d).notif = false)
    (hany : (s.die d).fb ≠ [] ∨ (s.die d).dropped = true) (hd : d < 2) (hg : (s.die d).pgTile.toNat ≤ 175) :
    yields (.pagerNotify d) s fun u => (u.die d).notif = true ∧ (s.sameBytes u ∧ u.frames = s.frames) ∧ ∃ e, u.net = s.net ++ [.env e] ∧
      e.core = tileKey d (s.die d).pgTile.toNat * 32 + 31 ∧ e.chip = s.chip.chipNo ∧ e.cls = (s.die d).pgClass ∧ e.origin = 3 ∧ e.job = 0 ∧
      e.pl = [(s.die d).pfstat, 0, 0, 0, 0, 0] := by
  have hcond : ((s.die d).pgEn && !(s.die d).notif && (!(s.die d).fb.isEmpty || (s.die d).dropped)) = true := by
    rw [hen, hnotif]
    rcases hany with h | h
    · rw [List.isEmpty_eq_false_iff.mpr h]
      rfl
    · rw [h, Bool.or_true]
      rfl
  have hchip := s.chip.chipNo.isLt
  have hcls := (s.die d).pgClass.isLt
  have hhdr := pagerHdr_toNat s.chip.chipNo hd hg (s.die d).pgClass
  refine ⟨_, congrArg Host.Outcome.next (if_pos hcond), ?_, ⟨State.sameBytes_of_mem rfl, rfl⟩, _, rfl, ?_, ?_, ?_, ?_, rfl, rfl⟩
  · exact congrArg Die.notif (s.die_setDie d _)
  · rw [Env.core, fld_eq, fld_eq, fld_eq, hhdr]
    unfold tileKey
    omega
  · refine BitVec.eq_of_toNat_eq ?_
    rw [Env.chip, BitVec.extractLsb'_toNat, hhdr, Nat.shiftRight_eq_div_pow]
    omega
  · refine BitVec.eq_of_toNat_eq ?_
    rw [Env.cls, BitVec.extractLsb'_toNat, hhdr, Nat.shiftRight_eq_div_pow]
    omega
  · rw [Env.origin, fld_eq, hhdr]
    omega

/-! ### The statement -/

theorem fcsr_written (w : Word) : yields (.fcsrWrite w) s fun u =>
    u.me.fcsr.toNat = 8 * (w.toNat / 8 % 2) + (if w.toNat % 8 ≤ 4 then w.toNat % 8 else s.me.fcsr.toNat % 8) ∧
    (∀ r, u.me.genReg r = s.me.genReg r) ∧ s.onlyMe u := by
  refine ⟨s.updMe fun f => { f with fcsr := fcsrWritten f.fcsr w }, rfl, ?_, fun r => ?_, State.updMe_eq ..⟩
  · rw [State.me_updMe]
    dsimp only
    rw [fcsrWritten_eq, BitVec.toNat_ofNat, Nat.mod_eq_of_lt]
    split <;> omega
  · rw [State.me_updMe]
    rfl

theorem pwrctl_written (w : Word) : yields (.pwrctlWrite w) s fun u =>
    u.pwr.budget.toNat = max 1000 (min 3600 (w.toNat % 65536)) ∧ s.sameBytes u ∧ u.frames = s.frames := by
  refine ⟨_, rfl, ?_, State.sameBytes_of_mem rfl, rfl⟩
  rw [Power.write, fld_low]
  exact (BitVec.toNat_ofNat ..).trans (Nat.mod_eq_of_lt (by omega))

/-- Settles O52: each write of a register sets its fields, and memory changes only where a boundary or a bank moves. -/
theorem registerEvents : Obligations.RegisterEvents := by
  unfold Obligations.RegisterEvents
  intro s c t b d j r v x y z n o same
  have touched {u : State} (hmem : u.mem = s.mem) (hframes : u.frames = s.frames) : same u := ⟨State.sameBytes_of_mem hmem, hframes⟩
  refine ⟨fun h => congrArg Host.Outcome.next (State.lsplitWrite_same h), lsplitWrite_moves, ?vgrp, fcsr_written v, tsctl_written t v, rfl,
    fun since hfind hcycle => ?wake, fun hj => ?troot, ?tvec, fun hj => congrArg Host.Outcome.next (State.rowWrite_none hj), fun hr => ?deadtrap, ?fbclr,
    pagerNotify_sends, pwrctl_written v⟩
  case vgrp => exact ⟨_, rfl, congrArg Tile.vgrp (s.tile_setTile t _), touched rfl rfl⟩
  case wake =>
    change execBankWakeDone t b s = _
    rw [execBankWakeDone, hfind]
    exact congrArg Host.Outcome.next (if_pos hcycle)
  case troot =>
    refine ⟨_, congrArg Host.Outcome.next (State.rowWrite_troot hj), Tab.get_put_self .., fun i hi => Tab.get_put_ne _ _ _ hi, touched rfl rfl⟩
  case tvec => exact ⟨_, rfl, congrArg Tile.tvec (s.tile_setTile t _), touched rfl rfl⟩
  case deadtrap =>
    exact ⟨_, congrArg Host.Outcome.next (State.rowWrite_deadtrap hr), congrArg Core.deadtrap (s.core_setCore _ _), touched rfl rfl⟩
  case fbclr => exact ⟨_, rfl, congrArg Die.fb (s.die_setDie d _), congrArg Die.notif (s.die_setDie d _), touched rfl rfl⟩

end Sys2Proof.Machine
end
